-- ==== Sys2Proof/Word.lean ====
section
/-! DEFINITION. The word types of the SK6 and the shape of its sparse tables (R4, R8). -/

namespace Sys2Proof

/-- One byte (R4). -/
abbrev Byte := BitVec 8
/-- A lane register's 32 bits (R113), and an instruction word (R53). -/
abbrev W32 := BitVec 32
/-- A uniform register's 64 bits (R113). -/
abbrev W64 := BitVec 64
/-- A V field of an instruction word: V0..V119, the queue heads 120..123, V127 (R61). -/
abbrev VReg := BitVec 7
/-- An S field: S0..S63 (R61). -/
abbrev SReg := BitVec 6
/-- A predicate field: P0..P7 (R61). -/
abbrev PReg := BitVec 3
/-- A uniform-flag field: F0..F7 (R61). -/
abbrev FReg := BitVec 3

/-- A table: key and value pairs, keys strictly rising. What an unlisted key reads as is said by the reader. -/
abbrev Tab (α : Type) := List (Nat × α)

end Sys2Proof
end

