-- ==== Sys2Proof/Config.lean ====
section
/-! DEFINITION. What the spec leaves to the part or to the outside world: free values, as opaque constants that nothing in
Lean can evaluate. A statement about a free value holds for every value of it. -/

namespace Sys2Proof.Config

/-- The check bits of a 64-bit SRAM word (R396 names the code's width and strength and not its matrix). Log entry 10. -/
opaque secded72 : W64 → BitVec 8
/-- The check bits of a 32-bit SRAM word (R396). Log entry 10. -/
opaque secded39 : W32 → BitVec 7
/-- What a decoder of SEC-DED makes of a stored word and check bits (R396): the data where they belong together or one bit of them errs, that bit corrected;
else the data as stored, uncorrectable. -/
def secdedRead {w c : Nat} (code : BitVec w → BitVec c) (d : BitVec w) (x : BitVec c) : BitVec w × Bool :=
  if code d = x then (d, false)
  else match (List.range w).find? (fun i => decide (code (d ^^^ BitVec.twoPow w i) = x)) with
    | some i => (d ^^^ BitVec.twoPow w i, false)
    | none => (d, (List.range c).all (fun i => decide (code d ≠ x ^^^ BitVec.twoPow c i)))
/-- The decoder of 64-bit words. -/
def secdedRead72 : W64 → BitVec 8 → W64 × Bool := secdedRead secded72
/-- The decoder of 32-bit words. -/
def secdedRead39 : W32 → BitVec 7 → W32 × Bool := secdedRead secded39
/-- Values the spec gives no rule for, one for each count of Dev.fresh. Log entry 4. -/
opaque freeWord : Nat → W64
/-- The symbol-level decoder's answer for a codeword with more than t errors (R279). Log entry 10. -/
opaque rsBeyond : List Nat → Option (List Nat)
/-- Where a location of an array of R402 stands (R402 names offsets within an array and not what is kept there): for the vector register
file (array 0) the slot, register and lane; for L1 and L2 data (1, 6) a physical address; for the scratchpad (2) and the private store (3) a task and
an offset. Log entry 15. -/
opaque diagPlace : Nat → Nat → Nat → Nat × Nat × Nat
/-- The key of a link direction (R388): HKDF-SHA-384 of a key slot's content under the link secret, for a link index and a direction. Log entry 10. -/
opaque hkdf : BitVec 256 → BitVec 384 → Nat → Bool → BitVec 256
/-- The authentication tag of AES-256-GCM over some bytes (R294), under a key and an initialisation vector. Log entry 10. -/
opaque gcmTag : BitVec 256 → BitVec 96 → List Byte → BitVec 128
/-- The byte at a place of the key stream of AES-256-GCM, which a payload byte is added to (R304). Log entry 10. -/
opaque keyStream : BitVec 256 → BitVec 96 → Nat → Byte
/-- The frames of a die that the Talmet controller reserves for its context region (R339, R414). Log entry 16. -/
opaque regionFrames : Nat → List Nat
/-- The world that an IDE selective stream of the host port is bound to (R409). Log entry 27. -/
opaque streamWorld : Nat → Nat
/-- The physical pair of a die that fails its self-test in bring-up, if one of 0 to 4 does, for a count of free values (R414). Log entry 25. -/
opaque selfTest : Nat → Nat → Nat
/-- Bytes of a die's context region (R339 gives it no size). Log entry 16. -/
opaque regionBytes : Nat
/-- The binding surplus while no unit is in service (R357 takes the minimum of nothing). Log entry 21. -/
opaque emptyMin : Int
/-- The drift that a unit's consumed BTI and HCI lead to expect, in parts per million (R352 gives no formula). Log entry 21. -/
opaque expectedDrift : Nat → Nat → Int
/-- One past the last line of a world in the memory attached at a CXL port (R389: the spec gives these frames no world table). Log entry 23. -/
opaque cxlLines : Nat → Nat → Nat
/-- The digest of the Talmet controller's firmware (R393). Log entry 10. -/
opaque firmware : BitVec 384
/-- Whether an HBM row has a spare row free for soft repair (R397). Log entry 26. -/
opaque spareRow : Nat → Bool
/-- Whether the hard repair of a row fails (R398). Log entry 26. -/
opaque repairFails : Nat → Bool
/-- The fabric mode, true for gang, and the peer id that bring-up sets (R293, R414). Log entry 25. -/
opaque fabric : Bool × Nat
/-- A register of a function's configuration space that nothing has written (R410 serves them and does not list them). Log entry 27. -/
opaque cfgSpace : Nat → Nat → BitVec 32
/-- Whether a stage of bring-up succeeds (R414, R415), one for each count of Dev.fresh. Log entry 3. -/
opaque stageOk : Nat → Bool
/-- A digest of words (R394, R380). -/
opaque digest : List W64 → BitVec 384
/-- A signature over a digest by one of the device's two keys (R394): false ECDSA, true ML-DSA. -/
opaque sign : Bool → BitVec 384 → BitVec 384
/-- Whether the stack a frame migrates to has a free frame in its reserve (R324 gives the reserve no size), one for each count of Dev.fresh. Log entry 94. -/
opaque reserveFree : Nat → Bool
/-- Which way of sharing out a slice's 12,288 frames among its sets the part has (R20, R157 name the frames and neither number). Log entry 88. -/
opaque l2Shape : Nat
/-- Frames of a set of an L2 slice, one of the divisors of 12,288. Log entry 88. -/
def l2Ways : Nat := 2 ^ (l2Shape % 13) * 3 ^ (l2Shape / 13 % 2)
/-- Sets of an L2 slice: with the ways they make its 1.5 MiB (R20). -/
def l2Sets : Nat := 12288 / l2Ways
/-- The current in mA that a workgroup of a resource fraction would add to its cluster (R323 gives no figure). Log entry 92. -/
opaque addedCurrent : Nat → Nat
/-- The signature of a store or load of a redundant pair (R405). -/
opaque pairSignature : List Nat → W32

end Sys2Proof.Config
end

