-- ==== Sys2Proof/Syntax.lean ====
section
/-! DEFINITION. The steps of the SK6: every row of the opcode table is a constructor of Instr. The first 259 are
the words of the instruction set (R53 to R74); the others are the device's own steps and the acts of the outside
world, which have no encoding. The same words with a different register operand (TLBI, MBOXQ, QCFG, MBIND, WLATCH,
BOOST) have one constructor for each row of the table. Order is no
part of the meaning: the words a decoder builds stand first, because Lean builds compiled values of the first 245
constructors only. -/

namespace Sys2Proof

/-- The four outstanding counters of a group slot (R169). -/
inductive Ctr where
  | cl | cs | cc | ct
  deriving DecidableEq, Repr, Inhabited

/-- The kind of a memory access, as trap records code it (R328): 0 read, 1 write, 2 read-modify-write, 3 fetch. -/
inductive AccKind where
  | read | write | rmw | fetch
  deriving DecidableEq, Repr, Inhabited

/-- A remote access as it reaches its owner (R281, R295): the requesting peer, the world of its session, the window,
the virtual address, the requester's tag, the data of a write or an atomic, and the atomic's operation (FN, sub). -/
structure RemoteMsg where
  peer : Nat
  world : Nat
  win : Nat
  va : Nat
  kind : AccKind
  tag : Nat
  len : Nat
  op : Nat
  scope : Nat
  data : List (BitVec 8)
  deriving DecidableEq, Repr

/-- A flit of the Abjan fabric (R294): header fields, payload area, authentication tag and CRC. -/
structure Flit where
  vc : Nat
  world : Nat
  ks : Bool
  cmp : Bool
  src : Nat
  dst : Nat
  ack : Nat
  seq : Nat
  payload : List (BitVec 8)
  gcmTag : BitVec 128
  crc : BitVec 64
  zero : BitVec 2 := 0
  deriving DecidableEq, Repr

/-- What the monitors report of one unit for one 1 ms sample (R350): the unit's record number, the fraction of the
sample it was powered and its mean current over the class constant (both in 2^-16), the supply in
mV, of a core or an array as its difference from the supply of its cluster's level (R369), the temperature in degrees Celsius, the clock in MHz of a
slice or a link macro, and the shift of its stressed oscillator in parts per million. -/
structure UnitSample where
  unit : Nat
  powered : Nat
  current : Nat
  milliVolt : Int
  celsius : Int
  megaHertz : Nat
  drift : Int
  deriving DecidableEq, Repr

/-- What erred (R396, R397): a row of an SRAM, a row of HBM, a lane of a port, or a word of an instruction cache. -/
inductive ErrKind where
  | sram | hbm
  | lane (n : Nat)
  | icache (core : Nat)
  deriving DecidableEq, Repr, Inhabited

/-- Where a storage error is met (R396, R399, R401): the class and physical index of the unit (R349), what erred, the physical address,
the core and slot for a register or other SRAM of a group, and whether a movement of the line met it. -/
structure ErrSite where
  cls : Nat
  unit : Nat
  kind : ErrKind
  pa : Nat
  group : Option (Nat × Nat)
  moved : Bool
  deriving DecidableEq, Repr

/-- A host or CXL agent's request to device memory (R409, R410): the IDE selective stream it comes in, if in one, whether it is to BAR0 of PF 0 (R412), the
physical address or the offset in the BAR, the bytes of a write, or the length of a read, whether the host keeps a copy of the lines it reads
(CXL.mem, R177), and whether it is the host's cores' own access to host memory, on lines held exclusive under CXL.cache (R411). -/
structure HostReq where
  stream : Option Nat
  pa : Nat
  len : Nat
  wr : Option (List (BitVec 8))
  keep : Bool := false
  own : Bool := false
  bar0 : Bool := false
  deriving DecidableEq, Repr

/-- What a cluster's meter says of a period in microjoules: the cluster's energy, and what its engines used for which task (R378). -/
structure EnergyUse where
  total : Nat
  engines : List (Nat × Nat)
  deriving DecidableEq, Repr

/-- The AtomicOps the host port completes (R409). -/
inductive HostAtomic where
  | fetchAdd | swap | cas
  deriving DecidableEq, Repr

/-- A submission to the command slot (R412): the submitter's world, word 0 as op and seq, and words 1 to 7. -/
structure Cmd where
  world : Nat
  op : Nat
  seq : Nat
  w1 : BitVec 64
  w2 : BitVec 64
  w3 : BitVec 64
  w4 : BitVec 64
  w5 : BitVec 64
  w6 : BitVec 64
  w7 : BitVec 64
  zero : BitVec 8 := 0
  deriving DecidableEq, Repr, Inhabited

/-- One step of the device. -/
inductive Instr where
  /-- MOD (R63). An arithmetic-kind modifier word supplies guard, rounding, saturate, clamp, source modifiers and scale to the next V word. -/
  | modArithmetic (g : BitVec 3) (e : BitVec 1) (r : BitVec 2) (t : BitVec 1) (l : BitVec 2) (n : BitVec 1) (m : BitVec 1) (a : BitVec 1) (b : BitVec 1) (k : BitVec 5)
  /-- MOD (R64). A memory-kind modifier word supplies guard, scope, cache policy and offset to the next M word. -/
  | modMemory (g : BitVec 3) (e : BitVec 1) (s : BitVec 3) (h : BitVec 2) (o : BitVec 15)
  /-- JMPI (R98). Jumps to the address in an S register. -/
  | jmpi (a : SReg)
  /-- CALLI (R98). Calls the address in an S register and links in S63. -/
  | calli (a : SReg)
  /-- TRAP (R337). Raises cause 0x11 with a 12-bit code after its chained words. -/
  | trap (t : BitVec 12)
  /-- ELECT (R100). Writes the lowest active lane number to an S register. -/
  | elect (d : SReg)
  /-- PROBE (R345). Reports long waits and found cycles of the workgroup. -/
  | probe (d : SReg)
  /-- BRF (R96). Branches on a uniform flag under a sense bit. -/
  | brf (s : BitVec 1) (f : FReg) (o : BitVec 21)
  /-- BRA (R96). Always-taken branch, BRF F0 with sense 0. -/
  | bra (o : BitVec 21)
  /-- BRV (R88). Divergent branch on a per-lane predicate that may divide the split. -/
  | brv (s : BitVec 1) (p : PReg) (o : BitVec 21)
  /-- CALL (R98). Calls a packet-relative target and links in S63. -/
  | call (o : BitVec 21)
  /-- LOOP (R99). Decrements an S register and branches while it is non-zero. -/
  | loop (d : SReg) (i : BitVec 13)
  /-- WAITC (R175). Parks the split until CL, CS, CC and CT are at or below their fields. -/
  | waitc (l : BitVec 6) (s : BitVec 6) (p : BitVec 6) (t : BitVec 6)
  /-- SADD (R118). 64-bit scalar add. -/
  | sadd (d : SReg) (a : SReg) (b : SReg)
  /-- SSUB (R118). 64-bit scalar subtract. -/
  | ssub (d : SReg) (a : SReg) (b : SReg)
  /-- SMUL (R118). 64-bit scalar multiply, low half. -/
  | smul (d : SReg) (a : SReg) (b : SReg)
  /-- SAND (R118). Scalar bitwise AND. -/
  | sand (d : SReg) (a : SReg) (b : SReg)
  /-- SOR (R118). Scalar bitwise OR. -/
  | sor (d : SReg) (a : SReg) (b : SReg)
  /-- SXOR (R118). Scalar bitwise XOR. -/
  | sxor (d : SReg) (a : SReg) (b : SReg)
  /-- SANDN (R118). Scalar a AND NOT b. -/
  | sandn (d : SReg) (a : SReg) (b : SReg)
  /-- SSHL (R118). Scalar shift left. -/
  | sshl (d : SReg) (a : SReg) (b : SReg)
  /-- SSHR (R118). Scalar logical shift right. -/
  | sshr (d : SReg) (a : SReg) (b : SReg)
  /-- SSRA (R118). Scalar arithmetic shift right. -/
  | ssra (d : SReg) (a : SReg) (b : SReg)
  /-- SMIN (R118). Signed 64-bit minimum. -/
  | smin (d : SReg) (a : SReg) (b : SReg)
  /-- SMAX (R118). Signed 64-bit maximum. -/
  | smax (d : SReg) (a : SReg) (b : SReg)
  /-- SMOV (R118). Scalar move. -/
  | smov (d : SReg) (a : SReg)
  /-- SSEL (R118). Selects SA or SB by a flag. -/
  | ssel (d : SReg) (a : SReg) (b : SReg) (f : FReg)
  /-- SLI (R119). Inserts a 16-bit immediate into one chunk of an S register. -/
  | sli (d : SReg) (k : BitVec 2) (i : BitVec 16)
  /-- SCMP (R121). Compares two S registers into a flag. -/
  | scmp (n : BitVec 4) (f : FReg) (a : SReg) (b : SReg)
  /-- SADDI (R120). Adds a signed 13-bit immediate to an S register. -/
  | saddi (d : SReg) (a : SReg) (i : BitVec 13)
  /-- RDSPC (R117). Reads a special register. -/
  | rdspc (d : SReg) (n : BitVec 8)
  /-- WRSPC (R117). Writes a writable special register. -/
  | wrspc (a : SReg) (n : BitVec 8)
  /-- VTOS (R122). Packs a predicate of all 32 lanes into an S register. -/
  | vtos (d : SReg) (p : PReg)
  /-- STOV (R122). Sets a predicate in active lanes from bits of an S register. -/
  | stov (p : PReg) (a : SReg)
  /-- BALLOT (R122). Collects a predicate over the active lanes into an S register. -/
  | ballot (d : SReg) (p : PReg)
  /-- VOTE (R122). Votes a predicate over the active lanes into a flag. -/
  | vote (f : FReg) (p : PReg) (m : BitVec 6)
  /-- SIGCHK (R404). Compares Fold16(SIG) with an immediate, clearing SIG or trapping. -/
  | sigchk (i : BitVec 16)
  /-- IADD (R124). Integer add. -/
  | iadd (d : VReg) (a : VReg) (b : VReg)
  /-- ISUB (R124). Integer subtract. -/
  | isub (d : VReg) (a : VReg) (b : VReg)
  /-- IADDC (R125). Add with carry through P7. -/
  | iaddc (d : VReg) (a : VReg) (b : VReg)
  /-- ISUBB (R125). Subtract with borrow through P7. -/
  | isubb (d : VReg) (a : VReg) (b : VReg)
  /-- IMUL (R124). Integer multiply. -/
  | imul (d : VReg) (a : VReg) (b : VReg)
  /-- IMULH.i (R124). Signed multiply, high half. -/
  | imulhI (d : VReg) (a : VReg) (b : VReg)
  /-- IMULH.n (R124). Unsigned multiply, high half. -/
  | imulhN (d : VReg) (a : VReg) (b : VReg)
  /-- IMAD (R124). Integer multiply-add into D. -/
  | imad (d : VReg) (a : VReg) (b : VReg)
  /-- IMIN.i (R124). Signed minimum. -/
  | iminI (d : VReg) (a : VReg) (b : VReg)
  /-- IMIN.n (R124). Unsigned minimum. -/
  | iminN (d : VReg) (a : VReg) (b : VReg)
  /-- IMAX.i (R124). Signed maximum. -/
  | imaxI (d : VReg) (a : VReg) (b : VReg)
  /-- IMAX.n (R124). Unsigned maximum. -/
  | imaxN (d : VReg) (a : VReg) (b : VReg)
  /-- IABSD (R124). Absolute difference. -/
  | iabsd (d : VReg) (a : VReg) (b : VReg)
  /-- POPC (R124). Population count. -/
  | popc (d : VReg) (a : VReg)
  /-- CLZ (R124). Count leading zeros. -/
  | clz (d : VReg) (a : VReg)
  /-- BREV (R124). Bit reverse. -/
  | brev (d : VReg) (a : VReg)
  /-- AND (R126). Bitwise AND. -/
  | and (d : VReg) (a : VReg) (b : VReg)
  /-- OR (R126). Bitwise OR. -/
  | or (d : VReg) (a : VReg) (b : VReg)
  /-- XOR (R126). Bitwise XOR. -/
  | xor (d : VReg) (a : VReg) (b : VReg)
  /-- ANDN (R126). A AND NOT B. -/
  | andn (d : VReg) (a : VReg) (b : VReg)
  /-- ORN (R126). A OR NOT B. -/
  | orn (d : VReg) (a : VReg) (b : VReg)
  /-- XNOR (R126). NOT (A XOR B). -/
  | xnor (d : VReg) (a : VReg) (b : VReg)
  /-- SHL (R126). Shift left by register. -/
  | shl (d : VReg) (a : VReg) (b : VReg)
  /-- SHR (R126). Logical shift right by register. -/
  | shr (d : VReg) (a : VReg) (b : VReg)
  /-- SRA (R126). Arithmetic shift right by register. -/
  | sra (d : VReg) (a : VReg) (b : VReg)
  /-- ROTL (R126). Rotate left by register. -/
  | rotl (d : VReg) (a : VReg) (b : VReg)
  /-- BFE.i (R127). Signed bit-field extract. -/
  | bfeI (d : VReg) (a : VReg) (b : VReg)
  /-- BFE.n (R127). Unsigned bit-field extract. -/
  | bfeN (d : VReg) (a : VReg) (b : VReg)
  /-- BFI (R127). Bit-field insert. -/
  | bfi (d : VReg) (a : VReg) (b : VReg)
  /-- MOV (R126). Vector move. -/
  | mov (d : VReg) (a : VReg)
  /-- IADDI (R128). Add immediate. -/
  | iaddi (d : VReg) (a : VReg) (i : BitVec 11)
  /-- IMULI (R128). Multiply by immediate. -/
  | imuli (d : VReg) (a : VReg) (i : BitVec 11)
  /-- ANDI (R128). AND immediate. -/
  | andi (d : VReg) (a : VReg) (i : BitVec 11)
  /-- ORI (R128). OR immediate. -/
  | ori (d : VReg) (a : VReg) (i : BitVec 11)
  /-- XORI (R128). XOR immediate. -/
  | xori (d : VReg) (a : VReg) (i : BitVec 11)
  /-- SHLI (R129). Shift left by immediate. -/
  | shli (d : VReg) (a : VReg) (s : BitVec 5)
  /-- SHRI (R129). Logical shift right by immediate. -/
  | shri (d : VReg) (a : VReg) (s : BitVec 5)
  /-- SRAI (R129). Arithmetic shift right by immediate. -/
  | srai (d : VReg) (a : VReg) (s : BitVec 5)
  /-- ROTLI (R129). Rotate left by immediate. -/
  | rotli (d : VReg) (a : VReg) (s : BitVec 5)
  /-- ICMP (R130). Integer compare into a predicate. -/
  | icmp (n : BitVec 4) (p : PReg) (a : VReg) (b : VReg)
  /-- FCMP (R131). F32 compare into a predicate. -/
  | fcmp (n : BitVec 3) (p : PReg) (a : VReg) (b : VReg)
  /-- MOVI (R133). Loads a sign-extended 16-bit immediate. -/
  | movi (d : VReg) (i : BitVec 16)
  /-- MOVI.hi (R133). Writes the high half of a register. -/
  | moviHi (d : VReg) (i : BitVec 16)
  /-- MOVI.f16 (R133). Loads an F16 immediate widened to F32. -/
  | moviF16 (d : VReg) (i : BitVec 16)
  /-- MOVI.bf16 (R133). Loads a BF16 immediate widened to F32. -/
  | moviBf16 (d : VReg) (i : BitVec 16)
  /-- FADD (R134). F32 add. -/
  | fadd (d : VReg) (a : VReg) (b : VReg)
  /-- FSUB (R134). F32 subtract. -/
  | fsub (d : VReg) (a : VReg) (b : VReg)
  /-- FMUL (R134). F32 multiply. -/
  | fmul (d : VReg) (a : VReg) (b : VReg)
  /-- FFMA (R134). F32 fused multiply-add into D. -/
  | ffma (d : VReg) (a : VReg) (b : VReg)
  /-- FMIN (R134). F32 minimum, ignoring NaN. -/
  | fmin (d : VReg) (a : VReg) (b : VReg)
  /-- FMAX (R134). F32 maximum, ignoring NaN. -/
  | fmax (d : VReg) (a : VReg) (b : VReg)
  /-- FMINM (R134). F32 minimum, propagating NaN. -/
  | fminm (d : VReg) (a : VReg) (b : VReg)
  /-- FMAXM (R134). F32 maximum, propagating NaN. -/
  | fmaxm (d : VReg) (a : VReg) (b : VReg)
  /-- FCLASS (R135). Classifies an F32 value as a one-hot mask. -/
  | fclass (d : VReg) (a : VReg)
  /-- FRCP (R136). Correctly rounded reciprocal. -/
  | frcp (d : VReg) (a : VReg)
  /-- FSQRT (R136). Correctly rounded square root. -/
  | fsqrt (d : VReg) (a : VReg)
  /-- FRSQ (R136). Correctly rounded reciprocal square root. -/
  | frsq (d : VReg) (a : VReg)
  /-- FEXP2 (R136). Correctly rounded power of two. -/
  | fexp2 (d : VReg) (a : VReg)
  /-- FLOG2 (R136). Correctly rounded base-2 logarithm. -/
  | flog2 (d : VReg) (a : VReg)
  /-- FADD.f16x2 (R137). Packed F16 add. -/
  | faddF16x2 (d : VReg) (a : VReg) (b : VReg)
  /-- FADD.bf16x2 (R137). Packed BF16 add. -/
  | faddBf16x2 (d : VReg) (a : VReg) (b : VReg)
  /-- FSUB.f16x2 (R137). Packed F16 subtract. -/
  | fsubF16x2 (d : VReg) (a : VReg) (b : VReg)
  /-- FSUB.bf16x2 (R137). Packed BF16 subtract. -/
  | fsubBf16x2 (d : VReg) (a : VReg) (b : VReg)
  /-- FMUL.f16x2 (R137). Packed F16 multiply. -/
  | fmulF16x2 (d : VReg) (a : VReg) (b : VReg)
  /-- FMUL.bf16x2 (R137). Packed BF16 multiply. -/
  | fmulBf16x2 (d : VReg) (a : VReg) (b : VReg)
  /-- FFMA.f16x2 (R137). Packed F16 fused multiply-add. -/
  | ffmaF16x2 (d : VReg) (a : VReg) (b : VReg)
  /-- FFMA.bf16x2 (R137). Packed BF16 fused multiply-add. -/
  | ffmaBf16x2 (d : VReg) (a : VReg) (b : VReg)
  /-- FMIN.f16x2 (R137). Packed F16 minimum. -/
  | fminF16x2 (d : VReg) (a : VReg) (b : VReg)
  /-- FMIN.bf16x2 (R137). Packed BF16 minimum. -/
  | fminBf16x2 (d : VReg) (a : VReg) (b : VReg)
  /-- FMAX.f16x2 (R137). Packed F16 maximum. -/
  | fmaxF16x2 (d : VReg) (a : VReg) (b : VReg)
  /-- FMAX.bf16x2 (R137). Packed BF16 maximum. -/
  | fmaxBf16x2 (d : VReg) (a : VReg) (b : VReg)
  /-- IDOT4.i8 (R138). Signed 8-bit dot product of four into D. -/
  | idot4I8 (d : VReg) (a : VReg) (b : VReg)
  /-- IDOT4.n8 (R138). Unsigned 8-bit dot product of four into D. -/
  | idot4N8 (d : VReg) (a : VReg) (b : VReg)
  /-- IDOT4.in (R138). Signed-by-unsigned 8-bit dot product into D. -/
  | idot4In (d : VReg) (a : VReg) (b : VReg)
  /-- FDOT2.f16 (R138). F16 dot product of two into an F32 D. -/
  | fdot2F16 (d : VReg) (a : VReg) (b : VReg)
  /-- FDOT2.bf16 (R138). BF16 dot product of two into an F32 D. -/
  | fdot2Bf16 (d : VReg) (a : VReg) (b : VReg)
  /-- LDOT4.l6 (R139). L6 dot product of four into an F32 D. -/
  | ldot4L6 (d : VReg) (a : VReg) (b : VReg)
  /-- CVT (R140). Converts between the format codes of R73. -/
  | cvt (x : BitVec 4) (d : VReg) (a : VReg) (s : BitVec 4)
  /-- CVTS (R142). Scaled F32 to F8A conversion. -/
  | cvtsF32F8a (d : VReg) (a : VReg) (b : SReg)
  /-- CVTS (R142). Scaled F32 to F8B conversion. -/
  | cvtsF32F8b (d : VReg) (a : VReg) (b : SReg)
  /-- CVTS (R142). Scaled F32 to L6 conversion. -/
  | cvtsF32L6 (d : VReg) (a : VReg) (b : SReg)
  /-- CVTS (R142). Scaled F8A to F32 conversion. -/
  | cvtsF8aF32 (d : VReg) (a : VReg) (b : SReg)
  /-- CVTS (R142). Scaled F8B to F32 conversion. -/
  | cvtsF8bF32 (d : VReg) (a : VReg) (b : SReg)
  /-- CVTS (R142). Scaled L6 to F32 conversion. -/
  | cvtsL6F32 (d : VReg) (a : VReg) (b : SReg)
  /-- SEL (R69). Selects A where the guard holds, else B. -/
  | sel (d : VReg) (a : VReg) (b : VReg)
  /-- PAND (R132). Predicate AND. -/
  | pand (d : PReg) (a : PReg) (b : PReg)
  /-- POR (R132). Predicate OR. -/
  | por (d : PReg) (a : PReg) (b : PReg)
  /-- PXOR (R132). Predicate XOR. -/
  | pxor (d : PReg) (a : PReg) (b : PReg)
  /-- PNOT (R132). Predicate NOT. -/
  | pnot (d : PReg) (a : PReg)
  /-- PMOV (R132). Predicate move. -/
  | pmov (d : PReg) (a : PReg)
  /-- LXCH.pick (R104). Each lane reads lane n. -/
  | lxchPick (d : VReg) (a : VReg) (b : VReg)
  /-- LXCH.rot (R104). Rotates values within segments. -/
  | lxchRot (d : VReg) (a : VReg) (b : VReg)
  /-- LXCH.slide (R104). Slides values within segments, filling with zero. -/
  | lxchSlide (d : VReg) (a : VReg) (b : VReg)
  /-- LXCH.rev (R104). Reverses values within segments. -/
  | lxchRev (d : VReg) (a : VReg) (b : VReg)
  /-- QSWX (R102). Swaps with quad-lane i XOR 1. -/
  | qswx (d : VReg) (a : VReg)
  /-- QSWY (R102). Swaps with quad-lane i XOR 2. -/
  | qswy (d : VReg) (a : VReg)
  /-- QSWD (R102). Swaps with quad-lane i XOR 3. -/
  | qswd (d : VReg) (a : VReg)
  /-- QBCAST (R102). Broadcasts quad-lane n within each quad. -/
  | qbcast (d : VReg) (a : VReg) (n : BitVec 2)
  /-- GRED.add.i (R105). Integer sum over the participating lanes. -/
  | gredAddI (d : VReg) (a : VReg)
  /-- GRED.add.f (R106). Exact F32 sum, rounded once. -/
  | gredAddF (d : VReg) (a : VReg)
  /-- GRED.min.i (R105). Signed minimum over the lanes. -/
  | gredMinI (d : VReg) (a : VReg)
  /-- GRED.min.f (R106). F32 minimum over the lanes. -/
  | gredMinF (d : VReg) (a : VReg)
  /-- GRED.max.i (R105). Signed maximum over the lanes. -/
  | gredMaxI (d : VReg) (a : VReg)
  /-- GRED.max.f (R106). F32 maximum over the lanes. -/
  | gredMaxF (d : VReg) (a : VReg)
  /-- GSCAN.add.i (R105). Inclusive integer prefix sum. -/
  | gscanAddI (d : VReg) (a : VReg)
  /-- GSCAN.add.f (R106). Inclusive F32 prefix sum, each rounded once. -/
  | gscanAddF (d : VReg) (a : VReg)
  /-- XFER.get (R107). Copies one lane's value into an S register. -/
  | xferGet (d : SReg) (a : VReg) (b : SReg)
  /-- XFER.first (R107). Copies the lowest participating lane into an S register. -/
  | xferFirst (d : SReg) (a : VReg)
  /-- XFER.put (R107). Writes an S register into one lane. -/
  | xferPut (d : VReg) (a : SReg) (n : BitVec 5)
  /-- LD.P (R160). Loads from the lane's private slice. -/
  | ldP (z : BitVec 4) (d : VReg) (s : SReg) (v : VReg) (x : BitVec 1)
  /-- ST.P (R160). Stores to the lane's private slice. -/
  | stP (z : BitVec 4) (d : VReg) (s : SReg) (v : VReg) (x : BitVec 1)
  /-- LD.S (R160). Loads from the core scratchpad. -/
  | ldS (z : BitVec 4) (d : VReg) (s : SReg) (v : VReg) (x : BitVec 1)
  /-- ST.S (R160). Stores to the core scratchpad. -/
  | stS (z : BitVec 4) (d : VReg) (s : SReg) (v : VReg) (x : BitVec 1)
  /-- LD.C (R160). Loads from cluster-shared memory. -/
  | ldC (z : BitVec 4) (d : VReg) (s : SReg) (v : VReg) (x : BitVec 1)
  /-- ST.C (R160). Stores to cluster-shared memory. -/
  | stC (z : BitVec 4) (d : VReg) (s : SReg) (v : VReg) (x : BitVec 1)
  /-- LD.K (R160). Loads from the chip scratchpad. -/
  | ldK (z : BitVec 4) (d : VReg) (s : SReg) (v : VReg) (x : BitVec 1)
  /-- ST.K (R160). Stores to the chip scratchpad. -/
  | stK (z : BitVec 4) (d : VReg) (s : SReg) (v : VReg) (x : BitVec 1)
  /-- LD.G (R160). Loads from global memory. -/
  | ldG (z : BitVec 4) (d : VReg) (s : SReg) (v : VReg) (x : BitVec 1)
  /-- ST.G (R160). Stores to global memory. -/
  | stG (z : BitVec 4) (d : VReg) (s : SReg) (v : VReg) (x : BitVec 1)
  /-- ATOM.add (R188). Fetch-and-add. -/
  | atomAdd (d : VReg) (s : SReg) (v : VReg)
  /-- ATOM.min.i (R188). Fetch signed minimum. -/
  | atomMinI (d : VReg) (s : SReg) (v : VReg)
  /-- ATOM.min.n (R188). Fetch unsigned minimum. -/
  | atomMinN (d : VReg) (s : SReg) (v : VReg)
  /-- ATOM.max.i (R188). Fetch signed maximum. -/
  | atomMaxI (d : VReg) (s : SReg) (v : VReg)
  /-- ATOM.max.n (R188). Fetch unsigned maximum. -/
  | atomMaxN (d : VReg) (s : SReg) (v : VReg)
  /-- ATOM.and (R188). Fetch-and-AND. -/
  | atomAnd (d : VReg) (s : SReg) (v : VReg)
  /-- ATOM.or (R188). Fetch-and-OR. -/
  | atomOr (d : VReg) (s : SReg) (v : VReg)
  /-- ATOM.xor (R188). Fetch-and-XOR. -/
  | atomXor (d : VReg) (s : SReg) (v : VReg)
  /-- ATOM.xchg (R188). Atomic exchange. -/
  | atomXchg (d : VReg) (s : SReg) (v : VReg)
  /-- ATOM.add.f32 (R188). Fetch-and-add of F32 under RNE. -/
  | atomAddF32 (d : VReg) (s : SReg) (v : VReg)
  /-- ATOM.cas (R190). Compare-and-swap with an even D pair. -/
  | atomCas (d : SReg) (s : SReg) (v : VReg)
  /-- RED.add (R193). Reduction add, gathered in U state where allowed. -/
  | redAdd (d : VReg) (s : SReg) (v : VReg)
  /-- RED.min.i (R193). Reduction signed minimum. -/
  | redMinI (d : VReg) (s : SReg) (v : VReg)
  /-- RED.min.n (R193). Reduction unsigned minimum. -/
  | redMinN (d : VReg) (s : SReg) (v : VReg)
  /-- RED.max.i (R193). Reduction signed maximum. -/
  | redMaxI (d : VReg) (s : SReg) (v : VReg)
  /-- RED.max.n (R193). Reduction unsigned maximum. -/
  | redMaxN (d : VReg) (s : SReg) (v : VReg)
  /-- RED.and (R193). Reduction AND. -/
  | redAnd (d : VReg) (s : SReg) (v : VReg)
  /-- RED.or (R193). Reduction OR. -/
  | redOr (d : VReg) (s : SReg) (v : VReg)
  /-- RED.xor (R193). Reduction XOR. -/
  | redXor (d : VReg) (s : SReg) (v : VReg)
  /-- RED.add.f32 (R193). Reduction F32 add. -/
  | redAddF32 (d : VReg) (s : SReg) (v : VReg)
  /-- LDU (R162). Uniform 64-bit load into an S register. -/
  | ldu (d : SReg) (s : SReg)
  /-- STU (R162). Uniform 64-bit store from an S register. -/
  | stu (d : SReg) (s : SReg)
  /-- LDA (R163). Per-lane 32-bit load at a generic address. -/
  | lda (d : VReg) (s : SReg) (v : VReg) (x : BitVec 1)
  /-- STA (R163). Per-lane 32-bit store at a generic address. -/
  | sta (d : VReg) (s : SReg) (v : VReg) (x : BitVec 1)
  /-- PREF.l1 (R164). Prefetches lines into L1 and L2. -/
  | prefL1 (s : SReg) (v : VReg) (x : BitVec 1)
  /-- PREF.l2 (R164). Prefetches lines into L2. -/
  | prefL2 (s : SReg) (v : VReg) (x : BitVec 1)
  /-- ACQLD (R179). Acquire load that orders the split's later accesses after it. -/
  | acqld (d : VReg) (s : SReg) (v : VReg) (x : BitVec 1)
  /-- RELST (R178). Release store made after the group's earlier stores are performed. -/
  | relst (d : VReg) (s : SReg) (v : VReg) (x : BitVec 1)
  /-- BARW (R166). Arrives at a barrier word and parks until the phase flips. -/
  | barw (s : SReg)
  /-- BARA (R166). Arrives at a barrier word and returns the old word. -/
  | bara (d : SReg) (s : SReg)
  /-- BART (R166). Parks until the phase differs from a saved word. -/
  | bart (a : SReg) (s : SReg)
  /-- MARM (R167). Arms the group's monitor on a block. -/
  | marm (s : SReg)
  /-- MWAIT.ne (R167). Waits until a 64-bit word differs from S[D]. -/
  | mwaitNe (d : SReg) (s : SReg)
  /-- MWAIT.ge (R167). Waits until a 64-bit word is at least S[D]. -/
  | mwaitGe (d : SReg) (s : SReg)
  /-- ADECL (R200). Declares an atomic set. -/
  | adecl (i : BitVec 4) (s : SReg) (l : SReg)
  /-- ASTAT (R211). Reads the task's set and token state. -/
  | astat (d : SReg)
  /-- MMA (R223). Checks its operands and enqueues a matrix multiply-accumulate. -/
  | mma (t : BitVec 2) (a : BitVec 4) (b : BitVec 4) (n : BitVec 1) (m : BitVec 1) (e : BitVec 1) (s : BitVec 4) (r : BitVec 4)
  /-- MRES (R216). Binds a handle to a reservation or a remote descriptor. -/
  | mres (d : SReg) (a : SReg) (h : BitVec 4)
  /-- MREL (R217). Unbinds a handle and frees its range. -/
  | mrel (h : BitVec 4)
  /-- MLDA (R230). Copies bytes unchanged into a reservation. -/
  | mlda (h : BitVec 4) (a : SReg) (b : SReg)
  /-- MLDB (R230). Converts and compresses data into a B reservation. -/
  | mldb (h : BitVec 4) (a : SReg) (b : SReg)
  /-- MSHAPE (R221). Loads a shape record. -/
  | mshape (s : BitVec 4) (a : SReg)
  /-- MZERO (R231). Zeroes a tile. -/
  | mzero (t : BitVec 2)
  /-- MTLD (R231). Loads a tile from memory, widening it. -/
  | mtld (t : BitVec 2) (a : SReg) (b : SReg)
  /-- MTST (R231). Stores a tile to memory, narrowing it. -/
  | mtst (t : BitVec 2) (a : SReg) (b : SReg)
  /-- MTRV (R231). Reads one tile line into a vector register. -/
  | mtrv (d : VReg) (t : BitVec 2) (b : SReg)
  /-- MTWV (R231). Writes a vector register into one tile line. -/
  | mtwv (t : BitVec 2) (a : VReg) (b : SReg)
  /-- MHINT (R236). Requests an early ramp-up or restarts the hold. -/
  | mhint (a : SReg)
  /-- MXCNT (R232). Reads, and optionally clears, the NV, OF, UF and NX counters. -/
  | mxcntExceptions (d : SReg) (r : BitVec 1)
  /-- MXCNT (R232). Reads, and optionally clears, the PRUNE counter. -/
  | mxcntPrune (d : SReg) (r : BitVec 1)
  /-- MPAIR (R237). Reads the pair's ramp, queue and park state. -/
  | mpair (d : SReg)
  /-- CQINIT (R256). Configures the workgroup's copy queue. -/
  | cqinit (d : SReg) (a : SReg)
  /-- CQPUSH (R257). Publishes one copy entry from four S registers. -/
  | cqpush (d : SReg) (a : BitVec 4)
  /-- CQPUB (R258). Publishes k entries already stored in their slots. -/
  | cqpub (d : SReg) (a : SReg)
  /-- CQSTAGE (R259). Advances the queue's stage count. -/
  | cqstage (a : SReg)
  /-- CQWPTR (R260). Reads the destination progress of one entry. -/
  | cqwptr (d : SReg) (a : SReg)
  /-- CQSTAT (R261). Reads the copy queue's state. -/
  | cqstat (d : SReg)
  /-- LPROG (R262). Loads a layout program into a cluster slot. -/
  | lprog (d : SReg) (a : SReg) (n : BitVec 4)
  /-- SOPEN (R265). Binds a stream record to a context and queue. -/
  | sopen (d : SReg) (a : SReg) (n : BitVec 4)
  /-- SCLOSE (R265). Closes a stream context. -/
  | sclose (n : BitVec 4)
  /-- SSKIP (R265). Advances a stream by a number of entries. -/
  | sskip (a : SReg) (n : BitVec 4)
  /-- SSTAT (R265). Reads a stream context's state. -/
  | sstat (d : SReg) (n : BitVec 4)
  /-- LNCH (R317). Checks a launch record and accepts a grid. -/
  | lnch (d : SReg) (a : SReg)
  /-- MBIND (R319). Binds a mailbox from a binding image. -/
  | mbindBind (d : SReg) (a : SReg) (b : SReg)
  /-- MBOXQ (R320). Reads a binding's status. -/
  | mboxqRead (d : SReg) (a : SReg)
  /-- QCFG (R318). Installs a queue record. -/
  | qcfgConfigure (d : SReg) (a : SReg) (b : SReg)
  /-- GRD (R333). The handler reads a trapped group's state by selector. -/
  | grd (d : SReg) (a : SReg)
  /-- GWR (R333). The handler writes a trapped group's state by selector. -/
  | gwr (a : SReg) (b : SReg)
  /-- GSTAT (R334). The handler reads a group's trap and hold state. -/
  | gstat (d : SReg) (a : SReg)
  /-- GRESUME (R335). Clears a group's trap to retry, or to skip, the trapping issue group. -/
  | gresume (a : SReg) (b : SReg)
  /-- GKILL (R336). Kills a group or the whole served workgroup. -/
  | gkill (a : SReg)
  /-- TLBI (R290). Invalidates the translations of the page containing S[Sa]. -/
  | tlbiPage (a : SReg) (b : SReg)
  /-- TKSTAT (R291). Reads ticket state of the group, the die or one entry. -/
  | tkstat (d : SReg) (a : SReg)
  /-- WLATCH (R384). Reads a core's latched world. -/
  | wlatchRead (d : SReg) (a : SReg)
  /-- DIAGST (R402). Writes raw data or check bits of a storage location. -/
  | diagst (k : SReg) (a : SReg) (b : SReg)
  /-- DIAGLD (R402). Reads raw data or check bits of a storage location. -/
  | diagld (d : SReg) (a : SReg)
  /-- BOOST (R360). Requests B1 or B2 for a widened cluster set, checking budget, thermal and current limits. -/
  | boostGrant (d : SReg) (a : SReg) (b : SReg)
  /-- LBRD (R364). Reads a binding surplus or the binding unit. -/
  | lbrd (d : SReg) (a : SReg)
  /-- WRECRD (R364). Reads one word of a live wear record. -/
  | wrecrd (d : SReg) (a : SReg)
  /-- LIFESET (R366). Installs a life target record. -/
  | lifeset (d : SReg) (a : SReg)
  /-- EQRD (R364). Reads a queue's energy use and debt. -/
  | eqrd (d : SReg) (a : SReg)
  /-- RDN.BEGIN (R405). Pairs the group with a trailing group on another core. -/
  | rdnBegin (d : SReg)
  /-- SIGRD (R405). Reads the pair's role, entry counts, rollbacks or the last store signature. -/
  | sigrd (d : SReg) (a : SReg)
  /-- NOP (R100). Occupies issue only. -/
  | nop
  /-- EXIT (R93). Ends the split's active lanes for good. -/
  | exit
  /-- RET (R98). Returns to the packet held in S63. -/
  | ret
  /-- JOIN (R92). Parks the split for reconvergence. -/
  | join
  /-- YLD (R338). Parks the split if pre-emption is requested, else does nothing. -/
  | yld
  /-- TRET (R337). Ends a handler activation and releases held groups without a trap. -/
  | tret
  /-- AIRREV (R207). Requests the world's irrevocable token. -/
  | airrev
  /-- RDN.CKPT (R407). Requests a checkpoint of the redundant pair. -/
  | rdnCkpt
  /-- RDN.END (R405). Takes a checkpoint, then dissolves the pair. -/
  | rdnEnd
  /-- MBIND (R319). Unbinds a mailbox, discarding its pending snapshots. -/
  | mbindUnbind (d : SReg) (a : SReg) (b : SReg)
  /-- MBOXQ (R320). Reads a binding and clears its overflow count. -/
  | mboxqClearOverflow (d : SReg) (a : SReg)
  /-- MBOXQ (R320). Reads a binding and discards its pending snapshots. -/
  | mboxqDiscardPending (d : SReg) (a : SReg)
  /-- QCFG (R318). Disables a queue. -/
  | qcfgDisable (d : SReg) (a : SReg) (b : SReg)
  /-- QCFG (R318). Replaces a queue's core mask. -/
  | qcfgMask (d : SReg) (a : SReg) (b : SReg)
  /-- QCFG (R318). Reads a queue's state. -/
  | qcfgRead (d : SReg) (a : SReg) (b : SReg)
  /-- TLBI (R290). Invalidates all translations of an ASN. -/
  | tlbiAsn (a : SReg) (b : SReg)
  /-- TLBI (R290). Invalidates all translations of a world. -/
  | tlbiWorld (a : SReg) (b : SReg)
  /-- TLBI (R290). Invalidates all translations in the scope. -/
  | tlbiAll (a : SReg) (b : SReg)
  /-- WLATCH (R384). Re-latches an empty core to a world and clears it. -/
  | wlatchSet (d : SReg) (a : SReg)
  /-- BOOST (R360). A level-0 BOOST ends every grant on the set. -/
  | boostEnd (d : SReg) (a : SReg) (b : SReg)
  /-- Event ISSUE_GROUP (R83). Each port chooses its top-ranked ready split and issues that split's next issue group. -/
  | issueGroup (core port : Nat)
  /-- Event WAIT_COUNT_PROMOTION (R84). A split's wait count reaches 64 or 1,024 and the split is promoted to the head of its class or to the global tier. -/
  | waitCountPromotion (core slot split : Nat)
  /-- Event RECONVERGENCE_STACK_POP (R90). In the cycle after a split index frees, the top stack entry becomes a running split. -/
  | reconvergenceStackPop (core slot : Nat)
  /-- Event SPLIT_MERGE (R91). Two live splits at the same position merge into the lower index. -/
  | splitMerge (core slot : Nat)
  /-- Event JOIN_RELEASE (R92). All parked splits of a group are released together once no split runs and the stack is empty or no index is free. -/
  | joinRelease (core slot : Nat)
  /-- Event GROUP_SLOT_RELEASE (R93). A fully exited group whose CL, CS, CC and CT have reached 0 releases its slot. -/
  | groupSlotRelease (core slot : Nat)
  /-- Event LOAD_VALUE_BOUND (R172). A load's bytes become fixed, and its destination registers become ready. -/
  | loadValueBound (op : Nat)
  /-- Event STORE_PERFORMED (R172). A store is performed at its scope, and its outstanding-transaction entry is released. -/
  | storePerformed (op : Nat)
  /-- Event COUNTER_END (R171). Counts of a counter end in issue order once the operation and every older operation of that counter have ended. -/
  | counterEnd (core slot : Nat) (ctr : Ctr)
  /-- Event WAITC_RELEASE (R175). A split parked at WAITC becomes ready when every counter is at or below its field. -/
  | waitcRelease (core slot split : Nat)
  /-- Event BARRIER_RELEASE (R166). In the cycle after a barrier phase flips, every split parked on that word becomes ready. -/
  | barrierRelease (core slot split : Nat)
  /-- Event MONITOR_WAKE (R167). A write to, or loss of, the watched block wakes a parked MWAIT, which re-checks its condition. -/
  | monitorWake (core slot split : Nat)
  /-- Event MONITOR_REMOTE_REREAD (R167). At least every 1 µs an MWAIT parked on a remote block re-reads the word from the owner. -/
  | monitorRemoteReread (core slot split : Nat)
  /-- Event ENGINE_RECALL (R158). The directory recalls a line an engine holds, and the waiting thread access proceeds once the engine has written the line. -/
  | engineRecall (cluster chan : Nat)
  /-- Event ATOMIC_SET_WAIT_ACQUIRE (R203). A waiter acquires a released range in age order and its parked word proceeds. -/
  | atomicSetWaitAcquire (task : Nat)
  /-- Event TASK_RESTART (R208). Once its non-tentative work has ended, a wounded task restarts from its entry with its age stamp kept. -/
  | taskRestart (task : Nat)
  /-- Event TASK_COMMIT (R205). A task whose last group has exited merges its tentative lines, releases its deferred copies and frees its sets. -/
  | taskCommit (task : Nat)
  /-- Event IRREVOCABLE_TOKEN_GRANT (R206). The free token goes to the oldest requester of the world, whose tentative work is then committed. -/
  | irrevocableTokenGrant (world : Nat)
  /-- Event ACTIVE_SET_ENTRY_FREE (R210). A freed active-set entry lets a parked ADECL declare its set. -/
  | activeSetEntryFree (task : Nat)
  /-- Event MATRIX_ENTRY_START (R222). A matrix-queue entry starts on the tile port once the earlier entries naming its tiles or handles have ended. -/
  | matrixEntryStart (core entry : Nat)
  /-- Event PAIR_ARBITER_GRANT (R227). The pair arbiter grants the joined array to one MMA. -/
  | pairArbiterGrant (pair : Nat)
  /-- Event MMA_OCCUPANCY_END (R225). An MMA's last occupied cycle ends and the array goes to hot or holding. -/
  | mmaOccupancyEnd (pair : Nat)
  /-- Event MMA_RETIRE (R225). 12 cycles after its last occupied cycle an MMA writes the tiles and its CT count ends. -/
  | mmaRetire (core entry : Nat)
  /-- Event TILE_OP_RETIRE (R231). A tile-port entry or operand load retires when its last element or byte is read or written. -/
  | tileOpRetire (core entry : Nat)
  /-- Event RESERVATION_CLEAR_DONE (R216). A buffer range returned to the pool finishes clearing and becomes free. -/
  | reservationClearDone (core : Nat)
  /-- Event HINT_REQUEST_TIME (R236). The request time of a hint arrives and a cold array requests a ramp-up. -/
  | hintRequestTime (pair : Nat)
  /-- Event SLEW_WINDOW_BEGIN (R235). A granted 4-cycle slew window begins and the pair begins its ramp up or down. -/
  | slewWindowBegin (cluster : Nat)
  /-- Event RAMP_STEP_END (R233). A ramp's eighth step ends, leaving the array hot, holding or cold. -/
  | rampStepEnd (pair : Nat)
  /-- Event HOLD_EXPIRY (R234). A hold of 16 or 256 cycles expires and the array awaits a ramp-down grant. -/
  | holdExpiry (pair : Nat)
  /-- Event COPY_ACCEPT (R248). A free channel accepts the eligible entry with the least remaining slack and reads its four words. -/
  | copyAccept (cluster : Nat)
  /-- Event COPY_COMPLETE (R250). Every payload and scale byte of an entry is performed, then its sequence stamp is written. -/
  | copyComplete (cluster chan : Nat)
  /-- Event STREAM_FILL (R266). The affine address engine fills an open stream's queue speculatively, in walk order. -/
  | streamFill (task ctx : Nat)
  /-- Event STREAM_RELOAD (R267). A stale or marked entry is reloaded non-speculatively at its pop. -/
  | streamReload (task ctx : Nat)
  /-- Event PAGE_WALK (R274). A non-speculative G access walks the page tables and then faults or translates. -/
  | pageWalk (core slot va : Nat) (kind : AccKind)
  /-- Event REMOTE_ACCESS_ARRIVAL (R283). An owner handles an arriving remote read, write or atomic: it performs the access or replies with a ticket. -/
  | remoteAccessArrival (m : RemoteMsg)
  /-- Event READ_DATA (R301). A requester receives read data for a tag, and the waiting operation binds. -/
  | readData (tag : Nat) (data : List (BitVec 8))
  /-- Event WRITE_ACK (R177). A requester receives the owner's acknowledgement, and the remote store is performed. -/
  | writeAck (tag : Nat)
  /-- Event TICKET_REPLY (R286). A ticket reply opens or joins an entry in the die's ticket table, or ends the operation if it is fatal. -/
  | ticketReply (tag : Nat) (tkt : BitVec 32)
  /-- Event BUSY (R285). A busy reply makes the requester schedule a resend. -/
  | busy (tag : Nat)
  /-- Event BUSY_RESEND (R285). After 1,024 reference cycles a busy access is resent. -/
  | busyResend (tag : Nat)
  /-- Event TICKET_TABLE_FULL_RESEND (R286). While the ticket table is full, a ticketed operation resends every 4,096 reference cycles. -/
  | ticketTableFullResend (tag : Nat)
  /-- Event TICKET_POST (R285). A write to a ticket-post word posts an outcome, sends replay notices and closes the ticket. -/
  | ticketPost (win : Nat) (word : BitVec 64)
  /-- Event REPLAY_NOTICE (R287). A notice reissues the waiting operations in each group's issue order, or ends them all if fatal. -/
  | replayNotice (tkt : BitVec 32)
  /-- Event REQUESTER_TICKET_TIMEOUT (R286). A ticket-table entry with no notice within the ticket timeout becomes fatal, class 6. -/
  | requesterTicketTimeout (die entry : Nat)
  /-- Event OWNER_TICKET_TIMEOUT (R285). The owner closes a ticket that has seen no post within its timeout, without a notice. -/
  | ownerTicketTimeout (id : Nat)
  /-- Event REMOTE_RESPONSE_TIMEOUT (R301). A request unanswered for the remote-response timeout ends with a fatal ticket of class 6. -/
  | remoteResponseTimeout (tag : Nat)
  /-- Event NOTICE_RETENTION_EXPIRY (R303). A notice that matches nothing for 1 ms is discarded. -/
  | noticeRetentionExpiry (tkt : BitVec 32)
  /-- Event TAG_RETENTION_EXPIRY (R302). After 1 ms the owner drops a performed request's tag. -/
  | tagRetentionExpiry (peer tag : Nat)
  /-- Event FLIT_TRANSMIT (R296). A link sends a flit striped over its working lanes, with compression where it is enabled. -/
  | flitTransmit (link vc : Nat)
  /-- Event FLIT_RECEIVE (R294). A received flit is checked by CRC and tag and its messages are delivered in order. -/
  | flitReceive (link : Nat) (f : Flit)
  /-- Event CREDIT_RETURN (R300). A receiver returns credits on a virtual channel. -/
  | creditReturn (link vc n : Nat)
  /-- Event FILLER (R300). An idle link sends a filler message so that its counters advance. -/
  | filler (link : Nat)
  /-- Event RETRY_REPLAY_TIMEOUT (R297). The replay timeout passes without an ack, and the sender replays every unacknowledged flit. -/
  | retryReplayTimeout (link : Nat)
  /-- Event LANE_LOCK_LOSS (R298). A lane loses lock and the link retrains. -/
  | laneLockLoss (link lane : Nat)
  /-- Event CORRECTED_SYMBOL_THRESHOLD (R298). A lane's corrected-symbol rate exceeds the threshold and the link retrains. -/
  | correctedSymbolThreshold (link lane rate : Nat)
  /-- Event RETRAIN_STEP_COMPLETE (R298). A retraining step ends: the link resumes at the new width or is down. -/
  | retrainStepComplete (link : Nat) (trained : BitVec 16)
  /-- Event HEARTBEAT_SEND (R391). Every 100 µs a world session in run sends a heartbeat. -/
  | heartbeatSend (session : Nat)
  /-- Event HEARTBEAT (R391). A received heartbeat restarts the session's heartbeat timeout. -/
  | heartbeat (session : Nat)
  /-- Event HEARTBEAT_TIMEOUT (R391). No heartbeat arrives for the timeout: the session enters error and the world is disabled, pre-empted and killed. -/
  | heartbeatTimeout (session : Nat)
  /-- Event FLIT_COUNTER_EXHAUSTION (R392). A direction's flit counter reaches 2^48 - 2 and that direction stops sending. -/
  | flitCounterExhaustion (link : Nat)
  /-- Event LINK_SECRET_TIMEOUT (R392). 100 ms pass with no new link secret, and the link session is torn down. -/
  | linkSecretTimeout (link : Nat)
  /-- Event KEY_PROMOTE (R388). A management message promotes a world's next key to current on the link. -/
  | keyPromote (world link : Nat)
  /-- Event REENCRYPTION_SWEEP (R389). The sweep rewrites one CXL line under the next key and advances the sweep pointer. -/
  | reencryptionSweep (world port : Nat)
  /-- Event DISPATCH (R308). The distributor dispatches or restores a workgroup or gang, choosing among eligible queues and placing by stage. -/
  | dispatch
  /-- Event DEPENDENCE_CHECK (R314). A watched dependence word is read: the grid is satisfied, or fails if the word has its failure form. -/
  | dependenceCheck (grid : Nat)
  /-- Event GRID_DONE_WRITE (R315). The done word is written once when a grid's last workgroup has retired or the grid has failed. -/
  | gridDoneWrite (grid : Nat)
  /-- Event MAILBOX_ARRIVAL (R322). A performed write to a trigger word snapshots the slot into the binding's queue. -/
  | mailboxArrival (binding : Nat)
  /-- Event HANDLER_ACCEPT (R322). While run is below its limit, the oldest snapshot is accepted as a one-workgroup grid. -/
  | handlerAccept (binding : Nat)
  /-- Event MIGRATION_PERIOD_END (R324). At the end of a period, frames with heavy remote-die fills become candidates for migration. -/
  | migrationPeriodEnd
  /-- Event LINE_MIGRATE (R324). One 128-byte line of a migrating frame moves and its home changes. -/
  | lineMigrate (frame : Nat)
  /-- Event HANDLER_ACTIVATION (R330). The oldest waiting trap is served by the world's handler, and the served workgroup's groups are held. -/
  | handlerActivation (core : Nat)
  /-- Event PREEMPTION_DEADLINE (R340). A deadline expires before a cooperative save and a forced save of the whole cluster begins. -/
  | preemptionDeadline (task : Nat)
  /-- Event COOPERATIVE_SAVE (R339). A workgroup with every group yielded is written to the context region once its loads and stores have ended. -/
  | cooperativeSave (task : Nat)
  /-- Event FORCED_SAVE_COMPLETE (R341). A forced save finishes writing the cluster's contexts to the shadow store. -/
  | forcedSaveComplete (cluster : Nat)
  /-- Event SHADOW_PLACE_RELEASE (R341). A shadow-store place is released after its workgroups are restored or moved to the context region. -/
  | shadowPlaceRelease (die place : Nat)
  /-- Event WAIT_PROBE (R343). A wait reaches the probe threshold and the waiter sends a probe. -/
  | waitProbe (core slot split : Nat)
  /-- Event PROBE_FORWARD (R344). A received probe is forwarded along wait edges, or reports a cycle when it returns to its sender. -/
  | probeForward (probe : Nat)
  /-- Event WEAR_SAMPLE (R350). Every 1 ms the monitors add stress, recovery and grant drawdown to each record. -/
  | wearSample (inputs : List UnitSample) (watts : Nat)
  /-- Event RECORD_COMMIT (R355). The Talmet controller commits a wear record at an event, or when 10 s have passed. -/
  | recordCommit (unit : Nat)
  /-- Event FALLOW_ENTRY (R354). An idle cluster with the largest pool is powered down or reverse-biased into fallow. -/
  | fallowEntry (cluster : Nat)
  /-- Event FALLOW_WAKE (R354). A fallow cluster chosen for a dispatch wakes within 50 µs. -/
  | fallowWake (cluster : Nat)
  /-- Event CALLUP_POWERUP_DONE (R363). The granary pair finishes powering up and its self-test begins. -/
  | callupPowerupDone (die : Nat)
  /-- Event CALLUP_SELFTEST_DONE (R363). Self-test of the called-up pair ends: calibration and world latching follow, or the pair takes state 6. -/
  | callupSelftestDone (die : Nat) (pass : Bool)
  /-- Event CALLUP_SAVE (R12). Dispatch to the slot pauses and the retiring pair's workgroups are saved. -/
  | callupSave (die : Nat)
  /-- Event CALLUP_MAP_UPDATE (R12). The slot map is updated and the called-up pair enters service at B0. -/
  | callupMapUpdate (die : Nat)
  /-- Event BOOST_GRANT_END (R362). A grant's d ms run out and its clusters return to B0. -/
  | boostGrantEnd (grant : Nat)
  /-- Event DRAIN_WINDOW_OPEN (R372). At C - 32,000 splits of the affected clusters begin parking at yield points. -/
  | drainWindowOpen (change : Nat)
  /-- Event FREQUENCY_SWITCH (R372). At C the affected cores stop issuing and their clocks switch. -/
  | frequencySwitch (change : Nat)
  /-- Event FREQUENCY_RESUME (R372). At C + 8,000 issue, ramps and slew windows resume on the new clock. -/
  | frequencyResume (change : Nat)
  /-- Event TIME_SYNC_PULSE (R375). At each multiple of 16,000 each region's TIME copy is corrected against the reference. -/
  | timeSyncPulse
  /-- Event CURRENT_WINDOW (R370). Every 1 µs the pair imbalance adjusts filler and throttling. -/
  | currentWindow (pair ia ib : Nat)
  /-- Event ENERGY_MEASURE (R378). Every 1 µs cluster energy is divided among queues and quotas are checked; engine lists, by workgroup, the energy of
  engine work that has come in. -/
  | energyMeasure (cluster : Nat) (uj : EnergyUse) (fillerUj : Nat)
  /-- Event TIME_BUDGET_PERIOD (R376). A new 100 µs period begins, with fresh budgets, debts carried and paused activities resumed. -/
  | timeBudgetPeriod
  /-- Event SUPPLY_LOSS_WARNING (R380). A supply-loss warning runs the sequencer from the stop to the sealed checkpoint marker. -/
  | supplyLossWarning
  /-- Event FAST_THROTTLE_ALARM (R381). An alarm divides every cluster clock by four within 1 µs. -/
  | fastThrottleAlarm
  /-- Event FAST_THROTTLE_CLEAR (R381). 100 µs after its cause has cleared the alarm ends and a level change restores the clocks. -/
  | fastThrottleClear
  /-- Event GATING_COMMIT_WINDOW_END (R382). The 1 µs commit window ends and the cluster's power switches open. -/
  | gatingCommitWindowEnd (cluster : Nat)
  /-- Event WORLD_LATCH_CLEAR_DONE (R383). Clearing a re-latched core completes and the new world becomes visible. -/
  | worldLatchClearDone (core : Nat)
  /-- Event CORRECTED_ERROR (R396). A corrected error is repaired in place, logged and queues a targeted self-test. -/
  | correctedError (site : ErrSite)
  /-- Event TARGETED_SELF_TEST (R397). A queued self-test runs 16 pattern passes, classifies the fault and remaps or schedules repair. -/
  | targetedSelfTest (die failed : Nat)
  /-- Event UNCORRECTABLE_ERROR (R399). Data that cannot be corrected is poisoned, with deferred records for movements. -/
  | uncorrectableError (site : ErrSite)
  /-- Event SCRUB (R376). Scrubbing reads and checks HBM within its budget. -/
  | scrub (stack : Nat)
  /-- Event CHECKPOINT (R407). When both groups of a pair arrive and all entries match, SIG is compared, held stores performed and state saved. -/
  | checkpoint (core slot : Nat)
  /-- Event RESET (R414). Reset starts bring-up from stage 1. -/
  | reset
  /-- Event BRINGUP_STAGE_COMPLETE (R414). A bring-up stage finishes and the next begins. -/
  | bringupStageComplete (ok : Bool)
  /-- Event HOST_MEMORY_REQUEST (R410). A host memory request is checked by the hedgerow under its stream's world and served or aborted. -/
  | hostMemoryRequest (m : HostReq)
  /-- Event HOST_ATOMICOP (R411). A PCIe AtomicOp on device memory is performed at the home slice. -/
  | hostAtomicop (m : HostReq) (op : HostAtomic)
  /-- Event HOST_CONFIG_REQUEST (R410). A configuration request, including DOE, is served once the link has trained. -/
  | hostConfigRequest (fn reg : Nat) (wr : Option (BitVec 32))
  /-- Event GET_MEASUREMENTS (R393). A verifier's nonce yields doubly signed evidence. -/
  | getMeasurements (nonce : BitVec 384) (world : Nat)
  /-- Event KEY_EXCHANGE (R387). An SPDM key exchange establishes a session's keys in the key store. -/
  | keyExchange (session slot : Nat) (key : BitVec 256)
  /-- Event FINISH (R390). SPDM FINISH completes session establishment. -/
  | finish (session : Nat)
  /-- Event KEY_UPDATE (R392). A new link secret is installed and the flit counter restarts. -/
  | keyUpdate (link : Nat) (secret : BitVec 384)
  /-- Event END_SESSION (R387). A session ends and, if it was the world's last, that world's key slots are erased. -/
  | endSession (session : Nat)
  /-- Event LOCK (R390). A configured unlocked session moves to locked. -/
  | lock (session : Nat)
  /-- Event START (R390). Once the peer's evidence passes and keys are installed, a locked session enters run. -/
  | start (session : Nat) (ecdsaOk mldsaOk : Bool)
  /-- Event STOP (R390). World 0 stops an errored session, erasing its keys, and the session returns to unlocked. -/
  | stop (session : Nat)
  /-- Event SESSION_CONFIG_WRITE (R390). A configuration write in locked or run sends the session to error. -/
  | sessionConfigWrite (session : Nat)
  /-- Event MGMT_READ_ABJSTAT (R412). Op 0 kind 0 returns a port's status word. -/
  | mgmtReadAbjstat (c : Cmd)
  /-- Event MGMT_READ_ERROR_LOG (R412). Op 0 kind 1 returns an error-log entry. -/
  | mgmtReadErrorLog (c : Cmd)
  /-- Event MGMT_READ_TIME_BUDGET (R412). Op 0 kind 2 returns a time budget. -/
  | mgmtReadTimeBudget (c : Cmd)
  /-- Event MGMT_READ_MIXED_ATOMIC_COUNTER (R197). Op 0 kind 3 returns a die's mixed-atomic counter, clearing it if asked. -/
  | mgmtReadMixedAtomicCounter (c : Cmd)
  /-- Event MGMT_READ_PARAMETER (R413). Op 0 kind 4 returns a parameter. -/
  | mgmtReadParameter (c : Cmd)
  /-- Event MGMT_READ_FRAME_WORLD_ENTRY (R385). Op 0 kind 5 returns a frame world table entry. -/
  | mgmtReadFrameWorldEntry (c : Cmd)
  /-- Event MGMT_READ_ROUTE_ENTRY (R301). Op 0 kind 6 returns a route-table entry. -/
  | mgmtReadRouteEntry (c : Cmd)
  /-- Event SET_TIME_BUDGET (R376). Op 1 sets one activity's budget for one instance. -/
  | setTimeBudget (c : Cmd)
  /-- Event FRAME_ASSIGN (R385). Op 2 with the assigned bit set keeps, zeroes or reassigns a frame to a world. -/
  | frameAssign (c : Cmd)
  /-- Event FRAME_UNASSIGN (R385). Op 2 with the assigned bit clear invalidates the old world's TLB entries and unassigns the frame. -/
  | frameUnassign (c : Cmd)
  /-- Event SET_HANDLER_TABLE_ENTRY (R329). Op 3 sets a world's handler entry address. -/
  | setHandlerTableEntry (c : Cmd)
  /-- Event KILL_WAIT_CYCLE (R412). Op 4 kills the workgroup of a reported cycle member. -/
  | killWaitCycle (c : Cmd)
  /-- Event REFORMAT_FRAME_GRANULE (R280). Op 5 rewrites a frame under a new granule code and flushes every translation. -/
  | reformatFrameGranule (c : Cmd)
  /-- Event SET_ROUTE_TABLE (R301). Op 6 selector 0 sets a peer's link set in gang mode. -/
  | setRouteTable (c : Cmd)
  /-- Event SET_ATTESTATION_POLICY (R394). Op 6 selector 1 sets the attestation policy. -/
  | setAttestationPolicy (c : Cmd)
  /-- Event SET_OWNER_WINDOW (R282). Op 6 selector 2 installs an owner window after checking its post word. -/
  | setOwnerWindow (c : Cmd)
  /-- Event SET_PORT_CONFIGURATION (R299). Op 6 selector 3 enables or disables compression on an unlocked port. -/
  | setPortConfiguration (c : Cmd)
  /-- Event POST_TICKET_OUTCOME (R285). Op 7 posts an outcome for any ticket of the device. -/
  | postTicketOutcome (c : Cmd)
  /-- Event INSTALL_BOOT_BINDING (R414). Op 8 checks its operands, configures queue 0, binds mailbox 0 and moves to stage 8. -/
  | installBootBinding (c : Cmd)
  /-- Event SET_PARAMETER (R413). Op 9 sets a parameter. -/
  | setParameter (c : Cmd)
  /-- Event MGMT_PREEMPTION_REQUEST (R338). Op 10 raises a pre-emption request for a core and class. -/
  | mgmtPreemptionRequest (c : Cmd)
  /-- Event MGMT_PREEMPTION_WITHDRAW (R338). Op 10 with bit 16 set withdraws a pre-emption request. -/
  | mgmtPreemptionWithdraw (c : Cmd)
  /-- Event RESET_PORT (R298). Op 11 retrains a port at full width. -/
  | resetPort (c : Cmd)
  /-- Event MGMT_UNASSIGNED_OP (R412). Ops 12..255 complete with cst 1. -/
  | mgmtUnassignedOp (c : Cmd)
  /-- Event INSTRUCTION_FETCH (R110). A packet fetch, speculative or non-speculative, completes into the instruction cache, so that a split waiting on it becomes ready or a fetch fault is recorded for its issue. -/
  | instructionFetch (core pa : Nat) (spec : Bool)
  /-- Event CXL_COMPLETER_ACK (R177). A CXL completer's response arrives: acknowledgement of a system-scope store, read data, an exclusive line grant, or the invalidation of host copies. -/
  | cxlCompleterAck (op : Nat)
  /-- Event ALLOTMENT_CLEAR_DONE (R147). The 512-byte-per-cycle clearing of a workgroup's P, S or C allotment completes, and its groups may begin issuing. -/
  | allotmentClearDone (task : Nat)
  /-- Event CONTEXT_RESTORE_COMPLETE (R341). The restore of saved contexts into a cluster over the 512 B-per-cycle path finishes, and the restored workgroups may issue. -/
  | contextRestoreComplete (cluster : Nat)
  /-- Event COMMAND_COMPLETE (R412). A running management command finishes: MSTAT takes its cst and cseq, and accesses held by a reformat or a frame zeroing proceed. -/
  | commandComplete
  /-- Event HOST_LINK_RECOVERY (R409). On link errors the host port trains down to a narrower width or a lower rate for recovery. -/
  | hostLinkRecovery (width gts : Nat)
  deriving DecidableEq, Repr

end Sys2Proof
end

