-- ==== Sys2Proof/WellFormed.lean ====
section
/-! DEFINITION. Which registers each word reads and writes, and which words are well formed by themselves
(R60, R61, R62, R74). What depends on a workgroup's allocation is asked at issue. -/

namespace Sys2Proof

/-- A register operand: V registers from a first one, S, P, F and special registers. -/
inductive RegRef where
  | v (n : VReg) (k : Nat)
  | s (n : SReg)
  | p (n : PReg)
  | f (n : FReg)
  | spc (n : Nat)
  deriving DecidableEq, Repr

/-- The registers a word reads and those it writes. -/
structure RegUse where
  rd : List RegRef
  wr : List RegRef
  deriving DecidableEq, Repr

/-- V registers moved by a level access of a size code (R71): two for 64 bits, four for 128. -/
def sizeRegs (z : BitVec 4) : Nat :=
  if z.toNat = 3 then 2 else if z.toNat = 4 then 4 else 1

/-- A source may name any register but V124 to V126; a multi-register operand is aligned and within V0..V119 (R61, R62). -/
def RegRef.readOk : RegRef → Bool
  | .v n k => if k = 1 then decide (n.toNat < 124 ∨ n.toNat = 127) else decide (n.toNat % k = 0 ∧ n.toNat + k ≤ 120)
  | .s _ => true
  | .p _ => true
  | .f _ => true
  | .spc _ => true

/-- A destination names neither a queue head nor V124 to V126, nor P0, nor F0 (R61, R74). -/
def RegRef.writeOk : RegRef → Bool
  | .v n k => if k = 1 then decide (n.toNat < 120 ∨ n.toNat = 127) else decide (n.toNat % k = 0 ∧ n.toNat + k ≤ 120)
  | .s _ => true
  | .p n => decide (n ≠ 0)
  | .f n => decide (n ≠ 0)
  | .spc n => decide (n = 13)

/-- Every register of a word may be named where it stands. -/
def RegUse.ok (u : RegUse) : Bool :=
  u.rd.all RegRef.readOk && u.wr.all RegRef.writeOk

/-- The registers a word reads and writes (R54, R56, R61). -/
def Instr.regs : Instr → RegUse
  | .modArithmetic g _ _ _ _ _ _ _ _ _ | .modMemory g _ _ _ _ => { rd := [.p g], wr := [] }
  | .nop | .exit | .join | .yld | .trap _ | .tret | .bra _ | .waitc _ _ _ _ | .sigchk _ | .airrev
  | .mma _ _ _ _ _ _ _ _ | .mrel _ | .mzero _ | .sclose _ | .rdnCkpt | .rdnEnd => { rd := [], wr := [] }
  | .ret => { rd := [.s 63#6], wr := [] }
  | .jmpi a | .mshape _ a | .mhint a | .cqstage a | .sskip a _ | .gkill a => { rd := [.s a], wr := [] }
  | .calli a => { rd := [.s a], wr := [.s 63#6] }
  | .elect d | .probe d | .rdspc d _ | .astat d | .mxcntExceptions d _ | .mxcntPrune d _ | .mpair d | .cqstat d
  | .sstat d _ | .rdnBegin d => { rd := [], wr := [.s d] }
  | .brf _ f _ => { rd := [.f f], wr := [] }
  | .brv _ p _ => { rd := [.p p], wr := [] }
  | .call _ => { rd := [], wr := [.s 63#6] }
  | .loop d _ | .sli d _ _ => { rd := [.s d], wr := [.s d] }
  | .sadd d a b | .ssub d a b | .smul d a b | .sand d a b | .sor d a b | .sxor d a b | .sandn d a b
  | .sshl d a b | .sshr d a b | .ssra d a b | .smin d a b | .smax d a b | .mbindBind d a b | .mbindUnbind d a b
  | .qcfgConfigure d a b | .qcfgDisable d a b | .qcfgMask d a b | .qcfgRead d a b | .boostGrant d a b
  | .boostEnd d a b => { rd := [.s a, .s b], wr := [.s d] }
  | .smov d a | .saddi d a _ | .mres d a _ | .cqinit d a | .cqpub d a | .cqwptr d a | .lprog d a _
  | .sopen d a _ | .lnch d a | .mboxqRead d a | .mboxqClearOverflow d a | .mboxqDiscardPending d a | .grd d a
  | .gstat d a | .tkstat d a | .wlatchRead d a | .wlatchSet d a | .lbrd d a | .wrecrd d a | .lifeset d a
  | .eqrd d a | .sigrd d a => { rd := [.s a], wr := [.s d] }
  | .ssel d a b f => { rd := [.s a, .s b, .f f], wr := [.s d] }
  | .scmp _ f a b => { rd := [.s a, .s b], wr := [.f f] }
  | .wrspc a n => { rd := [.s a], wr := [.spc n.toNat] }
  | .vtos d p | .ballot d p => { rd := [.p p], wr := [.s d] }
  | .stov p a => { rd := [.s a], wr := [.p p] }
  | .vote f p _ => { rd := [.p p], wr := [.f f] }
  | .iadd d a b | .isub d a b | .imul d a b | .imulhI d a b | .imulhN d a b | .iminI d a b | .iminN d a b
  | .imaxI d a b | .imaxN d a b | .iabsd d a b | .and d a b | .or d a b | .xor d a b | .andn d a b | .orn d a b
  | .xnor d a b | .shl d a b | .shr d a b | .sra d a b | .rotl d a b | .bfeI d a b | .bfeN d a b | .fadd d a b
  | .fsub d a b | .fmul d a b | .fmin d a b | .fmax d a b | .fminm d a b | .fmaxm d a b | .faddF16x2 d a b
  | .faddBf16x2 d a b | .fsubF16x2 d a b | .fsubBf16x2 d a b | .fmulF16x2 d a b | .fmulBf16x2 d a b
  | .fminF16x2 d a b | .fminBf16x2 d a b | .fmaxF16x2 d a b | .fmaxBf16x2 d a b | .sel d a b | .lxchPick d a b
  | .lxchRot d a b | .lxchSlide d a b | .lxchRev d a b => { rd := [.v a 1, .v b 1], wr := [.v d 1] }
  | .iaddc d a b | .isubb d a b => { rd := [.v a 1, .v b 1, .p 7#3], wr := [.v d 1, .p 7#3] }
  | .imad d a b | .bfi d a b | .ffma d a b | .ffmaF16x2 d a b | .ffmaBf16x2 d a b | .idot4I8 d a b
  | .idot4N8 d a b | .idot4In d a b | .fdot2F16 d a b | .fdot2Bf16 d a b | .ldot4L6 d a b => { rd := [.v d 1, .v a 1, .v b 1], wr := [.v d 1] }
  | .popc d a | .clz d a | .brev d a | .mov d a | .iaddi d a _ | .imuli d a _ | .andi d a _ | .ori d a _
  | .xori d a _ | .shli d a _ | .shri d a _ | .srai d a _ | .rotli d a _ | .fclass d a | .frcp d a | .fsqrt d a
  | .frsq d a | .fexp2 d a | .flog2 d a | .cvt _ d a _ | .qswx d a | .qswy d a | .qswd d a | .qbcast d a _
  | .gredAddI d a | .gredAddF d a | .gredMinI d a | .gredMinF d a | .gredMaxI d a | .gredMaxF d a
  | .gscanAddI d a | .gscanAddF d a => { rd := [.v a 1], wr := [.v d 1] }
  | .icmp _ p a b | .fcmp _ p a b => { rd := [.v a 1, .v b 1], wr := [.p p] }
  | .movi d _ | .moviF16 d _ | .moviBf16 d _ => { rd := [], wr := [.v d 1] }
  | .moviHi d _ => { rd := [.v d 1], wr := [.v d 1] }
  | .cvtsF32F8a d a b | .cvtsF32F8b d a b | .cvtsF32L6 d a b | .cvtsF8aF32 d a b | .cvtsF8bF32 d a b
  | .cvtsL6F32 d a b => { rd := [.v a 1, .s b], wr := [.v d 1] }
  | .pand d a b | .por d a b | .pxor d a b => { rd := [.p a, .p b], wr := [.p d] }
  | .pnot d a | .pmov d a => { rd := [.p a], wr := [.p d] }
  | .xferGet d a b => { rd := [.v a 1, .s b], wr := [.s d] }
  | .xferFirst d a => { rd := [.v a 1], wr := [.s d] }
  | .xferPut d a _ => { rd := [.s a], wr := [.v d 1] }
  | .ldP z d s v _ | .ldS z d s v _ | .ldC z d s v _ | .ldK z d s v _ | .ldG z d s v _ => { rd := [.s s, .v v 1], wr := [.v d (sizeRegs z)] }
  | .stP z d s v _ | .stS z d s v _ | .stC z d s v _ | .stK z d s v _ | .stG z d s v _ => { rd := [.s s, .v v 1, .v d (sizeRegs z)], wr := [] }
  | .atomAdd d s v | .atomMinI d s v | .atomMinN d s v | .atomMaxI d s v | .atomMaxN d s v | .atomAnd d s v
  | .atomOr d s v | .atomXor d s v | .atomXchg d s v | .atomAddF32 d s v => { rd := [.s s, .v v 1, .v d 1], wr := [.v d 1] }
  | .atomCas d s v => { rd := [.s s, .v v 1, .v (d ++ 0#1) 2], wr := [.v (d ++ 0#1) 1] }
  | .redAdd d s v | .redMinI d s v | .redMinN d s v | .redMaxI d s v | .redMaxN d s v | .redAnd d s v
  | .redOr d s v | .redXor d s v | .redAddF32 d s v | .sta d s v _ | .relst d s v _ => { rd := [.s s, .v v 1, .v d 1], wr := [] }
  | .ldu d s | .bara d s => { rd := [.s s], wr := [.s d] }
  | .stu d s => { rd := [.s s, .s d], wr := [] }
  | .lda d s v _ | .acqld d s v _ => { rd := [.s s, .v v 1], wr := [.v d 1] }
  | .prefL1 s v _ | .prefL2 s v _ => { rd := [.s s, .v v 1], wr := [] }
  | .barw s | .marm s => { rd := [.s s], wr := [] }
  | .bart a s => { rd := [.s a, .s s], wr := [] }
  | .mwaitNe d s | .mwaitGe d s => { rd := [.s s, .s d], wr := [.s d] }
  | .adecl _ s l => { rd := [.s s, .s l], wr := [] }
  | .mlda _ a b | .mldb _ a b | .mtld _ a b | .mtst _ a b | .gwr a b | .gresume a b | .tlbiPage a b
  | .tlbiAsn a b | .tlbiWorld a b | .tlbiAll a b => { rd := [.s a, .s b], wr := [] }
  | .mtrv d _ b => { rd := [.s b], wr := [.v d 1] }
  | .mtwv _ a b => { rd := [.v a 1, .s b], wr := [] }
  | .cqpush d a => { rd := [.s (a ++ 0#2), .s (a ++ 1#2), .s (a ++ 2#2), .s (a ++ 3#2)], wr := [.s d] }
  | .diagst k a b => { rd := [.s k, .s a, .s b], wr := [] }
  | .diagld d a => { rd := [.s a, .s d], wr := [.s d] }
  | .issueGroup _ _ | .waitCountPromotion _ _ _ | .reconvergenceStackPop _ _ | .splitMerge _ _
  | .joinRelease _ _ | .groupSlotRelease _ _ | .loadValueBound _ | .storePerformed _ | .counterEnd _ _ _
  | .waitcRelease _ _ _ | .barrierRelease _ _ _ | .monitorWake _ _ _ | .monitorRemoteReread _ _ _
  | .engineRecall _ _ | .atomicSetWaitAcquire _ | .taskRestart _ | .taskCommit _ | .irrevocableTokenGrant _
  | .activeSetEntryFree _ | .matrixEntryStart _ _ | .pairArbiterGrant _ | .mmaOccupancyEnd _ | .mmaRetire _ _
  | .tileOpRetire _ _ | .reservationClearDone _ | .hintRequestTime _ | .slewWindowBegin _ | .rampStepEnd _
  | .holdExpiry _ | .copyAccept _ | .copyComplete _ _ | .streamFill _ _ | .streamReload _ _ | .pageWalk _ _ _ _
  | .remoteAccessArrival _ | .readData _ _ | .writeAck _ | .ticketReply _ _ | .busy _ | .busyResend _
  | .ticketTableFullResend _ | .ticketPost _ _ | .replayNotice _ | .requesterTicketTimeout _ _
  | .ownerTicketTimeout _ | .remoteResponseTimeout _ | .noticeRetentionExpiry _ | .tagRetentionExpiry _ _
  | .flitTransmit _ _ | .flitReceive _ _ | .creditReturn _ _ _ | .filler _ | .retryReplayTimeout _
  | .laneLockLoss _ _ | .correctedSymbolThreshold _ _ _ | .retrainStepComplete _ _ | .heartbeatSend _
  | .heartbeat _ | .heartbeatTimeout _ | .flitCounterExhaustion _ | .linkSecretTimeout _ | .keyPromote _ _
  | .reencryptionSweep _ _ | .dispatch | .dependenceCheck _ | .gridDoneWrite _ | .mailboxArrival _
  | .handlerAccept _ | .migrationPeriodEnd | .lineMigrate _ | .handlerActivation _ | .preemptionDeadline _
  | .cooperativeSave _ | .forcedSaveComplete _ | .shadowPlaceRelease _ _ | .waitProbe _ _ _ | .probeForward _
  | .wearSample _ _ | .recordCommit _ | .fallowEntry _ | .fallowWake _ | .callupPowerupDone _
  | .callupSelftestDone _ _ | .callupSave _ | .callupMapUpdate _ | .boostGrantEnd _ | .drainWindowOpen _
  | .frequencySwitch _ | .frequencyResume _ | .timeSyncPulse | .currentWindow _ _ _ | .energyMeasure _ _ _
  | .timeBudgetPeriod | .supplyLossWarning | .fastThrottleAlarm | .fastThrottleClear | .gatingCommitWindowEnd _
  | .worldLatchClearDone _ | .correctedError _ | .targetedSelfTest _ _ | .uncorrectableError _ | .scrub _
  | .checkpoint _ _ | .reset | .bringupStageComplete _ | .hostMemoryRequest _ | .hostAtomicop _ _
  | .hostConfigRequest _ _ _ | .getMeasurements _ _ | .keyExchange _ _ _ | .finish _ | .keyUpdate _ _
  | .endSession _ | .lock _ | .start _ _ _ | .stop _ | .sessionConfigWrite _ | .mgmtReadAbjstat _
  | .mgmtReadErrorLog _ | .mgmtReadTimeBudget _ | .mgmtReadMixedAtomicCounter _ | .mgmtReadParameter _
  | .mgmtReadFrameWorldEntry _ | .mgmtReadRouteEntry _ | .setTimeBudget _ | .frameAssign _ | .frameUnassign _
  | .setHandlerTableEntry _ | .killWaitCycle _ | .reformatFrameGranule _ | .setRouteTable _
  | .setAttestationPolicy _ | .setOwnerWindow _ | .setPortConfiguration _ | .postTicketOutcome _
  | .installBootBinding _ | .setParameter _ | .mgmtPreemptionRequest _ | .mgmtPreemptionWithdraw _
  | .resetPort _ | .mgmtUnassignedOp _ | .instructionFetch _ _ _ | .cxlCompleterAck _ | .allotmentClearDone _
  | .contextRestoreComplete _ | .commandComplete | .hostLinkRecovery _ _ => { rd := [], wr := [] }

/-- The codes and numbers of a word that R66, R70 to R74 assign: sizes, conditions, modes, formats, clamp, scope,
special registers, and operands an instruction names illegal (R74, R167, R269). BRF F0 with sense 0 is written BRA (R96). -/
def Instr.codesOk : Instr → Bool
  | .modArithmetic _ _ _ _ l _ _ _ _ _ => decide (l.toNat ≠ 3)
  | .modMemory _ _ s _ _ => decide (s.toNat ≤ 5)
  | .brf s f _ => decide (¬ (s = 0 ∧ f = 0))
  | .loop d _ => decide (d ≠ 0)
  | .scmp n _ _ _ => decide (n.toNat ≤ 9)
  | .rdspc _ n => decide (n.toNat ≤ 19 ∨ (128 ≤ n.toNat ∧ n.toNat ≤ 136))
  | .wrspc _ n => decide (n.toNat = 13)
  | .vote _ _ m => decide (m.toNat ≤ 5)
  | .icmp n _ _ _ => decide (n.toNat ≤ 9)
  | .cvt x _ _ s => decide (x ≠ s ∧ x.toNat ≤ 12 ∧ s.toNat ≤ 12 ∧ (x.toNat = 6 → s.toNat = 0) ∧ (s.toNat = 6 → x.toNat = 0))
  | .ldP z _ _ _ _ => decide (z.toNat ≤ 6)
  | .stP z _ _ _ _ => decide (z.toNat ≤ 4)
  | .ldS z _ _ _ _ => decide (z.toNat ≤ 6)
  | .stS z _ _ _ _ => decide (z.toNat ≤ 4)
  | .ldC z _ _ _ _ => decide (z.toNat ≤ 6)
  | .stC z _ _ _ _ => decide (z.toNat ≤ 4)
  | .ldK z _ _ _ _ => decide (z.toNat ≤ 6)
  | .stK z _ _ _ _ => decide (z.toNat ≤ 4)
  | .ldG z _ _ _ _ => decide (z.toNat ≤ 6)
  | .stG z _ _ _ _ => decide (z.toNat ≤ 4)
  | .mwaitNe d _ => decide (d ≠ 0)
  | .mwaitGe d _ => decide (d ≠ 0)
  | .cqpush _ a => decide (a ≠ 0)
  | .nop | .exit | .ret | .join | .jmpi _ | .calli _ | .yld | .trap _ | .tret | .elect _ | .probe _ | .bra _
  | .brv _ _ _ | .call _ | .waitc _ _ _ _ | .sadd _ _ _ | .ssub _ _ _ | .smul _ _ _ | .sand _ _ _ | .sor _ _ _
  | .sxor _ _ _ | .sandn _ _ _ | .sshl _ _ _ | .sshr _ _ _ | .ssra _ _ _ | .smin _ _ _ | .smax _ _ _
  | .smov _ _ | .ssel _ _ _ _ | .sli _ _ _ | .saddi _ _ _ | .vtos _ _ | .stov _ _ | .ballot _ _ | .sigchk _
  | .iadd _ _ _ | .isub _ _ _ | .iaddc _ _ _ | .isubb _ _ _ | .imul _ _ _ | .imulhI _ _ _ | .imulhN _ _ _
  | .imad _ _ _ | .iminI _ _ _ | .iminN _ _ _ | .imaxI _ _ _ | .imaxN _ _ _ | .iabsd _ _ _ | .popc _ _
  | .clz _ _ | .brev _ _ | .and _ _ _ | .or _ _ _ | .xor _ _ _ | .andn _ _ _ | .orn _ _ _ | .xnor _ _ _
  | .shl _ _ _ | .shr _ _ _ | .sra _ _ _ | .rotl _ _ _ | .bfeI _ _ _ | .bfeN _ _ _ | .bfi _ _ _ | .mov _ _
  | .iaddi _ _ _ | .imuli _ _ _ | .andi _ _ _ | .ori _ _ _ | .xori _ _ _ | .shli _ _ _ | .shri _ _ _
  | .srai _ _ _ | .rotli _ _ _ | .fcmp _ _ _ _ | .movi _ _ | .moviHi _ _ | .moviF16 _ _ | .moviBf16 _ _
  | .fadd _ _ _ | .fsub _ _ _ | .fmul _ _ _ | .ffma _ _ _ | .fmin _ _ _ | .fmax _ _ _ | .fminm _ _ _
  | .fmaxm _ _ _ | .fclass _ _ | .frcp _ _ | .fsqrt _ _ | .frsq _ _ | .fexp2 _ _ | .flog2 _ _
  | .faddF16x2 _ _ _ | .faddBf16x2 _ _ _ | .fsubF16x2 _ _ _ | .fsubBf16x2 _ _ _ | .fmulF16x2 _ _ _
  | .fmulBf16x2 _ _ _ | .ffmaF16x2 _ _ _ | .ffmaBf16x2 _ _ _ | .fminF16x2 _ _ _ | .fminBf16x2 _ _ _
  | .fmaxF16x2 _ _ _ | .fmaxBf16x2 _ _ _ | .idot4I8 _ _ _ | .idot4N8 _ _ _ | .idot4In _ _ _ | .fdot2F16 _ _ _
  | .fdot2Bf16 _ _ _ | .ldot4L6 _ _ _ | .cvtsF32F8a _ _ _ | .cvtsF32F8b _ _ _ | .cvtsF32L6 _ _ _
  | .cvtsF8aF32 _ _ _ | .cvtsF8bF32 _ _ _ | .cvtsL6F32 _ _ _ | .sel _ _ _ | .pand _ _ _ | .por _ _ _
  | .pxor _ _ _ | .pnot _ _ | .pmov _ _ | .lxchPick _ _ _ | .lxchRot _ _ _ | .lxchSlide _ _ _ | .lxchRev _ _ _
  | .qswx _ _ | .qswy _ _ | .qswd _ _ | .qbcast _ _ _ | .gredAddI _ _ | .gredAddF _ _ | .gredMinI _ _
  | .gredMinF _ _ | .gredMaxI _ _ | .gredMaxF _ _ | .gscanAddI _ _ | .gscanAddF _ _ | .xferGet _ _ _
  | .xferFirst _ _ | .xferPut _ _ _ | .atomAdd _ _ _ | .atomMinI _ _ _ | .atomMinN _ _ _ | .atomMaxI _ _ _
  | .atomMaxN _ _ _ | .atomAnd _ _ _ | .atomOr _ _ _ | .atomXor _ _ _ | .atomXchg _ _ _ | .atomAddF32 _ _ _
  | .atomCas _ _ _ | .redAdd _ _ _ | .redMinI _ _ _ | .redMinN _ _ _ | .redMaxI _ _ _ | .redMaxN _ _ _
  | .redAnd _ _ _ | .redOr _ _ _ | .redXor _ _ _ | .redAddF32 _ _ _ | .ldu _ _ | .stu _ _ | .lda _ _ _ _
  | .sta _ _ _ _ | .prefL1 _ _ _ | .prefL2 _ _ _ | .acqld _ _ _ _ | .relst _ _ _ _ | .barw _ | .bara _ _
  | .bart _ _ | .marm _ | .adecl _ _ _ | .astat _ | .airrev | .mma _ _ _ _ _ _ _ _ | .mres _ _ _ | .mrel _
  | .mlda _ _ _ | .mldb _ _ _ | .mshape _ _ | .mzero _ | .mtld _ _ _ | .mtst _ _ _ | .mtrv _ _ _ | .mtwv _ _ _
  | .mhint _ | .mxcntExceptions _ _ | .mxcntPrune _ _ | .mpair _ | .cqinit _ _ | .cqpub _ _ | .cqstage _
  | .cqwptr _ _ | .cqstat _ | .lprog _ _ _ | .sopen _ _ _ | .sclose _ | .sskip _ _ | .sstat _ _ | .lnch _ _
  | .mbindBind _ _ _ | .mbindUnbind _ _ _ | .mboxqRead _ _ | .mboxqClearOverflow _ _ | .mboxqDiscardPending _ _
  | .qcfgConfigure _ _ _ | .qcfgDisable _ _ _ | .qcfgMask _ _ _ | .qcfgRead _ _ _ | .grd _ _ | .gwr _ _
  | .gstat _ _ | .gresume _ _ | .gkill _ | .tlbiPage _ _ | .tlbiAsn _ _ | .tlbiWorld _ _ | .tlbiAll _ _
  | .tkstat _ _ | .wlatchRead _ _ | .wlatchSet _ _ | .diagst _ _ _ | .diagld _ _ | .boostGrant _ _ _
  | .boostEnd _ _ _ | .lbrd _ _ | .wrecrd _ _ | .lifeset _ _ | .eqrd _ _ | .rdnBegin _ | .rdnCkpt | .rdnEnd
  | .sigrd _ _ => true
  | .issueGroup _ _ | .waitCountPromotion _ _ _ | .reconvergenceStackPop _ _ | .splitMerge _ _
  | .joinRelease _ _ | .groupSlotRelease _ _ | .loadValueBound _ | .storePerformed _ | .counterEnd _ _ _
  | .waitcRelease _ _ _ | .barrierRelease _ _ _ | .monitorWake _ _ _ | .monitorRemoteReread _ _ _
  | .engineRecall _ _ | .atomicSetWaitAcquire _ | .taskRestart _ | .taskCommit _ | .irrevocableTokenGrant _
  | .activeSetEntryFree _ | .matrixEntryStart _ _ | .pairArbiterGrant _ | .mmaOccupancyEnd _ | .mmaRetire _ _
  | .tileOpRetire _ _ | .reservationClearDone _ | .hintRequestTime _ | .slewWindowBegin _ | .rampStepEnd _
  | .holdExpiry _ | .copyAccept _ | .copyComplete _ _ | .streamFill _ _ | .streamReload _ _ | .pageWalk _ _ _ _
  | .remoteAccessArrival _ | .readData _ _ | .writeAck _ | .ticketReply _ _ | .busy _ | .busyResend _
  | .ticketTableFullResend _ | .ticketPost _ _ | .replayNotice _ | .requesterTicketTimeout _ _
  | .ownerTicketTimeout _ | .remoteResponseTimeout _ | .noticeRetentionExpiry _ | .tagRetentionExpiry _ _
  | .flitTransmit _ _ | .flitReceive _ _ | .creditReturn _ _ _ | .filler _ | .retryReplayTimeout _
  | .laneLockLoss _ _ | .correctedSymbolThreshold _ _ _ | .retrainStepComplete _ _ | .heartbeatSend _
  | .heartbeat _ | .heartbeatTimeout _ | .flitCounterExhaustion _ | .linkSecretTimeout _ | .keyPromote _ _
  | .reencryptionSweep _ _ | .dispatch | .dependenceCheck _ | .gridDoneWrite _ | .mailboxArrival _
  | .handlerAccept _ | .migrationPeriodEnd | .lineMigrate _ | .handlerActivation _ | .preemptionDeadline _
  | .cooperativeSave _ | .forcedSaveComplete _ | .shadowPlaceRelease _ _ | .waitProbe _ _ _ | .probeForward _
  | .wearSample _ _ | .recordCommit _ | .fallowEntry _ | .fallowWake _ | .callupPowerupDone _
  | .callupSelftestDone _ _ | .callupSave _ | .callupMapUpdate _ | .boostGrantEnd _ | .drainWindowOpen _
  | .frequencySwitch _ | .frequencyResume _ | .timeSyncPulse | .currentWindow _ _ _ | .energyMeasure _ _ _
  | .timeBudgetPeriod | .supplyLossWarning | .fastThrottleAlarm | .fastThrottleClear | .gatingCommitWindowEnd _
  | .worldLatchClearDone _ | .correctedError _ | .targetedSelfTest _ _ | .uncorrectableError _ | .scrub _
  | .checkpoint _ _ | .reset | .bringupStageComplete _ | .hostMemoryRequest _ | .hostAtomicop _ _
  | .hostConfigRequest _ _ _ | .getMeasurements _ _ | .keyExchange _ _ _ | .finish _ | .keyUpdate _ _
  | .endSession _ | .lock _ | .start _ _ _ | .stop _ | .sessionConfigWrite _ | .mgmtReadAbjstat _
  | .mgmtReadErrorLog _ | .mgmtReadTimeBudget _ | .mgmtReadMixedAtomicCounter _ | .mgmtReadParameter _
  | .mgmtReadFrameWorldEntry _ | .mgmtReadRouteEntry _ | .setTimeBudget _ | .frameAssign _ | .frameUnassign _
  | .setHandlerTableEntry _ | .killWaitCycle _ | .reformatFrameGranule _ | .setRouteTable _
  | .setAttestationPolicy _ | .setOwnerWindow _ | .setPortConfiguration _ | .postTicketOutcome _
  | .installBootBinding _ | .setParameter _ | .mgmtPreemptionRequest _ | .mgmtPreemptionWithdraw _
  | .resetPort _ | .mgmtUnassignedOp _ | .instructionFetch _ _ _ | .cxlCompleterAck _ | .allotmentClearDone _
  | .contextRestoreComplete _ | .commandComplete | .hostLinkRecovery _ _ => true

/-- What R74 asks of a word by itself: its registers may be named where they stand, and its codes are assigned. Steps of the
device that are no words have nothing to ask. -/
def Instr.wf (i : Instr) : Bool :=
  i.regs.ok && i.codesOk

end Sys2Proof
end

