-- ==== Sys2Proof/Decode.lean ====
section
/-! DEFINITION. From the bits of a word to an instruction or a named refusal (R53 to R74), and back. The decoder is written
from the opcode map of R70 and the formats of R59: one function for each major opcode, which looks at the function field
first and then at the fields that must be zero. Bit 31 is the chain bit and no part of the instruction (R54). -/

namespace Sys2Proof

/-- Why a word is no instruction (R74): a major that is reserved, a function field that is not assigned, a field that must be
zero, a register that may not stand where it stands or a code that is not assigned. Each is an illegal-instruction trap. -/
inductive DecodeError where
  | reservedMajor
  | unassigned
  | fieldNotZero
  | operandIllegal
  deriving DecidableEq, Repr

/-- Major 0x3F: MOD, MOD (R70). -/
def decodeMajor3F (w : W32) : Except DecodeError Instr :=
  match (w.extractLsb' 24 1).toNat with
  | 0 => if w.extractLsb' 0 6 = 0#6 then .ok (.modArithmetic (w.extractLsb' 21 3) (w.extractLsb' 20 1) (w.extractLsb' 18 2) (w.extractLsb' 17 1) (w.extractLsb' 15 2) (w.extractLsb' 14 1) (w.extractLsb' 13 1) (w.extractLsb' 12 1) (w.extractLsb' 11 1) (w.extractLsb' 6 5)) else .error .fieldNotZero
  | 1 => .ok (.modMemory (w.extractLsb' 21 3) (w.extractLsb' 20 1) (w.extractLsb' 17 3) (w.extractLsb' 15 2) (w.extractLsb' 0 15))
  | _ => .error .unassigned

/-- Major 0x00: NOP, EXIT, RET, JOIN, JMPI, CALLI, YLD, TRAP, TRET, ELECT, PROBE (R70). -/
def decodeMajor00 (w : W32) : Except DecodeError Instr :=
  match (w.extractLsb' 21 4).toNat with
  | 0 => if w.extractLsb' 0 21 = 0#21 then .ok (.nop) else .error .fieldNotZero
  | 1 => if w.extractLsb' 0 21 = 0#21 then .ok (.exit) else .error .fieldNotZero
  | 2 => if w.extractLsb' 0 21 = 0#21 then .ok (.ret) else .error .fieldNotZero
  | 3 => if w.extractLsb' 0 21 = 0#21 then .ok (.join) else .error .fieldNotZero
  | 4 => if w.extractLsb' 15 6 = 0#6 ∧ w.extractLsb' 0 9 = 0#9 then .ok (.jmpi (w.extractLsb' 9 6)) else .error .fieldNotZero
  | 5 => if w.extractLsb' 15 6 = 0#6 ∧ w.extractLsb' 0 9 = 0#9 then .ok (.calli (w.extractLsb' 9 6)) else .error .fieldNotZero
  | 6 => if w.extractLsb' 0 21 = 0#21 then .ok (.yld) else .error .fieldNotZero
  | 7 => if w.extractLsb' 15 6 = 0#6 ∧ w.extractLsb' 0 3 = 0#3 then .ok (.trap (w.extractLsb' 3 12)) else .error .fieldNotZero
  | 8 => if w.extractLsb' 0 21 = 0#21 then .ok (.tret) else .error .fieldNotZero
  | 9 => if w.extractLsb' 0 15 = 0#15 then .ok (.elect (w.extractLsb' 15 6)) else .error .fieldNotZero
  | 10 => if w.extractLsb' 0 15 = 0#15 then .ok (.probe (w.extractLsb' 15 6)) else .error .fieldNotZero
  | _ => .error .unassigned

/-- Major 0x01: BRF, BRA (R70). -/
def decodeMajor01 (w : W32) : Except DecodeError Instr :=
  if w.extractLsb' 21 4 = 0#4 then .ok (.bra (w.extractLsb' 0 21))
  else .ok (.brf (w.extractLsb' 24 1) (w.extractLsb' 21 3) (w.extractLsb' 0 21))

/-- Major 0x02: BRV (R70). -/
def decodeMajor02 (w : W32) : Except DecodeError Instr :=
  .ok (.brv (w.extractLsb' 24 1) (w.extractLsb' 21 3) (w.extractLsb' 0 21))

/-- Major 0x03: CALL (R70). -/
def decodeMajor03 (w : W32) : Except DecodeError Instr :=
  if w.extractLsb' 21 4 = 0#4 then .ok (.call (w.extractLsb' 0 21)) else .error .fieldNotZero

/-- Major 0x04: LOOP (R70). -/
def decodeMajor04 (w : W32) : Except DecodeError Instr :=
  if w.extractLsb' 13 6 = 0#6 then .ok (.loop (w.extractLsb' 19 6) (w.extractLsb' 0 13)) else .error .fieldNotZero

/-- Major 0x05: WAITC (R70). -/
def decodeMajor05 (w : W32) : Except DecodeError Instr :=
  if w.extractLsb' 0 1 = 0#1 then .ok (.waitc (w.extractLsb' 19 6) (w.extractLsb' 13 6) (w.extractLsb' 7 6) (w.extractLsb' 1 6)) else .error .fieldNotZero

/-- Major 0x06: SADD, SSUB, SMUL, SAND, SOR, SXOR, SANDN, SSHL, SSHR, SSRA, SMIN, SMAX, SMOV, SSEL (R70). -/
def decodeMajor06 (w : W32) : Except DecodeError Instr :=
  match (w.extractLsb' 21 4).toNat with
  | 0 => if w.extractLsb' 0 3 = 0#3 then .ok (.sadd (w.extractLsb' 15 6) (w.extractLsb' 9 6) (w.extractLsb' 3 6)) else .error .fieldNotZero
  | 1 => if w.extractLsb' 0 3 = 0#3 then .ok (.ssub (w.extractLsb' 15 6) (w.extractLsb' 9 6) (w.extractLsb' 3 6)) else .error .fieldNotZero
  | 2 => if w.extractLsb' 0 3 = 0#3 then .ok (.smul (w.extractLsb' 15 6) (w.extractLsb' 9 6) (w.extractLsb' 3 6)) else .error .fieldNotZero
  | 3 => if w.extractLsb' 0 3 = 0#3 then .ok (.sand (w.extractLsb' 15 6) (w.extractLsb' 9 6) (w.extractLsb' 3 6)) else .error .fieldNotZero
  | 4 => if w.extractLsb' 0 3 = 0#3 then .ok (.sor (w.extractLsb' 15 6) (w.extractLsb' 9 6) (w.extractLsb' 3 6)) else .error .fieldNotZero
  | 5 => if w.extractLsb' 0 3 = 0#3 then .ok (.sxor (w.extractLsb' 15 6) (w.extractLsb' 9 6) (w.extractLsb' 3 6)) else .error .fieldNotZero
  | 6 => if w.extractLsb' 0 3 = 0#3 then .ok (.sandn (w.extractLsb' 15 6) (w.extractLsb' 9 6) (w.extractLsb' 3 6)) else .error .fieldNotZero
  | 7 => if w.extractLsb' 0 3 = 0#3 then .ok (.sshl (w.extractLsb' 15 6) (w.extractLsb' 9 6) (w.extractLsb' 3 6)) else .error .fieldNotZero
  | 8 => if w.extractLsb' 0 3 = 0#3 then .ok (.sshr (w.extractLsb' 15 6) (w.extractLsb' 9 6) (w.extractLsb' 3 6)) else .error .fieldNotZero
  | 9 => if w.extractLsb' 0 3 = 0#3 then .ok (.ssra (w.extractLsb' 15 6) (w.extractLsb' 9 6) (w.extractLsb' 3 6)) else .error .fieldNotZero
  | 10 => if w.extractLsb' 0 3 = 0#3 then .ok (.smin (w.extractLsb' 15 6) (w.extractLsb' 9 6) (w.extractLsb' 3 6)) else .error .fieldNotZero
  | 11 => if w.extractLsb' 0 3 = 0#3 then .ok (.smax (w.extractLsb' 15 6) (w.extractLsb' 9 6) (w.extractLsb' 3 6)) else .error .fieldNotZero
  | 12 => if w.extractLsb' 0 9 = 0#9 then .ok (.smov (w.extractLsb' 15 6) (w.extractLsb' 9 6)) else .error .fieldNotZero
  | 13 => .ok (.ssel (w.extractLsb' 15 6) (w.extractLsb' 9 6) (w.extractLsb' 3 6) (w.extractLsb' 0 3))
  | _ => .error .unassigned

/-- Major 0x07: SLI (R70). -/
def decodeMajor07 (w : W32) : Except DecodeError Instr :=
  if w.extractLsb' 16 1 = 0#1 then .ok (.sli (w.extractLsb' 19 6) (w.extractLsb' 17 2) (w.extractLsb' 0 16)) else .error .fieldNotZero

/-- Major 0x08: SCMP (R70). -/
def decodeMajor08 (w : W32) : Except DecodeError Instr :=
  if w.extractLsb' 18 3 = 0#3 ∧ w.extractLsb' 0 3 = 0#3 then .ok (.scmp (w.extractLsb' 21 4) (w.extractLsb' 15 3) (w.extractLsb' 9 6) (w.extractLsb' 3 6)) else .error .fieldNotZero

/-- Major 0x09: SADDI (R70). -/
def decodeMajor09 (w : W32) : Except DecodeError Instr :=
  .ok (.saddi (w.extractLsb' 19 6) (w.extractLsb' 13 6) (w.extractLsb' 0 13))

/-- Major 0x0A: RDSPC, WRSPC, VTOS, STOV, BALLOT, VOTE (R70). -/
def decodeMajor0A (w : W32) : Except DecodeError Instr :=
  match (w.extractLsb' 21 4).toNat with
  | 0 => if w.extractLsb' 0 7 = 0#7 then .ok (.rdspc (w.extractLsb' 15 6) (w.extractLsb' 7 8)) else .error .fieldNotZero
  | 1 => if w.extractLsb' 0 7 = 0#7 then .ok (.wrspc (w.extractLsb' 15 6) (w.extractLsb' 7 8)) else .error .fieldNotZero
  | 2 => if w.extractLsb' 12 3 = 0#3 ∧ w.extractLsb' 0 9 = 0#9 then .ok (.vtos (w.extractLsb' 15 6) (w.extractLsb' 9 3)) else .error .fieldNotZero
  | 3 => if w.extractLsb' 18 3 = 0#3 ∧ w.extractLsb' 0 9 = 0#9 then .ok (.stov (w.extractLsb' 15 3) (w.extractLsb' 9 6)) else .error .fieldNotZero
  | 4 => if w.extractLsb' 12 3 = 0#3 ∧ w.extractLsb' 0 9 = 0#9 then .ok (.ballot (w.extractLsb' 15 6) (w.extractLsb' 9 3)) else .error .fieldNotZero
  | 5 => if w.extractLsb' 18 3 = 0#3 ∧ w.extractLsb' 12 3 = 0#3 ∧ w.extractLsb' 0 3 = 0#3 then .ok (.vote (w.extractLsb' 15 3) (w.extractLsb' 9 3) (w.extractLsb' 3 6)) else .error .fieldNotZero
  | _ => .error .unassigned

/-- Major 0x0B: SIGCHK (R70). -/
def decodeMajor0B (w : W32) : Except DecodeError Instr :=
  if w.extractLsb' 16 9 = 0#9 then .ok (.sigchk (w.extractLsb' 0 16)) else .error .fieldNotZero

/-- Major 0x10: IADD, ISUB, IADDC, ISUBB, IMUL, IMULH.i, IMULH.n, IMAD, IMIN.i, IMIN.n, IMAX.i, IMAX.n, IABSD, POPC, CLZ, BREV (R70). -/
def decodeMajor10 (w : W32) : Except DecodeError Instr :=
  match (w.extractLsb' 21 4).toNat with
  | 0 => .ok (.iadd (w.extractLsb' 14 7) (w.extractLsb' 7 7) (w.extractLsb' 0 7))
  | 1 => .ok (.isub (w.extractLsb' 14 7) (w.extractLsb' 7 7) (w.extractLsb' 0 7))
  | 2 => .ok (.iaddc (w.extractLsb' 14 7) (w.extractLsb' 7 7) (w.extractLsb' 0 7))
  | 3 => .ok (.isubb (w.extractLsb' 14 7) (w.extractLsb' 7 7) (w.extractLsb' 0 7))
  | 4 => .ok (.imul (w.extractLsb' 14 7) (w.extractLsb' 7 7) (w.extractLsb' 0 7))
  | 5 => .ok (.imulhI (w.extractLsb' 14 7) (w.extractLsb' 7 7) (w.extractLsb' 0 7))
  | 6 => .ok (.imulhN (w.extractLsb' 14 7) (w.extractLsb' 7 7) (w.extractLsb' 0 7))
  | 7 => .ok (.imad (w.extractLsb' 14 7) (w.extractLsb' 7 7) (w.extractLsb' 0 7))
  | 8 => .ok (.iminI (w.extractLsb' 14 7) (w.extractLsb' 7 7) (w.extractLsb' 0 7))
  | 9 => .ok (.iminN (w.extractLsb' 14 7) (w.extractLsb' 7 7) (w.extractLsb' 0 7))
  | 10 => .ok (.imaxI (w.extractLsb' 14 7) (w.extractLsb' 7 7) (w.extractLsb' 0 7))
  | 11 => .ok (.imaxN (w.extractLsb' 14 7) (w.extractLsb' 7 7) (w.extractLsb' 0 7))
  | 12 => .ok (.iabsd (w.extractLsb' 14 7) (w.extractLsb' 7 7) (w.extractLsb' 0 7))
  | 13 => if w.extractLsb' 0 7 = 0#7 then .ok (.popc (w.extractLsb' 14 7) (w.extractLsb' 7 7)) else .error .fieldNotZero
  | 14 => if w.extractLsb' 0 7 = 0#7 then .ok (.clz (w.extractLsb' 14 7) (w.extractLsb' 7 7)) else .error .fieldNotZero
  | 15 => if w.extractLsb' 0 7 = 0#7 then .ok (.brev (w.extractLsb' 14 7) (w.extractLsb' 7 7)) else .error .fieldNotZero
  | _ => .error .unassigned

/-- Major 0x11: AND, OR, XOR, ANDN, ORN, XNOR, SHL, SHR, SRA, ROTL, BFE.i, BFE.n, BFI, MOV (R70). -/
def decodeMajor11 (w : W32) : Except DecodeError Instr :=
  match (w.extractLsb' 21 4).toNat with
  | 0 => .ok (.and (w.extractLsb' 14 7) (w.extractLsb' 7 7) (w.extractLsb' 0 7))
  | 1 => .ok (.or (w.extractLsb' 14 7) (w.extractLsb' 7 7) (w.extractLsb' 0 7))
  | 2 => .ok (.xor (w.extractLsb' 14 7) (w.extractLsb' 7 7) (w.extractLsb' 0 7))
  | 3 => .ok (.andn (w.extractLsb' 14 7) (w.extractLsb' 7 7) (w.extractLsb' 0 7))
  | 4 => .ok (.orn (w.extractLsb' 14 7) (w.extractLsb' 7 7) (w.extractLsb' 0 7))
  | 5 => .ok (.xnor (w.extractLsb' 14 7) (w.extractLsb' 7 7) (w.extractLsb' 0 7))
  | 6 => .ok (.shl (w.extractLsb' 14 7) (w.extractLsb' 7 7) (w.extractLsb' 0 7))
  | 7 => .ok (.shr (w.extractLsb' 14 7) (w.extractLsb' 7 7) (w.extractLsb' 0 7))
  | 8 => .ok (.sra (w.extractLsb' 14 7) (w.extractLsb' 7 7) (w.extractLsb' 0 7))
  | 9 => .ok (.rotl (w.extractLsb' 14 7) (w.extractLsb' 7 7) (w.extractLsb' 0 7))
  | 10 => .ok (.bfeI (w.extractLsb' 14 7) (w.extractLsb' 7 7) (w.extractLsb' 0 7))
  | 11 => .ok (.bfeN (w.extractLsb' 14 7) (w.extractLsb' 7 7) (w.extractLsb' 0 7))
  | 12 => .ok (.bfi (w.extractLsb' 14 7) (w.extractLsb' 7 7) (w.extractLsb' 0 7))
  | 13 => if w.extractLsb' 0 7 = 0#7 then .ok (.mov (w.extractLsb' 14 7) (w.extractLsb' 7 7)) else .error .fieldNotZero
  | _ => .error .unassigned

/-- Major 0x12: IADDI (R70). -/
def decodeMajor12 (w : W32) : Except DecodeError Instr :=
  .ok (.iaddi (w.extractLsb' 18 7) (w.extractLsb' 11 7) (w.extractLsb' 0 11))

/-- Major 0x13: IMULI (R70). -/
def decodeMajor13 (w : W32) : Except DecodeError Instr :=
  .ok (.imuli (w.extractLsb' 18 7) (w.extractLsb' 11 7) (w.extractLsb' 0 11))

/-- Major 0x14: ANDI (R70). -/
def decodeMajor14 (w : W32) : Except DecodeError Instr :=
  .ok (.andi (w.extractLsb' 18 7) (w.extractLsb' 11 7) (w.extractLsb' 0 11))

/-- Major 0x15: ORI (R70). -/
def decodeMajor15 (w : W32) : Except DecodeError Instr :=
  .ok (.ori (w.extractLsb' 18 7) (w.extractLsb' 11 7) (w.extractLsb' 0 11))

/-- Major 0x16: XORI (R70). -/
def decodeMajor16 (w : W32) : Except DecodeError Instr :=
  .ok (.xori (w.extractLsb' 18 7) (w.extractLsb' 11 7) (w.extractLsb' 0 11))

/-- Major 0x17: SHLI, SHRI, SRAI, ROTLI (R70). -/
def decodeMajor17 (w : W32) : Except DecodeError Instr :=
  match (w.extractLsb' 9 2).toNat with
  | 0 => if w.extractLsb' 5 4 = 0#4 then .ok (.shli (w.extractLsb' 18 7) (w.extractLsb' 11 7) (w.extractLsb' 0 5)) else .error .fieldNotZero
  | 1 => if w.extractLsb' 5 4 = 0#4 then .ok (.shri (w.extractLsb' 18 7) (w.extractLsb' 11 7) (w.extractLsb' 0 5)) else .error .fieldNotZero
  | 2 => if w.extractLsb' 5 4 = 0#4 then .ok (.srai (w.extractLsb' 18 7) (w.extractLsb' 11 7) (w.extractLsb' 0 5)) else .error .fieldNotZero
  | 3 => if w.extractLsb' 5 4 = 0#4 then .ok (.rotli (w.extractLsb' 18 7) (w.extractLsb' 11 7) (w.extractLsb' 0 5)) else .error .fieldNotZero
  | _ => .error .unassigned

/-- Major 0x18: ICMP (R70). -/
def decodeMajor18 (w : W32) : Except DecodeError Instr :=
  if w.extractLsb' 17 4 = 0#4 then .ok (.icmp (w.extractLsb' 21 4) (w.extractLsb' 14 3) (w.extractLsb' 7 7) (w.extractLsb' 0 7)) else .error .fieldNotZero

/-- Major 0x19: FCMP (R70). -/
def decodeMajor19 (w : W32) : Except DecodeError Instr :=
  if w.extractLsb' 24 1 = 0#1 ∧ w.extractLsb' 17 4 = 0#4 then .ok (.fcmp (w.extractLsb' 21 3) (w.extractLsb' 14 3) (w.extractLsb' 7 7) (w.extractLsb' 0 7)) else .error .fieldNotZero

/-- Major 0x1A: MOVI, MOVI.hi, MOVI.f16, MOVI.bf16 (R70). -/
def decodeMajor1A (w : W32) : Except DecodeError Instr :=
  match (w.extractLsb' 16 2).toNat with
  | 0 => .ok (.movi (w.extractLsb' 18 7) (w.extractLsb' 0 16))
  | 1 => .ok (.moviHi (w.extractLsb' 18 7) (w.extractLsb' 0 16))
  | 2 => .ok (.moviF16 (w.extractLsb' 18 7) (w.extractLsb' 0 16))
  | 3 => .ok (.moviBf16 (w.extractLsb' 18 7) (w.extractLsb' 0 16))
  | _ => .error .unassigned

/-- Major 0x1B: FADD, FSUB, FMUL, FFMA, FMIN, FMAX, FMINM, FMAXM, FCLASS, FRCP, FSQRT, FRSQ, FEXP2, FLOG2 (R70). -/
def decodeMajor1B (w : W32) : Except DecodeError Instr :=
  match (w.extractLsb' 21 4).toNat with
  | 0 => .ok (.fadd (w.extractLsb' 14 7) (w.extractLsb' 7 7) (w.extractLsb' 0 7))
  | 1 => .ok (.fsub (w.extractLsb' 14 7) (w.extractLsb' 7 7) (w.extractLsb' 0 7))
  | 2 => .ok (.fmul (w.extractLsb' 14 7) (w.extractLsb' 7 7) (w.extractLsb' 0 7))
  | 3 => .ok (.ffma (w.extractLsb' 14 7) (w.extractLsb' 7 7) (w.extractLsb' 0 7))
  | 4 => .ok (.fmin (w.extractLsb' 14 7) (w.extractLsb' 7 7) (w.extractLsb' 0 7))
  | 5 => .ok (.fmax (w.extractLsb' 14 7) (w.extractLsb' 7 7) (w.extractLsb' 0 7))
  | 6 => .ok (.fminm (w.extractLsb' 14 7) (w.extractLsb' 7 7) (w.extractLsb' 0 7))
  | 7 => .ok (.fmaxm (w.extractLsb' 14 7) (w.extractLsb' 7 7) (w.extractLsb' 0 7))
  | 8 => if w.extractLsb' 0 7 = 0#7 then .ok (.fclass (w.extractLsb' 14 7) (w.extractLsb' 7 7)) else .error .fieldNotZero
  | 9 => if w.extractLsb' 0 7 = 0#7 then .ok (.frcp (w.extractLsb' 14 7) (w.extractLsb' 7 7)) else .error .fieldNotZero
  | 10 => if w.extractLsb' 0 7 = 0#7 then .ok (.fsqrt (w.extractLsb' 14 7) (w.extractLsb' 7 7)) else .error .fieldNotZero
  | 11 => if w.extractLsb' 0 7 = 0#7 then .ok (.frsq (w.extractLsb' 14 7) (w.extractLsb' 7 7)) else .error .fieldNotZero
  | 12 => if w.extractLsb' 0 7 = 0#7 then .ok (.fexp2 (w.extractLsb' 14 7) (w.extractLsb' 7 7)) else .error .fieldNotZero
  | 13 => if w.extractLsb' 0 7 = 0#7 then .ok (.flog2 (w.extractLsb' 14 7) (w.extractLsb' 7 7)) else .error .fieldNotZero
  | _ => .error .unassigned

/-- Major 0x1C: FADD.f16x2, FADD.bf16x2, FSUB.f16x2, FSUB.bf16x2, FMUL.f16x2, FMUL.bf16x2, FFMA.f16x2, FFMA.bf16x2, FMIN.f16x2, FMIN.bf16x2, FMAX.f16x2, FMAX.bf16x2 (R70). -/
def decodeMajor1C (w : W32) : Except DecodeError Instr :=
  match (w.extractLsb' 21 4).toNat with
  | 0 => .ok (.faddF16x2 (w.extractLsb' 14 7) (w.extractLsb' 7 7) (w.extractLsb' 0 7))
  | 1 => .ok (.faddBf16x2 (w.extractLsb' 14 7) (w.extractLsb' 7 7) (w.extractLsb' 0 7))
  | 2 => .ok (.fsubF16x2 (w.extractLsb' 14 7) (w.extractLsb' 7 7) (w.extractLsb' 0 7))
  | 3 => .ok (.fsubBf16x2 (w.extractLsb' 14 7) (w.extractLsb' 7 7) (w.extractLsb' 0 7))
  | 4 => .ok (.fmulF16x2 (w.extractLsb' 14 7) (w.extractLsb' 7 7) (w.extractLsb' 0 7))
  | 5 => .ok (.fmulBf16x2 (w.extractLsb' 14 7) (w.extractLsb' 7 7) (w.extractLsb' 0 7))
  | 6 => .ok (.ffmaF16x2 (w.extractLsb' 14 7) (w.extractLsb' 7 7) (w.extractLsb' 0 7))
  | 7 => .ok (.ffmaBf16x2 (w.extractLsb' 14 7) (w.extractLsb' 7 7) (w.extractLsb' 0 7))
  | 8 => .ok (.fminF16x2 (w.extractLsb' 14 7) (w.extractLsb' 7 7) (w.extractLsb' 0 7))
  | 9 => .ok (.fminBf16x2 (w.extractLsb' 14 7) (w.extractLsb' 7 7) (w.extractLsb' 0 7))
  | 10 => .ok (.fmaxF16x2 (w.extractLsb' 14 7) (w.extractLsb' 7 7) (w.extractLsb' 0 7))
  | 11 => .ok (.fmaxBf16x2 (w.extractLsb' 14 7) (w.extractLsb' 7 7) (w.extractLsb' 0 7))
  | _ => .error .unassigned

/-- Major 0x1D: IDOT4.i8, IDOT4.n8, IDOT4.in, FDOT2.f16, FDOT2.bf16, LDOT4.l6 (R70). -/
def decodeMajor1D (w : W32) : Except DecodeError Instr :=
  match (w.extractLsb' 21 4).toNat with
  | 0 => .ok (.idot4I8 (w.extractLsb' 14 7) (w.extractLsb' 7 7) (w.extractLsb' 0 7))
  | 1 => .ok (.idot4N8 (w.extractLsb' 14 7) (w.extractLsb' 7 7) (w.extractLsb' 0 7))
  | 2 => .ok (.idot4In (w.extractLsb' 14 7) (w.extractLsb' 7 7) (w.extractLsb' 0 7))
  | 3 => .ok (.fdot2F16 (w.extractLsb' 14 7) (w.extractLsb' 7 7) (w.extractLsb' 0 7))
  | 4 => .ok (.fdot2Bf16 (w.extractLsb' 14 7) (w.extractLsb' 7 7) (w.extractLsb' 0 7))
  | 5 => .ok (.ldot4L6 (w.extractLsb' 14 7) (w.extractLsb' 7 7) (w.extractLsb' 0 7))
  | _ => .error .unassigned

/-- Major 0x1E: CVT (R70). -/
def decodeMajor1E (w : W32) : Except DecodeError Instr :=
  if w.extractLsb' 4 3 = 0#3 then .ok (.cvt (w.extractLsb' 21 4) (w.extractLsb' 14 7) (w.extractLsb' 7 7) (w.extractLsb' 0 4)) else .error .fieldNotZero

/-- Major 0x1F: CVTS, CVTS, CVTS, CVTS, CVTS, CVTS (R70). -/
def decodeMajor1F (w : W32) : Except DecodeError Instr :=
  match (w.extractLsb' 21 4).toNat with
  | 0 => if w.extractLsb' 6 1 = 0#1 then .ok (.cvtsF32F8a (w.extractLsb' 14 7) (w.extractLsb' 7 7) (w.extractLsb' 0 6)) else .error .fieldNotZero
  | 1 => if w.extractLsb' 6 1 = 0#1 then .ok (.cvtsF32F8b (w.extractLsb' 14 7) (w.extractLsb' 7 7) (w.extractLsb' 0 6)) else .error .fieldNotZero
  | 2 => if w.extractLsb' 6 1 = 0#1 then .ok (.cvtsF32L6 (w.extractLsb' 14 7) (w.extractLsb' 7 7) (w.extractLsb' 0 6)) else .error .fieldNotZero
  | 3 => if w.extractLsb' 6 1 = 0#1 then .ok (.cvtsF8aF32 (w.extractLsb' 14 7) (w.extractLsb' 7 7) (w.extractLsb' 0 6)) else .error .fieldNotZero
  | 4 => if w.extractLsb' 6 1 = 0#1 then .ok (.cvtsF8bF32 (w.extractLsb' 14 7) (w.extractLsb' 7 7) (w.extractLsb' 0 6)) else .error .fieldNotZero
  | 5 => if w.extractLsb' 6 1 = 0#1 then .ok (.cvtsL6F32 (w.extractLsb' 14 7) (w.extractLsb' 7 7) (w.extractLsb' 0 6)) else .error .fieldNotZero
  | _ => .error .unassigned

/-- Major 0x20: SEL, PAND, POR, PXOR, PNOT, PMOV (R70). -/
def decodeMajor20 (w : W32) : Except DecodeError Instr :=
  match (w.extractLsb' 21 4).toNat with
  | 0 => .ok (.sel (w.extractLsb' 14 7) (w.extractLsb' 7 7) (w.extractLsb' 0 7))
  | 1 => if w.extractLsb' 17 4 = 0#4 ∧ w.extractLsb' 10 4 = 0#4 ∧ w.extractLsb' 3 4 = 0#4 then .ok (.pand (w.extractLsb' 14 3) (w.extractLsb' 7 3) (w.extractLsb' 0 3)) else .error .fieldNotZero
  | 2 => if w.extractLsb' 17 4 = 0#4 ∧ w.extractLsb' 10 4 = 0#4 ∧ w.extractLsb' 3 4 = 0#4 then .ok (.por (w.extractLsb' 14 3) (w.extractLsb' 7 3) (w.extractLsb' 0 3)) else .error .fieldNotZero
  | 3 => if w.extractLsb' 17 4 = 0#4 ∧ w.extractLsb' 10 4 = 0#4 ∧ w.extractLsb' 3 4 = 0#4 then .ok (.pxor (w.extractLsb' 14 3) (w.extractLsb' 7 3) (w.extractLsb' 0 3)) else .error .fieldNotZero
  | 4 => if w.extractLsb' 17 4 = 0#4 ∧ w.extractLsb' 10 4 = 0#4 ∧ w.extractLsb' 0 7 = 0#7 then .ok (.pnot (w.extractLsb' 14 3) (w.extractLsb' 7 3)) else .error .fieldNotZero
  | 5 => if w.extractLsb' 17 4 = 0#4 ∧ w.extractLsb' 10 4 = 0#4 ∧ w.extractLsb' 0 7 = 0#7 then .ok (.pmov (w.extractLsb' 14 3) (w.extractLsb' 7 3)) else .error .fieldNotZero
  | _ => .error .unassigned

/-- Major 0x21: LXCH.pick, LXCH.rot, LXCH.slide, LXCH.rev (R70). -/
def decodeMajor21 (w : W32) : Except DecodeError Instr :=
  match (w.extractLsb' 21 4).toNat with
  | 0 => .ok (.lxchPick (w.extractLsb' 14 7) (w.extractLsb' 7 7) (w.extractLsb' 0 7))
  | 1 => .ok (.lxchRot (w.extractLsb' 14 7) (w.extractLsb' 7 7) (w.extractLsb' 0 7))
  | 2 => .ok (.lxchSlide (w.extractLsb' 14 7) (w.extractLsb' 7 7) (w.extractLsb' 0 7))
  | 3 => .ok (.lxchRev (w.extractLsb' 14 7) (w.extractLsb' 7 7) (w.extractLsb' 0 7))
  | _ => .error .unassigned

/-- Major 0x22: QSWX, QSWY, QSWD, QBCAST (R70). -/
def decodeMajor22 (w : W32) : Except DecodeError Instr :=
  match (w.extractLsb' 21 4).toNat with
  | 0 => if w.extractLsb' 0 7 = 0#7 then .ok (.qswx (w.extractLsb' 14 7) (w.extractLsb' 7 7)) else .error .fieldNotZero
  | 1 => if w.extractLsb' 0 7 = 0#7 then .ok (.qswy (w.extractLsb' 14 7) (w.extractLsb' 7 7)) else .error .fieldNotZero
  | 2 => if w.extractLsb' 0 7 = 0#7 then .ok (.qswd (w.extractLsb' 14 7) (w.extractLsb' 7 7)) else .error .fieldNotZero
  | 3 => if w.extractLsb' 2 5 = 0#5 then .ok (.qbcast (w.extractLsb' 14 7) (w.extractLsb' 7 7) (w.extractLsb' 0 2)) else .error .fieldNotZero
  | _ => .error .unassigned

/-- Major 0x23: GRED.add.i, GRED.add.f, GRED.min.i, GRED.min.f, GRED.max.i, GRED.max.f, GSCAN.add.i, GSCAN.add.f (R70). -/
def decodeMajor23 (w : W32) : Except DecodeError Instr :=
  match (w.extractLsb' 21 4).toNat with
  | 0 => if w.extractLsb' 0 7 = 0#7 then .ok (.gredAddI (w.extractLsb' 14 7) (w.extractLsb' 7 7)) else .error .fieldNotZero
  | 1 => if w.extractLsb' 0 7 = 0#7 then .ok (.gredAddF (w.extractLsb' 14 7) (w.extractLsb' 7 7)) else .error .fieldNotZero
  | 2 => if w.extractLsb' 0 7 = 0#7 then .ok (.gredMinI (w.extractLsb' 14 7) (w.extractLsb' 7 7)) else .error .fieldNotZero
  | 3 => if w.extractLsb' 0 7 = 0#7 then .ok (.gredMinF (w.extractLsb' 14 7) (w.extractLsb' 7 7)) else .error .fieldNotZero
  | 4 => if w.extractLsb' 0 7 = 0#7 then .ok (.gredMaxI (w.extractLsb' 14 7) (w.extractLsb' 7 7)) else .error .fieldNotZero
  | 5 => if w.extractLsb' 0 7 = 0#7 then .ok (.gredMaxF (w.extractLsb' 14 7) (w.extractLsb' 7 7)) else .error .fieldNotZero
  | 6 => if w.extractLsb' 0 7 = 0#7 then .ok (.gscanAddI (w.extractLsb' 14 7) (w.extractLsb' 7 7)) else .error .fieldNotZero
  | 7 => if w.extractLsb' 0 7 = 0#7 then .ok (.gscanAddF (w.extractLsb' 14 7) (w.extractLsb' 7 7)) else .error .fieldNotZero
  | _ => .error .unassigned

/-- Major 0x24: XFER.get, XFER.first, XFER.put (R70). -/
def decodeMajor24 (w : W32) : Except DecodeError Instr :=
  match (w.extractLsb' 21 4).toNat with
  | 0 => if w.extractLsb' 20 1 = 0#1 ∧ w.extractLsb' 6 1 = 0#1 then .ok (.xferGet (w.extractLsb' 14 6) (w.extractLsb' 7 7) (w.extractLsb' 0 6)) else .error .fieldNotZero
  | 1 => if w.extractLsb' 20 1 = 0#1 ∧ w.extractLsb' 0 7 = 0#7 then .ok (.xferFirst (w.extractLsb' 14 6) (w.extractLsb' 7 7)) else .error .fieldNotZero
  | 2 => if w.extractLsb' 13 1 = 0#1 ∧ w.extractLsb' 5 2 = 0#2 then .ok (.xferPut (w.extractLsb' 14 7) (w.extractLsb' 7 6) (w.extractLsb' 0 5)) else .error .fieldNotZero
  | _ => .error .unassigned

/-- Major 0x28: LD.P (R70). -/
def decodeMajor28 (w : W32) : Except DecodeError Instr :=
  .ok (.ldP (w.extractLsb' 21 4) (w.extractLsb' 14 7) (w.extractLsb' 8 6) (w.extractLsb' 1 7) (w.extractLsb' 0 1))

/-- Major 0x29: ST.P (R70). -/
def decodeMajor29 (w : W32) : Except DecodeError Instr :=
  .ok (.stP (w.extractLsb' 21 4) (w.extractLsb' 14 7) (w.extractLsb' 8 6) (w.extractLsb' 1 7) (w.extractLsb' 0 1))

/-- Major 0x2A: LD.S (R70). -/
def decodeMajor2A (w : W32) : Except DecodeError Instr :=
  .ok (.ldS (w.extractLsb' 21 4) (w.extractLsb' 14 7) (w.extractLsb' 8 6) (w.extractLsb' 1 7) (w.extractLsb' 0 1))

/-- Major 0x2B: ST.S (R70). -/
def decodeMajor2B (w : W32) : Except DecodeError Instr :=
  .ok (.stS (w.extractLsb' 21 4) (w.extractLsb' 14 7) (w.extractLsb' 8 6) (w.extractLsb' 1 7) (w.extractLsb' 0 1))

/-- Major 0x2C: LD.C (R70). -/
def decodeMajor2C (w : W32) : Except DecodeError Instr :=
  .ok (.ldC (w.extractLsb' 21 4) (w.extractLsb' 14 7) (w.extractLsb' 8 6) (w.extractLsb' 1 7) (w.extractLsb' 0 1))

/-- Major 0x2D: ST.C (R70). -/
def decodeMajor2D (w : W32) : Except DecodeError Instr :=
  .ok (.stC (w.extractLsb' 21 4) (w.extractLsb' 14 7) (w.extractLsb' 8 6) (w.extractLsb' 1 7) (w.extractLsb' 0 1))

/-- Major 0x2E: LD.K (R70). -/
def decodeMajor2E (w : W32) : Except DecodeError Instr :=
  .ok (.ldK (w.extractLsb' 21 4) (w.extractLsb' 14 7) (w.extractLsb' 8 6) (w.extractLsb' 1 7) (w.extractLsb' 0 1))

/-- Major 0x2F: ST.K (R70). -/
def decodeMajor2F (w : W32) : Except DecodeError Instr :=
  .ok (.stK (w.extractLsb' 21 4) (w.extractLsb' 14 7) (w.extractLsb' 8 6) (w.extractLsb' 1 7) (w.extractLsb' 0 1))

/-- Major 0x30: LD.G (R70). -/
def decodeMajor30 (w : W32) : Except DecodeError Instr :=
  .ok (.ldG (w.extractLsb' 21 4) (w.extractLsb' 14 7) (w.extractLsb' 8 6) (w.extractLsb' 1 7) (w.extractLsb' 0 1))

/-- Major 0x31: ST.G (R70). -/
def decodeMajor31 (w : W32) : Except DecodeError Instr :=
  .ok (.stG (w.extractLsb' 21 4) (w.extractLsb' 14 7) (w.extractLsb' 8 6) (w.extractLsb' 1 7) (w.extractLsb' 0 1))

/-- Major 0x32: ATOM.add, ATOM.min.i, ATOM.min.n, ATOM.max.i, ATOM.max.n, ATOM.and, ATOM.or, ATOM.xor, ATOM.xchg, ATOM.add.f32, ATOM.cas, RED.add, RED.min.i, RED.min.n, RED.max.i, RED.max.n, RED.and, RED.or, RED.xor, RED.add.f32 (R70). -/
def decodeMajor32 (w : W32) : Except DecodeError Instr :=
  match (w.extractLsb' 21 4).toNat with
  | 0 => if w.extractLsb' 0 1 = 0#1 then .ok (.atomAdd (w.extractLsb' 14 7) (w.extractLsb' 8 6) (w.extractLsb' 1 7)) else .error .fieldNotZero
  | 1 => if w.extractLsb' 0 1 = 0#1 then .ok (.atomMinI (w.extractLsb' 14 7) (w.extractLsb' 8 6) (w.extractLsb' 1 7)) else .error .fieldNotZero
  | 2 => if w.extractLsb' 0 1 = 0#1 then .ok (.atomMinN (w.extractLsb' 14 7) (w.extractLsb' 8 6) (w.extractLsb' 1 7)) else .error .fieldNotZero
  | 3 => if w.extractLsb' 0 1 = 0#1 then .ok (.atomMaxI (w.extractLsb' 14 7) (w.extractLsb' 8 6) (w.extractLsb' 1 7)) else .error .fieldNotZero
  | 4 => if w.extractLsb' 0 1 = 0#1 then .ok (.atomMaxN (w.extractLsb' 14 7) (w.extractLsb' 8 6) (w.extractLsb' 1 7)) else .error .fieldNotZero
  | 5 => if w.extractLsb' 0 1 = 0#1 then .ok (.atomAnd (w.extractLsb' 14 7) (w.extractLsb' 8 6) (w.extractLsb' 1 7)) else .error .fieldNotZero
  | 6 => if w.extractLsb' 0 1 = 0#1 then .ok (.atomOr (w.extractLsb' 14 7) (w.extractLsb' 8 6) (w.extractLsb' 1 7)) else .error .fieldNotZero
  | 7 => if w.extractLsb' 0 1 = 0#1 then .ok (.atomXor (w.extractLsb' 14 7) (w.extractLsb' 8 6) (w.extractLsb' 1 7)) else .error .fieldNotZero
  | 8 => if w.extractLsb' 0 1 = 0#1 then .ok (.atomXchg (w.extractLsb' 14 7) (w.extractLsb' 8 6) (w.extractLsb' 1 7)) else .error .fieldNotZero
  | 9 => if w.extractLsb' 0 1 = 0#1 then .ok (.atomAddF32 (w.extractLsb' 14 7) (w.extractLsb' 8 6) (w.extractLsb' 1 7)) else .error .fieldNotZero
  | 10 => if w.extractLsb' 14 1 = 0#1 ∧ w.extractLsb' 0 1 = 0#1 then .ok (.atomCas (w.extractLsb' 15 6) (w.extractLsb' 8 6) (w.extractLsb' 1 7)) else .error .fieldNotZero
  | 11 => if w.extractLsb' 0 1 = 0#1 then .ok (.redAdd (w.extractLsb' 14 7) (w.extractLsb' 8 6) (w.extractLsb' 1 7)) else .error .fieldNotZero
  | 12 => if w.extractLsb' 0 1 = 0#1 then .ok (.redMinI (w.extractLsb' 14 7) (w.extractLsb' 8 6) (w.extractLsb' 1 7)) else if w.extractLsb' 0 1 = 1#1 then .ok (.redMinN (w.extractLsb' 14 7) (w.extractLsb' 8 6) (w.extractLsb' 1 7)) else .error .fieldNotZero
  | 13 => if w.extractLsb' 0 1 = 0#1 then .ok (.redMaxI (w.extractLsb' 14 7) (w.extractLsb' 8 6) (w.extractLsb' 1 7)) else if w.extractLsb' 0 1 = 1#1 then .ok (.redMaxN (w.extractLsb' 14 7) (w.extractLsb' 8 6) (w.extractLsb' 1 7)) else .error .fieldNotZero
  | 14 => if w.extractLsb' 0 1 = 0#1 then .ok (.redAnd (w.extractLsb' 14 7) (w.extractLsb' 8 6) (w.extractLsb' 1 7)) else if w.extractLsb' 0 1 = 1#1 then .ok (.redOr (w.extractLsb' 14 7) (w.extractLsb' 8 6) (w.extractLsb' 1 7)) else .error .fieldNotZero
  | 15 => if w.extractLsb' 0 1 = 0#1 then .ok (.redXor (w.extractLsb' 14 7) (w.extractLsb' 8 6) (w.extractLsb' 1 7)) else if w.extractLsb' 0 1 = 1#1 then .ok (.redAddF32 (w.extractLsb' 14 7) (w.extractLsb' 8 6) (w.extractLsb' 1 7)) else .error .fieldNotZero
  | _ => .error .unassigned

/-- Major 0x33: LDU, STU, LDA, STA, PREF.l1, PREF.l2, ACQLD, RELST, BARW, BARA, BART, MARM, MWAIT.ne, MWAIT.ge, ADECL, ASTAT, AIRREV (R70). -/
def decodeMajor33 (w : W32) : Except DecodeError Instr :=
  match (w.extractLsb' 21 4).toNat with
  | 0 => if w.extractLsb' 20 1 = 0#1 ∧ w.extractLsb' 0 8 = 254#8 then .ok (.ldu (w.extractLsb' 14 6) (w.extractLsb' 8 6)) else .error .fieldNotZero
  | 1 => if w.extractLsb' 20 1 = 0#1 ∧ w.extractLsb' 0 8 = 254#8 then .ok (.stu (w.extractLsb' 14 6) (w.extractLsb' 8 6)) else .error .fieldNotZero
  | 2 => .ok (.lda (w.extractLsb' 14 7) (w.extractLsb' 8 6) (w.extractLsb' 1 7) (w.extractLsb' 0 1))
  | 3 => .ok (.sta (w.extractLsb' 14 7) (w.extractLsb' 8 6) (w.extractLsb' 1 7) (w.extractLsb' 0 1))
  | 4 => if w.extractLsb' 14 7 = 0#7 then .ok (.prefL1 (w.extractLsb' 8 6) (w.extractLsb' 1 7) (w.extractLsb' 0 1)) else if w.extractLsb' 14 7 = 1#7 then .ok (.prefL2 (w.extractLsb' 8 6) (w.extractLsb' 1 7) (w.extractLsb' 0 1)) else .error .fieldNotZero
  | 5 => .ok (.acqld (w.extractLsb' 14 7) (w.extractLsb' 8 6) (w.extractLsb' 1 7) (w.extractLsb' 0 1))
  | 6 => .ok (.relst (w.extractLsb' 14 7) (w.extractLsb' 8 6) (w.extractLsb' 1 7) (w.extractLsb' 0 1))
  | 7 => if w.extractLsb' 14 7 = 0#7 ∧ w.extractLsb' 0 8 = 254#8 then .ok (.barw (w.extractLsb' 8 6)) else .error .fieldNotZero
  | 8 => if w.extractLsb' 20 1 = 0#1 ∧ w.extractLsb' 0 8 = 254#8 then .ok (.bara (w.extractLsb' 14 6) (w.extractLsb' 8 6)) else .error .fieldNotZero
  | 9 => if w.extractLsb' 20 1 = 0#1 ∧ w.extractLsb' 0 8 = 254#8 then .ok (.bart (w.extractLsb' 14 6) (w.extractLsb' 8 6)) else .error .fieldNotZero
  | 10 => if w.extractLsb' 14 7 = 0#7 ∧ w.extractLsb' 0 8 = 254#8 then .ok (.marm (w.extractLsb' 8 6)) else .error .fieldNotZero
  | 11 => if w.extractLsb' 20 1 = 0#1 ∧ w.extractLsb' 0 8 = 254#8 then .ok (.mwaitNe (w.extractLsb' 14 6) (w.extractLsb' 8 6)) else if w.extractLsb' 20 1 = 0#1 ∧ w.extractLsb' 0 8 = 255#8 then .ok (.mwaitGe (w.extractLsb' 14 6) (w.extractLsb' 8 6)) else .error .fieldNotZero
  | 12 => if w.extractLsb' 18 3 = 0#3 ∧ w.extractLsb' 7 1 = 0#1 ∧ w.extractLsb' 0 1 = 0#1 then .ok (.adecl (w.extractLsb' 14 4) (w.extractLsb' 8 6) (w.extractLsb' 1 6)) else .error .fieldNotZero
  | 13 => if w.extractLsb' 20 1 = 0#1 ∧ w.extractLsb' 0 14 = 0#14 then .ok (.astat (w.extractLsb' 14 6)) else .error .fieldNotZero
  | 14 => if w.extractLsb' 0 21 = 0#21 then .ok (.airrev) else .error .fieldNotZero
  | _ => .error .unassigned

/-- Major 0x34: MMA (R70). -/
def decodeMajor34 (w : W32) : Except DecodeError Instr :=
  if w.extractLsb' 0 4 = 0#4 then .ok (.mma (w.extractLsb' 23 2) (w.extractLsb' 19 4) (w.extractLsb' 15 4) (w.extractLsb' 14 1) (w.extractLsb' 13 1) (w.extractLsb' 12 1) (w.extractLsb' 8 4) (w.extractLsb' 4 4)) else .error .fieldNotZero

/-- Major 0x35: MRES, MREL, MLDA, MLDB, MSHAPE, MZERO, MTLD, MTST, MTRV, MTWV, MHINT, MXCNT, MXCNT, MPAIR (R70). -/
def decodeMajor35 (w : W32) : Except DecodeError Instr :=
  match (w.extractLsb' 21 4).toNat with
  | 0 => if w.extractLsb' 20 1 = 0#1 ∧ w.extractLsb' 13 1 = 0#1 ∧ w.extractLsb' 4 3 = 0#3 then .ok (.mres (w.extractLsb' 14 6) (w.extractLsb' 7 6) (w.extractLsb' 0 4)) else .error .fieldNotZero
  | 1 => if w.extractLsb' 4 17 = 0#17 then .ok (.mrel (w.extractLsb' 0 4)) else .error .fieldNotZero
  | 2 => if w.extractLsb' 18 3 = 0#3 ∧ w.extractLsb' 13 1 = 0#1 ∧ w.extractLsb' 6 1 = 0#1 then .ok (.mlda (w.extractLsb' 14 4) (w.extractLsb' 7 6) (w.extractLsb' 0 6)) else .error .fieldNotZero
  | 3 => if w.extractLsb' 18 3 = 0#3 ∧ w.extractLsb' 13 1 = 0#1 ∧ w.extractLsb' 6 1 = 0#1 then .ok (.mldb (w.extractLsb' 14 4) (w.extractLsb' 7 6) (w.extractLsb' 0 6)) else .error .fieldNotZero
  | 4 => if w.extractLsb' 18 3 = 0#3 ∧ w.extractLsb' 13 1 = 0#1 ∧ w.extractLsb' 0 7 = 0#7 then .ok (.mshape (w.extractLsb' 14 4) (w.extractLsb' 7 6)) else .error .fieldNotZero
  | 5 => if w.extractLsb' 16 5 = 0#5 ∧ w.extractLsb' 0 14 = 0#14 then .ok (.mzero (w.extractLsb' 14 2)) else .error .fieldNotZero
  | 6 => if w.extractLsb' 16 5 = 0#5 ∧ w.extractLsb' 13 1 = 0#1 ∧ w.extractLsb' 6 1 = 0#1 then .ok (.mtld (w.extractLsb' 14 2) (w.extractLsb' 7 6) (w.extractLsb' 0 6)) else .error .fieldNotZero
  | 7 => if w.extractLsb' 16 5 = 0#5 ∧ w.extractLsb' 13 1 = 0#1 ∧ w.extractLsb' 6 1 = 0#1 then .ok (.mtst (w.extractLsb' 14 2) (w.extractLsb' 7 6) (w.extractLsb' 0 6)) else .error .fieldNotZero
  | 8 => if w.extractLsb' 9 5 = 0#5 ∧ w.extractLsb' 6 1 = 0#1 then .ok (.mtrv (w.extractLsb' 14 7) (w.extractLsb' 7 2) (w.extractLsb' 0 6)) else .error .fieldNotZero
  | 9 => if w.extractLsb' 16 5 = 0#5 ∧ w.extractLsb' 6 1 = 0#1 then .ok (.mtwv (w.extractLsb' 14 2) (w.extractLsb' 7 7) (w.extractLsb' 0 6)) else .error .fieldNotZero
  | 10 => if w.extractLsb' 13 8 = 0#8 ∧ w.extractLsb' 0 7 = 0#7 then .ok (.mhint (w.extractLsb' 7 6)) else .error .fieldNotZero
  | 11 => if w.extractLsb' 20 1 = 0#1 ∧ w.extractLsb' 1 13 = 0#13 then .ok (.mxcntExceptions (w.extractLsb' 14 6) (w.extractLsb' 0 1)) else if w.extractLsb' 20 1 = 0#1 ∧ w.extractLsb' 1 13 = 64#13 then .ok (.mxcntPrune (w.extractLsb' 14 6) (w.extractLsb' 0 1)) else .error .fieldNotZero
  | 12 => if w.extractLsb' 20 1 = 0#1 ∧ w.extractLsb' 0 14 = 0#14 then .ok (.mpair (w.extractLsb' 14 6)) else .error .fieldNotZero
  | _ => .error .unassigned

/-- Major 0x36: CQINIT, CQPUSH, CQPUB, CQSTAGE, CQWPTR, CQSTAT, LPROG (R70). -/
def decodeMajor36 (w : W32) : Except DecodeError Instr :=
  match (w.extractLsb' 21 4).toNat with
  | 0 => if w.extractLsb' 20 1 = 0#1 ∧ w.extractLsb' 13 1 = 0#1 ∧ w.extractLsb' 0 7 = 0#7 then .ok (.cqinit (w.extractLsb' 14 6) (w.extractLsb' 7 6)) else .error .fieldNotZero
  | 1 => if w.extractLsb' 20 1 = 0#1 ∧ w.extractLsb' 13 1 = 0#1 ∧ w.extractLsb' 0 9 = 0#9 then .ok (.cqpush (w.extractLsb' 14 6) (w.extractLsb' 9 4)) else .error .fieldNotZero
  | 2 => if w.extractLsb' 20 1 = 0#1 ∧ w.extractLsb' 13 1 = 0#1 ∧ w.extractLsb' 0 7 = 0#7 then .ok (.cqpub (w.extractLsb' 14 6) (w.extractLsb' 7 6)) else .error .fieldNotZero
  | 3 => if w.extractLsb' 13 8 = 0#8 ∧ w.extractLsb' 0 7 = 0#7 then .ok (.cqstage (w.extractLsb' 7 6)) else .error .fieldNotZero
  | 4 => if w.extractLsb' 20 1 = 0#1 ∧ w.extractLsb' 13 1 = 0#1 ∧ w.extractLsb' 0 7 = 0#7 then .ok (.cqwptr (w.extractLsb' 14 6) (w.extractLsb' 7 6)) else .error .fieldNotZero
  | 5 => if w.extractLsb' 20 1 = 0#1 ∧ w.extractLsb' 0 14 = 0#14 then .ok (.cqstat (w.extractLsb' 14 6)) else .error .fieldNotZero
  | 6 => if w.extractLsb' 20 1 = 0#1 ∧ w.extractLsb' 13 1 = 0#1 ∧ w.extractLsb' 4 3 = 0#3 then .ok (.lprog (w.extractLsb' 14 6) (w.extractLsb' 7 6) (w.extractLsb' 0 4)) else .error .fieldNotZero
  | _ => .error .unassigned

/-- Major 0x37: SOPEN, SCLOSE, SSKIP, SSTAT (R70). -/
def decodeMajor37 (w : W32) : Except DecodeError Instr :=
  match (w.extractLsb' 21 4).toNat with
  | 0 => if w.extractLsb' 20 1 = 0#1 ∧ w.extractLsb' 13 1 = 0#1 ∧ w.extractLsb' 4 3 = 0#3 then .ok (.sopen (w.extractLsb' 14 6) (w.extractLsb' 7 6) (w.extractLsb' 0 4)) else .error .fieldNotZero
  | 1 => if w.extractLsb' 4 17 = 0#17 then .ok (.sclose (w.extractLsb' 0 4)) else .error .fieldNotZero
  | 2 => if w.extractLsb' 13 8 = 0#8 ∧ w.extractLsb' 4 3 = 0#3 then .ok (.sskip (w.extractLsb' 7 6) (w.extractLsb' 0 4)) else .error .fieldNotZero
  | 3 => if w.extractLsb' 20 1 = 0#1 ∧ w.extractLsb' 4 10 = 0#10 then .ok (.sstat (w.extractLsb' 14 6) (w.extractLsb' 0 4)) else .error .fieldNotZero
  | _ => .error .unassigned

/-- Major 0x38: LNCH, MBIND, MBOXQ, QCFG (R70). -/
def decodeMajor38 (w : W32) : Except DecodeError Instr :=
  match (w.extractLsb' 21 4).toNat with
  | 0 => if w.extractLsb' 20 1 = 0#1 ∧ w.extractLsb' 13 1 = 0#1 ∧ w.extractLsb' 0 7 = 0#7 then .ok (.lnch (w.extractLsb' 14 6) (w.extractLsb' 7 6)) else .error .fieldNotZero
  | 1 => if w.extractLsb' 20 1 = 0#1 ∧ w.extractLsb' 13 1 = 0#1 ∧ w.extractLsb' 6 1 = 0#1 then .ok (.mbindBind (w.extractLsb' 14 6) (w.extractLsb' 7 6) (w.extractLsb' 0 6)) else .error .fieldNotZero
  | 2 => if w.extractLsb' 20 1 = 0#1 ∧ w.extractLsb' 13 1 = 0#1 ∧ w.extractLsb' 0 7 = 0#7 then .ok (.mboxqRead (w.extractLsb' 14 6) (w.extractLsb' 7 6)) else .error .fieldNotZero
  | 3 => if w.extractLsb' 20 1 = 0#1 ∧ w.extractLsb' 13 1 = 0#1 ∧ w.extractLsb' 6 1 = 0#1 then .ok (.qcfgConfigure (w.extractLsb' 14 6) (w.extractLsb' 7 6) (w.extractLsb' 0 6)) else .error .fieldNotZero
  | _ => .error .unassigned

/-- Major 0x39: GRD, GWR, GSTAT, GRESUME, GKILL, TLBI, TKSTAT, WLATCH, DIAGST, DIAGLD (R70). -/
def decodeMajor39 (w : W32) : Except DecodeError Instr :=
  match (w.extractLsb' 21 4).toNat with
  | 0 => if w.extractLsb' 20 1 = 0#1 ∧ w.extractLsb' 13 1 = 0#1 ∧ w.extractLsb' 0 7 = 0#7 then .ok (.grd (w.extractLsb' 14 6) (w.extractLsb' 7 6)) else .error .fieldNotZero
  | 1 => if w.extractLsb' 13 8 = 0#8 ∧ w.extractLsb' 6 1 = 0#1 then .ok (.gwr (w.extractLsb' 7 6) (w.extractLsb' 0 6)) else .error .fieldNotZero
  | 2 => if w.extractLsb' 20 1 = 0#1 ∧ w.extractLsb' 13 1 = 0#1 ∧ w.extractLsb' 0 7 = 0#7 then .ok (.gstat (w.extractLsb' 14 6) (w.extractLsb' 7 6)) else .error .fieldNotZero
  | 3 => if w.extractLsb' 13 8 = 0#8 ∧ w.extractLsb' 6 1 = 0#1 then .ok (.gresume (w.extractLsb' 7 6) (w.extractLsb' 0 6)) else .error .fieldNotZero
  | 4 => if w.extractLsb' 13 8 = 0#8 ∧ w.extractLsb' 0 7 = 0#7 then .ok (.gkill (w.extractLsb' 7 6)) else .error .fieldNotZero
  | 5 => if w.extractLsb' 13 8 = 0#8 ∧ w.extractLsb' 6 1 = 0#1 then .ok (.tlbiPage (w.extractLsb' 7 6) (w.extractLsb' 0 6)) else .error .fieldNotZero
  | 6 => if w.extractLsb' 20 1 = 0#1 ∧ w.extractLsb' 13 1 = 0#1 ∧ w.extractLsb' 0 7 = 0#7 then .ok (.tkstat (w.extractLsb' 14 6) (w.extractLsb' 7 6)) else .error .fieldNotZero
  | 7 => if w.extractLsb' 20 1 = 0#1 ∧ w.extractLsb' 13 1 = 0#1 ∧ w.extractLsb' 0 7 = 0#7 then .ok (.wlatchRead (w.extractLsb' 14 6) (w.extractLsb' 7 6)) else .error .fieldNotZero
  | 8 => if w.extractLsb' 20 1 = 0#1 ∧ w.extractLsb' 13 1 = 0#1 ∧ w.extractLsb' 6 1 = 0#1 then .ok (.diagst (w.extractLsb' 14 6) (w.extractLsb' 7 6) (w.extractLsb' 0 6)) else .error .fieldNotZero
  | 9 => if w.extractLsb' 20 1 = 0#1 ∧ w.extractLsb' 13 1 = 0#1 ∧ w.extractLsb' 0 7 = 0#7 then .ok (.diagld (w.extractLsb' 14 6) (w.extractLsb' 7 6)) else .error .fieldNotZero
  | _ => .error .unassigned

/-- Major 0x3A: BOOST, LBRD, WRECRD, LIFESET, EQRD (R70). -/
def decodeMajor3A (w : W32) : Except DecodeError Instr :=
  match (w.extractLsb' 21 4).toNat with
  | 0 => if w.extractLsb' 20 1 = 0#1 ∧ w.extractLsb' 13 1 = 0#1 ∧ w.extractLsb' 6 1 = 0#1 then .ok (.boostGrant (w.extractLsb' 14 6) (w.extractLsb' 7 6) (w.extractLsb' 0 6)) else .error .fieldNotZero
  | 1 => if w.extractLsb' 20 1 = 0#1 ∧ w.extractLsb' 13 1 = 0#1 ∧ w.extractLsb' 0 7 = 0#7 then .ok (.lbrd (w.extractLsb' 14 6) (w.extractLsb' 7 6)) else .error .fieldNotZero
  | 2 => if w.extractLsb' 20 1 = 0#1 ∧ w.extractLsb' 13 1 = 0#1 ∧ w.extractLsb' 0 7 = 0#7 then .ok (.wrecrd (w.extractLsb' 14 6) (w.extractLsb' 7 6)) else .error .fieldNotZero
  | 3 => if w.extractLsb' 20 1 = 0#1 ∧ w.extractLsb' 13 1 = 0#1 ∧ w.extractLsb' 0 7 = 0#7 then .ok (.lifeset (w.extractLsb' 14 6) (w.extractLsb' 7 6)) else .error .fieldNotZero
  | 4 => if w.extractLsb' 20 1 = 0#1 ∧ w.extractLsb' 13 1 = 0#1 ∧ w.extractLsb' 0 7 = 0#7 then .ok (.eqrd (w.extractLsb' 14 6) (w.extractLsb' 7 6)) else .error .fieldNotZero
  | _ => .error .unassigned

/-- Major 0x3B: RDN.BEGIN, RDN.CKPT, RDN.END, SIGRD (R70). -/
def decodeMajor3B (w : W32) : Except DecodeError Instr :=
  match (w.extractLsb' 21 4).toNat with
  | 0 => if w.extractLsb' 20 1 = 0#1 ∧ w.extractLsb' 0 14 = 0#14 then .ok (.rdnBegin (w.extractLsb' 14 6)) else .error .fieldNotZero
  | 1 => if w.extractLsb' 0 21 = 0#21 then .ok (.rdnCkpt) else .error .fieldNotZero
  | 2 => if w.extractLsb' 0 21 = 0#21 then .ok (.rdnEnd) else .error .fieldNotZero
  | 3 => if w.extractLsb' 20 1 = 0#1 ∧ w.extractLsb' 13 1 = 0#1 ∧ w.extractLsb' 0 7 = 0#7 then .ok (.sigrd (w.extractLsb' 14 6) (w.extractLsb' 7 6)) else .error .fieldNotZero
  | _ => .error .unassigned

/-- The instruction a word stands for, before its operands are judged. -/
def decodeFields (w : W32) : Except DecodeError Instr :=
  match (w.extractLsb' 25 6).toNat with
  | 63 => decodeMajor3F w
  | 0 => decodeMajor00 w
  | 1 => decodeMajor01 w
  | 2 => decodeMajor02 w
  | 3 => decodeMajor03 w
  | 4 => decodeMajor04 w
  | 5 => decodeMajor05 w
  | 6 => decodeMajor06 w
  | 7 => decodeMajor07 w
  | 8 => decodeMajor08 w
  | 9 => decodeMajor09 w
  | 10 => decodeMajor0A w
  | 11 => decodeMajor0B w
  | 16 => decodeMajor10 w
  | 17 => decodeMajor11 w
  | 18 => decodeMajor12 w
  | 19 => decodeMajor13 w
  | 20 => decodeMajor14 w
  | 21 => decodeMajor15 w
  | 22 => decodeMajor16 w
  | 23 => decodeMajor17 w
  | 24 => decodeMajor18 w
  | 25 => decodeMajor19 w
  | 26 => decodeMajor1A w
  | 27 => decodeMajor1B w
  | 28 => decodeMajor1C w
  | 29 => decodeMajor1D w
  | 30 => decodeMajor1E w
  | 31 => decodeMajor1F w
  | 32 => decodeMajor20 w
  | 33 => decodeMajor21 w
  | 34 => decodeMajor22 w
  | 35 => decodeMajor23 w
  | 36 => decodeMajor24 w
  | 40 => decodeMajor28 w
  | 41 => decodeMajor29 w
  | 42 => decodeMajor2A w
  | 43 => decodeMajor2B w
  | 44 => decodeMajor2C w
  | 45 => decodeMajor2D w
  | 46 => decodeMajor2E w
  | 47 => decodeMajor2F w
  | 48 => decodeMajor30 w
  | 49 => decodeMajor31 w
  | 50 => decodeMajor32 w
  | 51 => decodeMajor33 w
  | 52 => decodeMajor34 w
  | 53 => decodeMajor35 w
  | 54 => decodeMajor36 w
  | 55 => decodeMajor37 w
  | 56 => decodeMajor38 w
  | 57 => decodeMajor39 w
  | 58 => decodeMajor3A w
  | 59 => decodeMajor3B w
  | _ => .error .reservedMajor

/-- The fields of an assigned function that must stand at a value of their own, as the mask of their bits and the value (R59, R70). -/
def reservedFields (w : W32) : Nat × Nat :=
  match (w.extractLsb' 25 6).toNat with
  | 63 => (match (w.extractLsb' 24 1).toNat with
    | 0 => (0x3F, 0x0)
    | _ => (0, 0))
  | 0 => (match (w.extractLsb' 21 4).toNat with
    | 0 | 1 | 2 | 3 | 6 | 8 => (0x1FFFFF, 0x0)
    | 4 | 5 => (0x1F81FF, 0x0)
    | 7 => (0x1F8007, 0x0)
    | 9 | 10 => (0x7FFF, 0x0)
    | _ => (0, 0))
  | 3 => (0x1E00000, 0x0)
  | 4 => (0x7E000, 0x0)
  | 5 => (0x1, 0x0)
  | 6 => (match (w.extractLsb' 21 4).toNat with
    | 0 | 1 | 2 | 3 | 4 | 5 | 6 | 7 | 8 | 9 | 10 | 11 => (0x7, 0x0)
    | 12 => (0x1FF, 0x0)
    | _ => (0, 0))
  | 7 => (0x10000, 0x0)
  | 8 => (0x1C0007, 0x0)
  | 10 => (match (w.extractLsb' 21 4).toNat with
    | 0 | 1 => (0x7F, 0x0)
    | 2 | 4 => (0x71FF, 0x0)
    | 3 => (0x1C01FF, 0x0)
    | 5 => (0x1C7007, 0x0)
    | _ => (0, 0))
  | 11 => (0x1FF0000, 0x0)
  | 16 => (match (w.extractLsb' 21 4).toNat with
    | 13 | 14 | 15 => (0x7F, 0x0)
    | _ => (0, 0))
  | 17 => (match (w.extractLsb' 21 4).toNat with
    | 13 => (0x7F, 0x0)
    | _ => (0, 0))
  | 23 => (match (w.extractLsb' 9 2).toNat with
    | 0 | 1 | 2 | 3 => (0x1E0, 0x0)
    | _ => (0, 0))
  | 24 => (0x1E0000, 0x0)
  | 25 => (0x11E0000, 0x0)
  | 27 => (match (w.extractLsb' 21 4).toNat with
    | 8 | 9 | 10 | 11 | 12 | 13 => (0x7F, 0x0)
    | _ => (0, 0))
  | 30 => (0x70, 0x0)
  | 31 => (match (w.extractLsb' 21 4).toNat with
    | 0 | 1 | 2 | 3 | 4 | 5 => (0x40, 0x0)
    | _ => (0, 0))
  | 32 => (match (w.extractLsb' 21 4).toNat with
    | 1 | 2 | 3 => (0x1E3C78, 0x0)
    | 4 | 5 => (0x1E3C7F, 0x0)
    | _ => (0, 0))
  | 34 => (match (w.extractLsb' 21 4).toNat with
    | 0 | 1 | 2 => (0x7F, 0x0)
    | 3 => (0x7C, 0x0)
    | _ => (0, 0))
  | 35 => (match (w.extractLsb' 21 4).toNat with
    | 0 | 1 | 2 | 3 | 4 | 5 | 6 | 7 => (0x7F, 0x0)
    | _ => (0, 0))
  | 36 => (match (w.extractLsb' 21 4).toNat with
    | 0 => (0x100040, 0x0)
    | 1 => (0x10007F, 0x0)
    | 2 => (0x2060, 0x0)
    | _ => (0, 0))
  | 50 => (match (w.extractLsb' 21 4).toNat with
    | 0 | 1 | 2 | 3 | 4 | 5 | 6 | 7 | 8 | 9 | 11 | 12 | 13 | 14 | 15 => (0x1, 0x0)
    | 10 => (0x4001, 0x0)
    | _ => (0, 0))
  | 51 => (match (w.extractLsb' 21 4).toNat with
    | 0 | 1 | 8 | 9 | 11 => (0x1000FF, 0xFE)
    | 4 => (0x1FC000, 0x0)
    | 7 | 10 => (0x1FC0FF, 0xFE)
    | 12 => (0x1C0081, 0x0)
    | 13 => (0x103FFF, 0x0)
    | 14 => (0x1FFFFF, 0x0)
    | _ => (0, 0))
  | 52 => (0xF, 0x0)
  | 53 => (match (w.extractLsb' 21 4).toNat with
    | 0 => (0x102070, 0x0)
    | 1 => (0x1FFFF0, 0x0)
    | 2 | 3 => (0x1C2040, 0x0)
    | 4 => (0x1C207F, 0x0)
    | 5 => (0x1F3FFF, 0x0)
    | 6 | 7 => (0x1F2040, 0x0)
    | 8 => (0x3E40, 0x0)
    | 9 => (0x1F0040, 0x0)
    | 10 => (0x1FE07F, 0x0)
    | 11 => (0x103FFE, 0x0)
    | 12 => (0x103FFF, 0x0)
    | _ => (0, 0))
  | 54 => (match (w.extractLsb' 21 4).toNat with
    | 0 | 2 | 4 => (0x10207F, 0x0)
    | 1 => (0x1021FF, 0x0)
    | 3 => (0x1FE07F, 0x0)
    | 5 => (0x103FFF, 0x0)
    | 6 => (0x102070, 0x0)
    | _ => (0, 0))
  | 55 => (match (w.extractLsb' 21 4).toNat with
    | 0 => (0x102070, 0x0)
    | 1 => (0x1FFFF0, 0x0)
    | 2 => (0x1FE070, 0x0)
    | 3 => (0x103FF0, 0x0)
    | _ => (0, 0))
  | 56 => (match (w.extractLsb' 21 4).toNat with
    | 0 | 2 => (0x10207F, 0x0)
    | 1 | 3 => (0x102040, 0x0)
    | _ => (0, 0))
  | 57 => (match (w.extractLsb' 21 4).toNat with
    | 0 | 2 | 6 | 7 | 9 => (0x10207F, 0x0)
    | 1 | 3 | 5 => (0x1FE040, 0x0)
    | 4 => (0x1FE07F, 0x0)
    | 8 => (0x102040, 0x0)
    | _ => (0, 0))
  | 58 => (match (w.extractLsb' 21 4).toNat with
    | 0 => (0x102040, 0x0)
    | 1 | 2 | 3 | 4 => (0x10207F, 0x0)
    | _ => (0, 0))
  | 59 => (match (w.extractLsb' 21 4).toNat with
    | 0 => (0x103FFF, 0x0)
    | 1 | 2 => (0x1FFFFF, 0x0)
    | 3 => (0x10207F, 0x0)
    | _ => (0, 0))
  | _ => (0, 0)

/-- The instruction whose place a word takes, whatever its reserved fields and its operands hold; none where its major or function is not assigned
(R56, R74). A word whose major and FN are assigned and whose condition, size or code field is not still names its operands;
a word with another FN names none (DEDUCED, log entry 83). -/
def assignedWord (w : W32) : Option Instr :=
  let r := reservedFields w
  match decodeFields ((w &&& ~~~(BitVec.ofNat 32 r.1)) ||| BitVec.ofNat 32 r.2) with
  | .ok i => some i
  | .error _ => none

/-- The chain bit of a word (R54). -/
def chainBit (w : W32) : Bool := w.getLsbD 31

/-- The instruction a word stands for (R74). The words that one table row shares with others (TLBI, MBOXQ, QCFG, MBIND, WLATCH,
BOOST) decode to the first of their rows; the meaning looks at the operation the S register holds. -/
def decodeWord (w : W32) : Except DecodeError Instr :=
  match decodeFields w with
  | .ok i => if i.wf then .ok i else .error .operandIllegal
  | .error e => .error e

/-- The 25 low bits of an instruction's word, in the order of R59. Steps that are no words have none. -/
def Instr.body : Instr → Option (BitVec 6 × BitVec 25)
  | .modArithmetic g e r t l n m a b k => some (63#6, 0#1 ++ g ++ e ++ r ++ t ++ l ++ n ++ m ++ a ++ b ++ k ++ 0#6)
  | .modMemory g e s h o => some (63#6, 1#1 ++ g ++ e ++ s ++ h ++ o)
  | .nop => some (0#6, 0#4 ++ 0#21)
  | .exit => some (0#6, 1#4 ++ 0#21)
  | .ret => some (0#6, 2#4 ++ 0#21)
  | .join => some (0#6, 3#4 ++ 0#21)
  | .jmpi a => some (0#6, 4#4 ++ 0#6 ++ a ++ 0#9)
  | .calli a => some (0#6, 5#4 ++ 0#6 ++ a ++ 0#9)
  | .yld => some (0#6, 6#4 ++ 0#21)
  | .trap t => some (0#6, 7#4 ++ 0#6 ++ t ++ 0#3)
  | .tret => some (0#6, 8#4 ++ 0#21)
  | .elect d => some (0#6, 9#4 ++ d ++ 0#15)
  | .probe d => some (0#6, 10#4 ++ d ++ 0#15)
  | .brf s f o => some (1#6, s ++ f ++ o)
  | .bra o => some (1#6, 0#4 ++ o)
  | .brv s p o => some (2#6, s ++ p ++ o)
  | .call o => some (3#6, 0#4 ++ o)
  | .loop d i => some (4#6, d ++ 0#6 ++ i)
  | .waitc l s p t => some (5#6, l ++ s ++ p ++ t ++ 0#1)
  | .sadd d a b => some (6#6, 0#4 ++ d ++ a ++ b ++ 0#3)
  | .ssub d a b => some (6#6, 1#4 ++ d ++ a ++ b ++ 0#3)
  | .smul d a b => some (6#6, 2#4 ++ d ++ a ++ b ++ 0#3)
  | .sand d a b => some (6#6, 3#4 ++ d ++ a ++ b ++ 0#3)
  | .sor d a b => some (6#6, 4#4 ++ d ++ a ++ b ++ 0#3)
  | .sxor d a b => some (6#6, 5#4 ++ d ++ a ++ b ++ 0#3)
  | .sandn d a b => some (6#6, 6#4 ++ d ++ a ++ b ++ 0#3)
  | .sshl d a b => some (6#6, 7#4 ++ d ++ a ++ b ++ 0#3)
  | .sshr d a b => some (6#6, 8#4 ++ d ++ a ++ b ++ 0#3)
  | .ssra d a b => some (6#6, 9#4 ++ d ++ a ++ b ++ 0#3)
  | .smin d a b => some (6#6, 10#4 ++ d ++ a ++ b ++ 0#3)
  | .smax d a b => some (6#6, 11#4 ++ d ++ a ++ b ++ 0#3)
  | .smov d a => some (6#6, 12#4 ++ d ++ a ++ 0#9)
  | .ssel d a b f => some (6#6, 13#4 ++ d ++ a ++ b ++ f)
  | .sli d k i => some (7#6, d ++ k ++ 0#1 ++ i)
  | .scmp n f a b => some (8#6, n ++ 0#3 ++ f ++ a ++ b ++ 0#3)
  | .saddi d a i => some (9#6, d ++ a ++ i)
  | .rdspc d n => some (10#6, 0#4 ++ d ++ n ++ 0#7)
  | .wrspc a n => some (10#6, 1#4 ++ a ++ n ++ 0#7)
  | .vtos d p => some (10#6, 2#4 ++ d ++ 0#3 ++ p ++ 0#9)
  | .stov p a => some (10#6, 3#4 ++ 0#3 ++ p ++ a ++ 0#9)
  | .ballot d p => some (10#6, 4#4 ++ d ++ 0#3 ++ p ++ 0#9)
  | .vote f p m => some (10#6, 5#4 ++ 0#3 ++ f ++ 0#3 ++ p ++ m ++ 0#3)
  | .sigchk i => some (11#6, 0#9 ++ i)
  | .iadd d a b => some (16#6, 0#4 ++ d ++ a ++ b)
  | .isub d a b => some (16#6, 1#4 ++ d ++ a ++ b)
  | .iaddc d a b => some (16#6, 2#4 ++ d ++ a ++ b)
  | .isubb d a b => some (16#6, 3#4 ++ d ++ a ++ b)
  | .imul d a b => some (16#6, 4#4 ++ d ++ a ++ b)
  | .imulhI d a b => some (16#6, 5#4 ++ d ++ a ++ b)
  | .imulhN d a b => some (16#6, 6#4 ++ d ++ a ++ b)
  | .imad d a b => some (16#6, 7#4 ++ d ++ a ++ b)
  | .iminI d a b => some (16#6, 8#4 ++ d ++ a ++ b)
  | .iminN d a b => some (16#6, 9#4 ++ d ++ a ++ b)
  | .imaxI d a b => some (16#6, 10#4 ++ d ++ a ++ b)
  | .imaxN d a b => some (16#6, 11#4 ++ d ++ a ++ b)
  | .iabsd d a b => some (16#6, 12#4 ++ d ++ a ++ b)
  | .popc d a => some (16#6, 13#4 ++ d ++ a ++ 0#7)
  | .clz d a => some (16#6, 14#4 ++ d ++ a ++ 0#7)
  | .brev d a => some (16#6, 15#4 ++ d ++ a ++ 0#7)
  | .and d a b => some (17#6, 0#4 ++ d ++ a ++ b)
  | .or d a b => some (17#6, 1#4 ++ d ++ a ++ b)
  | .xor d a b => some (17#6, 2#4 ++ d ++ a ++ b)
  | .andn d a b => some (17#6, 3#4 ++ d ++ a ++ b)
  | .orn d a b => some (17#6, 4#4 ++ d ++ a ++ b)
  | .xnor d a b => some (17#6, 5#4 ++ d ++ a ++ b)
  | .shl d a b => some (17#6, 6#4 ++ d ++ a ++ b)
  | .shr d a b => some (17#6, 7#4 ++ d ++ a ++ b)
  | .sra d a b => some (17#6, 8#4 ++ d ++ a ++ b)
  | .rotl d a b => some (17#6, 9#4 ++ d ++ a ++ b)
  | .bfeI d a b => some (17#6, 10#4 ++ d ++ a ++ b)
  | .bfeN d a b => some (17#6, 11#4 ++ d ++ a ++ b)
  | .bfi d a b => some (17#6, 12#4 ++ d ++ a ++ b)
  | .mov d a => some (17#6, 13#4 ++ d ++ a ++ 0#7)
  | .iaddi d a i => some (18#6, d ++ a ++ i)
  | .imuli d a i => some (19#6, d ++ a ++ i)
  | .andi d a i => some (20#6, d ++ a ++ i)
  | .ori d a i => some (21#6, d ++ a ++ i)
  | .xori d a i => some (22#6, d ++ a ++ i)
  | .shli d a s => some (23#6, d ++ a ++ 0#2 ++ 0#4 ++ s)
  | .shri d a s => some (23#6, d ++ a ++ 1#2 ++ 0#4 ++ s)
  | .srai d a s => some (23#6, d ++ a ++ 2#2 ++ 0#4 ++ s)
  | .rotli d a s => some (23#6, d ++ a ++ 3#2 ++ 0#4 ++ s)
  | .icmp n p a b => some (24#6, n ++ 0#4 ++ p ++ a ++ b)
  | .fcmp n p a b => some (25#6, 0#1 ++ n ++ 0#4 ++ p ++ a ++ b)
  | .movi d i => some (26#6, d ++ 0#2 ++ i)
  | .moviHi d i => some (26#6, d ++ 1#2 ++ i)
  | .moviF16 d i => some (26#6, d ++ 2#2 ++ i)
  | .moviBf16 d i => some (26#6, d ++ 3#2 ++ i)
  | .fadd d a b => some (27#6, 0#4 ++ d ++ a ++ b)
  | .fsub d a b => some (27#6, 1#4 ++ d ++ a ++ b)
  | .fmul d a b => some (27#6, 2#4 ++ d ++ a ++ b)
  | .ffma d a b => some (27#6, 3#4 ++ d ++ a ++ b)
  | .fmin d a b => some (27#6, 4#4 ++ d ++ a ++ b)
  | .fmax d a b => some (27#6, 5#4 ++ d ++ a ++ b)
  | .fminm d a b => some (27#6, 6#4 ++ d ++ a ++ b)
  | .fmaxm d a b => some (27#6, 7#4 ++ d ++ a ++ b)
  | .fclass d a => some (27#6, 8#4 ++ d ++ a ++ 0#7)
  | .frcp d a => some (27#6, 9#4 ++ d ++ a ++ 0#7)
  | .fsqrt d a => some (27#6, 10#4 ++ d ++ a ++ 0#7)
  | .frsq d a => some (27#6, 11#4 ++ d ++ a ++ 0#7)
  | .fexp2 d a => some (27#6, 12#4 ++ d ++ a ++ 0#7)
  | .flog2 d a => some (27#6, 13#4 ++ d ++ a ++ 0#7)
  | .faddF16x2 d a b => some (28#6, 0#4 ++ d ++ a ++ b)
  | .faddBf16x2 d a b => some (28#6, 1#4 ++ d ++ a ++ b)
  | .fsubF16x2 d a b => some (28#6, 2#4 ++ d ++ a ++ b)
  | .fsubBf16x2 d a b => some (28#6, 3#4 ++ d ++ a ++ b)
  | .fmulF16x2 d a b => some (28#6, 4#4 ++ d ++ a ++ b)
  | .fmulBf16x2 d a b => some (28#6, 5#4 ++ d ++ a ++ b)
  | .ffmaF16x2 d a b => some (28#6, 6#4 ++ d ++ a ++ b)
  | .ffmaBf16x2 d a b => some (28#6, 7#4 ++ d ++ a ++ b)
  | .fminF16x2 d a b => some (28#6, 8#4 ++ d ++ a ++ b)
  | .fminBf16x2 d a b => some (28#6, 9#4 ++ d ++ a ++ b)
  | .fmaxF16x2 d a b => some (28#6, 10#4 ++ d ++ a ++ b)
  | .fmaxBf16x2 d a b => some (28#6, 11#4 ++ d ++ a ++ b)
  | .idot4I8 d a b => some (29#6, 0#4 ++ d ++ a ++ b)
  | .idot4N8 d a b => some (29#6, 1#4 ++ d ++ a ++ b)
  | .idot4In d a b => some (29#6, 2#4 ++ d ++ a ++ b)
  | .fdot2F16 d a b => some (29#6, 3#4 ++ d ++ a ++ b)
  | .fdot2Bf16 d a b => some (29#6, 4#4 ++ d ++ a ++ b)
  | .ldot4L6 d a b => some (29#6, 5#4 ++ d ++ a ++ b)
  | .cvt x d a s => some (30#6, x ++ d ++ a ++ 0#3 ++ s)
  | .cvtsF32F8a d a b => some (31#6, 0#4 ++ d ++ a ++ 0#1 ++ b)
  | .cvtsF32F8b d a b => some (31#6, 1#4 ++ d ++ a ++ 0#1 ++ b)
  | .cvtsF32L6 d a b => some (31#6, 2#4 ++ d ++ a ++ 0#1 ++ b)
  | .cvtsF8aF32 d a b => some (31#6, 3#4 ++ d ++ a ++ 0#1 ++ b)
  | .cvtsF8bF32 d a b => some (31#6, 4#4 ++ d ++ a ++ 0#1 ++ b)
  | .cvtsL6F32 d a b => some (31#6, 5#4 ++ d ++ a ++ 0#1 ++ b)
  | .sel d a b => some (32#6, 0#4 ++ d ++ a ++ b)
  | .pand d a b => some (32#6, 1#4 ++ 0#4 ++ d ++ 0#4 ++ a ++ 0#4 ++ b)
  | .por d a b => some (32#6, 2#4 ++ 0#4 ++ d ++ 0#4 ++ a ++ 0#4 ++ b)
  | .pxor d a b => some (32#6, 3#4 ++ 0#4 ++ d ++ 0#4 ++ a ++ 0#4 ++ b)
  | .pnot d a => some (32#6, 4#4 ++ 0#4 ++ d ++ 0#4 ++ a ++ 0#7)
  | .pmov d a => some (32#6, 5#4 ++ 0#4 ++ d ++ 0#4 ++ a ++ 0#7)
  | .lxchPick d a b => some (33#6, 0#4 ++ d ++ a ++ b)
  | .lxchRot d a b => some (33#6, 1#4 ++ d ++ a ++ b)
  | .lxchSlide d a b => some (33#6, 2#4 ++ d ++ a ++ b)
  | .lxchRev d a b => some (33#6, 3#4 ++ d ++ a ++ b)
  | .qswx d a => some (34#6, 0#4 ++ d ++ a ++ 0#7)
  | .qswy d a => some (34#6, 1#4 ++ d ++ a ++ 0#7)
  | .qswd d a => some (34#6, 2#4 ++ d ++ a ++ 0#7)
  | .qbcast d a n => some (34#6, 3#4 ++ d ++ a ++ 0#5 ++ n)
  | .gredAddI d a => some (35#6, 0#4 ++ d ++ a ++ 0#7)
  | .gredAddF d a => some (35#6, 1#4 ++ d ++ a ++ 0#7)
  | .gredMinI d a => some (35#6, 2#4 ++ d ++ a ++ 0#7)
  | .gredMinF d a => some (35#6, 3#4 ++ d ++ a ++ 0#7)
  | .gredMaxI d a => some (35#6, 4#4 ++ d ++ a ++ 0#7)
  | .gredMaxF d a => some (35#6, 5#4 ++ d ++ a ++ 0#7)
  | .gscanAddI d a => some (35#6, 6#4 ++ d ++ a ++ 0#7)
  | .gscanAddF d a => some (35#6, 7#4 ++ d ++ a ++ 0#7)
  | .xferGet d a b => some (36#6, 0#4 ++ 0#1 ++ d ++ a ++ 0#1 ++ b)
  | .xferFirst d a => some (36#6, 1#4 ++ 0#1 ++ d ++ a ++ 0#7)
  | .xferPut d a n => some (36#6, 2#4 ++ d ++ 0#1 ++ a ++ 0#2 ++ n)
  | .ldP z d s v x => some (40#6, z ++ d ++ s ++ v ++ x)
  | .stP z d s v x => some (41#6, z ++ d ++ s ++ v ++ x)
  | .ldS z d s v x => some (42#6, z ++ d ++ s ++ v ++ x)
  | .stS z d s v x => some (43#6, z ++ d ++ s ++ v ++ x)
  | .ldC z d s v x => some (44#6, z ++ d ++ s ++ v ++ x)
  | .stC z d s v x => some (45#6, z ++ d ++ s ++ v ++ x)
  | .ldK z d s v x => some (46#6, z ++ d ++ s ++ v ++ x)
  | .stK z d s v x => some (47#6, z ++ d ++ s ++ v ++ x)
  | .ldG z d s v x => some (48#6, z ++ d ++ s ++ v ++ x)
  | .stG z d s v x => some (49#6, z ++ d ++ s ++ v ++ x)
  | .atomAdd d s v => some (50#6, 0#4 ++ d ++ s ++ v ++ 0#1)
  | .atomMinI d s v => some (50#6, 1#4 ++ d ++ s ++ v ++ 0#1)
  | .atomMinN d s v => some (50#6, 2#4 ++ d ++ s ++ v ++ 0#1)
  | .atomMaxI d s v => some (50#6, 3#4 ++ d ++ s ++ v ++ 0#1)
  | .atomMaxN d s v => some (50#6, 4#4 ++ d ++ s ++ v ++ 0#1)
  | .atomAnd d s v => some (50#6, 5#4 ++ d ++ s ++ v ++ 0#1)
  | .atomOr d s v => some (50#6, 6#4 ++ d ++ s ++ v ++ 0#1)
  | .atomXor d s v => some (50#6, 7#4 ++ d ++ s ++ v ++ 0#1)
  | .atomXchg d s v => some (50#6, 8#4 ++ d ++ s ++ v ++ 0#1)
  | .atomAddF32 d s v => some (50#6, 9#4 ++ d ++ s ++ v ++ 0#1)
  | .atomCas d s v => some (50#6, 10#4 ++ d ++ 0#1 ++ s ++ v ++ 0#1)
  | .redAdd d s v => some (50#6, 11#4 ++ d ++ s ++ v ++ 0#1)
  | .redMinI d s v => some (50#6, 12#4 ++ d ++ s ++ v ++ 0#1)
  | .redMinN d s v => some (50#6, 12#4 ++ d ++ s ++ v ++ 1#1)
  | .redMaxI d s v => some (50#6, 13#4 ++ d ++ s ++ v ++ 0#1)
  | .redMaxN d s v => some (50#6, 13#4 ++ d ++ s ++ v ++ 1#1)
  | .redAnd d s v => some (50#6, 14#4 ++ d ++ s ++ v ++ 0#1)
  | .redOr d s v => some (50#6, 14#4 ++ d ++ s ++ v ++ 1#1)
  | .redXor d s v => some (50#6, 15#4 ++ d ++ s ++ v ++ 0#1)
  | .redAddF32 d s v => some (50#6, 15#4 ++ d ++ s ++ v ++ 1#1)
  | .ldu d s => some (51#6, 0#4 ++ 0#1 ++ d ++ s ++ 254#8)
  | .stu d s => some (51#6, 1#4 ++ 0#1 ++ d ++ s ++ 254#8)
  | .lda d s v x => some (51#6, 2#4 ++ d ++ s ++ v ++ x)
  | .sta d s v x => some (51#6, 3#4 ++ d ++ s ++ v ++ x)
  | .prefL1 s v x => some (51#6, 4#4 ++ 0#7 ++ s ++ v ++ x)
  | .prefL2 s v x => some (51#6, 4#4 ++ 1#7 ++ s ++ v ++ x)
  | .acqld d s v x => some (51#6, 5#4 ++ d ++ s ++ v ++ x)
  | .relst d s v x => some (51#6, 6#4 ++ d ++ s ++ v ++ x)
  | .barw s => some (51#6, 7#4 ++ 0#7 ++ s ++ 254#8)
  | .bara d s => some (51#6, 8#4 ++ 0#1 ++ d ++ s ++ 254#8)
  | .bart a s => some (51#6, 9#4 ++ 0#1 ++ a ++ s ++ 254#8)
  | .marm s => some (51#6, 10#4 ++ 0#7 ++ s ++ 254#8)
  | .mwaitNe d s => some (51#6, 11#4 ++ 0#1 ++ d ++ s ++ 254#8)
  | .mwaitGe d s => some (51#6, 11#4 ++ 0#1 ++ d ++ s ++ 255#8)
  | .adecl i s l => some (51#6, 12#4 ++ 0#3 ++ i ++ s ++ 0#1 ++ l ++ 0#1)
  | .astat d => some (51#6, 13#4 ++ 0#1 ++ d ++ 0#14)
  | .airrev => some (51#6, 14#4 ++ 0#21)
  | .mma t a b n m e s r => some (52#6, t ++ a ++ b ++ n ++ m ++ e ++ s ++ r ++ 0#4)
  | .mres d a h => some (53#6, 0#4 ++ 0#1 ++ d ++ 0#1 ++ a ++ 0#3 ++ h)
  | .mrel h => some (53#6, 1#4 ++ 0#17 ++ h)
  | .mlda h a b => some (53#6, 2#4 ++ 0#3 ++ h ++ 0#1 ++ a ++ 0#1 ++ b)
  | .mldb h a b => some (53#6, 3#4 ++ 0#3 ++ h ++ 0#1 ++ a ++ 0#1 ++ b)
  | .mshape s a => some (53#6, 4#4 ++ 0#3 ++ s ++ 0#1 ++ a ++ 0#7)
  | .mzero t => some (53#6, 5#4 ++ 0#5 ++ t ++ 0#14)
  | .mtld t a b => some (53#6, 6#4 ++ 0#5 ++ t ++ 0#1 ++ a ++ 0#1 ++ b)
  | .mtst t a b => some (53#6, 7#4 ++ 0#5 ++ t ++ 0#1 ++ a ++ 0#1 ++ b)
  | .mtrv d t b => some (53#6, 8#4 ++ d ++ 0#5 ++ t ++ 0#1 ++ b)
  | .mtwv t a b => some (53#6, 9#4 ++ 0#5 ++ t ++ a ++ 0#1 ++ b)
  | .mhint a => some (53#6, 10#4 ++ 0#8 ++ a ++ 0#7)
  | .mxcntExceptions d r => some (53#6, 11#4 ++ 0#1 ++ d ++ 0#13 ++ r)
  | .mxcntPrune d r => some (53#6, 11#4 ++ 0#1 ++ d ++ 64#13 ++ r)
  | .mpair d => some (53#6, 12#4 ++ 0#1 ++ d ++ 0#14)
  | .cqinit d a => some (54#6, 0#4 ++ 0#1 ++ d ++ 0#1 ++ a ++ 0#7)
  | .cqpush d a => some (54#6, 1#4 ++ 0#1 ++ d ++ 0#1 ++ a ++ 0#9)
  | .cqpub d a => some (54#6, 2#4 ++ 0#1 ++ d ++ 0#1 ++ a ++ 0#7)
  | .cqstage a => some (54#6, 3#4 ++ 0#8 ++ a ++ 0#7)
  | .cqwptr d a => some (54#6, 4#4 ++ 0#1 ++ d ++ 0#1 ++ a ++ 0#7)
  | .cqstat d => some (54#6, 5#4 ++ 0#1 ++ d ++ 0#14)
  | .lprog d a n => some (54#6, 6#4 ++ 0#1 ++ d ++ 0#1 ++ a ++ 0#3 ++ n)
  | .sopen d a n => some (55#6, 0#4 ++ 0#1 ++ d ++ 0#1 ++ a ++ 0#3 ++ n)
  | .sclose n => some (55#6, 1#4 ++ 0#17 ++ n)
  | .sskip a n => some (55#6, 2#4 ++ 0#8 ++ a ++ 0#3 ++ n)
  | .sstat d n => some (55#6, 3#4 ++ 0#1 ++ d ++ 0#10 ++ n)
  | .lnch d a => some (56#6, 0#4 ++ 0#1 ++ d ++ 0#1 ++ a ++ 0#7)
  | .mbindBind d a b => some (56#6, 1#4 ++ 0#1 ++ d ++ 0#1 ++ a ++ 0#1 ++ b)
  | .mbindUnbind d a b => some (56#6, 1#4 ++ 0#1 ++ d ++ 0#1 ++ a ++ 0#1 ++ b)
  | .mboxqRead d a => some (56#6, 2#4 ++ 0#1 ++ d ++ 0#1 ++ a ++ 0#7)
  | .mboxqClearOverflow d a => some (56#6, 2#4 ++ 0#1 ++ d ++ 0#1 ++ a ++ 0#7)
  | .mboxqDiscardPending d a => some (56#6, 2#4 ++ 0#1 ++ d ++ 0#1 ++ a ++ 0#7)
  | .qcfgConfigure d a b => some (56#6, 3#4 ++ 0#1 ++ d ++ 0#1 ++ a ++ 0#1 ++ b)
  | .qcfgDisable d a b => some (56#6, 3#4 ++ 0#1 ++ d ++ 0#1 ++ a ++ 0#1 ++ b)
  | .qcfgMask d a b => some (56#6, 3#4 ++ 0#1 ++ d ++ 0#1 ++ a ++ 0#1 ++ b)
  | .qcfgRead d a b => some (56#6, 3#4 ++ 0#1 ++ d ++ 0#1 ++ a ++ 0#1 ++ b)
  | .grd d a => some (57#6, 0#4 ++ 0#1 ++ d ++ 0#1 ++ a ++ 0#7)
  | .gwr a b => some (57#6, 1#4 ++ 0#8 ++ a ++ 0#1 ++ b)
  | .gstat d a => some (57#6, 2#4 ++ 0#1 ++ d ++ 0#1 ++ a ++ 0#7)
  | .gresume a b => some (57#6, 3#4 ++ 0#8 ++ a ++ 0#1 ++ b)
  | .gkill a => some (57#6, 4#4 ++ 0#8 ++ a ++ 0#7)
  | .tlbiPage a b => some (57#6, 5#4 ++ 0#8 ++ a ++ 0#1 ++ b)
  | .tlbiAsn a b => some (57#6, 5#4 ++ 0#8 ++ a ++ 0#1 ++ b)
  | .tlbiWorld a b => some (57#6, 5#4 ++ 0#8 ++ a ++ 0#1 ++ b)
  | .tlbiAll a b => some (57#6, 5#4 ++ 0#8 ++ a ++ 0#1 ++ b)
  | .tkstat d a => some (57#6, 6#4 ++ 0#1 ++ d ++ 0#1 ++ a ++ 0#7)
  | .wlatchRead d a => some (57#6, 7#4 ++ 0#1 ++ d ++ 0#1 ++ a ++ 0#7)
  | .wlatchSet d a => some (57#6, 7#4 ++ 0#1 ++ d ++ 0#1 ++ a ++ 0#7)
  | .diagst k a b => some (57#6, 8#4 ++ 0#1 ++ k ++ 0#1 ++ a ++ 0#1 ++ b)
  | .diagld d a => some (57#6, 9#4 ++ 0#1 ++ d ++ 0#1 ++ a ++ 0#7)
  | .boostGrant d a b => some (58#6, 0#4 ++ 0#1 ++ d ++ 0#1 ++ a ++ 0#1 ++ b)
  | .boostEnd d a b => some (58#6, 0#4 ++ 0#1 ++ d ++ 0#1 ++ a ++ 0#1 ++ b)
  | .lbrd d a => some (58#6, 1#4 ++ 0#1 ++ d ++ 0#1 ++ a ++ 0#7)
  | .wrecrd d a => some (58#6, 2#4 ++ 0#1 ++ d ++ 0#1 ++ a ++ 0#7)
  | .lifeset d a => some (58#6, 3#4 ++ 0#1 ++ d ++ 0#1 ++ a ++ 0#7)
  | .eqrd d a => some (58#6, 4#4 ++ 0#1 ++ d ++ 0#1 ++ a ++ 0#7)
  | .rdnBegin d => some (59#6, 0#4 ++ 0#1 ++ d ++ 0#14)
  | .rdnCkpt => some (59#6, 1#4 ++ 0#21)
  | .rdnEnd => some (59#6, 2#4 ++ 0#21)
  | .sigrd d a => some (59#6, 3#4 ++ 0#1 ++ d ++ 0#1 ++ a ++ 0#7)
  | .issueGroup _ _ | .waitCountPromotion _ _ _ | .reconvergenceStackPop _ _ | .splitMerge _ _
  | .joinRelease _ _ | .groupSlotRelease _ _ | .loadValueBound _ | .storePerformed _ | .counterEnd _ _ _
  | .waitcRelease _ _ _ | .barrierRelease _ _ _ | .monitorWake _ _ _ | .monitorRemoteReread _ _ _
  | .engineRecall _ _ | .atomicSetWaitAcquire _ | .taskRestart _ | .taskCommit _ | .irrevocableTokenGrant _
  | .activeSetEntryFree _ | .matrixEntryStart _ _ | .pairArbiterGrant _ | .mmaOccupancyEnd _ | .mmaRetire _ _
  | .tileOpRetire _ _ | .reservationClearDone _ | .hintRequestTime _ | .slewWindowBegin _ | .rampStepEnd _
  | .holdExpiry _ | .copyAccept _ | .copyComplete _ _ | .streamFill _ _ | .streamReload _ _ | .pageWalk _ _ _ _
  | .remoteAccessArrival _ | .readData _ _ | .writeAck _ | .ticketReply _ _ | .busy _ | .busyResend _
  | .ticketTableFullResend _ | .ticketPost _ _ | .replayNotice _ | .requesterTicketTimeout _ _
  | .ownerTicketTimeout _ | .remoteResponseTimeout _ | .noticeRetentionExpiry _ | .tagRetentionExpiry _ _
  | .flitTransmit _ _ | .flitReceive _ _ | .creditReturn _ _ _ | .filler _ | .retryReplayTimeout _
  | .laneLockLoss _ _ | .correctedSymbolThreshold _ _ _ | .retrainStepComplete _ _ | .heartbeatSend _
  | .heartbeat _ | .heartbeatTimeout _ | .flitCounterExhaustion _ | .linkSecretTimeout _ | .keyPromote _ _
  | .reencryptionSweep _ _ | .dispatch | .dependenceCheck _ | .gridDoneWrite _ | .mailboxArrival _
  | .handlerAccept _ | .migrationPeriodEnd | .lineMigrate _ | .handlerActivation _ | .preemptionDeadline _
  | .cooperativeSave _ | .forcedSaveComplete _ | .shadowPlaceRelease _ _ | .waitProbe _ _ _ | .probeForward _
  | .wearSample _ _ | .recordCommit _ | .fallowEntry _ | .fallowWake _ | .callupPowerupDone _
  | .callupSelftestDone _ _ | .callupSave _ | .callupMapUpdate _ | .boostGrantEnd _ | .drainWindowOpen _
  | .frequencySwitch _ | .frequencyResume _ | .timeSyncPulse | .currentWindow _ _ _ | .energyMeasure _ _ _
  | .timeBudgetPeriod | .supplyLossWarning | .fastThrottleAlarm | .fastThrottleClear | .gatingCommitWindowEnd _
  | .worldLatchClearDone _ | .correctedError _ | .targetedSelfTest _ _ | .uncorrectableError _ | .scrub _
  | .checkpoint _ _ | .reset | .bringupStageComplete _ | .hostMemoryRequest _ | .hostAtomicop _ _
  | .hostConfigRequest _ _ _ | .getMeasurements _ _ | .keyExchange _ _ _ | .finish _ | .keyUpdate _ _
  | .endSession _ | .lock _ | .start _ _ _ | .stop _ | .sessionConfigWrite _ | .mgmtReadAbjstat _
  | .mgmtReadErrorLog _ | .mgmtReadTimeBudget _ | .mgmtReadMixedAtomicCounter _ | .mgmtReadParameter _
  | .mgmtReadFrameWorldEntry _ | .mgmtReadRouteEntry _ | .setTimeBudget _ | .frameAssign _ | .frameUnassign _
  | .setHandlerTableEntry _ | .killWaitCycle _ | .reformatFrameGranule _ | .setRouteTable _
  | .setAttestationPolicy _ | .setOwnerWindow _ | .setPortConfiguration _ | .postTicketOutcome _
  | .installBootBinding _ | .setParameter _ | .mgmtPreemptionRequest _ | .mgmtPreemptionWithdraw _
  | .resetPort _ | .mgmtUnassignedOp _ | .instructionFetch _ _ _ | .cxlCompleterAck _ | .allotmentClearDone _
  | .contextRestoreComplete _ | .commandComplete | .hostLinkRecovery _ _ => none

/-- The word of an instruction with a given chain bit (R54, R59). -/
def encodeWord (chain : BitVec 1) (i : Instr) : Option W32 :=
  i.body.map (fun mb => chain ++ mb.1 ++ mb.2)

/-- The words of an instruction: each is one word, with C = 0 but for a modifier, whose C is 1 (R56). -/
def encode (i : Instr) : List W32 :=
  match i with
  | .modArithmetic .. | .modMemory .. => (encodeWord 1 i).toList
  | _ => (encodeWord 0 i).toList

/-- Four bytes of a word, least significant first (R4). -/
def W32.bytes (w : W32) : List Byte :=
  [w.extractLsb' 0 8, w.extractLsb' 8 8, w.extractLsb' 16 8, w.extractLsb' 24 8]

/-- The word that four bytes hold, and the bytes after them (R4, R53). -/
def wordOfBytes : List Byte → Option (W32 × List Byte)
  | a :: b :: c :: d :: rest => some (d ++ c ++ b ++ a, rest)
  | _ => none

/-- Decoding the bytes of one word: its chain bit and instruction, and the bytes after it, or the reason there is none. Fewer
than four bytes are no word. -/
def decodeBytes (l : List Byte) : Option (Except DecodeError (Bool × Instr) × List Byte) :=
  match wordOfBytes l with
  | none => none
  | some (w, rest) =>
    some ((match decodeWord w with
      | .ok i => .ok (chainBit w, i)
      | .error e => .error e), rest)

/-- What the decoder reads from an instruction whose bits are w, numbered as the opcode table numbers them. -/
def decodeTableWord (nbits w : Nat) : Option Instr :=
  match decodeBytes (W32.bytes (BitVec.ofNat 32 (w % 2 ^ nbits))) with
  | some (.ok (_, i), _) => some i
  | _ => none

end Sys2Proof
end

