-- ==== Sys2Proof/Machine/State.lean ====
section
/-! DEFINITION. The state of the device as plain data, part by part, with the rule that names each piece, the two closed
lists of reasons a step can stop, and State.reset. A table (Tab) lists only what differs from the value its docstring
says an unlisted key reads as. Every number that software never sees as a word is a natural number. -/

namespace Sys2Proof.Machine

/-! ## Places in memory -/

/-- The memories a byte can lie in: local HBM (R155), CXL-attached memory (R155), the chip scratchpad (R146), the S
allotment and P slices of a workgroup and the C allotment of a gang (R144), and a peer's memory through an owner
window (R281). -/
inductive Space where
  | hbm | cxl | kmem | smem | pmem | cmem
  | remote (peer win : Nat)
  deriving DecidableEq, Repr, Inhabited

/-- A place: its memory, the workgroup or gang that owns it (S, P and C), and the address or offset in it. -/
structure Loc where
  sp : Space
  own : Nat
  a : Nat
  deriving DecidableEq, Repr, Inhabited

/-! ## Splits and groups -/

/-- What holds a split back (R82, R92, R166, R167, R175, R178, R179, R203, R206, R338). The stall forms leave the split
at its issue group, which issues again; the others stand at the position after it. -/
inductive Park where
  | running
  | join
  | waitc (l s p t : Nat) (cov : List Nat)
  | acqld (scope : Nat) (cov : List Nat)
  | relst (op scope : Nat) (cov : List Nat)
  | tlbi (a c : W64) (ops : Option (List Nat))
  | barrier (w : Loc) (phase : Bool)
  | mwait (ge : Bool) (d : SReg) (addr scope : Nat) (w : Loc)
  | latch (core : Nat)
  | yld
  | tret
  | stallEngine
  | stallStores
  | stallSet (ids : List Nat)
  | stallToken
  | stallAdecl
  | stallStream (ctx : Nat)
  | stallPair
  | drain (change : Nat)
  deriving DecidableEq, Repr, Inhabited

/-- A position: packet address and word index 0..2 (R86). -/
structure Pos where
  pc : Nat
  word : Nat
  deriving DecidableEq, Repr, Inhabited

/-- A live split (R84, R86): active mask, position, what parks it and the further waits its issue groups brought, each with the position of the group that brought it (R82), whether it passes over the issue group it stands at (R335, mode 1), the position it issued from last (of a merged split that waits, the position its present wait came from), its wait count, the cycle of its cluster at its promotion to the
head of its class (at 64) and to the global tier (at 1,024), the cycle of its cluster at which its wait began, whether that wait has
sent its probe (R343), whether its lanes exit when its waits have ended (an EXIT whose chained words wait, R93), and the cycle of its cluster
before which it does not issue: the one after its merge or its release from a barrier (R91, R166), and the kind of the stall at issue that it has just
been woken from, to try again (R82, R343). -/
structure Split where
  mask : W32
  pos : Pos
  park : Park
  later : List (Park × Pos)
  skip : Bool
  issued : Pos
  waitCount : Nat
  classPromo : Option Nat
  globalPromo : Option Nat
  since : Nat
  probed : Bool
  exiting : Bool
  rest : Nat
  tried : Nat
  deriving DecidableEq, Repr, Inhabited

/-- A precise trap's record (R328): every field of the handler registers 128 to 134, and the cycle of its cluster at which it was raised (R330). -/
structure TrapRec where
  slot : Nat
  split : Nat
  mask : W32
  pos : Pos
  cause : Nat
  sub : Nat
  tcode : Nat
  kind : Nat
  orig : Nat
  addr : Nat
  tkt : Nat
  lane : Nat
  launch : Nat
  queue : Nat
  raised : Nat
  deriving DecidableEq, Repr, Inhabited

/-- The sticky flags (R50), bit 0 NV, 1 DZ, 2 OF, 3 UF, 4 NX. -/
abbrev Flags := BitVec 5

/-- The registers of one group slot (R112, R113): V by 32·register + lane (unlisted 0), S by number (unlisted 0), P as
lane masks by number (unlisted no lane), F by bit number, FPFLAGS (R50) and SIG (R403). -/
structure Regs where
  v : Tab W32
  s : Tab W64
  p : Tab W32
  f : BitVec 8
  flags : Flags
  sig : W32
  deriving DecidableEq, Repr, Inhabited

/-- One operation in a counter's queue (R169, R171): its number, its place among all of the counter's operations, whether it has ended, and, when its ticket turned fatal,
its copy failed or its bytes were poisoned, the trap a covering WAITC raises (R173, R252, R400). -/
structure Count where
  op : Nat
  seq : Nat
  ended : Bool
  bad : Option TrapRec
  deriving DecidableEq, Repr, Inhabited

/-- An operation that ended without its effect (R173, R252, R400) and whose trap no word has raised yet: its counter (0 CL, 1
CS, 2 CC, 3 CT), its number among that counter's operations, its operation number, and the trap's record. -/
structure FailRec where
  ctr : Nat
  seq : Nat
  op : Nat
  tr : TrapRec
  deriving DecidableEq, Repr, Inhabited

/-- A register awaited by an operation (R114), or left not ready by a fatal ticket or by poison (R173, R400). -/
inductive RegName where
  | v (n : Nat) | s (n : Nat) | p (n : Nat) | f (n : Nat) | spc (n : Nat)
  deriving DecidableEq, Repr, Inhabited

/-- A redundant pair's role (R405). -/
inductive Role where
  | none | leader | trailer
  deriving DecidableEq, Repr, Inhabited

/-- One entry of a redundant pair (R405): 0 a store, 1 a load, 2 an atomic, barrier-word or monitor word; the signature of
its addresses, data and lane mask; whether the trailer has matched it; the leader's operation, and the values bound by lane. -/
structure PairEntry where
  cat : Nat
  sig : W32
  matched : Bool
  op : Nat
  values : List (Nat × BitVec 128)
  deriving DecidableEq, Repr, Inhabited

/-- One word of a queued stream entry is read from lines that are watched; the entry holds a value for each lane, the
lines it was read from, and the stale and marked bits (R266). -/
structure StreamEntry where
  vals : List W32
  lines : List Loc
  stale : Bool
  marked : Bool
  deriving DecidableEq, Repr, Inhabited

/-- A stack entry of R89: mask, word index and the signed packet offset in its 30 bits. -/
structure StackEntry where
  mask : W32
  word : Nat
  packet : BitVec 30
  deriving DecidableEq, Repr, Inhabited

/-- What a redundant pair keeps of a group at a checkpoint (R406, R407): registers, split state and stack, and the
workgroup's matrix exception counters. -/
structure PairSave where
  regs : Regs
  splits : List (Option Split)
  stack : List StackEntry
  mxc : List Nat
  deriving DecidableEq, Repr, Inhabited

/-- One group in a slot (R80, R86, R94): its workgroup and index, registers, registers not ready, the four counter queues,
the operations each counter has counted, the failed ones whose trap is due (R173), the packet of its last EXIT, its
four split indices, the reconvergence stack (top first), the monitor's block (R167), its waiting or served trap, held
(R330), GRESUME's written positions taken, whether killed (R336), whether an uncorrectable error awaits its next
issue group (R400), and its redundant pair: role, partner slot, the
compare buffer and load-value queue, rollbacks and rollbacks since the last checkpoint, checkpoint copy, and the
checkpoint it stands at: 0 plain, 1 ending the pair, 2 before an atomic, 3 just taken for one, 4 implicit, 5 after an atomic, with eight times the split
whose word it is for 2, 3 and 5 (R405 to R407). timeFloor is the
last TIME the group left a cluster with, below which its reads do not fall (R117), and unseen lists the lines it wrote below system scope that the
host or a completer has not acknowledged (R177, R178). mayPop is set as a cycle begins with a stack entry and an index free for it (R90). heldAt is the cycle at which it was last held, and probed says
whether its trap hold has sent its probe (R343). -/
structure Group where
  task : Nat
  index : Nat
  regs : Regs
  notReady : List (RegName × Nat)
  cl : List Count
  cs : List Count
  cc : List Count
  ct : List Count
  totals : List Nat
  failed : List FailRec
  exitPos : Pos
  splits : List (Option Split)
  stack : List StackEntry
  monitor : Option Loc
  trap : Option TrapRec
  held : Bool
  killed : Bool
  poisoned : Bool
  role : Role
  partner : Nat × Nat
  pairBuf : List PairEntry
  rollbacks : Nat
  rollRun : Nat
  checkpoint : Option PairSave
  atCheckpoint : Option Nat
  lastSig : W32
  timeFloor : Nat
  unseen : List Nat
  mayPop : Bool
  heldAt : Nat
  probed : Bool
  deriving DecidableEq, Repr, Inhabited

/-! ## Outstanding operations -/

/-- One lane's part of an operation (R160, R188): the lane, its place, the address as formed, the bytes moved, the data
of a store or atomic (with the new value of a CAS above), whether the part is bound or performed, the cache code that holds for it (R153),
its page's system-wide-atomic bit and granule (R272), the value bound for it, and whether it has written what the host or a completer must
still acknowledge (R177, R195). -/
structure LanePart where
  lane : Nat
  loc : Loc
  addr : Nat
  n : Nat
  data : BitVec 128
  done : Bool
  cache : Nat := 0
  swa : Bool := false
  gran : Nat := 2
  res : BitVec 128 := 0
  wrote : Bool := false
  deriving DecidableEq, Repr, Inhabited

/-- What an outstanding operation does (R169): a lane load with its first V register and sign extension; a uniform load;
a store; a fetch form, CAS or reduction with its FN and sub bit of R71; an MWAIT's read of a remote block; a copy entry of a task; a tile
operation; a PREF's fill into L1 and L2, or L2 alone (R164); the read of a record on a remote page for the word that loads it (R216, R262, R265, R317); a stream reload's read (R266); a
grid's read of a dependence word (R314) and its done word (R315). -/
inductive OpKind where
  | load (d : Nat) (sext : Bool)
  | loadU (d : SReg)
  | store
  | atom (fn : Nat) (d : Nat)
  | red (fn : Nat) (sub : Bool)
  | monitor (split : Nat)
  | copy (task n : Nat)
  | tile (core entry : Nat)
  | pref (l1 : Bool)
  | record
  | stream (ctx : Nat)
  | depend (grid which : Nat)
  | doneWord (grid : Nat)
  deriving DecidableEq, Repr, Inhabited

/-- Where an operation stands: held back (a RELST's store before its wait has ended, R178; a pair's store before its checkpoint, R405),
going on, awaiting the CXL completer (0: the acknowledgement of what is performed, R177, R195; 1: a line exclusive or the host's copies
recalled before an atomic, R197), waiting on a ticket (R286), ended. -/
inductive OpState where
  | held | going | awaiting (tag : Nat) | ticketed (tkt : BitVec 32) | ended
  deriving DecidableEq, Repr, Inhabited

/-- An outstanding operation (R169 to R174): issuing core, slot and task, counter, kind, lane parts, scope,
whether it is tentative, its packet and word (for HORIG, R328), its state, the 128-B lines it still needs an entry for, ascending, and
those it holds an entry for (R159, R174), whether its wait on a ticket has sent its probe (R343), and whether a replay has issued it again (R287). -/
structure Op where
  core : Nat
  slot : Nat
  task : Nat
  ctr : Ctr
  kind : OpKind
  parts : List LanePart
  scope : Nat
  tent : Bool
  pos : Pos
  st : OpState
  waits : List Loc
  held : List Loc
  probed : Bool := false
  again : Bool := false
  deriving DecidableEq, Repr, Inhabited

/-! ## Workgroups, grids and gangs -/

/-- What a matrix-queue entry does (R222 to R231). Each carries the operands as read at issue. -/
inductive MxKind where
  | mma (t a b : Nat) (negA negB nacc : Bool) (sh r : Nat)
  | mlda (h src dst len : Nat)
  | mldb (h src pitch kn jn fmt : Nat)
  | mzero (t : Nat)
  | mtld (t src pitch fmt : Nat)
  | mtst (t dst pitch fmt : Nat)
  | mtrv (d t c : Nat) (mask : W32)
  | mtwv (t c : Nat) (mask : W32) (vals : List W32)
  deriving DecidableEq, Repr, Inhabited

/-- A matrix-queue entry (R222, R225 to R228): number, task, slot, kind, operation number (its CT count), the cycle at which it became its
core's request to the arbiter, whether that wait has sent its probe (R343), the cycle at which it started, the groups in k done before a park, the ticket it is parked on, the
cycle after its last occupied one, the tile elements its occupancy made (by tile and element), and the flags each output element has
raised. -/
structure MxEntry where
  id : Nat
  task : Nat
  slot : Nat
  kind : MxKind
  op : Nat
  reqAt : Option Nat
  probed : Bool
  started : Option Nat
  kGroup : Nat
  parked : Option (BitVec 32)
  occEnd : Option Nat
  result : Tab W32
  marks : Tab Nat
  deriving DecidableEq, Repr, Inhabited

/-- An atomic set of a task (R200): base, length, acquired. -/
structure SetRec where
  base : Nat
  len : Nat
  acquired : Bool
  deriving DecidableEq, Repr, Inhabited

/-- A reservation or descriptor a handle is bound to (R215, R216): the record's two words and the chosen base. -/
structure Binding where
  w0 : W64
  w1 : W64
  base : Nat
  deriving DecidableEq, Repr, Inhabited

/-- A published copy entry (R241, R248, R249): its number, deadline, global publication order, whether deferred, accepted
words once read, the channel, bytes written so far, and its end: none, completed, or failed with a code. -/
structure CopyEntry where
  n : Nat
  deadline : Nat
  order : Nat
  deferred : Bool
  words : Option (List W64)
  chan : Option (Nat × Nat)
  written : Nat
  total : Nat
  stop : Option Nat
  slot : Nat
  opId : Nat
  deriving DecidableEq, Repr, Inhabited

/-- A workgroup's copy queue (R241, R249, R256, R261): initialised, offset, capacity, last published number, stage count,
last error and its entries, the last 64 published ones tracked (R260). -/
structure CopyQueue where
  init : Bool
  ofs : Nat
  cap : Nat
  last : Nat
  stage : Nat
  err : Nat
  entries : List CopyEntry
  deriving DecidableEq, Repr, Inhabited

/-- An open stream context (R263 to R268): the eight record words, the index of the group that opened it, entries popped or
skipped so far, and the queue's entries, oldest first. -/
structure Stream where
  words : List W64
  group : Nat
  popped : Nat
  queue : List StreamEntry
  deriving DecidableEq, Repr, Inhabited

/-- The irrevocable token as a task sees it (R206, R207, R211): its request recorded by AIRREV, made with the first acquisition, made by an operation
that needs the token, or granted. -/
inductive TokenState where
  | none | recorded | atFirst | requested | held
  deriving DecidableEq, Repr, Inhabited

/-- The phase of a task's life (R93, R205, R208, R338 to R342): running, parked for a wound's restart, in commit, saved
cooperatively or by force (with its context kept), being cleared at dispatch (R147), being restored, retired. -/
inductive TaskPhase where
  | clearing | running | wounded | committing | saved (place : Option (Nat × Nat)) | restoring | retired
  deriving DecidableEq, Repr, Inhabited

/-- A workgroup, also a task (R9, R14, R112, R199, R204, R214, R342). Its launch record is the grid's. Places are a core
and the slots of its groups; memories are the S allotment and the P slices by byte (unlisted 0; a P key is
4,096·(32·group + lane) + offset), tentative bytes by physical address (R204), tiles by 4,096·tile + 64·i + j (unlisted
+0.0), handles, shape records of four words, the five exception counters (R232), streams, copy queue, sets, token,
the copy queue at first acquisition (R208), its age, restarts, the cycle of its cluster at which its residency began and the cycles of earlier
ones (R24), queue, the cycle from which its deadline counts (R338), and the flags that it was
killed, that a wait cycle was reported (R345), and that a wound's restart is due (R208, R209). floor is the last TIME its groups have left a cluster
with, for those a restart makes anew (R117). left lists the slots whose groups have left them; the
workgroup holds them until it retires (R10, R27). fixed names the core a workgroup saved for a call-up resumes on (R12). Groups of a saved task are
kept in saved, its matrix entries in savedMx and the buffer bytes of its handles in savedBuf (R238, R342). -/
structure Task where
  grid : Nat
  linear : Nat
  gang : Nat
  core : Nat
  slots : List Nat
  left : List Nat
  fixed : Option Nat
  queue : Nat
  phase : TaskPhase
  age : Nat
  restarts : Nat
  since : Nat
  ran : Nat
  smem : List Host.Cell
  pmem : List Host.Cell
  tent : List Host.Cell
  tiles : Tab W32
  handles : Tab Binding
  shapes : Tab (List W64)
  mxc : List Nat
  streams : Tab Stream
  cq : CopyQueue
  cqFirst : Option CopyQueue
  sets : Tab SetRec
  token : TokenState
  killed : Bool
  cyc : Bool
  restart : Bool
  saved : List Group
  savedMx : List MxEntry
  savedBuf : Tab (List Byte)
  deadlineFrom : Option Nat
  floor : Nat
  deriving DecidableEq, Repr, Inhabited

/-- An accepted grid (R308 to R317): the sixteen record words, the atomic-set table, dispatch progress, retired
workgroups, whether each dependence is satisfied, its failure code, acceptance order (launch id is the key), the
mailbox binding and snapshot of a handler grid (R322), and its done word written. -/
structure Grid where
  words : List W64
  sets : List (Nat × Nat)
  queue : Nat
  world : Nat
  next : Nat
  retired : Nat
  dep0 : Bool
  dep1 : Bool
  fail : Nat
  mailbox : Option Nat
  snapshot : List W64
  deriving DecidableEq, Repr, Inhabited

/-- A gang's cluster-shared memory (R145, R147): bytes by offset (unlisted 0), extent, the KiB units that lie in each core's share
partition, cluster and living workgroups. -/
structure Gang where
  cmem : List Host.Cell
  extent : Nat
  share : Tab Nat
  cluster : Nat
  live : Nat
  deriving DecidableEq, Repr, Inhabited

/-! ## Cores and matrix pairs -/

/-- A TLB entry (R271, R276): ASN, world, virtual base and size of the page, and the leaf as it was read. -/
structure TlbEntry where
  asn : Nat
  world : Nat
  va : Nat
  size : Nat
  leaf : W64
  deriving DecidableEq, Repr, Inhabited

/-- The states of an L1 line (R151). -/
inductive LineState where
  | s | e | m | u
  deriving DecidableEq, Repr, Inhabited

/-- A line of an L1 (R151): its state, the valid bits of its four 32-B sectors, and the way it stands in. -/
structure L1Line where
  st : LineState
  sectors : BitVec 4
  way : Nat
  deriving DecidableEq, Repr, Inhabited

/-- A set of an L2 slice (R157): its 128-B frames, each with the one or two lines it holds and the encoding of each, and the lines in the order of
their last use, the most recent first. -/
structure L2Set where
  frames : List (List (Nat × Nat))
  order : List Nat
  deriving DecidableEq, Repr, Inhabited

/-- The array states of R233, coded as MPAIR reads them (R237). -/
inductive ArrayState where
  | cold | awaitUp | rampUp | hot | holding | awaitDown | rampDown
  deriving DecidableEq, Repr, Inhabited

/-- A matrix pair (R227, R233 to R237): array state, activity level in eighths, cycle of the last change, granted window,
hold limit, the pending hint's request cycle, whether the ramp was hinted, the core granted last, the core whose MMA
occupies or is granted the array and its entry, ramps begun, and the entries parked in the pair's eight slots. -/
structure Pair where
  st : ArrayState
  level : Nat
  since : Nat
  window : Option Nat
  holdLimit : Nat
  hint : Option Nat
  hinted : Bool
  lastCore : Option Nat
  owner : Option (Nat × Nat)
  ramps : Nat
  deriving DecidableEq, Repr, Inhabited

/-- A service core (R14, R19, R146, R151, R193, R216, R222, R276, R330, R338, R383): its world latch and whether its
clearing is under way, L1 lines by 128-B line (unlisted I; a CXL-attached line is numbered from 2^48 on), the pseudo-LRU bits of each of its sets, U partials by word address as (operation code, partial),
stale-able copies of remote and CXL lines by byte, L1 TLB, matrix queue, operand and weight buffer bytes (unlisted 0)
and 256-B units reserved or being cleared, waiting traps in order, the task served and the trap served, HERR, the
classes that pre-emption requests name, each with who asks: a queue's head (its number plus 1), a spent quota (plus 100), or another agent (0) (R338, R379), handler registers kept between activations, and the instruction cache's lines. -/
structure Core where
  world : Nat
  clearing : Option Nat
  l1 : Tab L1Line
  plru : Tab Nat
  upart : Tab (Nat × W32)
  copies : List (Loc × Byte)
  tlb : List TlbEntry
  mq : List MxEntry
  opBuf : List Host.Cell
  wBuf : List Host.Cell
  opUsed : Tab Nat
  wUsed : Tab Nat
  waiting : List TrapRec
  serving : Option (Nat × TrapRec)
  herr : Bool
  preq : Tab (List Nat)
  icache : List Nat
  deriving DecidableEq, Repr, Inhabited

/-! ## Clusters, dies -/

/-- A cluster (R246, R248, R354, R369 to R374, R382): level 0..2, throttled by four, cycle count, TIME copy and its 24-bit
fraction, copy channels (task, entry number), the block each channel's engine holds (R158), layout programs as (world, eight steps), slew windows taken, drain and
settling for a frequency change, fallow state of R353 (0 service), gating window end, energy not yet charged, filler
level and half-rate throttle of R370, current of the last window, temperature of the last sample, idle since, whether a
forced save of it is under way (R340), whether a dispatch waits for its wake (R354), the TIME of its latest wake (R371), the TIME up to which cycle counts its cycles, and the cycle at which its slew windows began anew
(R372). -/
structure Cluster where
  level : Nat
  cycle : Nat
  timeInt : Nat
  timeFrac : Nat
  chans : Tab (Nat × Nat)
  held : Tab (List Loc)
  layouts : Tab (Nat × List W64)
  windows : List Nat
  drain : Option Nat
  settling : Option Nat
  fallow : Nat
  gating : Option Nat
  filler : Nat
  halfRate : Bool
  current : Nat
  celsius : Int
  idleSince : Nat
  clearing : Bool
  waking : Bool
  woke : Option Nat
  mark : Nat
  base : Nat
  deriving DecidableEq, Repr, Inhabited

/-- A waiting entry of a die's ticket table (R286): owner, window, page, requesting world, ticket word, the operations that
wait, the TIME it was opened, and a notice kept for a saved task (R289). -/
structure TicketEntry where
  owner : Nat
  win : Nat
  page : Nat
  world : Nat
  tkt : BitVec 32
  ops : List Nat
  since : Nat
  notice : Option (BitVec 32)
  deriving DecidableEq, Repr, Inhabited

/-- A compute die (R12, R22, R197, R276, R286, R291, R341, R363, R397): slot map (logical slot to physical pair), pair
states of R353 for the five physical pairs, L2 TLB and walk cache, ticket table, notices received, notices kept with
their TIME (R303), shadow-store places as the tasks they hold, context region's tasks, mixed-atomic counter, the
L2 slices' numbers taken by spares, self-test queue, a call-up under way (retiring pair, slot, stage), and the
pairs whose retirement waits (R363). -/
structure Die where
  slotMap : List Nat
  tlb : List TlbEntry
  walkCache : List (Nat × Nat × Nat × W64)
  tickets : Tab TicketEntry
  notices : Nat
  kept : List (BitVec 32 × Nat)
  shadow : List (Option (List Nat))
  region : List Nat
  mixed : Nat
  spareUsed : Tab Nat
  tests : List ErrSite
  callup : Option (Nat × Nat × Nat)
  retiring : List Nat
  deriving DecidableEq, Repr, Inhabited

/-! ## Queues and mailboxes -/

/-- A hardware queue (R306, R308, R378, R379): the record's fields, its deficit, energy used and debt, the copy bytes
written in the period, and whether its quota is spent. -/
structure Queue where
  mask : BitVec 256
  en : Bool
  cls : Nat
  world : Nat
  asn : Nat
  quantum : Nat
  root : Nat
  deadline : Nat
  equota : Nat
  cbud : Nat
  deficit : Int
  used : Nat
  debt : Nat
  copied : Nat
  spent : Bool
  deriving DecidableEq, Repr, Inhabited

/-- A mailbox binding (R319 to R322): the image's fields, the kept launch record and set table, pending snapshots, handlers
running and the overflow count. -/
structure Mailbox where
  bound : Bool
  kind : Nat
  trig : Nat
  handler : Nat
  lim : Nat
  queue : Nat
  words : List W64
  sets : List (Nat × Nat)
  pend : List (List W64)
  run : Nat
  ovf : Nat
  arrived : List (List W64)
  deriving DecidableEq, Repr, Inhabited

/-! ## Fabric, sessions -/

/-- A message between peers, inside flits (R295). -/
structure Msg where
  kind : Nat
  win : Nat
  va : Nat
  tag : Nat
  len : Nat
  op : Nat
  scope : Nat
  tkt : BitVec 32
  data : List Byte
  peer : Nat
  world : Nat
  deriving DecidableEq, Repr, Inhabited

/-- One Abjan link, in both directions (R296 to R305, R392): state of R305, working-lane mask, retrainings, protocol
errors, the TIMEs of CRC and tag failures, send counter, receive counter, unacknowledged flits with the messages each carries bytes of, queued messages by
virtual channel, the message whose bytes have gone out in part with the rest of them, credits by virtual channel, payload bytes
received of a message not yet whole (by 4·peer + channel), messages received and not yet handled, the flits put on the wire with the bytes of
each lane, the TIME from which the replay timeout runs, by virtual channel the flits received whose buffers are not free yet and the credits returned, compression
setting by port and the peer's announcement, session secret, whether sending has stopped for an exhausted counter and since when, and the byte times its lanes have sent flits since the latest sample (R350). -/
structure Link where
  st : Nat
  lanes : BitVec 16
  retrains : Nat
  proto : Nat
  crcFails : List Nat
  sendCtr : Nat
  recvCtr : Nat
  unacked : List (Flit × List Msg)
  queued : Tab (List Msg)
  started : Tab (Msg × List Byte)
  credits : Tab Nat
  rx : Tab (List Byte)
  inbox : List Msg
  wire : List (Flit × List (Nat × List Byte))
  acked : Nat
  taken : Tab Nat
  returned : Tab Nat
  compress : BitVec 4
  peerDecodes : Bool
  secret : BitVec 384
  exhausted : Option Nat
  sent : Nat
  deriving DecidableEq, Repr, Inhabited

/-- A session's lock state (R390). -/
inductive LockState where
  | unlocked | locked | run | error
  deriving DecidableEq, Repr, Inhabited

/-- A link session (world 0, of a port) or a world session with a peer (R390, R391): peer, world, the port it guards,
lock state, keys installed, and the TIME of the last heartbeat received and sent. -/
structure Session where
  peer : Nat
  world : Nat
  port : Option Nat
  st : LockState
  keyed : Bool
  lastBeat : Nat
  lastSent : Nat
  deriving DecidableEq, Repr, Inhabited

/-- An owner window (R282). -/
structure Window where
  v : Bool
  wr : Bool
  root : Nat
  asn : Nat
  world : Nat
  mbox : Nat
  plo : Nat
  phi : Nat
  post : Nat
  deriving DecidableEq, Repr, Inhabited

/-- An open ticket of this device as owner (R283, R285): window, page, the peers it was answered to, and since when. -/
structure OwnerTicket where
  win : Nat
  page : Nat
  peers : List Nat
  since : Nat
  deriving DecidableEq, Repr, Inhabited

/-- A remote request sent and not yet answered (R281, R285, R286, R301): peer, window, address, the operation and lane
parts it serves (by index), kind, when it was sent, when it is to be resent after a busy reply or for a full table (full), the world it
travels under, and whether the bytes of its reply may be kept as a clean copy (R177). -/
structure Request where
  peer : Nat
  win : Nat
  va : Nat
  op : Nat
  part : Nat
  kind : AccKind
  sent : Nat
  resend : Option Nat
  full : Bool
  world : Nat
  keep : Bool
  deriving DecidableEq, Repr, Inhabited

/-! ## Life, clocks, errors -/

/-- A wear record (R352): every field of its twelve words that the class and index do not fix, and the two sub-unit
residues of R351. -/
structure Wear where
  bti : Nat
  hci : Nat
  em : Nat
  pool : Nat
  cbti : Nat
  chci : Nat
  cem : Nat
  st : Nat
  core : Nat
  disc : Bool
  drift : Int
  fcount : Nat
  ctime : Nat
  fms : Nat
  cseq : Nat
  resid : Nat × Nat × Nat
  deriving DecidableEq, Repr, Inhabited

/-- The life target (R365): its first six words. -/
structure Target where
  words : List W64
  deriving DecidableEq, Repr, Inhabited

/-- A boost grant (R359, R360, R362): level, clusters, duration in ms, samples drawn so far, costs, and its start TIME. -/
structure Grant where
  level : Nat
  clusters : List Nat
  ms : Nat
  drawn : Nat
  cost : Nat × Nat × Nat
  start : Option Nat
  deriving DecidableEq, Repr, Inhabited

/-- A decided change of level (R372): clusters, level and change count C, and whether it has switched. -/
structure Change where
  clusters : List Nat
  level : Nat
  count : Nat
  switched : Bool
  deriving DecidableEq, Repr, Inhabited

/-- An entry of the error log (R396, R401, R412): its four words. -/
structure LogEntry where
  kind : Nat
  cls : Nat
  unit : Nat
  pa : Nat
  world : Nat
  time : Nat
  deriving DecidableEq, Repr, Inhabited

/-- A probe under way (R343, R344): the waiting group that sent it, which of its waits did (a split's number, 4 for an MMA's arbiter request, 5 for its
trap hold, or 6 and the number of an operation that waits on a ticket), the
group it has reached, the groups it went through, and those it has been forwarded to from where it stands (R377). -/
structure Probe where
  sender : Nat × Nat
  wait : Nat
  at_ : Nat × Nat
  path : List (Nat × Nat)
  sent : List (Nat × Nat) := []
  deriving DecidableEq, Repr, Inhabited

/-- The status word, the seq and status of a command that is still running, words 1 to 7 of the slot (operands and results) and its word 0 (R412), and the
count of cores in service as reported (R13, log entry 6). -/
structure Mgmt where
  stage : Nat
  cst : Nat
  cseq : Nat
  running : Option (Nat × Nat)
  result : List W64
  word0 : W64
  cores : Nat
  deriving DecidableEq, Repr, Inhabited

/-- The host port (R409, R410): trained width and rate in GT/s (2 for 2.5), whether memory requests are served, the latest answer, configuration
registers written, and whether the link is up. -/
structure HostPort where
  width : Nat
  gts : Nat
  trained : Bool
  reply : Option (List Byte)
  aborted : Bool
  cfg : Tab W32
  up : Bool
  deriving DecidableEq, Repr, Inhabited

/-- What DIAGST left in a storage location (R402): array, core or die, address, the data and check symbols as stored, the data that its
code makes of them, the place of memory whose eight bytes an SRAM word holds, whether its code can make nothing of it, and whether it errs and no
access has decoded it yet (R279, R396). -/
structure Raw where
  array : Nat
  inst : Nat
  addr : Nat
  stored : List Nat
  seen : List Nat
  loc : Option Loc := none
  bad : Bool := false
  pending : Bool := false
  deriving DecidableEq, Repr, Inhabited

/-- Frame state (R278, R280, R385, R155): world when assigned, pinned, recorded granule, home die, line fills from each
die in the period (R324), target die of a migration and lines moved, the frame it is exchanged with, and whether it belongs to a context region, which no
task can address (R339). -/
structure Frame where
  world : Option Nat
  pinned : Bool
  gran : Nat
  home : Option Nat
  fills : List Nat
  moving : Option (Nat × Nat)
  swap : Option Nat
  reserved : Bool
  deriving DecidableEq, Repr, Inhabited

/-! ## The device -/

/-- The whole device but for the issue in progress; l2 holds the sets of the L2 slices by slice and set (R155, R157), hostCopies the lines of local
memory that the host holds copies of (R177, R195), moves lists the frames that migrate, the one that goes first
first (R324), expelled lists the worlds that lost their heartbeat (R391), lifeNow is the target as the latest sample found it (R366), commitDue the units whose records are
due, each with the TIME since when (R355), alarmAt the TIME at which the cause of fast throttle last stood (R381); busy counts what R350 calls switching since the
latest sample: by logical core its cycles in which it issued, from 256 on by pair the eighths its arrays worked in each cycle, from 384 on by slice number of all dies
the accesses and fills it served; sampled holds each cluster's cycle and sampledAt the TIME of that sample; cxlCounts the write counts of CXL-attached lines (R389);
stranded the messages for which no link reached their peer (R302); turn is the model's own: by port (four times the core, and the port) the cycle of its
cluster in which it issued last, and the slot and split that did (log entry 3), and fresh counts the free values taken (log entry 4). -/
structure Dev where
  time : Nat
  groups : Tab Group
  tasks : Tab Task
  grids : Tab Grid
  gangs : Tab Gang
  ops : Tab Op
  cores : Tab Core
  pairs : Tab Pair
  clusters : Tab Cluster
  dies : Tab Die
  hbm : List Host.Cell
  cxl : List Host.Cell
  kmem : List Host.Cell
  frames : Tab Frame
  kframes : Tab Nat
  moves : List Nat
  poison : List Loc
  raw : List Raw
  lineWriter : Tab Nat
  l2 : Tab L2Set
  hostCopies : List Nat
  queues : Tab Queue
  boxes : Tab Mailbox
  tokens : Tab Nat
  keys : Tab (BitVec 256)
  links : Tab Link
  sessions : Tab Session
  windows : Tab Window
  owned : Tab OwnerTicket
  posted : List (Nat × W64)
  requests : Tab Request
  performedTags : List (Nat × Nat × Msg × Nat)
  stranded : List Msg
  routes : Tab (BitVec 18)
  policy : BitVec 2
  scrubAt : Tab Nat
  gangMode : Bool
  peerId : Nat
  sweeps : Tab Nat
  expelled : List Nat
  wear : Tab Wear
  wearMram : Tab (Wear × Wear)
  commitDue : Tab Nat
  target : Option Target
  lifeNow : Option Target
  serviceMs : Nat
  grants : Tab Grant
  lastGrant : Nat
  changes : Tab Change
  throttled : Bool
  throttleClear : Option Nat
  alarmAt : Nat
  powerW : Nat
  busy : Tab Nat
  sampled : List Nat
  sampledAt : Nat
  cxlCounts : Tab Nat
  budgets : Tab Nat
  spent : Tab Nat
  period : Nat
  params : Tab Nat
  handlers : Tab Nat
  log : List LogEntry
  logCounts : Tab Nat
  repairs : List Nat
  remapped : List (Nat × Nat)
  probes : Tab Probe
  mgmt : Mgmt
  host : HostPort
  marker : Option (Nat × Nat × BitVec 384)
  stopped : Bool
  evidence : Option (BitVec 384 × List W64 × BitVec 384 × BitVec 384)
  nextLaunch : Nat
  nextTask : Nat
  nextOp : Nat
  nextTag : Nat
  nextTicket : Nat
  lastTicket : Nat
  nextOrder : Nat
  nextProbe : Nat
  nextChange : Nat
  nextEntry : Nat
  ageTime : Nat
  ageSeq : Nat
  turn : Tab (Nat × Nat × Nat)
  fresh : Nat
  deriving DecidableEq, Repr, Inhabited

/-! ## The issue in progress -/

/-- An arithmetic or memory modifier (R63, R64) as the word after it takes it. -/
inductive Mod where
  | arith (g : PReg) (e : Bool) (r l : Nat) (t : Bool) (negA negB absA absB : Bool) (k : Int)
  | memory (g : PReg) (e : Bool) (scope cache : Nat) (o : Int)
  deriving DecidableEq, Repr, Inhabited

/-- The issue group being executed (R54): whether one is, its core, slot, split, active mask and position, its words still
to run, the position after it (R88), the modifier for the next word, the device as it stood before the group issued
(whose registers every word reads, R54, and to which a precise trap returns), the flags raised in the group (R52),
the popped stream values by queue (R115), the page table entries its walks have updated (R275), a taken transfer's
target, the lanes and target of a division (R88), the code of a TRAP (R337), the waits the split takes at the group's
end, and whether its lanes exit. -/
structure Issue where
  open_ : Bool
  core : Nat
  slot : Nat
  split : Nat
  mask : W32
  pos : Pos
  words : List Instr
  fall : Pos
  mod : Option Mod
  base : Dev
  raised : Flags
  heads : Tab (List W32)
  walked : List (Nat × W64)
  target : Option Nat
  divide : Option (W32 × Nat)
  trapCode : Option Nat
  parks : List Park
  exits : Bool
  deriving DecidableEq, Repr

/-- A scheduled step: TIME units that pass before it, and the step. -/
structure Sched where
  after : Nat
  ev : Instr
  deriving DecidableEq, Repr

/-- The state of the machine: the device, the issue in progress, and the steps that timing and the outside world bring
about next (when none is listed, Machine/Schedule.lean says which step comes), and pick, the model's own: a port that issues in the very next
step, before anything else (log entry 1). -/
structure State where
  dev : Dev
  iss : Issue
  agenda : List Sched
  pick : Option Nat
  deriving DecidableEq, Repr

/-- Why the machine stops. -/
inductive Fault where
  /-- Raised by a step after the supply-loss sequencer has sealed its marker (R380): the device then requires a reset, and
  the spec gives no later step. Safe: nothing is claimed of the device after that. -/
  | supplyLost
  deriving DecidableEq, Repr

/-- Why an instruction has no meaning. -/
inductive Refusal where
  /-- Raised by an arm of exec whose instruction has no meaning yet. Safe: no statement follows from a refusal. -/
  | notModelled (mnemonic : String)
  deriving DecidableEq, Repr

/-! ## Reset -/

/-- Registers before a dispatch: all zero (R112; the handler slot's hold zero after reset, R329). -/
def Regs.zero : Regs :=
  { v := [], s := [], p := [], f := 0, flags := 0, sig := 0 }

/-- A slot with nothing in it. -/
def Group.empty : Group :=
  { task := 0, index := 0, regs := Regs.zero, notReady := [], cl := [], cs := [], cc := [], ct := [],
    totals := [0, 0, 0, 0], failed := [], exitPos := { pc := 0, word := 0 },
    splits := [none, none, none, none], stack := [], monitor := none, trap := none, held := false, killed := false,
    poisoned := false,
    role := .none, partner := (0, 0), pairBuf := [], rollbacks := 0, rollRun := 0, checkpoint := none,
    atCheckpoint := none, lastSig := 0, timeFloor := 0, unseen := [], mayPop := false, heldAt := 0, probed := false }

/-- A copy queue before CQINIT (R256, R261). -/
def CopyQueue.empty : CopyQueue :=
  { init := false, ofs := 0, cap := 0, last := 0, stage := 0, err := 0, entries := [] }

/-- A core after reset: world 0 latched (DESIGN CHOICE, log entry 6), everything else clear. -/
def Core.reset : Core :=
  { world := 0, clearing := none, l1 := [], upart := [], copies := [], tlb := [], mq := [], opBuf := [], wBuf := [],
    plru := [], opUsed := [], wUsed := [], waiting := [], serving := none, herr := false, preq := [], icache := [] }

/-- A matrix pair after reset: cold (DESIGN CHOICE, log entry 6), no ramp begun (R237). -/
def Pair.reset : Pair :=
  { st := .cold, level := 0, since := 0, window := none, holdLimit := 16, hint := none, hinted := false,
    lastCore := none, owner := none, ramps := 0 }

/-- A cluster after reset: level B0, in service (DESIGN CHOICE, log entry 6). -/
def Cluster.reset : Cluster :=
  { level := 0, cycle := 0, timeInt := 0, timeFrac := 0, chans := [], held := [], layouts := [], windows := [], drain := none,
    settling := none, fallow := 0, gating := none, filler := 0, halfRate := false, current := 0, celsius := 0,
    idleSince := 0, clearing := false, waking := false, woke := none, mark := 0, base := 0 }

/-- A die after reset: logical slots 0..3 on physical pairs 0..3 with pair 4 in the granary (DESIGN CHOICE, log entry 7). -/
def Die.reset : Die :=
  { slotMap := [0, 1, 2, 3], tlb := [], walkCache := [], tickets := [], notices := 0, kept := [],
    shadow := [none, none], region := [], mixed := 0, spareUsed := [], tests := [], callup := none, retiring := [] }

/-- A disabled queue (R414, stage 7). -/
def Queue.reset : Queue :=
  { mask := 0, en := false, cls := 0, world := 0, asn := 0, quantum := 0, root := 0, deadline := 0, equota := 0,
    cbud := 0, deficit := 0, used := 0, debt := 0, copied := 0, spent := false }

/-- An empty binding (R414, stage 7). -/
def Mailbox.reset : Mailbox :=
  { bound := false, kind := 0, trig := 0, handler := 0, lim := 0, queue := 0, words := [], sets := [], pend := [],
    run := 0, ovf := 0, arrived := [] }

/-- A link before it trains (R305). -/
def Link.reset : Link :=
  { st := 0, lanes := 0, retrains := 0, proto := 0, crcFails := [], sendCtr := 0, recvCtr := 0, unacked := [],
    queued := [], started := [], credits := [], rx := [], inbox := [], wire := [], acked := 0, taken := [], returned := [], compress := 0, peerDecodes := false, secret := 0,
    exhausted := none, sent := 0 }

/-- A window not installed (R282). -/
def Window.reset : Window :=
  { v := false, wr := false, root := 0, asn := 0, world := 0, mbox := 0, plo := 0, phi := 0, post := 0 }

/-- A unit that has worn nothing (R352; DESIGN CHOICE, log entry 8). -/
def Wear.new : Wear :=
  { bti := 0, hci := 0, em := 0, pool := 0, cbti := 0, chci := 0, cem := 0, st := 0, core := 255, disc := false,
    drift := 0, fcount := 0, ctime := 0, fms := 0, cseq := 0, resid := (0, 0, 0) }

/-- An unassigned frame, G128 recorded (DESIGN CHOICE, log entry 9), its home by address (R155). -/
def Frame.reset : Frame :=
  { world := none, pinned := false, gran := 2, home := none, fills := [0, 0, 0, 0], moving := none, swap := none, reserved := false }

/-- The device right after reset: bring-up stage 1 (R414), no work, no queue, no binding, memory with nothing listed. -/
def Dev.reset : Dev :=
  { time := 0, groups := [], tasks := [], grids := [], gangs := [], ops := [], cores := [], pairs := [],
    clusters := [], dies := [], hbm := [], cxl := [], kmem := [], frames := [], kframes := [], moves := [], poison := [],
    raw := [], lineWriter := [], l2 := [], hostCopies := [], queues := [], boxes := [], tokens := [], keys := [], links := [], sessions := [], windows := [],
    owned := [], posted := [], requests := [], performedTags := [], stranded := [], routes := [], policy := 3, scrubAt := [], gangMode := false, peerId := 0,
    sweeps := [], expelled := [], wear := [], wearMram := [], commitDue := [], target := none, lifeNow := none, serviceMs := 0, grants := [], lastGrant := 0,
    changes := [], throttled := false, throttleClear := none, alarmAt := 0, powerW := 0, busy := [], sampled := [], sampledAt := 0, cxlCounts := [], budgets := [], spent := [], period := 0, params := [],
    handlers := [], log := [], logCounts := [], repairs := [], remapped := [], probes := [],
    mgmt := { stage := 1, cst := 0, cseq := 0, running := none, result := [0, 0, 0, 0, 0, 0, 0], word0 := 0, cores := 256 },
    host := { width := 0, gts := 0, trained := false, reply := none, aborted := false, cfg := [], up := false },
    marker := none, stopped := false, evidence := none, nextLaunch := 0, nextTask := 1, nextOp := 1, nextTag := 1,
    nextTicket := 1, lastTicket := 0, nextOrder := 1, nextProbe := 1, nextChange := 1, nextEntry := 1, ageTime := 0, ageSeq := 0,
    turn := [], fresh := 0 }

/-- No issue in progress. -/
def Issue.closed : Issue :=
  { open_ := false, core := 0, slot := 0, split := 0, mask := 0, pos := { pc := 0, word := 0 }, words := [],
    fall := { pc := 0, word := 0 }, mod := none, base := Dev.reset, raised := 0, heads := [], walked := [],
    target := none, divide := none, trapCode := none, parks := [], exits := false }

/-- The machine right after reset. -/
def State.reset : State :=
  { dev := Dev.reset, iss := Issue.closed, agenda := [], pick := none }

end Sys2Proof.Machine
end

