-- ==== Sys2Proof/Machine/Table.lean ====
section
/-! DEFINITION. Sparse tables: keys strictly rising, and no entry that equals what an unlisted key reads as. Memory is such a
table of bytes (R4, R6); a byte that nothing has written reads 0 (DESIGN CHOICE, log entry 2). -/

namespace Sys2Proof

/-- What a table lists under a key. -/
def Tab.find {α : Type} : Tab α → Nat → Option α
  | [], _ => none
  | (j, v) :: t, k => if j = k then some v else Tab.find t k

/-- What a table holds under a key, d where it lists nothing. -/
def Tab.get {α : Type} (d : α) (t : Tab α) (k : Nat) : α :=
  (Tab.find t k).getD d

/-- A table with an entry put in its place. -/
def Tab.insert {α : Type} : Tab α → Nat → α → Tab α
  | [], k, v => [(k, v)]
  | (j, w) :: t, k, v =>
    if j = k then (k, v) :: t else if k < j then (k, v) :: (j, w) :: t else (j, w) :: Tab.insert t k v

/-- A table without the entry of a key. -/
def Tab.erase {α : Type} (t : Tab α) (k : Nat) : Tab α := t.filter (fun p => decide (p.1 ≠ k))

/-- Writing a key in a table whose unlisted keys read d: an entry that would equal d is not listed. -/
def Tab.set {α : Type} [DecidableEq α] (d : α) (t : Tab α) (k : Nat) (v : α) : Tab α :=
  if v = d then Tab.erase t k else Tab.insert t k v

/-- The keys of a table are strictly rising. -/
def Tab.sorted {α : Type} : Tab α → Bool
  | [] => true
  | [_] => true
  | (j, _) :: (k, w) :: t => decide (j < k) && Tab.sorted ((k, w) :: t)

/-- The keys a table lists. -/
def Tab.keys {α : Type} (t : Tab α) : List Nat := t.map Prod.fst

/-- A change to every listed entry, which may look at its key. -/
def Tab.mapV {α : Type} (t : Tab α) (f : Nat → α → α) : Tab α := t.map (fun p => (p.1, f p.1 p.2))

/-- The listed entries that meet a condition. -/
def Tab.keep {α : Type} (t : Tab α) (p : Nat → α → Bool) : Tab α := t.filter (fun q => p q.1 q.2)

/-- A change to one listed entry; an unlisted key changes nothing. -/
def Tab.modify {α : Type} (t : Tab α) (k : Nat) (f : α → α) : Tab α :=
  match Tab.find t k with
  | some v => Tab.insert t k (f v)
  | none => t

/-- A byte of memory: 0 where nothing is listed. -/
def Memory.read (m : List Host.Cell) (a : Nat) : Byte :=
  Tab.get 0 m a

/-- Writing a byte of memory. -/
def Memory.write (m : List Host.Cell) (a : Nat) (b : Byte) : List Host.Cell :=
  Tab.set 0 m a b

/-- The canonical form of a memory: addresses strictly rising, no entry that reads as an unlisted byte does. -/
def Memory.wf (m : List Host.Cell) : Bool :=
  Tab.sorted m && m.all (fun c => decide (c.2 ≠ 0))

/-- n bytes from an address on, the lowest first. -/
def Memory.readN (m : List Host.Cell) (a : Nat) : Nat → List Byte
  | 0 => []
  | n + 1 => Memory.read m a :: Memory.readN m (a + 1) n

/-- Writing bytes from an address on. -/
def Memory.writeL (m : List Host.Cell) (a : Nat) : List Byte → List Host.Cell
  | [] => m
  | b :: l => Memory.writeL (Memory.write m a b) (a + 1) l

/-- Emptying the listed bytes of a range (a clearing to 0). -/
def Memory.clear (m : List Host.Cell) (a n : Nat) : List Host.Cell :=
  m.filter (fun c => decide (c.1 < a ∨ a + n ≤ c.1))

/-- The number that bytes hold, the least significant first (R4). -/
def Bytes.toNat : List Byte → Nat
  | [] => 0
  | b :: l => b.toNat + 256 * Bytes.toNat l

/-- The n low bytes of a number, least significant first (R4). -/
def Bytes.ofNat : Nat → Nat → List Byte
  | 0, _ => []
  | n + 1, x => BitVec.ofNat 8 (x % 256) :: Bytes.ofNat n (x / 256)

/-- Bits hi..lo of a number, both ends included (R3, R8). -/
def bits (x hi lo : Nat) : Nat := x / 2 ^ lo % 2 ^ (hi + 1 - lo)

/-- Whether a bit of a number is 1. -/
def bit (x i : Nat) : Bool := x / 2 ^ i % 2 = 1

/-- A list with one entry replaced. -/
def setAt {α : Type} : List α → Nat → α → List α
  | [], _, _ => []
  | _ :: l, 0, v => v :: l
  | x :: l, n + 1, v => x :: setAt l n v

/-- The first number below n that meets a condition. -/
def firstBelow (p : Nat → Bool) (n : Nat) : Option Nat :=
  (List.range n).find? p

end Sys2Proof
end

