-- ==== Sys2Proof/Machine/Flags.lean ====
section
/-! DEFINITION. Number formats, exact values, the one rounding and its flags (R29 to R46, R50 to R52, R67). An exact value is a
sign, a natural significand and a power of two; a sticky mark says that the true magnitude lies strictly above the
significand by less than one unit of it, which is all a correct rounding needs of an irrational or periodic value. -/

namespace Sys2Proof.Machine

/-! ## Flags -/

/-- Invalid (R50). -/
def flagNV : Flags := 1
/-- Divide by zero (R50). -/
def flagDZ : Flags := 2
/-- Overflow (R50). -/
def flagOF : Flags := 4
/-- Underflow (R50). -/
def flagUF : Flags := 8
/-- Inexact (R50). -/
def flagNX : Flags := 16

/-- A flag raised or not. -/
def Flags.when (b : Bool) (f : Flags) : Flags := if b then f else 0

/-! ## Formats -/

/-- The floating formats of R30. -/
inductive Fmt where
  | f32 | f16 | bf16 | f8a | f8b
  deriving DecidableEq, Repr

/-- Fraction bits (R30). -/
def Fmt.frac : Fmt → Nat
  | .f32 => 23 | .f16 => 10 | .bf16 => 7 | .f8a => 3 | .f8b => 2

/-- Exponent bits (R30). -/
def Fmt.ebits : Fmt → Nat
  | .f32 => 8 | .f16 => 5 | .bf16 => 8 | .f8a => 4 | .f8b => 5

/-- Exponent bias (R30). -/
def Fmt.bias : Fmt → Nat
  | .f32 => 127 | .f16 => 15 | .bf16 => 127 | .f8a => 7 | .f8b => 15

/-- The largest finite code, sign clear (R31). -/
def Fmt.maxCode : Fmt → Nat
  | .f32 => 0x7F7FFFFF | .f16 => 0x7BFF | .bf16 => 0x7F7F | .f8a => 0x7E | .f8b => 0x7B

/-- The code of plus infinity (R31); F8A has none, and what would be infinite is its NaN (R36). -/
def Fmt.infCode : Fmt → Nat
  | .f32 => 0x7F800000 | .f16 => 0x7C00 | .bf16 => 0x7F80 | .f8a => 0x7F | .f8b => 0x7C

/-- The canonical NaN (R31). -/
def Fmt.nanCode : Fmt → Nat
  | .f32 => 0x7FC00000 | .f16 => 0x7E00 | .bf16 => 0x7FC0 | .f8a => 0x7F | .f8b => 0x7E

/-- The weight of the sign bit. -/
def Fmt.signBit (f : Fmt) : Nat := 2 ^ (f.frac + f.ebits)

/-- Rounding modes (R35). -/
inductive RMode where
  | rne | rz | ru | rd
  deriving DecidableEq, Repr

/-- The mode a rounding field names, with an instruction's default (R35). -/
def RMode.ofField (dflt : RMode) (r : Nat) : RMode :=
  match r with
  | 1 => .rz
  | 2 => .ru
  | 3 => .rd
  | _ => dflt

/-! ## Exact values -/

/-- An exact value: NaN, an infinity, or a signed dyadic number, which may be marked sticky. -/
inductive XReal where
  | nan
  | inf (neg : Bool)
  | fin (neg : Bool) (m : Nat) (e : Int) (sticky : Bool)
  deriving DecidableEq, Repr

/-- The exact value of an integer. -/
def XReal.ofInt (x : Int) : XReal := .fin (decide (x < 0)) x.natAbs 0 false

/-- A number's length in bits. -/
def bitLen (m : Nat) : Nat := if m = 0 then 0 else Nat.log2 m + 1

/-- What a code of a floating format stands for (R30, R31). -/
def Fmt.decode (f : Fmt) (code : Nat) : XReal :=
  let neg := bit code (f.frac + f.ebits)
  let mag := code % f.signBit
  let ex := mag / 2 ^ f.frac
  let fr := mag % 2 ^ f.frac
  if f = .f8a then
    if mag = 0x7F then .nan
    else if ex = 0 then .fin neg fr (1 - f.bias - f.frac) false
    else .fin neg (2 ^ f.frac + fr) ((ex : Int) - f.bias - f.frac) false
  else if ex = 2 ^ f.ebits - 1 then
    if fr = 0 then .inf neg else .nan
  else if ex = 0 then .fin neg fr (1 - f.bias - f.frac) false
  else .fin neg (2 ^ f.frac + fr) ((ex : Int) - f.bias - f.frac) false

/-- Negation (R67). -/
def XReal.neg : XReal → XReal
  | .nan => .nan
  | .inf n => .inf (!n)
  | .fin n m e s => .fin (!n) m e s

/-- Absolute value (R67). -/
def XReal.abs : XReal → XReal
  | .nan => .nan
  | .inf _ => .inf false
  | .fin _ m e s => .fin false m e s

/-- Times 2^k (R67, step 4). -/
def XReal.scale (k : Int) : XReal → XReal
  | .nan => .nan
  | .inf n => .inf n
  | .fin n m e s => .fin n m (e + k) s

/-- Whether a value is a zero. -/
def XReal.isZero : XReal → Bool
  | .fin _ 0 _ false => true
  | _ => false

/-- Whether a value's sign is minus. -/
def XReal.isNeg : XReal → Bool
  | .nan => false
  | .inf n => n
  | .fin n _ _ _ => n

/-- The signed integer of a dyadic value in units of 2^e0, where e0 is at most its exponent. -/
def XReal.units (e0 : Int) : XReal → Int
  | .fin n m e _ => let v : Int := (m : Int) * 2 ^ (e - e0).toNat; if n then -v else v
  | _ => 0

/-- The least exponent of the values. -/
def minExp : List XReal → Int → Int
  | [], a => a
  | .fin _ m e _ :: l, a => minExp l (if m = 0 then a else min e a)
  | _ :: l, a => minExp l a

/-- The exact sum of any number of values, and whether it is invalid in itself (infinities of both signs). A sum that is
zero takes its sign by R34. -/
def xsum (mode : RMode) (l : List XReal) : XReal × Bool :=
  let pos := l.any (fun x => decide (x = .inf false))
  let neg := l.any (fun x => decide (x = .inf true))
  if l.any (fun x => decide (x = .nan)) then (.nan, pos && neg)
  else if pos && neg then (.nan, true)
  else if pos then (.inf false, false)
  else if neg then (.inf true, false)
  else
    let e0 := minExp l 0
    let s := (l.map (XReal.units e0)).foldl (· + ·) 0
    if s = 0 then
      let zeros := l.all XReal.isZero
      let n := if zeros && l.all (fun x => !x.isNeg) then false
        else if zeros && l.all XReal.isNeg then true
        else decide (mode = .rd)
      (.fin n 0 0 false, false)
    else (.fin (decide (s < 0)) s.natAbs e0 false, false)

/-- The exact product, and whether it is invalid in itself (0 times an infinity, R33). -/
def xmul (a b : XReal) : XReal × Bool :=
  match a, b with
  | .nan, _ => (.nan, false)
  | _, .nan => (.nan, false)
  | .inf n, .inf p => (.inf (n != p), false)
  | .inf n, .fin p m _ _ => if m = 0 then (.nan, true) else (.inf (n != p), false)
  | .fin n m _ _, .inf p => if m = 0 then (.nan, true) else (.inf (n != p), false)
  | .fin n m e _, .fin p q g _ => (.fin (n != p) (m * q) (if m * q = 0 then 0 else e + g) false, false)

/-- Comparison of two values that are not NaN: −1, 0 or 1 as the first is below, equal or above; zeros are equal (R131). -/
def xcmp (a b : XReal) : Int :=
  match a, b with
  | .inf n, .inf p => if n = p then 0 else if n then -1 else 1
  | .inf n, _ => if n then -1 else 1
  | _, .inf p => if p then 1 else -1
  | x, y =>
    let e0 := minExp [x, y] 0
    let d := x.units e0 - y.units e0
    if d < 0 then -1 else if d = 0 then 0 else 1

/-! ## Rounding -/

/-- The magnitude m·2^e (sticky: a little above) as a whole number of quanta 2^q under a mode, and whether that is inexact. -/
def roundQuanta (mode : RMode) (neg : Bool) (m : Nat) (e : Int) (sticky : Bool) (q : Int) : Nat × Bool :=
  if q ≤ e then (m * 2 ^ (e - q).toNat, sticky)
  else
    let sh := (q - e).toNat
    let big := decide (sh > bitLen m + 1)
    let base := if big then 0 else m / 2 ^ sh
    let rem := if big then m else m % 2 ^ sh
    let half := if big then 0 else 2 ^ (sh - 1)
    let inexact := decide (rem ≠ 0) || sticky
    let up := match mode with
      | .rne => !big && (decide (rem > half) || (decide (rem = half) && (sticky || base % 2 = 1)))
      | .rz => false
      | .ru => !neg && inexact
      | .rd => neg && inexact
    (if up then base + 1 else base, inexact)

/-- A rounded value: its code, the flags of the rounding, and for a code that stands for an overflow or an infinite input of
F8A the sign that saturation gives it (R37). -/
structure Rounded where
  code : Nat
  flags : Flags
  lost : Option Bool
  deriving DecidableEq, Repr

/-- The one rounding of an exact value to a floating format, with overflow and underflow (R35, R36). -/
def Fmt.round (f : Fmt) (mode : RMode) (x : XReal) : Rounded :=
  let sgn (n : Bool) : Nat := if n then f.signBit else 0
  match x with
  | .nan => { code := f.nanCode, flags := 0, lost := none }
  | .inf n =>
    if f = .f8a then { code := f.nanCode, flags := flagNV, lost := some n }
    else { code := sgn n + f.infCode, flags := 0, lost := some n }
  | .fin n m e sticky =>
    if m = 0 ∧ sticky = false then { code := sgn n, flags := 0, lost := none }
    else
      let p := f.frac + 1
      let qmin : Int := 1 - (f.bias : Int) - f.frac
      let qfree : Int := e + bitLen m - p
      let q := max qfree qmin
      let (r, inexact) := roundQuanta mode n m e sticky q
      let ex : Int := q + f.bias + f.frac
      let mag : Nat := if r < 2 ^ f.frac then r else ex.toNat * 2 ^ f.frac + (r - 2 ^ f.frac)
      if mag > f.maxCode then
        let toInf := match mode with
          | .rne => true
          | .rz => false
          | .ru => !n
          | .rd => n
        if toInf then
          if f = .f8a then { code := f.nanCode, flags := flagOF ||| flagNX, lost := some n }
          else { code := sgn n + f.infCode, flags := flagOF ||| flagNX, lost := some n }
        else { code := sgn n + f.maxCode, flags := flagOF ||| flagNX, lost := none }
      else
        let (rf, _) := roundQuanta mode n m e sticky qfree
        let tiny := decide ((rf : Int) * 2 ^ (qfree - (qmin - 64)).toNat < 2 ^ (f.frac + 64)) && decide (qfree < qmin)
        { code := sgn n + mag, flags := Flags.when inexact flagNX ||| Flags.when (tiny && inexact) flagUF, lost := none }

/-- An F32 code rounded to nearest even (R8, RoundF32). -/
def roundF32 (x : XReal) : Rounded := Fmt.f32.round .rne x

/-! ## Modifier fields -/

/-- The arithmetic fields of a modifier word as an instruction takes them (R63, R65). -/
structure AMod where
  r : Nat
  sat : Bool
  clamp : Nat
  negA : Bool
  negB : Bool
  absA : Bool
  absB : Bool
  k : Int
  deriving DecidableEq, Repr

/-- No modifier word: every arithmetic field zero (R65). -/
def AMod.none : AMod :=
  { r := 0, sat := false, clamp := 0, negA := false, negB := false, absA := false, absB := false, k := 0 }

/-- Steps 1 and 2 of R67 on a real source. -/
def srcReal (absolute negate : Bool) (x : XReal) : XReal :=
  let y := if absolute then x.abs else x
  if negate then y.neg else y

/-- Steps 1 and 2 of R67 on an integer source. -/
def srcInt (absolute negate : Bool) (x : Int) : Int :=
  let y : Int := if absolute then x.natAbs else x
  if negate then -y else y

/-- The clamp of R67 on a code: an end of the interval for a value beyond it, the canonical NaN for a NaN; −0 stays. -/
def Fmt.clampCode (f : Fmt) (clamp : Nat) (code : Nat) : Nat :=
  if clamp = 0 then code
  else
    let one := f.bias * 2 ^ f.frac
    let lo : XReal := if clamp = 1 then .fin false 0 0 false else .fin true 1 0 false
    let loCode := if clamp = 1 then 0 else f.signBit + one
    match f.decode code with
    | .nan => f.nanCode
    | v => if xcmp v lo < 0 then loCode else if xcmp v (.fin false 1 0 false) > 0 then one else code

/-- Steps 4 to 7 of R67 on an exact real: times 2^k, the one rounding, clamp, saturate; and the flags raised. -/
def finishReal (f : Fmt) (dflt : RMode) (md : AMod) (x : XReal) : Nat × Flags :=
  let r := f.round (RMode.ofField dflt md.r) (x.scale md.k)
  let c := f.clampCode md.clamp r.code
  let satCode (n : Bool) : Nat := (if n then f.signBit else 0) + f.maxCode
  let c' :=
    if md.sat then
      match r.lost with
      | some n => if f = .f8a ∨ c % f.signBit = f.infCode then satCode n else c
      | none => c
    else c
  (c', r.flags)

/-- An exact integer quotient by 2^n rounded under a mode (R67, R141). -/
def divPow (mode : RMode) (x : Int) (n : Nat) : Int :=
  let (r, _) := roundQuanta mode (decide (x < 0)) x.natAbs 0 false n
  if x < 0 then -(r : Int) else r

/-- Steps 4 to 7 of R67 on an exact integer, with the destination's range and width (Sat or Trunc). -/
def finishInt (mode : RMode) (md : AMod) (lo hi : Int) (width : Nat) (x : Int) : Nat :=
  let y := if md.k < 0 then divPow mode x (-md.k).toNat else x * 2 ^ md.k.toNat
  let z := if md.sat then (if y < lo then lo else if y > hi then hi else y) else y
  (z % 2 ^ width).toNat

/-! ## Square roots, powers and logarithms -/

/-- The integer square root, bit by bit from the top: n bits of the answer still to find. -/
def isqrtGo (x : Nat) : Nat → Nat → Nat
  | 0, r => r
  | n + 1, r => if (r + 2 ^ n) * (r + 2 ^ n) ≤ x then isqrtGo x n (r + 2 ^ n) else isqrtGo x n r

/-- The integer square root. -/
def isqrt (x : Nat) : Nat := isqrtGo x (bitLen x / 2 + 1) 0

/-- 1/x (R136): at least 64 bits of the quotient and a sticky mark. -/
def xrcp (n : Bool) (m : Nat) (e : Int) : XReal :=
  let w := bitLen m + 64
  .fin n (2 ^ w / m) (-(w : Int) - e) (decide (2 ^ w % m ≠ 0))

/-- √x for x > 0 (R136). -/
def xsqrt (m : Nat) (e : Int) : XReal :=
  let (m1, e1) := if e % 2 = 0 then (m, e) else (2 * m, e - 1)
  let y := m1 * 2 ^ 128
  let r := isqrt y
  .fin false r (e1 / 2 - 64) (decide (r * r ≠ y))

/-- 1/√x for x > 0 (R136). -/
def xrsq (m : Nat) (e : Int) : XReal :=
  let (m1, e1) := if e % 2 = 0 then (m, e) else (2 * m, e - 1)
  let w := 2 * (bitLen m1 + 64)
  let r := isqrt (2 ^ w / m1)
  .fin false r (-(w / 2 : Nat) - e1 / 2) (decide (r * r * m1 ≠ 2 ^ w))

/-- Bits of fixed-point work for powers and logarithms. No F32 operand brings 2^x or log2 x within 2^-200 of a value
with 64 bits unless it is exact, so this width decides every rounding. -/
def workBits : Nat := 320

/-- ln 2 in units of 2^-w: the sum of 2^w/(k·2^k). -/
def ln2Go (w : Nat) : Nat → Nat
  | 0 => 0
  | k + 1 => 2 ^ w / ((k + 1) * 2 ^ (k + 1)) + ln2Go w k

/-- The series of the exponential: k terms done, the last term t, the sum s, in units of 2^-w. -/
def expGo (w y : Nat) : Nat → Nat → Nat → Nat → Nat
  | 0, _, _, s => s
  | n + 1, k, t, s => let t' := t * y / ((k + 1) * 2 ^ w); expGo w y n (k + 1) t' (s + t')

/-- 2^x for a dyadic x (R136): exact for an integer, else the fraction's power from the series. -/
def xexp2 (n : Bool) (m : Nat) (e : Int) : XReal :=
  if m = 0 then .fin false 1 0 false
  else if 0 ≤ e then
    let v : Int := (m : Int) * 2 ^ e.toNat
    .fin false 1 (if n then -v else v) false
  else
    let d := (-e).toNat
    let v : Int := if n then -(m : Int) else m
    let ip := v / 2 ^ d
    let fp := (v % 2 ^ d).toNat
    if fp = 0 then .fin false 1 ip false
    else
      let w := workBits
      let y := fp * ln2Go (w + 16) 336 / 2 ^ (d + 16)
      let s := expGo w y 90 0 (2 ^ w) (2 ^ w)
      .fin false (s / 2 ^ (w - 200)) (ip - 200) true

/-- The fraction bits of a logarithm by repeated squaring: n bits still to find, y in [1, 2) in units of 2^-w. -/
def log2Go (w : Nat) : Nat → Nat → Nat → Nat
  | 0, _, acc => acc
  | n + 1, y, acc =>
    let y2 := y * y / 2 ^ w
    if y2 ≥ 2 ^ (w + 1) then log2Go w n (y2 / 2) (2 * acc + 1) else log2Go w n y2 (2 * acc)

/-- log2 x for x > 0 (R136): exact for a power of two. -/
def xlog2 (m : Nat) (e : Int) : XReal :=
  let l := bitLen m
  let ex : Int := e + l - 1
  if m = 2 ^ (l - 1) then XReal.ofInt ex
  else
    let w := workBits
    let y := m * 2 ^ w / 2 ^ (l - 1)
    let fr := log2Go w 112 y 0
    let v : Int := ex * 2 ^ 112 + fr
    if 0 ≤ v then .fin false v.toNat (-112) true else .fin true (-v - 1).toNat (-112) true

/-! ## E8M0 and L6 -/

/-- The value of an E8M0 code (R40). -/
def e8Value (e : Nat) : XReal := if e = 0xFF then .nan else .fin false 1 ((e : Int) - 127) false

/-- F32 to E8M0 (R41), and the flags. -/
def toE8 (mode : RMode) (x : XReal) : Nat × Flags :=
  match x with
  | .nan => (0xFF, flagNV)
  | .inf _ => (0xFF, flagNV)
  | .fin n m e _ =>
    if n ∨ m = 0 then (0xFF, flagNV)
    else
      let l := bitLen m
      let fl : Int := e + l - 1
      let exact := decide (m = 2 ^ (l - 1))
      let j : Int := match mode with
        | .rz => fl
        | .rd => fl
        | .ru => if exact then fl else fl + 1
        | .rne => if 2 * m ≥ 3 * 2 ^ (l - 1) then fl + 1 else fl
      let c := j + 127
      if c > 254 then (254, flagOF ||| flagNX)
      else if c < 0 then (0, flagUF ||| flagNX)
      else (c.toNat, Flags.when (!exact) flagNX)

/-- The table T of R42. -/
def l6T (f : Nat) : Nat :=
  match f with
  | 0 => 32768
  | 1 => 38968
  | 2 => 46341
  | _ => 55109

/-- The decoded value of an L6 code (R42). -/
def l6Value (code : Nat) : XReal :=
  let m := code % 32
  if m = 0 then .fin (bit code 5) 0 0 false
  else .fin (bit code 5) (l6T (m % 4)) (((m / 4 : Nat) : Int) - 19) false

/-- A real y, already divided by its scale, into L6 (R43), and the flags. bad says that the scale was 0xFF. -/
def toL6 (mode : RMode) (bad : Bool) (y : XReal) : Nat × Flags :=
  let fin (n : Bool) (t : Int) (exactT : Bool) : Nat × Flags :=
    let s := if n then 32 else 0
    if t > 31 then (s + 31, flagOF ||| flagNX)
    else if t < 1 then (s, flagUF ||| flagNX)
    else (s + t.toNat, Flags.when (!exactT) flagNX)
  if bad then (0, flagNV)
  else match y with
    | .nan => (0, flagNV)
    | .inf n => fin n 32 false
    | .fin n m e _ =>
      if m = 0 then ((if n then 32 else 0), 0)
      else
        let l := bitLen m
        let exact := decide (m = 2 ^ (l - 1))
        let fl : Int := 4 * e + bitLen (m ^ 4) - 1 + 16
        let near : Int := (8 * e + bitLen (m ^ 8) - 1 + 32 + 1) / 2
        let up := if exact then fl else fl + 1
        let t := match mode with
          | .rne => near
          | .rz => fl
          | .ru => if n then fl else up
          | .rd => if n then up else fl
        fin n t exact

/-- The signed table term of a pair of L6 codes (R44). -/
def l6Term (a b : Nat) : Int :=
  let ma := a % 32
  let mb := b % 32
  if ma = 0 ∨ mb = 0 then 0
  else
    let q := ma + mb
    let t : Int := (l6T (q % 4) : Int) * 2 ^ (q / 4)
    if bit a 5 = bit b 5 then t else -t

/-- The exact value of an L6 sum of terms under the two scales (R44), before its rounding. -/
def l6Sum (sA sB : Nat) (acc : Int) : XReal :=
  if sA = 0xFF ∨ sB = 0xFF then .nan
  else (XReal.ofInt acc).scale (-23 + (sA : Int) + sB - 254)

/-- A float or dyadic value to an integer range (R39): the result as an integer, and the flags. -/
def toInteger (mode : RMode) (lo hi : Int) (x : XReal) : Int × Flags :=
  match x with
  | .nan => (0, flagNV)
  | .inf n => (if n then lo else hi, flagNV)
  | .fin n m e s =>
    if e > 128 ∧ m ≠ 0 then (if n then lo else hi, flagNV)
    else
      let (r, inexact) := roundQuanta mode n m e s 0
      let v : Int := if n then -(r : Int) else r
      if v < lo then (lo, flagNV) else if v > hi then (hi, flagNV) else (v, Flags.when inexact flagNX)

end Sys2Proof.Machine
end

