-- ==== Sys2Proof/Machine/Ops.lean ====
section
/-! DEFINITION. The named operations over the state: finding and changing its parts, registers as words see them, places in
memory and what a performed write brings about, taking a trap and the return from one. Meanings are written over these. -/

namespace Sys2Proof.Machine

/-! ## Numbering (R11) -/

/-- The trap-handler slot's number, beside slots 0..31 (R18). -/
def handlerSlot : Nat := 32
/-- The key of a group slot. -/
def gkey (core slot : Nat) : Nat := core * 64 + slot
/-- The cluster of a logical core (R11). -/
def clusterOf (core : Nat) : Nat := core / 8
/-- The matrix pair of a logical core, over the device (R11). -/
def pairOf (core : Nat) : Nat := core / 2
/-- The die of a logical core (R11). -/
def dieOf (core : Nat) : Nat := core / 64
/-- The die of a cluster (R11). -/
def dieOfCluster (cluster : Nat) : Nat := cluster / 8
/-- The cores of a cluster. -/
def coresOf (cluster : Nat) : List Nat := (List.range 8).map (fun i => cluster * 8 + i)

/-! ## Parts of the device -/

/-- The group in a slot, an empty one where there is none. -/
def Dev.group (d : Dev) (core slot : Nat) : Group := Tab.get Group.empty d.groups (gkey core slot)
/-- Whether a slot holds a group. -/
def Dev.hasGroup (d : Dev) (core slot : Nat) : Bool := (Tab.find d.groups (gkey core slot)).isSome
/-- Putting a group in a slot. -/
def Dev.setGroup (d : Dev) (core slot : Nat) (g : Group) : Dev :=
  { d with groups := Tab.insert d.groups (gkey core slot) g }
/-- Changing the group in a slot. -/
def Dev.modGroup (d : Dev) (core slot : Nat) (f : Group → Group) : Dev :=
  { d with groups := Tab.modify d.groups (gkey core slot) f }
/-- Changing every group. -/
def Dev.mapGroups (d : Dev) (f : Group → Group) : Dev :=
  { d with groups := Tab.mapV d.groups (fun _ g => f g) }
/-- A core. -/
def Dev.core (d : Dev) (c : Nat) : Core := Tab.get Core.reset d.cores c
/-- Changing a core. -/
def Dev.modCore (d : Dev) (c : Nat) (f : Core → Core) : Dev :=
  { d with cores := Tab.insert d.cores c (f (d.core c)) }
/-- A matrix pair. -/
def Dev.pair (d : Dev) (p : Nat) : Pair := Tab.get Pair.reset d.pairs p
/-- Changing a matrix pair. -/
def Dev.modPair (d : Dev) (p : Nat) (f : Pair → Pair) : Dev :=
  { d with pairs := Tab.insert d.pairs p (f (d.pair p)) }
/-- A cluster. -/
def Dev.cluster (d : Dev) (c : Nat) : Cluster := Tab.get Cluster.reset d.clusters c
/-- Changing a cluster. -/
def Dev.modCluster (d : Dev) (c : Nat) (f : Cluster → Cluster) : Dev :=
  { d with clusters := Tab.insert d.clusters c (f (d.cluster c)) }
/-- A die. -/
def Dev.die (d : Dev) (i : Nat) : Die := Tab.get Die.reset d.dies i
/-- Changing a die. -/
def Dev.modDie (d : Dev) (i : Nat) (f : Die → Die) : Dev :=
  { d with dies := Tab.insert d.dies i (f (d.die i)) }
/-- A queue. -/
def Dev.queue (d : Dev) (q : Nat) : Queue := Tab.get Queue.reset d.queues q
/-- Changing a queue. -/
def Dev.modQueue (d : Dev) (q : Nat) (f : Queue → Queue) : Dev :=
  { d with queues := Tab.insert d.queues q (f (d.queue q)) }
/-- A mailbox binding. -/
def Dev.box (d : Dev) (b : Nat) : Mailbox := Tab.get Mailbox.reset d.boxes b
/-- Changing a mailbox binding. -/
def Dev.modBox (d : Dev) (b : Nat) (f : Mailbox → Mailbox) : Dev :=
  { d with boxes := Tab.insert d.boxes b (f (d.box b)) }
/-- A link. -/
def Dev.link (d : Dev) (l : Nat) : Link := Tab.get Link.reset d.links l
/-- Changing a link. -/
def Dev.modLink (d : Dev) (l : Nat) (f : Link → Link) : Dev :=
  { d with links := Tab.insert d.links l (f (d.link l)) }
/-- An owner window. -/
def Dev.window (d : Dev) (w : Nat) : Window := Tab.get Window.reset d.windows w
/-- A frame of local HBM. -/
def Dev.frame (d : Dev) (f : Nat) : Frame := Tab.get Frame.reset d.frames f
/-- Changing a frame. -/
def Dev.modFrame (d : Dev) (f : Nat) (g : Frame → Frame) : Dev :=
  { d with frames := Tab.insert d.frames f (g (d.frame f)) }
/-- A task, if there is one under the number. -/
def Dev.task? (d : Dev) (t : Nat) : Option Task := Tab.find d.tasks t
/-- Changing a task. -/
def Dev.modTask (d : Dev) (t : Nat) (f : Task → Task) : Dev :=
  { d with tasks := Tab.modify d.tasks t f }
/-- A grid in flight. -/
def Dev.grid? (d : Dev) (g : Nat) : Option Grid := Tab.find d.grids g
/-- Changing a grid. -/
def Dev.modGrid (d : Dev) (g : Nat) (f : Grid → Grid) : Dev :=
  { d with grids := Tab.modify d.grids g f }
/-- An outstanding operation. -/
def Dev.op? (d : Dev) (o : Nat) : Option Op := Tab.find d.ops o
/-- Changing an outstanding operation. -/
def Dev.modOp (d : Dev) (o : Nat) (f : Op → Op) : Dev :=
  { d with ops := Tab.modify d.ops o f }
/-- A fresh free value (log entry 4): its number, and the device with the counter advanced. -/
def Dev.takeFresh (d : Dev) : W64 × Dev := (Config.freeWord d.fresh, { d with fresh := d.fresh + 1 })

/-- The four pairs of a cluster. -/
def pairsOf (cluster : Nat) : List Nat := (List.range 4).map (fun i => 4 * cluster + i)
/-- The cluster of a pair. -/
def clusterOfPair (p : Nat) : Nat := p / 4

/-! ## Clocks (R369, R374, R375) -/

/-- The clock of a level in units of 100 MHz (R369). -/
def clockRate (level : Nat) : Nat :=
  match level with
  | 0 => 25
  | 1 => 28
  | _ => 31

/-- One cycle of a level in 2^-24 TIME units (R369). -/
def cycleIncrement (level : Nat) : Nat :=
  match level with
  | 0 => 107374182
  | 1 => 95869806
  | _ => 86592083

/-- Cycles of a cluster's clock in a span of TIME, at its present level, a quarter of them under fast throttle (R369, R381). -/
def Dev.cyclesIn (d : Dev) (cluster dt : Nat) : Nat :=
  let c := dt * clockRate (d.cluster cluster).level / 160
  if d.throttled then c / 4 else c

/-- The cycle count of a cluster's clock now (R369): what it had counted at its last change of pace, and the cycles since; none while the clock
settles (R372). -/
def Dev.now (d : Dev) (cluster : Nat) : Nat :=
  let k := d.cluster cluster
  if k.settling.isSome then k.cycle else k.cycle + d.cyclesIn cluster (d.time - k.mark)

/-- The TIME at which the reference reaches what a copy held at its last mark. -/
def Cluster.timeUp (k : Cluster) : Nat := k.timeInt + (if k.timeFrac = 0 then 0 else 1)

/-- A region's copy of TIME in 2^-24 units (R374, R375): what it held at its last mark and the increments since; while the clock settles it follows
the reference, and a copy that a pulse found ahead waits for the reference. -/
def Dev.regionTime (d : Dev) (cluster : Nat) : Nat :=
  let k := d.cluster cluster
  let held := k.timeInt * 2 ^ 24 + k.timeFrac
  if k.settling.isSome then max held (d.time * 2 ^ 24)
  else
    let start := if k.mark % 16000 = 0 then max k.mark k.timeUp else k.mark
    held + d.cyclesIn cluster (d.time - start) * cycleIncrement k.level * (if d.throttled then 4 else 1)

/-- Whether a region's copy of TIME was found ahead by the last pulse and still waits for the reference (R375). -/
def Dev.copyWaits (d : Dev) (c : Nat) : Bool :=
  let k := d.cluster c
  k.settling.isNone && decide (k.mark % 16000 = 0 ∧ k.mark < d.time ∧ d.time < k.timeUp)

/-- A cluster's counts brought up to now, before the pace of its clock changes; a copy that waits for the reference keeps its mark, since no cycle has
passed. -/
def Dev.markClock (d : Dev) (c : Nat) : Dev :=
  if d.copyWaits c then d
  else d.modCluster c (fun k => { k with cycle := d.now c, timeInt := d.regionTime c / 2 ^ 24, timeFrac := d.regionTime c % 2 ^ 24, mark := d.time })

/-- The core supply of a level in mV (R369). -/
def coreSupply (level : Nat) : Int :=
  match level with
  | 0 => 750
  | 1 => 800
  | _ => 860

/-- Switching of a unit counted (R350). -/
def Dev.addBusy (d : Dev) (u n : Nat) : Dev := { d with busy := Tab.insert d.busy u (Tab.get 0 d.busy u + n) }

/-- Every cluster's counts brought up to now. -/
def Dev.markClocks (d : Dev) : Dev := (List.range 32).foldl Dev.markClock d

/-! ## The state -/

/-- Changing the device. -/
def State.modDev (s : State) (f : Dev → Dev) : State := { s with dev := f s.dev }
/-- Changing the issue in progress. -/
def State.modIss (s : State) (f : Issue → Issue) : State := { s with iss := f s.iss }
/-- Changing the group that issues. -/
def State.modGrp (s : State) (f : Group → Group) : State :=
  s.modDev (fun d => d.modGroup s.iss.core s.iss.slot f)

/-! ## Launch records as a running workgroup sees them (R310) -/

/-- A word of a grid's record, as a number. -/
def Grid.word (g : Grid) (i : Nat) : Nat := (g.words.getD i 0).toNat
/-- The entry packet. -/
def Grid.code (g : Grid) : Nat := bits (g.word 0) 53 0
/-- Grid size less one in x, y and z. -/
def Grid.dx (g : Grid) : Nat := bits (g.word 1) 31 0
def Grid.dy (g : Grid) : Nat := bits (g.word 1) 47 32
def Grid.dz (g : Grid) : Nat := bits (g.word 1) 63 48
/-- Workgroups of the grid. -/
def Grid.size (g : Grid) : Nat := (g.dx + 1) * (g.dy + 1) * (g.dz + 1)
/-- The co-residency flag. -/
def Grid.coRes (g : Grid) : Bool := bit (g.word 2) 59
/-- Gang size less one. -/
def Grid.gangLess (g : Grid) : Nat := bits (g.word 2) 58 56
def Grid.streams (g : Grid) : Nat := bits (g.word 2) 55 51
def Grid.shapes (g : Grid) : Nat := bits (g.word 2) 50 46
def Grid.handles (g : Grid) : Nat := bits (g.word 2) 45 41
def Grid.tiles (g : Grid) : Nat := bits (g.word 2) 40 38
/-- Cluster-shared bytes of a gang. -/
def Grid.cBytes (g : Grid) : Nat := bits (g.word 2) 37 27 * 1024
/-- Scratchpad bytes of a workgroup. -/
def Grid.sBytes (g : Grid) : Nat := bits (g.word 2) 26 18 * 1024
/-- Private bytes of a lane. -/
def Grid.pBytes (g : Grid) : Nat := bits (g.word 2) 17 9 * 16
/-- Vector registers of a lane. -/
def Grid.vregs (g : Grid) : Nat := bits (g.word 2) 8 5 * 8
/-- Groups of a workgroup. -/
def Grid.groups (g : Grid) : Nat := bits (g.word 2) 4 0 + 1

/-- The grid of a task. -/
def Dev.gridOf (d : Dev) (t : Nat) : Option Grid :=
  match d.task? t with
  | some k => d.grid? k.grid
  | none => none

/-- The task a slot works for: its own, and for the handler slot the one it serves (R329). -/
def Dev.taskAt (d : Dev) (core slot : Nat) : Nat :=
  if slot = handlerSlot then
    match (d.core core).serving with
    | some (t, _) => t
    | none => 0
  else (d.group core slot).task

/-- Vector registers a slot may name: a workgroup's allocation, all 120 in the handler slot (R111, R329). -/
def Dev.vregsAt (d : Dev) (core slot : Nat) : Nat :=
  if slot = handlerSlot then 120
  else match d.gridOf (d.group core slot).task with
    | some g => g.vregs
    | none => 120

/-! ## Registers as words see them (R54, R61, R87) -/

/-- Whether a lane is in a mask. -/
def laneIn (m : W32) (i : Nat) : Bool := m.getLsbD i
/-- The lanes of a mask, ascending. -/
def lanesOf (m : W32) : List Nat := (List.range 32).filter (laneIn m)
/-- The mask of one lane. -/
def laneBit (i : Nat) : W32 := BitVec.ofNat 32 (2 ^ i)
/-- The mask of the lanes that meet a condition. -/
def maskOf (p : Nat → Bool) : W32 := ((List.range 32).filter p).foldl (fun m i => m ||| laneBit i) 0

/-- A V register of one lane: V127 reads zero (R61). -/
def Regs.readV (r : Regs) (n lane : Nat) : W32 := if n = 127 then 0 else Tab.get 0 r.v (32 * n + lane)
/-- Writing a V register of one lane: V127 discards it (R61). -/
def Regs.writeV (r : Regs) (n lane : Nat) (x : W32) : Regs :=
  if n = 127 then r else { r with v := Tab.set 0 r.v (32 * n + lane) x }
/-- An S register: S0 reads zero (R61). -/
def Regs.readS (r : Regs) (n : Nat) : W64 := if n = 0 then 0 else Tab.get 0 r.s n
/-- Writing an S register: S0 discards it (R61). -/
def Regs.writeS (r : Regs) (n : Nat) (x : W64) : Regs := if n = 0 then r else { r with s := Tab.set 0 r.s n x }
/-- A P register as a lane mask: P0 is true in every lane (R61). -/
def Regs.readP (r : Regs) (n : Nat) : W32 := if n = 0 then BitVec.allOnes 32 else Tab.get 0 r.p n
/-- Writing a P register's mask; P0 is read only (R61). -/
def Regs.writeP (r : Regs) (n : Nat) (m : W32) : Regs := if n = 0 then r else { r with p := Tab.set 0 r.p n m }
/-- An F flag: F0 is true (R61). -/
def Regs.readF (r : Regs) (n : Nat) : Bool := if n = 0 then true else r.f.getLsbD n
/-- Writing an F flag; F0 is read only (R61). -/
def Regs.writeF (r : Regs) (n : Nat) (b : Bool) : Regs :=
  if n = 0 then r
  else { r with f := if b then r.f ||| BitVec.ofNat 8 (2 ^ n) else r.f &&& ~~~(BitVec.ofNat 8 (2 ^ n)) }

/-- The group that issues, as it stood before its issue group (R54). -/
def State.old (s : State) : Group := s.iss.base.group s.iss.core s.iss.slot
/-- The group that issues, as it stands. -/
def State.grp (s : State) : Group := s.dev.group s.iss.core s.iss.slot

/-- A source S register (R54). -/
def State.rdS (s : State) (r : SReg) : W64 := s.old.regs.readS r.toNat
/-- A source V register of a lane: a queue head gives that lane's element of the popped vector (R54, R115). -/
def State.rdV (s : State) (r : VReg) (lane : Nat) : W32 :=
  if 120 ≤ r.toNat ∧ r.toNat ≤ 123 then ((Tab.find s.iss.heads r.toNat).getD []).getD lane 0
  else s.old.regs.readV r.toNat lane
/-- A source P register, as a mask (R54). -/
def State.rdP (s : State) (r : PReg) : W32 := s.old.regs.readP r.toNat
/-- A source F flag (R54). -/
def State.rdF (s : State) (r : FReg) : Bool := s.old.regs.readF r.toNat

/-- Writing an S register of the issuing group. -/
def State.wrS (s : State) (r : SReg) (x : W64) : State :=
  s.modGrp (fun g => { g with regs := g.regs.writeS r.toNat x })
/-- Writing an F flag of the issuing group. -/
def State.wrF (s : State) (r : FReg) (b : Bool) : State :=
  s.modGrp (fun g => { g with regs := g.regs.writeF r.toNat b })
/-- Writing a P register in some lanes; the others keep it. -/
def Regs.writePLanes (r : Regs) (n : Nat) (lanes val : W32) : Regs :=
  r.writeP n ((r.readP n &&& ~~~lanes) ||| (val &&& lanes))
/-- Writing a P register of the issuing group in some lanes. -/
def State.wrP (s : State) (r : PReg) (lanes val : W32) : State :=
  s.modGrp (fun g => { g with regs := g.regs.writePLanes r.toNat lanes val })
/-- Writing a V register in some lanes, each its own value; the others keep it. -/
def Regs.writeVLanes (r : Regs) (n : Nat) (lanes : List Nat) (f : Nat → W32) : Regs :=
  lanes.foldl (fun r i => r.writeV n i (f i)) r
/-- Writing a V register of the issuing group in some lanes. -/
def State.wrV (s : State) (r : VReg) (lanes : W32) (f : Nat → W32) : State :=
  s.modGrp (fun g => { g with regs := g.regs.writeVLanes r.toNat (lanesOf lanes) f })
/-- Raising flags in the issue group (R51, R52). -/
def State.raiseFlags (s : State) (f : Flags) : State :=
  s.modIss (fun i => { i with raised := i.raised ||| f })

/-- The lanes a guard lets through: where the predicate matches gsense, all without a guard (R63, R68). -/
def State.guardMask (s : State) (g : PReg) (e : Bool) : W32 :=
  if g = 0 then BitVec.allOnes 32 else if e then ~~~(s.rdP g) else s.rdP g

/-- The lanes a V-pipe or M-pipe word acts in (R68). -/
def State.acting (s : State) : W32 :=
  match s.iss.mod with
  | some (.arith g e _ _ _ _ _ _ _ _) => s.iss.mask &&& s.guardMask g e
  | some (.memory g e _ _ _) => s.iss.mask &&& s.guardMask g e
  | none => s.iss.mask

/-- The task that issues. -/
def State.taskId (s : State) : Nat := s.dev.taskAt s.iss.core s.iss.slot

/-! ## Bytes of places -/

/-- A byte of a place. Copies that a core keeps of remote and CXL lines are no part of this (R177). -/
def Dev.readByte (d : Dev) (l : Loc) : Byte :=
  match l.sp with
  | .hbm => Memory.read d.hbm l.a
  | .cxl => Memory.read d.cxl l.a
  | .kmem => Memory.read d.kmem l.a
  | .smem => match d.task? l.own with
    | some t => Memory.read t.smem l.a
    | none => 0
  | .pmem => match d.task? l.own with
    | some t => Memory.read t.pmem l.a
    | none => 0
  | .cmem => match Tab.find d.gangs l.own with
    | some g => Memory.read g.cmem l.a
    | none => 0
  | .remote _ _ => 0

/-- Writing a byte of a place, with none of the consequences of a performed write. -/
def Dev.writeByte (d : Dev) (l : Loc) (b : Byte) : Dev :=
  match l.sp with
  | .hbm => { d with hbm := Memory.write d.hbm l.a b }
  | .cxl => { d with cxl := Memory.write d.cxl l.a b }
  | .kmem => { d with kmem := Memory.write d.kmem l.a b }
  | .smem => d.modTask l.own (fun t => { t with smem := Memory.write t.smem l.a b })
  | .pmem => d.modTask l.own (fun t => { t with pmem := Memory.write t.pmem l.a b })
  | .cmem => { d with gangs := Tab.modify d.gangs l.own (fun g => { g with cmem := Memory.write g.cmem l.a b }) }
  | .remote _ _ => d

/-- A place n bytes on. -/
def Loc.plus (l : Loc) (n : Nat) : Loc := { l with a := l.a + n }

/-- The bytes of a place. -/
def Dev.readBytes (d : Dev) (l : Loc) : Nat → List Byte
  | 0 => []
  | n + 1 => d.readByte l :: d.readBytes (l.plus 1) n

/-- Writing the bytes of a place. -/
def Dev.writeBytes (d : Dev) (l : Loc) : List Byte → Dev
  | [] => d
  | b :: bs => (d.writeByte l b).writeBytes (l.plus 1) bs

/-- The number in n bytes of a place, little-endian (R4). -/
def Dev.readNat (d : Dev) (l : Loc) (n : Nat) : Nat := Bytes.toNat (d.readBytes l n)

/-- Local HBM at a physical address. -/
def hbmAt (a : Nat) : Loc := { sp := .hbm, own := 0, a := a }

/-- Bytes of an element of a format code of R73: 0 F32, 1 F16, 2 BF16, 3 F8A, 4 F8B, 5 L6, 11 I8 (R215, R244). -/
def elemBytes (f : Nat) : Nat := match f with | 0 => 4 | 1 => 2 | 2 => 2 | _ => 1

/-! ## Atomic operations on one word (R188, R193) -/

/-- The operations of ATOM and RED, one number each: add, min.i, min.n, max.i, max.n, and, or, xor, xchg, add.f32. -/
def atomApply (op : Nat) (old v : W32) : W32 :=
  match op with
  | 0 => old + v
  | 1 => if old.toInt ≤ v.toInt then old else v
  | 2 => if old.toNat ≤ v.toNat then old else v
  | 3 => if old.toInt ≥ v.toInt then old else v
  | 4 => if old.toNat ≥ v.toNat then old else v
  | 5 => old &&& v
  | 6 => old ||| v
  | 7 => old ^^^ v
  | 8 => v
  | _ => BitVec.ofNat 32 (roundF32 (xsum .rne [Fmt.f32.decode old.toNat, Fmt.f32.decode v.toNat]).1).code

/-- The identity a word of a U copy starts from (R193). -/
def atomIdentity (op : Nat) : W32 :=
  match op with
  | 1 => 0x7FFFFFFF
  | 2 => 0xFFFFFFFF
  | 3 => 0x80000000
  | 5 => 0xFFFFFFFF
  | 9 => 0x80000000
  | _ => 0

/-- Writing one word of HBM. -/
def Dev.writeHbmWord (d : Dev) (a : Nat) (x : W32) : Dev := d.writeBytes (hbmAt a) (Bytes.ofNat 4 x.toNat)

/-- One U copy's partials of a line applied at the home, one write for each tagged word (R194). -/
def Dev.combineCore (d : Dev) (c line : Nat) : Dev :=
  let mine := (d.core c).upart.filter (fun p => p.1 / 32 = line)
  let d1 := mine.foldl (fun d p =>
    d.writeHbmWord (4 * p.1) (atomApply p.2.1 (BitVec.ofNat 32 (d.readNat (hbmAt (4 * p.1)) 4)) p.2.2)) d
  d1.modCore c (fun k => { k with upart := k.upart.filter (fun p => p.1 / 32 ≠ line), l1 := Tab.erase k.l1 line })

/-- The home combines every U copy of a 128-B line, in ascending logical core number (R194). -/
def Dev.combine (d : Dev) (line : Nat) : Dev :=
  (d.cores.filter (fun c => c.2.upart.any (fun p => p.1 / 32 = line))).foldl (fun d c => d.combineCore c.1 line) d

/-- The lines of 128 bytes that a range touches. -/
def linesOf (a n : Nat) : List Nat :=
  if n = 0 then [] else (List.range ((a + n - 1) / 128 - a / 128 + 1)).map (fun i => a / 128 + i)

/-- Combining every line of a range (R194). -/
def Dev.combineRange (d : Dev) (l : Loc) (n : Nat) : Dev :=
  if l.sp = .hbm then (linesOf l.a n).foldl Dev.combine d else d

/-! ## What a performed write brings about -/

/-- Whether two ranges of bytes meet. -/
def overlap (a n b m : Nat) : Bool := decide (a < b + m ∧ b < a + n ∧ 0 < n ∧ 0 < m)

/-- The place of a binding's trigger word (R319). -/
def Mailbox.trigAt (m : Mailbox) : Loc := { sp := if m.kind = 0 then .hbm else .kmem, own := 0, a := m.trig }

/-- The 64-byte slot of a binding as eight words (R321, R322). -/
def Dev.snapshot (d : Dev) (m : Mailbox) : List W64 :=
  (List.range 8).map (fun i => BitVec.ofNat 64 (d.readNat { m.trigAt with a := m.trig - 56 + 8 * i } 8))

/-- Arrivals: every bound trigger word that a write includes a byte of takes a snapshot with it (R321, R322). -/
def Dev.arrivals (d : Dev) (l : Loc) (n : Nat) : Dev :=
  { d with boxes := Tab.mapV d.boxes (fun _ b =>
      if b.bound ∧ b.trigAt.sp = l.sp ∧ overlap l.a n b.trig 8 then { b with arrived := b.arrived ++ [d.snapshot b] }
      else b) }

/-- Posts: a write of a window's ticket-post word is a post of the word as it then stands (R285). -/
def Dev.posts (d : Dev) (l : Loc) (n : Nat) : Dev :=
  if l.sp = .hbm then
    let ws := d.windows.filter (fun kw => kw.2.v && overlap l.a n kw.2.post 8)
    { d with posted := d.posted ++ ws.map (fun kw => (kw.1, BitVec.ofNat 64 (d.readNat (hbmAt kw.2.post) 8))) }
  else d

/-- A change to a line that a queued stream entry was read from makes the entry stale (R266). -/
def StreamEntry.touch (lines : List Loc) (e : StreamEntry) : StreamEntry :=
  if e.lines.any (fun x => lines.contains x) then { e with stale := true } else e

/-- The watched lines of a range: one place for each 128 bytes. -/
def watchLines (l : Loc) (n : Nat) : List Loc := (linesOf l.a n).map (fun i => { l with a := 128 * i })

/-- Stale marks on every stream queue (R266). -/
def Dev.staleStreams (d : Dev) (l : Loc) (n : Nat) : Dev :=
  let ls := watchLines l n
  { d with tasks := Tab.mapV d.tasks (fun _ t => { t with streams := Tab.mapV t.streams (fun _ x =>
      { x with queue := x.queue.map (StreamEntry.touch ls) }) }) }

/-- The home die of a local physical address (R155): the table's entry, else by address; of a line that a migration has moved already, the new die (R324). -/
def Dev.homeDie (d : Dev) (pa : Nat) : Nat :=
  let f := d.frame (pa / 65536)
  match f.moving with
  | some (die, n) => if pa / 128 % 512 < n then die else f.home.getD (bits pa 38 37)
  | none => f.home.getD (bits pa 38 37)

/-- Whose write of a line came last, as far as R197 and R411 count it: 1 a plain one of the host or a CXL agent, 2 a device atomic, 3 a device atomic at system
scope on a page with the system-wide-atomic bit, 4 an AtomicOp of the host, 0 any other. -/
def Dev.markWriter (d : Dev) (l : Loc) (n who : Nat) : Dev :=
  if l.sp = .hbm then { d with lineWriter := (linesOf l.a n).foldl (fun t x => Tab.set 0 t x who) d.lineWriter } else d

/-- The mixed-atomic counter of the line's home die rises when the line's last write was of one of these kinds (R197); it saturates. -/
def Dev.countMixed (d : Dev) (l : Loc) (last : List Nat) : Dev :=
  if l.sp = .hbm ∧ last.contains (Tab.get 0 d.lineWriter (l.a / 128)) = true then
    d.modDie (d.homeDie l.a) (fun k => { k with mixed := min (k.mixed + 1) (2 ^ 32 - 1) })
  else d

/-- A range in another. -/
def within (a n b m : Nat) : Bool := decide (b ≤ a ∧ a + n ≤ b + m)

/-- Words of SRAM that a write covers whole are encoded anew: what DIAGST had left there is gone (R396, R402). -/
def Dev.encodeAnew (d : Dev) (l : Loc) (n : Nat) : Dev :=
  { d with raw := d.raw.filter (fun r => match r.loc with
      | some x => !(decide (x.sp = l.sp ∧ x.own = l.own) && within x.a 8 l.a n)
      | none => true) }

/-- Lines of CXL-attached memory written: each has its 32-bit write count raised (R389). -/
def Dev.countWrites (d : Dev) (l : Loc) (n : Nat) : Dev :=
  if l.sp = .cxl then { d with cxlCounts := (linesOf l.a n).foldl (fun t x => Tab.insert t x ((Tab.get 0 t x + 1) % 2 ^ 32)) d.cxlCounts } else d

/-- What follows a performed write: arrivals, posts, stale stream entries, the line's last writer, and the write count of a CXL-attached one. -/
def Dev.written (d : Dev) (l : Loc) (n : Nat) : Dev := (((((d.arrivals l n).posts l n).staleStreams l n).markWriter l n 0).encodeAnew l n).countWrites l n

/-- A write performed at its place: U copies combine first, the bytes are written, and what follows a write follows (R194,
R266, R285, R321). A write of no bytes is none. -/
def Dev.perform (d : Dev) (l : Loc) (bs : List Byte) : Dev :=
  if bs.isEmpty then d else ((d.combineRange l bs.length).writeBytes l bs).written l bs.length

/-- Whether an SRAM word stands as DIAGST left it: nothing has written other data over it. -/
def Raw.stands (r : Raw) (d : Dev) : Bool :=
  match r.loc, r.array with
  | some x, _ => decide (r.seen = [d.readNat x 8])
  | none, 0 => let p := Config.diagPlace 0 r.inst r.addr; decide (r.seen = [((d.group r.inst p.1).regs.readV p.2.1 p.2.2).toNat])
  | none, 4 => decide (r.seen = [Bytes.toNat (Memory.readN (d.core r.inst).opBuf r.addr 8)])
  | none, 5 => decide (r.seen = [Bytes.toNat (Memory.readN (d.core r.inst).wBuf r.addr 8)])
  | none, _ => true

/-- Whether an SRAM word holds bytes of a range. -/
def Raw.holds (r : Raw) (l : Loc) (n : Nat) : Bool :=
  match r.loc with
  | some x => decide (x.sp = l.sp ∧ x.own = l.own) && overlap x.a 8 l.a n
  | none => false

/-- Poison: whether a byte range meets a poisoned line (R399), or a word of SRAM that its code can make nothing of (R396, R402). -/
def Dev.poisoned (d : Dev) (l : Loc) (n : Nat) : Bool :=
  (watchLines l n).any (fun x => d.poison.contains x) || d.raw.any (fun r => r.bad && r.holds l n && r.stands d)

/-- Lines poisoned (R399). -/
def Dev.addPoison (d : Dev) (l : Loc) (n : Nat) : Dev :=
  { d with poison := d.poison ++ (watchLines l n).filter (fun x => !d.poison.contains x) }

/-! ## Waking stalled splits -/

/-- Whether a park is a stall at issue, which ends when what it waits for may have changed (R82). -/
def Park.isStall : Park → Bool
  | .stallEngine => true
  | .stallStores => true
  | .stallPair => true
  | _ => false

/-- A wait record's kind for a park (R343), 0 for none. -/
def Park.waitKind : Park → Nat
  | .barrier .. => 1
  | .mwait .. => 2
  | .waitc .. => 3
  | .acqld .. => 3
  | .relst .. => 3
  | .stallEngine => 4
  | .stallStores => 3
  | .stallStream _ => 4
  | .stallPair => 4
  | .stallSet _ => 6
  | .stallAdecl => 6
  | .stallToken => 7
  | .yld => 9
  | .tlbi _ _ _ => 4
  | .latch _ => 4
  | .tret => 3
  | _ => 0

/-- A split that has just come to run at a position, at a cycle of its cluster. -/
def Split.start (mask : W32) (pos : Pos) (now : Nat) : Split :=
  { mask := mask, pos := pos, park := .running, later := [], skip := false, issued := pos, waitCount := 0, classPromo := none, globalPromo := none,
    since := now, probed := false, exiting := false, rest := 0, tried := 0 }

/-- A split that waits for the first of some waits, then the others, each with the position of the issue group that brought it. -/
def Split.waitFor (x : Split) (ws : List (Park × Pos)) : Split :=
  { x with park := (ws.map Prod.fst).headD .running, issued := (ws.map Prod.snd).headD x.issued, later := ws.tail }

/-- A change to one split of a list. -/
def modSplit (l : List (Option Split)) (i : Nat) (f : Split → Split) : List (Option Split) :=
  setAt l i (((l.getD i none)).map f)

/-- A split woken from a stall at issue tries again; its wait goes on until it issues (R343). -/
def Split.retry (x : Split) : Split := { x with park := .running, tried := x.park.waitKind }

/-- The kind of a split's wait (R343): of its park, or of the stall it tries again after. -/
def Split.waitKind (x : Split) : Nat := if x.park = .running then x.tried else x.park.waitKind

/-- A split that stalls at issue at a cycle: the wait begins, or goes on where the split stalls again for the same. -/
def Split.stallAt (x : Split) (p : Park) (now : Nat) : Split :=
  if p.waitKind ≠ 0 ∧ x.tried = p.waitKind then { x with park := p } else { x with park := p, since := now, probed := false, tried := 0 }

/-- Every split stalled at issue tries again. -/
def Dev.wakeStalls (d : Dev) : Dev :=
  d.mapGroups (fun g => { g with splits := g.splits.map (fun o => o.map (fun x => if x.park.isStall then x.retry else x)) })

/-- The splits of some tasks' groups whose park meets a condition run again. -/
def Dev.wakeTask (d : Dev) (p : Group → Bool) (q : Park → Bool) : Dev :=
  d.mapGroups (fun g => if p g then { g with splits := g.splits.map (fun o => o.map (fun x => if q x.park then x.retry else x)) } else g)

/-! ## Counters (R169 to R171) -/

/-- A counter's queue. -/
def Group.count (g : Group) : Ctr → List Count
  | .cl => g.cl
  | .cs => g.cs
  | .cc => g.cc
  | .ct => g.ct

/-- A counter's number, 0 CL to 3 CT. -/
def ctrNum : Ctr → Nat
  | .cl => 0 | .cs => 1 | .cc => 2 | .ct => 3

/-- A counter's queue replaced. -/
def Group.setCount (g : Group) (c : Ctr) (l : List Count) : Group :=
  match c with
  | .cl => { g with cl := l }
  | .cs => { g with cs := l }
  | .cc => { g with cc := l }
  | .ct => { g with ct := l }

/-- Raising a counter by one for an operation (R170). -/
def Group.raise (g : Group) (c : Ctr) (op : Nat) : Group :=
  let n := g.totals.getD (ctrNum c) 0
  let g1 := g.setCount c (g.count c ++ [{ op := op, seq := n, ended := false, bad := none }])
  { g1 with totals := setAt g.totals (ctrNum c) (n + 1) }

/-- Marking an operation's count as one that has ended, with the trap it is due if it ended without its effect. -/
def Group.endOp (g : Group) (c : Ctr) (op : Nat) (bad : Option TrapRec) : Group :=
  g.setCount c ((g.count c).map (fun x => if x.op = op then { x with ended := true, bad := bad } else x))

/-- The leading counts of a queue that have ended. -/
def endedPrefix : List Count → List Count
  | [] => []
  | x :: l => if x.ended then x :: endedPrefix l else []

/-- Counts end in issue order: the ended ones at the queue's head leave it, and those that are due a trap are kept until a
word raises it (R171, R173). -/
def Group.endCounts (g : Group) (c : Ctr) : Group :=
  let l := endedPrefix (g.count c)
  let due := l.filterMap (fun x => x.bad.map (fun t => ({ ctr := (ctrNum c), seq := x.seq, op := x.op, tr := t } : FailRec)))
  let g1 := g.setCount c ((g.count c).drop l.length)
  { g1 with failed := g.failed ++ due }

/-- What a WAITC with these fields covers: for each counter, the operations numbered below this (R171). -/
def Group.covers (g : Group) (fields : List Nat) : List Nat :=
  (List.range 4).map (fun i => g.totals.getD i 0 - fields.getD i 63)

/-- The failed operations that a wait covers. -/
def Group.coveredFailure (g : Group) (cov : List Nat) : Option FailRec :=
  g.failed.find? (fun f => decide (f.seq < cov.getD f.ctr 0))

/-! ## Taking a trap (R326 to R331) -/

/-- What a trap records beside the group and its position (R328). -/
structure TrapInfo where
  cause : Nat
  sub : Nat
  tcode : Nat
  kind : Nat
  orig : Nat
  addr : Nat
  tkt : Nat
  lane : Nat
  deriving DecidableEq, Repr

/-- A trap with only a cause. -/
def TrapInfo.plain (cause : Nat) : TrapInfo :=
  { cause := cause, sub := 0, tcode := 0, kind := 0, orig := 0, addr := 0, tkt := 0, lane := 0 }

/-- Access kinds as trap records code them (R328). -/
def kindCode : AccKind → Nat
  | .read => 0 | .write => 1 | .rmw => 2 | .fetch => 3

/-- A new entry of the error log (R412), the newest last. -/
def Dev.logError (d : Dev) (kind cls unit pa world : Nat) : Dev :=
  { d with log := (d.log ++ [{ kind := kind, cls := cls, unit := unit, pa := pa, world := world, time := d.time }]) }

/-- A 64-byte message to a binding's slot, which is an arrival (R321, R347). -/
def Dev.deliver (d : Dev) (b : Nat) (words : List W64) : Dev :=
  let m := d.box b
  d.perform { m.trigAt with a := m.trig - 56 } (words.flatMap (fun w => Bytes.ofNat 8 w.toNat))

/-- A supervisor event (R347): kind, launch id of the first member's grid, and the members as (core, slot, wait kind). With no
supervisor binding named it is recorded in the error log only, under an entry kind that the spec does not give (log entry 14). -/
def Dev.supervisor (d : Dev) (kind launch : Nat) (members : List (Nat × Nat × Nat)) : Dev :=
  let ms := members.take 6
  let w0 : W64 := BitVec.ofNat 64 (kind + 256 * ms.length)
  let ws := ms.map (fun m => BitVec.ofNat 64 (m.1 + 256 * m.2.1 + 65536 * m.2.2))
  let b := Tab.get 0 d.params 7
  if bit b 12 ∧ (d.box (bits b 11 0)).bound then
    d.deliver (bits b 11 0) ([w0, BitVec.ofNat 64 launch] ++ ws ++ List.replicate (6 - ms.length) 0)
  else
    let f := d.takeFresh
    f.2.logError (f.1.toNat % 256) 0 0 0 0

/-- Operations abandoned (R208, R289, R336): they leave their ticket entries, and an entry with none left is freed; their counts end. -/
def Dev.abandonOps (d : Dev) (gone : List Nat) : Dev :=
  let ended (n : Nat) (o : Op) : Op := if gone.contains n then { o with st := .ended } else o
  let left (e : TicketEntry) : TicketEntry := { e with ops := e.ops.filter (fun o => !gone.contains o) }
  let endAll (g : Group) (o : Nat) : Group :=
    (((g.endOp .cl o none).endOp .cs o none).endOp .cc o none).endOp .ct o none
  { d with
    ops := Tab.mapV d.ops ended
    requests := Tab.keep d.requests (fun _ r => !gone.contains r.op)
    dies := Tab.mapV d.dies (fun _ k =>
      { k with tickets := Tab.keep (Tab.mapV k.tickets (fun _ e => left e)) (fun _ e => !e.ops.isEmpty) })
    groups := Tab.mapV d.groups (fun _ g => gone.foldl endAll g) }

/-- The operations that meet a condition, abandoned. -/
def Dev.abandon (d : Dev) (p : Op → Bool) : Dev := d.abandonOps (Tab.keys (Tab.keep d.ops (fun _ o => p o)))

/-- Releasing what a task holds of atomic sets: tentative bytes discarded, deferred copies withdrawn and their counts ended, sets and
entries freed, the token returned (R205, R208, R336). -/
def Dev.dropSets (d : Dev) (t : Nat) : Dev :=
  let gone := match d.task? t with
    | some k => (k.cq.entries.filter (fun e => e.deferred)).map (fun e => e.opId)
    | none => []
  let d1 := (d.abandonOps gone).modTask t (fun k => { k with
    tent := [], sets := [], token := .none,
    cq := { k.cq with entries := k.cq.entries.filter (fun e => !e.deferred) } })
  { d1 with tokens := d1.tokens.filter (fun p => p.2 ≠ t), ops := Tab.keep d1.ops (fun n _ => !gone.contains n) }

/-- Whether an operation waits on a ticket. -/
def Op.ticketed (o : Op) : Bool :=
  match o.st with
  | .ticketed _ => true
  | _ => false

/-- A store that a pair holds goes on by itself (R336): it takes its entries anew. -/
def Op.letGo (o : Op) : Op := { o with st := .going, waits := o.held ++ o.waits, held := [] }

/-- Dissolving a pair: the trailer's slot is freed, the leader runs on alone, and stores that are still held go on (R336, R406, R407). -/
def Dev.dissolve (d : Dev) (core slot : Nat) : Dev :=
  let g := d.group core slot
  let (lc, ls, tc, ts) := if g.role = .trailer then (g.partner.1, g.partner.2, core, slot) else (core, slot, g.partner.1, g.partner.2)
  let goes (n : Nat) (o : Op) : Op := if o.core = lc ∧ o.slot = ls ∧ o.st = .held ∧ ((d.group lc ls).cs.any (fun c => decide (c.op = n))) = true then o.letGo else o
  ({ d with
    groups := Tab.erase d.groups (gkey tc ts)
    ops := Tab.mapV (Tab.keep d.ops (fun _ o => !decide (o.core = tc ∧ o.slot = ts))) goes }).modGroup lc ls
    (fun g => { g with role := .none, pairBuf := [], checkpoint := none, atCheckpoint := none, rollRun := 0 })

/-- The trailers of a task's redundant pairs are discarded (R407). -/
def Dev.dropTrailers (d : Dev) (t : Nat) : Dev :=
  ((d.groups.filter (fun g => decide (g.2.task = t ∧ g.2.role = .trailer))).map Prod.fst).foldl (fun d k => d.dissolve (k / 64) (k % 64)) d

/-- Whether a wait is a RELST's, whose store goes out as it ends (R178). -/
def Park.isRelst : Park → Bool
  | .relst _ _ _ => true
  | _ => false

/-- What is left of a split whose lanes a kill makes exit (R336): a RELST that has issued still waits, and its store then goes out (R93, R178; DEDUCED, log
entry 112). -/
def Split.afterKill (x : Split) : Option Split :=
  match ((x.park, x.issued) :: x.later).filter (fun w => w.1.isRelst) with
  | [] => none
  | ws => some (({ x with skip := false, exiting := true }).waitFor ws)

/-- Matrix and copy entries whose operations have been abandoned: the queue no longer holds the ones, a channel no longer carries the others, which end
without a stamp (R289, R336; DESIGN CHOICE, log entry 118). -/
def Dev.dropEntries (d : Dev) (gone : List Nat) : Dev :=
  let copies := (d.ops.filter (fun o => gone.contains o.1)).filterMap (fun o => match o.2.kind with
    | .copy t n => some (t, n)
    | _ => none)
  let d1 : Dev := { d with
    cores := Tab.mapV d.cores (fun _ k => { k with mq := k.mq.filter (fun e => !gone.contains e.op) })
    clusters := Tab.mapV d.clusters (fun _ c => { c with
      held := Tab.keep c.held (fun i _ => !(Tab.find c.chans i).any (fun x => copies.contains x)), chans := Tab.keep c.chans (fun _ x => !copies.contains x) }) }
  if copies.isEmpty then d1
  else Dev.wakeStalls { d1 with tasks := Tab.mapV d1.tasks (fun t k => { k with
    cq := { k.cq with entries := k.cq.entries.map (fun e => if copies.contains (t, e.n) then { e with chan := none, stop := some 6 } else e) } }) }

/-- Ending one group: all its lanes exit, and its waits on tickets are abandoned (R336). -/
def Dev.killGroup (d : Dev) (core slot : Nat) : Dev :=
  let d0 := if (d.group core slot).role = .none then d else d.dissolve core slot
  let d1 := d0.modGroup core slot (fun g => { g with
    splits := g.splits.map (fun o => o.bind Split.afterKill), stack := [], trap := none, killed := true, monitor := none, failed := [] })
  let d2 := d1.modCore core (fun k => { k with waiting := k.waiting.filter (fun r => r.slot ≠ slot) })
  let gone := Tab.keys (Tab.keep d2.ops (fun _ o => decide (o.core = core ∧ o.slot = slot) && o.ticketed))
  (d2.abandonOps gone).dropEntries gone

/-- A workgroup becomes killed (R336): it will not commit, a wound's restart is no longer due (R208), and its grid's done code is 2. -/
def Dev.markKilled (d : Dev) (t : Nat) : Dev :=
  let d1 := (d.dropSets t).modTask t (fun k => { k with killed := true, restart := false, phase := if k.phase = .wounded then .running else k.phase })
  match d1.task? t with
  | some k => d1.modGrid k.grid (fun g => { g with fail := if g.fail = 0 then 2 else g.fail })
  | none => d1

/-- GKILL with the whole-workgroup bit (R336). -/
def Dev.killTask (d : Dev) (t : Nat) : Dev :=
  match d.task? t with
  | some k => (k.slots.foldl (fun d sl => d.killGroup k.core sl) d).markKilled t
  | none => d

/-- Changing the group that an operation belongs to: in its slot, or saved with its task (R254, R289). -/
def Dev.modHome (d : Dev) (o : Op) (f : Group → Group) : Dev :=
  if o.core < 65536 then d.modGroup o.core o.slot f
  else d.modTask (o.core - 65536) (fun t => { t with saved := setAt t.saved o.slot (f (t.saved.getD o.slot Group.empty)) })

/-- The handler's activation ends: its registers as given, its slot idle, its workgroup's groups that have no trap released. -/
def Dev.endActivation (d : Dev) (core : Nat) (clear : Bool) : Dev :=
  let t := d.taskAt core handlerSlot
  let d1 := d.modGroup core handlerSlot (fun g => { Group.empty with regs := if clear then Regs.zero else g.regs })
  let d2 := d1.modCore core (fun k => { k with serving := none })
  { d2 with groups := Tab.mapV d2.groups (fun k g =>
      if k / 64 = core ∧ k % 64 ≠ handlerSlot ∧ g.task = t then { g with held := false } else g) }

/-- A handler fault (R331): the activation ends, its outstanding stores go on to their end, its registers are cleared, the served workgroup is killed, and
supervisor event 1 is sent. -/
def Dev.handlerFault (d : Dev) (core : Nat) : Dev :=
  let t := d.taskAt core handlerSlot
  let slot := match (d.core core).serving with
    | some (_, r) => r.slot
    | none => 0
  let launch := match d.task? t with
    | some k => k.grid
    | none => 0
  (((d.killTask t).endActivation core true).supervisor 1 launch [(core, slot, 10)])

/-- A trap's record among the waiting ones of its core: in the order in which they were raised, those of one cycle by slot (R330). -/
def queueTrap (r : TrapRec) : List TrapRec → List TrapRec
  | [] => [r]
  | x :: l => if x.raised = r.raised ∧ r.slot < x.slot then r :: x :: l else x :: queueTrap r l

/-- Recording a precise trap of a group (R326 to R330): its record joins the core's waiting traps, and the group stops. A trap
in the handler slot is a handler fault (R331). -/
def Dev.raiseTrap (d : Dev) (core slot split : Nat) (mask : W32) (pos : Pos) (t : TrapInfo) : Dev :=
  if slot = handlerSlot then d.handlerFault core
  else
    let g := d.group core slot
    let launch := match d.task? g.task with
      | some k => k.grid
      | none => 0
    let queue := match d.task? g.task with
      | some k => k.queue
      | none => 0
    let r : TrapRec :=
      { slot := slot, split := split, mask := mask, pos := pos, cause := t.cause, sub := t.sub, tcode := t.tcode,
        kind := t.kind, orig := t.orig, addr := t.addr, tkt := t.tkt, lane := t.lane, launch := launch, queue := queue,
        raised := d.now (clusterOf core) }
    (d.modGroup core slot (fun g => { g with trap := some r, probed := false })).modCore core
      (fun k => { k with waiting := queueTrap r k.waiting })

/-- The device as it stood before the issue group, with the page table updates, TLB fills and reports of its walks kept (R148, R275, R292). -/
def State.rollback (s : State) : Dev :=
  let c := s.iss.core
  let b := s.iss.walked.foldl (fun d w => d.writeBytes (hbmAt w.1) (Bytes.ofNat 8 w.2.toNat)) s.iss.base
  let b1 := { b with log := s.dev.log }.modCore c (fun k => { k with tlb := (s.dev.core c).tlb })
  b1.modDie (dieOf c) (fun k => { k with tlb := (s.dev.die (dieOf c)).tlb, walkCache := (s.dev.die (dieOf c)).walkCache })

/-- TAKING AN EXCEPTION. A precise trap of the issuing group: no word of its issue group has executed (R326), the trap record
names the group's position, split, mask and the rest of R328, the split stays at its issue group, and no split of the
group issues until the handler has dealt with it (R94). -/
def State.takeTrap (s : State) (t : TrapInfo) : State :=
  { s with dev := s.rollback.raiseTrap s.iss.core s.iss.slot s.iss.split s.iss.mask s.iss.pos t, iss := Issue.closed }

/-- A stall at issue (R82): no word of the issue group executes, and the split waits where it stands; after f, what the wait
itself brings about elsewhere. -/
def State.stall (s : State) (p : Park) (f : Dev → Dev) : State :=
  { s with
    dev := f (s.rollback.modGroup s.iss.core s.iss.slot (fun g =>
      { g with splits := modSplit g.splits s.iss.split (fun x => x.stallAt p (s.dev.now (clusterOf s.iss.core))) }))
    iss := Issue.closed }

/-- THE RETURN. TRET ends the activation (R337): held groups of the served workgroup that have no trap are released, groups
still trapped have their traps requeued behind the waiting ones, and the handler's registers keep their values. -/
def Dev.trapReturn (d : Dev) (core : Nat) : Dev :=
  let t := d.taskAt core handlerSlot
  let still := (d.groups.filter (fun kg => kg.1 / 64 = core ∧ kg.2.task = t ∧ kg.2.trap.isSome ∧ kg.1 % 64 ≠ handlerSlot)).filterMap
    (fun kg => kg.2.trap)
  let d1 := d.modCore core (fun k => { k with waiting := k.waiting.filter (fun r => !still.contains r) ++ still })
  d1.endActivation core false

/-! ## Ending issue -/

/-- Parking the issuing split at the end of its issue group. -/
def State.park (s : State) (p : Park) : State := s.modIss (fun i => { i with parks := i.parks ++ [p] })

/-- What a split waits for next when a wait ends: the next of its waits, or nothing. -/
def Split.unpark (x : Split) : Split := x.waitFor x.later

/-- A running split whose lanes have exited leaves its index (R93). -/
def Group.leave (g : Group) (i : Nat) : Group :=
  match g.splits.getD i none with
  | some x => if x.exiting ∧ x.park = .running then { g with splits := setAt g.splits i none, exitPos := x.issued } else g
  | none => g

/-- Ending the wait of a split. -/
def Dev.unpark (d : Dev) (core slot split : Nat) : Dev :=
  d.modGroup core slot (fun g => ({ g with splits := modSplit g.splits split Split.unpark } : Group).leave split)

/-- The split of a slot, if it is live. -/
def Dev.split? (d : Dev) (core slot split : Nat) : Option Split := (d.group core slot).splits.getD split none

/-- The position after a word run that ends at word w of a packet (R88). -/
def Pos.after (p : Pos) (n : Nat) : Pos :=
  if p.word + n ≤ 2 then { p with word := p.word + n } else { pc := p.pc + 12, word := 0 }

/-- The packet an offset reaches (R53): one outside the 54-bit addresses wraps (DESIGN CHOICE, log entry 104). -/
def packetAt (pc : Nat) (off : Int) : Nat := (((pc : Int) + 12 * off) % 2 ^ 54).toNat

end Sys2Proof.Machine
end

