-- ==== Sys2Proof/Machine/Translate.lean ====
section
/-! DEFINITION. From a virtual address to a place: page tables, the walk, TLBs and the hedgerow (R144, R148, R150, R270 to R277,
R385, R386). -/

namespace Sys2Proof.Machine

/-! ## The hedgerow -/

/-- Whether a byte of local HBM lies in a frame assigned to a world (R386). -/
def Dev.hedge (d : Dev) (pa world : Nat) : Bool := decide ((d.frame (pa / 65536)).world = some world) && !(d.frame (pa / 65536)).reserved

/-- Whether a chip-scratchpad address lies in a frame assigned to a world (R146). -/
def Dev.hedgeK (d : Dev) (a world : Nat) : Bool := decide (Tab.find d.kframes (a / 65536) = some world)

/-! ## Entries (R272, R273) -/

/-- The address of a level's entry for a virtual address in a table (R270). -/
def pteAddr (table level va : Nat) : Nat :=
  table + 8 * (match level with
    | 1 => bits va 53 44
    | 2 => bits va 43 34
    | 3 => bits va 33 25
    | _ => bits va 24 16)

/-- The size of a page whose leaf stands at a level (R270). -/
def pageSize (level : Nat) : Nat :=
  match level with
  | 2 => 2 ^ 34
  | 3 => 2 ^ 25
  | _ => 2 ^ 16

/-- The level of a page of a size. -/
def levelOf (size : Nat) : Nat := if size = 2 ^ 34 then 2 else if size = 2 ^ 25 then 3 else 4

/-- Leaf fields (R272). -/
def leafLoc (p : Nat) : Nat := bits p 14 13
def leafCache (p : Nat) : Nat := bits p 12 11
def leafGran (p : Nat) : Nat := bits p 10 9
def leafSwa (p : Nat) : Bool := bit p 8
def leafWorld (p : Nat) : Nat := bits p 59 52
def leafFrame (p : Nat) : Nat := bits p 51 16 * 65536

/-- A malformed entry at a level (R273). One that names an address at or above 2^39 faults at its own level (DESIGN CHOICE, log entry 108). -/
def malformed (p level : Nat) : Bool :=
  if bit p 1 then
    decide (bits p 63 60 ≠ 0) || bit p 15 || decide (leafLoc p = 3) || decide (leafCache p = 3) || decide (level = 1)
      || (decide (level = 2) && decide (leafLoc p ≠ 2) && decide (bits p 33 16 ≠ 0))
      || (decide (level = 3) && decide (leafLoc p ≠ 2) && decide (bits p 24 16 ≠ 0))
      || (decide (leafLoc p = 1) && decide (leafGran p ≠ 0))
      || (decide (leafLoc p = 2) && (decide (leafGran p ≠ 0) || leafSwa p || bit p 4 || decide (level ≠ 4)
          || decide (bits p 35 16 ≠ 0)))
      || (decide (leafLoc p = 0) && decide (leafFrame p ≥ 2 ^ 39))
  else
    decide (bits p 63 52 ≠ 0) || decide (bits p 12 2 ≠ 0) || decide (level = 4) || decide (bits p 51 13 * 8192 ≥ 2 ^ 39)

/-! ## The walk (R274) -/

/-- How a translation fails: a fault code at a level, or the hedgerow. -/
inductive XFault where
  | fault (level code : Nat)
  | hedge
  deriving DecidableEq, Repr

/-- On whose behalf an address is translated: the core whose L1 TLB serves it, its die, world, ASN and root, whether it is
privileged, and whether it is speculative (R110, R276). -/
structure XCtx where
  core : Option Nat
  die : Nat
  world : Nat
  asn : Nat
  root : Nat
  priv : Bool
  spec : Bool
  deriving DecidableEq, Repr

/-- A leaf as a walk finds it: its address, its value and its level. -/
structure Leaf where
  addr : Nat
  val : Nat
  level : Nat
  deriving DecidableEq, Repr

/-- A walk-cache entry: ASN and world, level, entry address bits of the virtual address, and the table entry (R276). -/
abbrev WalkEntry := Nat × Nat × Nat × W64

/-- The part of a virtual address that selects an entry at a level and all above it. -/
def vaPrefix (va level : Nat) : Nat :=
  va / 2 ^ (match level with | 1 => 44 | 2 => 34 | 3 => 25 | _ => 16)

/-- Walking down from a level's table with so many levels left; table entries read are gathered for the walk cache. -/
def walkGo (d : Dev) (x : XCtx) (va : Nat) (cache : List WalkEntry) :
    Nat → Nat → Nat → List WalkEntry → Except XFault Leaf × List WalkEntry
  | 0, _, _, seen => (.error (.fault 4 6), seen)
  | n + 1, level, table, seen =>
    let a := pteAddr table level va
    let tag := x.asn * 256 + x.world
    let known := cache.find? (fun e => decide (e.1 = tag ∧ e.2.1 = level ∧ e.2.2.1 = vaPrefix va level))
    if table ≥ 2 ^ 39 then (.error (.fault level 6), seen)
    else if known.isNone && !(d.hedge a x.world || d.hedge a 0) then (.error .hedge, seen)
    else if known.isNone && d.poisoned (hbmAt a) 8 then (.error (.fault level 6), seen)
    else
      let p := match known with
        | some e => e.2.2.2.toNat
        | none => (d.combine (a / 128)).readNat (hbmAt a) 8
      if !bit p 0 then (.error (.fault level 1), seen)
      else if malformed p level then (.error (.fault level 6), seen)
      else if bit p 1 then (.ok { addr := a, val := p, level := level }, seen)
      else walkGo d x va cache n (level + 1) (bits p 51 13 * 8192)
        (seen ++ [(tag, level, vaPrefix va level, BitVec.ofNat 64 p)])

/-- Whether a kind of access reads. -/
def kindReads : AccKind → Bool
  | .read => true | .rmw => true | _ => false
/-- Whether a kind of access writes. -/
def kindWrites : AccKind → Bool
  | .write => true | .rmw => true | _ => false

/-- The permission checks of R274 on a leaf, in its order. -/
def leafCheck (x : XCtx) (k : AccKind) (p level : Nat) : Option XFault :=
  if bit p 5 && !x.priv then some (.fault level 5)
  else if kindReads k && !bit p 2 then some (.fault level 2)
  else if kindWrites k && !bit p 3 then some (.fault level 3)
  else if decide (k = .fetch) && !bit p 4 then some (.fault level 4)
  else if leafWorld p ≠ x.world then some .hedge
  else none

/-- The place a leaf gives a virtual address (R272, R281). -/
def leafPlace (p level va : Nat) : Loc :=
  match leafLoc p with
  | 0 => hbmAt (leafFrame p / pageSize level * pageSize level + va % pageSize level)
  | 1 => { sp := .cxl, own := 0, a := leafFrame p / pageSize level * pageSize level + va % pageSize level }
  | _ => { sp := .remote (bits p 51 41) (bits p 40 36), own := 0, a := va }

/-- Whether the hedgerow lets an access through to its place (R386); only local frames are behind it. -/
def Dev.placeHedge (d : Dev) (l : Loc) (world : Nat) : Bool :=
  match l.sp with
  | .hbm => d.hedge l.a world
  | _ => true

/-- What a translation gives: the place, and the leaf it came from. -/
structure Placed where
  loc : Loc
  leaf : Nat
  deriving DecidableEq, Repr

/-- A translation's outcome: the device with its TLB fills and A and D updates, the entries updated, and the place. -/
structure Xlate where
  dev : Dev
  walked : List (Nat × W64)
  out : Except XFault Placed

/-- A TLB entry that serves an access (R271, R275): same ASN and world, covering the address, and D set for a write. -/
def TlbEntry.serves (e : TlbEntry) (x : XCtx) (k : AccKind) (va : Nat) : Bool :=
  decide (e.asn = x.asn ∧ e.world = x.world ∧ e.va ≤ va ∧ va < e.va + e.size) && (!kindWrites k || bit e.leaf.toNat 7)

/-- The TLB entries a translation may use: its core's, then its die's (R276). -/
def Dev.tlbLookup (d : Dev) (x : XCtx) (k : AccKind) (va : Nat) : Option TlbEntry :=
  let l1 := match x.core with
    | some c => (d.core c).tlb
    | none => []
  (l1 ++ (d.die x.die).tlb).find? (fun e => e.serves x k va)

/-- A TLB entry put first in the core's and the die's TLB; an older entry of the same page gives way (R276). -/
def Dev.tlbFill (d : Dev) (x : XCtx) (e : TlbEntry) : Dev :=
  let other (f : TlbEntry) : Bool := !decide (f.asn = e.asn ∧ f.world = e.world ∧ f.va = e.va ∧ f.size = e.size)
  let d1 := d.modDie x.die (fun k => { k with tlb := (e :: k.tlb.filter other).take 16384 })
  match x.core with
  | some c => d1.modCore c (fun k => { k with tlb := (e :: k.tlb.filter other).take 512 })
  | none => d1

/-- A walk that ended at a table entry which could not be read correctly is also reported (R292): entry kind 2 of the error log. -/
def Dev.reportWalk (d : Dev) (x : XCtx) (va : Nat) (f : XFault) (seen : List WalkEntry) : Dev :=
  match f with
  | .fault level 6 =>
    let table := match seen.getLast? with
      | some e => bits e.2.2.2.toNat 51 13 * 8192
      | none => x.root
    let a := pteAddr table level va
    if table < 2 ^ 39 ∧ d.poisoned (hbmAt a) 8 then d.logError 2 0 0 a (((d.frame (a / 65536)).world).getD 0) else d
  | _ => d

/-- Translation of one access (R274 to R276): a TLB entry that serves it, or a walk with its checks in R274's order, its A and D update and its
fills. What the walk set stands where the frame then fails the hedgerow (R275, R283, R386). A speculative walk sets nothing, and fills nothing where
A, or D for a write, is clear, or on a failure (R276). -/
def Dev.translate (d : Dev) (x : XCtx) (k : AccKind) (va : Nat) : Xlate :=
  match d.tlbLookup x k va with
  | some e =>
    let p := e.leaf.toNat
    let level := levelOf e.size
    let pl := leafPlace p level va
    match leafCheck x k p level with
    | some f => { dev := d, walked := [], out := .error f }
    | none =>
      if d.placeHedge pl x.world then
        { dev := d.tlbFill x e, walked := [], out := .ok { loc := pl, leaf := p } }
      else { dev := d, walked := [], out := .error .hedge }
  | none =>
    let (r, seen) := walkGo d x va (d.die x.die).walkCache 4 1 x.root []
    match r with
    | .error f => { dev := d.reportWalk x va f seen, walked := [], out := .error f }
    | .ok lf =>
      let pl := leafPlace lf.val lf.level va
      match leafCheck x k lf.val lf.level with
      | some f => { dev := d, walked := [], out := .error f }
      | none =>
        let new : Nat := lf.val ||| 64 ||| (if kindWrites k then 128 else 0)
        let passes := d.placeHedge pl x.world
        if leafLoc lf.val = 0 ∧ leafGran lf.val ≠ (d.frame (pl.a / 65536)).gran then
          { dev := d, walked := [], out := .error (.fault lf.level 7) }
        else if x.spec ∧ (new ≠ lf.val ∨ !passes) then { dev := d, walked := [], out := .error (.fault lf.level 1) }
        else
          let (d1, ws) :=
            if new ≠ lf.val then (d.perform (hbmAt lf.addr) (Bytes.ofNat 8 new), [(lf.addr, BitVec.ofNat 64 new)])
            else (d, [])
          let sz := pageSize lf.level
          let e : TlbEntry :=
            { asn := x.asn, world := x.world, va := va / sz * sz, size := sz, leaf := BitVec.ofNat 64 new }
          let d2 := (d1.modDie x.die (fun kd => { kd with walkCache := (seen ++ kd.walkCache).eraseDups.take 256 })).tlbFill x e
          { dev := d2, walked := ws, out := if passes then .ok { loc := pl, leaf := new } else .error .hedge }

/-- The home die of the local page that maps a virtual address, whatever its permissions (R323). -/
def Dev.mappedHome (d : Dev) (x : XCtx) (va : Nat) : Option Nat :=
  match (walkGo d x va [] 4 1 x.root []).1 with
  | .ok lf => let pl := leafPlace lf.val lf.level va; if pl.sp = .hbm then some (d.homeDie pl.a) else none
  | .error _ => none

/-! ## Contexts -/

/-- The context of a core's accesses through a queue's root (R271). -/
def Dev.xctx (d : Dev) (core q : Nat) (priv spec : Bool) : XCtx :=
  { core := some core, die := dieOf core, world := (d.core core).world, asn := (d.queue q).asn, root := (d.queue q).root,
    priv := priv, spec := spec }

/-- The queue a slot's accesses translate through: its workgroup's, for the handler that of the one it serves (R271, R329). -/
def Dev.queueAt (d : Dev) (core slot : Nat) : Nat :=
  match d.task? (d.taskAt core slot) with
  | some t => t.queue
  | none => 0

/-- The context of a slot's accesses. -/
def Dev.slotCtx (d : Dev) (core slot : Nat) : XCtx :=
  d.xctx core (d.queueAt core slot) (decide (slot = handlerSlot)) false

/-- Translation on behalf of the issuing slot; its walk's updates outlive a trap (R148, R275). -/
def State.translate (s : State) (k : AccKind) (va : Nat) : State × Except XFault Placed :=
  let r := s.dev.translate (s.dev.slotCtx s.iss.core s.iss.slot) k va
  ({ s with dev := r.dev, iss := { s.iss with walked := s.iss.walked ++ r.walked } }, r.out)

/-! ## Levels, windows and the checks of a lane (R144, R148, R150) -/

/-- The five levels. -/
inductive Level where
  | p | s | c | k | g
  deriving DecidableEq, Repr

/-- The level and the offset or address a generic address decodes to (R150). -/
def genericDecode (a : Nat) : Option (Level × Nat) :=
  match bits a 63 56 with
  | 0 => if bits a 55 54 = 0 then some (.g, a) else none
  | 0xF1 => if bits a 55 32 = 0 then some (.p, bits a 31 0) else none
  | 0xF2 => if bits a 55 32 = 0 then some (.s, bits a 31 0) else none
  | 0xF3 => if bits a 55 32 = 0 then some (.c, bits a 31 0) else none
  | 0xF4 => if bits a 55 27 = 0 then some (.k, bits a 26 0) else none
  | _ => none

/-- The group index whose slices the P level names: a group's own, for the handler the trapped group's (R329). -/
def Dev.sliceIndex (d : Dev) (core slot : Nat) : Nat :=
  if slot = handlerSlot then
    match (d.core core).serving with
    | some (_, r) => (d.group core r.slot).index
    | none => 0
  else (d.group core slot).index

/-- The declared extent of a level for a slot's workgroup (R144). -/
def Dev.extent (d : Dev) (core slot : Nat) (lv : Level) : Nat :=
  match d.gridOf (d.taskAt core slot) with
  | some g => match lv with
    | .p => g.pBytes
    | .s => g.sBytes
    | .c => g.cBytes
    | _ => 0
  | none => 0

/-- A lane's access that passed its checks: its place, the leaf it was translated by (0 outside G), and its level. -/
structure Access where
  loc : Loc
  leaf : Nat
  lv : Level
  deriving DecidableEq, Repr

/-- The scope an access is performed at: widened to its level's (R65). -/
def levelScope (lv : Level) (sc : Nat) : Nat :=
  match lv with
  | .c => max sc 1
  | .k => max sc 2
  | _ => sc

/-- A translation failure as a trap (R327, R328). -/
def XFault.info (f : XFault) (k : AccKind) (addr lane : Nat) : TrapInfo :=
  match f with
  | .fault level code =>
    { TrapInfo.plain 0x09 with sub := level * 16 + code, kind := kindCode k, addr := addr, lane := lane }
  | .hedge => { TrapInfo.plain 0x07 with kind := kindCode k, addr := addr, lane := lane }

/-- A failed check as a trap. -/
def checkInfo (cause : Nat) (k : AccKind) (addr lane : Nat) : TrapInfo :=
  { TrapInfo.plain cause with kind := kindCode k, addr := addr, lane := lane }

/-- The checks of R148 on one lane at a known level: bounds, translation and world, alignment, in that order. -/
def State.checkAt (s : State) (lv : Level) (k : AccKind) (lane off addr n : Nat) : State × Except TrapInfo Access :=
  let d := s.dev
  let c := s.iss.core
  let sl := s.iss.slot
  let aligned (st : State) (a : Access) : State × Except TrapInfo Access :=
    if off % n = 0 then (st, .ok a) else (st, .error (checkInfo 0x08 k addr lane))
  match lv with
  | .p =>
    if off + n > d.extent c sl .p then (s, .error (checkInfo 0x06 k addr lane))
    else aligned s { loc := { sp := .pmem, own := d.taskAt c sl, a := 4096 * (32 * d.sliceIndex c sl + lane) + off }, leaf := 0, lv := .p }
  | .s =>
    if off + n > d.extent c sl .s then (s, .error (checkInfo 0x06 k addr lane))
    else aligned s { loc := { sp := .smem, own := d.taskAt c sl, a := off }, leaf := 0, lv := .s }
  | .c =>
    if off + n > d.extent c sl .c then (s, .error (checkInfo 0x06 k addr lane))
    else
      let gang := match d.task? (d.taskAt c sl) with
        | some t => t.gang
        | none => 0
      aligned s { loc := { sp := .cmem, own := gang, a := off }, leaf := 0, lv := .c }
  | .k =>
    let a := bits off 26 0
    if !d.hedgeK a (d.core c).world then (s, .error (checkInfo 0x07 k addr lane))
    else aligned s { loc := { sp := .kmem, own := 0, a := a }, leaf := 0, lv := .k }
  | .g =>
    if off / 2 ^ 54 ≠ 0 then (s, .error (checkInfo 0x06 k addr lane))
    else
      let (s1, r) := s.translate k off
      match r with
      | .error f => (s1, .error (f.info k addr lane))
      | .ok t => aligned s1 { loc := t.loc, leaf := t.leaf, lv := .g }

/-- The checks of R148 on one lane with a generic address (R150); a level not among those the word accepts is a
generic-window failure. -/
def State.checkGeneric (s : State) (ok : Level → Bool) (k : AccKind) (lane addr n : Nat) : State × Except TrapInfo Access :=
  match genericDecode addr with
  | none => (s, .error (checkInfo 0x05 k addr lane))
  | some (lv, off) => if ok lv then s.checkAt lv k lane off addr n else (s, .error (checkInfo 0x05 k addr lane))

/-- The checks of every acting lane, ascending; each lane's walk counts whatever the others do. The outcome is the failure of the
lowest failing lane, or every lane's access (R148). -/
def State.checkLanes (s : State) (chk : State → Nat → State × Except TrapInfo Access) :
    List Nat → State × Except TrapInfo (List (Nat × Access))
  | [] => (s, .ok [])
  | i :: l =>
    let (s1, r) := chk s i
    let (s2, rs) := s1.checkLanes chk l
    match r, rs with
    | .error t, _ => (s2, .error t)
    | .ok _, .error t => (s2, .error t)
    | .ok a, .ok as => (s2, .ok ((i, a) :: as))

end Sys2Proof.Machine
end

