-- ==== Sys2Proof/Machine/Operands.lean ====
section
/-! DEFINITION. The operand forms of words: modified lane sources, results under R67, immediates, addresses of the M format, and
what a meaning answers. -/

namespace Sys2Proof.Machine

/-- What a meaning answers. -/
abbrev Out := Host.Outcome State Fault Refusal

/-- The arithmetic fields of the modifier before this word (R63), all zero without one (R65). -/
def State.amod (s : State) : AMod :=
  match s.iss.mod with
  | some (.arith _ _ r l t na nb aa ab k) =>
    { r := r, sat := t, clamp := l, negA := na, negB := nb, absA := aa, absB := ab, k := k }
  | _ => AMod.none

/-- The scope of the memory modifier before this word, or the default given (R64, R65). -/
def State.scopeOr (s : State) (dflt : Nat) : Nat :=
  match s.iss.mod with
  | some (.memory _ _ sc _ _) => sc
  | _ => dflt

/-- The cache field of the memory modifier (R64). -/
def State.cacheField (s : State) : Nat :=
  match s.iss.mod with
  | some (.memory _ _ _ h _) => h
  | _ => 0

/-- The byte offset of the memory modifier (R64). -/
def State.offset (s : State) : Int :=
  match s.iss.mod with
  | some (.memory _ _ _ _ o) => o
  | _ => 0

/-- The address of a lane in M format, on 64 bits with wrap-around (R71, R148). V127 as index and S0 as base add nothing. -/
def State.laneAddr (s : State) (base : SReg) (ix : VReg) (scale lane : Nat) : Nat :=
  ((((s.rdS base).toNat + (s.rdV ix lane).toNat * scale : Nat) : Int) + s.offset) % 2 ^ 64 |>.toNat

/-- The address of a uniform form (R162). -/
def State.uniAddr (s : State) (base : SReg) : Nat :=
  (((s.rdS base).toNat : Int) + s.offset) % 2 ^ 64 |>.toNat

/-- Whether a uniform word performs: some active lane passes its guard (R162). -/
def State.performs (s : State) : Bool := decide (s.acting ≠ 0)

/-! ## Integer results (R67, R123) -/

/-- Bounds of the signed and the unsigned 32-bit range. -/
def loI32 : Int := -(2 ^ 31)
def hiI32 : Int := 2 ^ 31 - 1
def hiN32 : Int := 2 ^ 32 - 1

/-- A lane source as an integer, signed or unsigned. -/
def State.srcV (s : State) (sgn : Bool) (r : VReg) (i : Nat) : Int :=
  if sgn then (s.rdV r i).toInt else ((s.rdV r i).toNat : Int)

/-- Source A after steps 1 and 2 of R67. -/
def State.intA (s : State) (sgn : Bool) (r : VReg) (i : Nat) : Int := srcInt s.amod.absA s.amod.negA (s.srcV sgn r i)
/-- Source B after steps 1 and 2 of R67. -/
def State.intB (s : State) (sgn : Bool) (r : VReg) (i : Nat) : Int := srcInt s.amod.absB s.amod.negB (s.srcV sgn r i)

/-- Steps 4 to 7 of R67 for 32-bit integer results, with the signed or the unsigned saturation range. -/
def State.finInt (s : State) (unsignedRange : Bool) (x : Int) : W32 :=
  BitVec.ofNat 32 (finishInt .rne s.amod (if unsignedRange then 0 else loI32) (if unsignedRange then hiN32 else hiI32) 32 x)

/-- Writing D in the acting lanes with each lane's value (R68, R113). -/
def State.lanewise (s : State) (d : VReg) (f : Nat → W32) : State := s.wrV d s.acting f

/-- A two-source integer operation (R124): signedness of the sources, range of saturation, the exact operation on the lane and
the sources. -/
def State.intOp (s : State) (d a b : VReg) (sgn unsignedRange : Bool) (f : Nat → Int → Int → Int) : State :=
  s.lanewise d (fun i => s.finInt unsignedRange (f i (s.intA sgn a i) (s.intB sgn b i)))

/-- A bit operation on two sources, which takes only a guard (R126). -/
def State.bitOp (s : State) (d a b : VReg) (f : W32 → W32 → W32) : State :=
  s.lanewise d (fun i => f (s.rdV a i) (s.rdV b i))

/-- A bit operation on one source. -/
def State.bitOp1 (s : State) (d a : VReg) (f : W32 → W32) : State :=
  s.lanewise d (fun i => f (s.rdV a i))

/-! ## Floating results (R51, R67, R134) -/

/-- Writing D in the acting lanes with codes, and raising the OR of their flags (R51). -/
def State.lanewiseF (s : State) (d : VReg) (f : Nat → Nat × Flags) : State :=
  (s.lanewise d (fun i => BitVec.ofNat 32 (f i).1)).raiseFlags
    ((lanesOf s.acting).foldl (fun fl i => fl ||| (f i).2) 0)

/-- Steps 4 to 7 of R67 for a floating result, with the invalid flag of step 3. -/
def finF (fm : Fmt) (md : AMod) (r : XReal × Bool) : Nat × Flags :=
  let x := finishReal fm .rne md r.1
  (x.1, x.2 ||| Flags.when r.2 flagNV)

/-- The rounding mode an operation's exact zero takes its sign by (R34). -/
def AMod.mode (md : AMod) : RMode := RMode.ofField .rne md.r

/-- A source code as a modified real A' (R67). -/
def AMod.realA (md : AMod) (fm : Fmt) (x : Nat) : XReal := srcReal md.absA md.negA (fm.decode x)
/-- A source code as a modified real B' (R67). -/
def AMod.realB (md : AMod) (fm : Fmt) (x : Nat) : XReal := srcReal md.absB md.negB (fm.decode x)

/-- A two-source F32 operation. -/
def State.fop2 (s : State) (d a b : VReg) (f : AMod → XReal → XReal → XReal × Bool) : State :=
  s.lanewiseF d (fun i =>
    finF .f32 s.amod (f s.amod (s.amod.realA .f32 (s.rdV a i).toNat) (s.amod.realB .f32 (s.rdV b i).toNat)))

/-- A one-source F32 operation that may raise flags of its own. -/
def State.fop1 (s : State) (d a : VReg) (f : XReal → XReal × Flags) : State :=
  s.lanewiseF d (fun i =>
    let r := f (s.amod.realA .f32 (s.rdV a i).toNat)
    let x := finF .f32 s.amod (r.1, false)
    (x.1, x.2 ||| r.2))

/-- A packed operation on both 16-bit elements of each lane (R137); the old D is a third source. -/
def State.packed (s : State) (fm : Fmt) (d a b : VReg) (f : AMod → XReal → XReal → XReal → XReal × Bool) : State :=
  s.lanewiseF d (fun i =>
    let el (e : Nat) : Nat × Flags :=
      let part (r : VReg) : Nat := bits (s.rdV r i).toNat (16 * e + 15) (16 * e)
      finF fm s.amod (f s.amod (fm.decode (part d)) (s.amod.realA fm (part a)) (s.amod.realB fm (part b)))
    ((el 0).1 + 65536 * (el 1).1, (el 0).2 ||| (el 1).2))

/-! ## Exact operations -/

/-- Sum of two (R34, R134). -/
def opAdd (md : AMod) (a b : XReal) : XReal × Bool := xsum md.mode [a, b]
/-- Difference. -/
def opSub (md : AMod) (a b : XReal) : XReal × Bool := xsum md.mode [a, b.neg]
/-- Product. -/
def opMul (_ : AMod) (a b : XReal) : XReal × Bool := xmul a b
/-- D plus a product, the product one addend with its own sign (R34). -/
def opFma (md : AMod) (d a b : XReal) : XReal × Bool :=
  let p := xmul a b
  let r := xsum md.mode [d, p.1]
  (r.1, p.2 || r.2)

/-- Whether a lies below b, −0 below +0 (R134). -/
def xbelow (a b : XReal) : Bool :=
  let c := xcmp a b
  decide (c < 0) || (decide (c = 0) && a.isNeg && !b.isNeg)

/-- Minimum or maximum; prop says that NaN propagates, else it is ignored (R134). -/
def xpick (big prop : Bool) (a b : XReal) : XReal :=
  match a, b with
  | .nan, y => if prop then .nan else y
  | x, .nan => if prop then .nan else x
  | x, y => if xbelow x y != big then x else y

/-- The class mask of R135 for an F32 code. -/
def fclass (code : Nat) : Nat :=
  let neg := bit code 31
  match Fmt.f32.decode code with
  | .nan => 2 ^ 8
  | .inf _ => if neg then 2 ^ 0 else 2 ^ 7
  | .fin _ m _ _ =>
    if m = 0 then (if neg then 2 ^ 3 else 2 ^ 4)
    else if m < 2 ^ 23 then (if neg then 2 ^ 2 else 2 ^ 5)
    else (if neg then 2 ^ 1 else 2 ^ 6)

/-- 1/A' with its special inputs (R136). -/
def opRcp (x : XReal) : XReal × Flags :=
  match x with
  | .nan => (.nan, 0)
  | .inf n => (.fin n 0 0 false, 0)
  | .fin n m e _ => if m = 0 then (.inf n, flagDZ) else (xrcp n m e, 0)

/-- √A' (R136). -/
def opSqrt (x : XReal) : XReal × Flags :=
  match x with
  | .nan => (.nan, 0)
  | .inf n => if n then (.nan, flagNV) else (.inf false, 0)
  | .fin n m e _ => if m = 0 then (.fin n 0 0 false, 0) else if n then (.nan, flagNV) else (xsqrt m e, 0)

/-- 1/√A' (R136). -/
def opRsq (x : XReal) : XReal × Flags :=
  match x with
  | .nan => (.nan, 0)
  | .inf n => if n then (.nan, flagNV) else (.fin false 0 0 false, 0)
  | .fin n m e _ => if m = 0 then (.inf n, 0) else if n then (.nan, flagNV) else (xrsq m e, 0)

/-- 2^A' (R136). -/
def opExp2 (x : XReal) : XReal × Flags :=
  match x with
  | .nan => (.nan, 0)
  | .inf n => if n then (.fin false 0 0 false, 0) else (.inf false, 0)
  | .fin n m e _ => (xexp2 n m e, 0)

/-- log2 A' (R136). -/
def opLog2 (x : XReal) : XReal × Flags :=
  match x with
  | .nan => (.nan, 0)
  | .inf n => if n then (.nan, flagNV) else (.inf false, 0)
  | .fin n m e _ => if m = 0 then (.inf true, flagDZ) else if n then (.nan, flagNV) else (xlog2 m e, 0)

/-! ## Conditions (R72, R131) -/

/-- An integer condition on two words of any width (R72). -/
def icond (n : Nat) (a b : BitVec w) : Bool :=
  match n with
  | 0 => decide (a = b)
  | 1 => decide (a ≠ b)
  | 2 => decide (a.toInt < b.toInt)
  | 3 => decide (a.toInt ≤ b.toInt)
  | 4 => decide (a.toInt > b.toInt)
  | 5 => decide (a.toInt ≥ b.toInt)
  | 6 => decide (a.toNat < b.toNat)
  | 7 => decide (a.toNat ≤ b.toNat)
  | 8 => decide (a.toNat > b.toNat)
  | _ => decide (a.toNat ≥ b.toNat)

/-- An F32 condition (R131). -/
def fcond (n : Nat) (a b : XReal) : Bool :=
  if a = .nan ∨ b = .nan then decide (n = 1 ∨ n = 7)
  else
    let c := xcmp a b
    match n with
    | 0 => decide (c = 0)
    | 1 => decide (c ≠ 0)
    | 2 => decide (c < 0)
    | 3 => decide (c ≤ 0)
    | 4 => decide (c > 0)
    | 5 => decide (c ≥ 0)
    | 6 => true
    | _ => false

/-! ## Conversions (R38 to R46, R73, R140 to R142) -/

/-- The floating format of a CVT code (R73). -/
def cvtFmt (n : Nat) : Option Fmt :=
  match n with
  | 0 => some .f32 | 1 => some .f16 | 2 => some .bf16 | 3 => some .f8a | 4 => some .f8b
  | _ => none

/-- Width, and least and greatest value, of an integer CVT code (R73). -/
def cvtInt (n : Nat) : Option (Nat × Int × Int) :=
  match n with
  | 7 => some (32, loI32, hiI32)
  | 8 => some (32, 0, hiN32)
  | 9 => some (16, -32768, 32767)
  | 10 => some (16, 0, 65535)
  | 11 => some (8, -128, 127)
  | 12 => some (8, 0, 255)
  | _ => none

/-- The integer a register's low bits hold under an integer code. -/
def cvtSrcInt (n x : Nat) : Int :=
  match n with
  | 7 => (BitVec.ofNat 32 x).toInt
  | 8 => (x % 2 ^ 32 : Nat)
  | 9 => (BitVec.ofNat 16 x).toInt
  | 10 => (x % 2 ^ 16 : Nat)
  | 11 => (BitVec.ofNat 8 x).toInt
  | _ => (x % 2 ^ 8 : Nat)

/-- The real a register's low bits hold under a floating, L6 or E8M0 code (R140). -/
def cvtSrcReal (n x : Nat) : XReal :=
  match n with
  | 0 => Fmt.f32.decode (x % 2 ^ 32)
  | 1 => Fmt.f16.decode (x % 2 ^ 16)
  | 2 => Fmt.bf16.decode (x % 2 ^ 16)
  | 3 => Fmt.f8a.decode (x % 2 ^ 8)
  | 4 => Fmt.f8b.decode (x % 2 ^ 8)
  | 5 => l6Value (x % 64)
  | _ => e8Value (x % 256)

/-- A modified real converted to a destination code other than from integer to integer (R140, step 3). -/
def cvtReal (dst : Nat) (md : AMod) (y : XReal) : Nat × Flags :=
  match cvtFmt dst with
  | some fm => finishReal fm .rne md y
  | none =>
    match cvtInt dst with
    | some (w, lo, hi) =>
      let r := toInteger md.mode lo hi (y.scale md.k)
      ((r.1 % 2 ^ w).toNat, r.2)
    | none =>
      if dst = 5 then toL6 md.mode false (y.scale md.k)
      else toE8 (RMode.ofField .rd md.r) (y.scale md.k)

/-- CVT of one lane (R140, R141). -/
def cvtLane (dst src : Nat) (md : AMod) (x : Nat) : Nat × Flags :=
  match cvtInt src with
  | some _ =>
    let v := srcInt md.absA md.negA (cvtSrcInt src x)
    match cvtInt dst with
    | some (w, lo, hi) => (finishInt md.mode md lo hi w v, 0)
    | none => cvtReal dst md (XReal.ofInt v)
  | none => cvtReal dst md (srcReal md.absA md.negA (cvtSrcReal src x))

/-- A real divided by 2^(s − 127); NaN under scale 0xFF (R45). -/
def unscale (sc : Nat) (x : XReal) : XReal := if sc = 0xFF then .nan else x.scale (127 - (sc : Int))
/-- A real times 2^(s − 127); NaN under scale 0xFF (R45). -/
def rescale (sc : Nat) (x : XReal) : XReal := if sc = 0xFF then .nan else x.scale ((sc : Int) - 127)

end Sys2Proof.Machine
end

