-- ==== Sys2Proof/Machine/Convert.lean ====
section
/-! DEFINITION. Elements of matrix and copy data: their sizes, what codes stand for, block scales, and conversion under a scale (R38, R43, R45,
R46, R215, R218, R244, R245). -/

namespace Sys2Proof.Machine

/-- Elements of a block for a block code (R215, R242). -/
def blockLen (c : Nat) : Nat := match c with | 0 => 0 | 1 => 16 | 2 => 32 | _ => 64

/-- The value of a code of a format. -/
def elemValue (f x : Nat) : XReal :=
  if f = 11 then XReal.ofInt (BitVec.ofNat 8 x).toInt else cvtSrcReal f x

/-- Whether a format carries scales when a block length is given. -/
def scaledFmt (f : Nat) : Bool := decide (f = 3 ∨ f = 4 ∨ f = 5)

/-- The largest exponent a block's scale leaves room for (R46). -/
def emaxOf (f : Nat) : Nat := match f with | 3 => 8 | 4 => 15 | _ => 3

/-- The exponent of a magnitude: floor of its logarithm. -/
def floorLog (m : Nat) (e : Int) : Int := e + bitLen m - 1

/-- The largest exponent among a block's finite non-zero values; none when all are zero. -/
def blockExp : List XReal → Option Int
  | [] => none
  | .fin _ m e _ :: l =>
    if m = 0 then blockExp l
    else match blockExp l with
      | some x => some (max x (floorLog m e))
      | none => some (floorLog m e)
  | _ :: l => blockExp l

/-- The scale of a block and the flags of its clamp (R46). -/
def blockScale (f : Nat) (l : List XReal) : Nat × Flags :=
  if l.any (fun x => match x with | .fin _ _ _ _ => false | _ => true) then (0xFF, 0)
  else match blockExp l with
    | none => (127, 0)
    | some e =>
      let s := e - emaxOf f + 127
      if s < 0 then (0, flagUF ||| flagNX) else if s > 254 then (254, flagOF ||| flagNX) else (s.toNat, 0)

/-- A value converted to a format under a scale: F8 always saturates; within a block a saturation raises no flag (R45, R46). -/
def toElem (f : Nat) (inBlock : Bool) (sc : Nat) (x : XReal) : Nat × Flags :=
  let quiet (r : Nat × Flags) : Nat × Flags := if inBlock ∧ r.2 &&& flagOF ≠ 0 then (r.1, 0) else r
  match f with
  | 3 => quiet (finishReal .f8a .rne { AMod.none with sat := true } (unscale sc x))
  | 4 => quiet (finishReal .f8b .rne { AMod.none with sat := true } (unscale sc x))
  | 5 => quiet (toL6 .rne (decide (sc = 0xFF)) (unscale sc x))
  | 11 => let r := toInteger .rne (-128) 127 x; ((r.1 % 256).toNat, r.2)
  | 0 => finishReal .f32 .rne AMod.none x
  | 1 => finishReal .f16 .rne AMod.none x
  | _ => finishReal .bf16 .rne AMod.none x

/-- A list cut into pieces of n, at most k of them. -/
def pieces {α : Type} (n : Nat) : Nat → List α → List (List α)
  | 0, _ => []
  | k + 1, l => if l.isEmpty then [] else l.take n :: pieces n k (l.drop n)

/-- A row of values converted: the codes with their flags, and the scales of its blocks. A block length of 0 means no scales. -/
def convertRow (f bl : Nat) (xs : List XReal) : List (Nat × Flags) × List Nat :=
  if bl = 0 ∨ !scaledFmt f then (xs.map (toElem f false 127), [])
  else
    let bs := (pieces bl xs.length xs).map (fun b =>
      let s := blockScale f b
      (b.map (fun x => let r := toElem f true s.1 x; (r.1, r.2 ||| s.2)), s.1))
    (bs.flatMap Prod.fst, bs.map Prod.snd)

end Sys2Proof.Machine
end

