-- ==== Sys2Proof/Machine/Layout.lean ====
section
/-! DEFINITION. Copy entries and layout programs as functions on rows of elements: the fields of an entry, the steps of a program, the shapes
they need, and the bytes a destination row takes (R242 to R247). -/

namespace Sys2Proof.Machine

/-! ## Entries (R242) -/

/-- The fields of a copy entry. -/
structure CopyRec where
  sspace : Nat
  saddr : Nat
  dspace : Nat
  daddr : Nat
  rows : Nat
  cols : Nat
  spitch : Nat
  dpitch : Nat
  stamp : Int
  slack : Nat
  lp : Bool
  lpi : Nat
  sfmt : Nat
  dfmt : Nat
  scope : Nat
  blk : Nat
  zero : Bool
  deriving DecidableEq, Repr

/-- An entry's fields from its four words; zero says that its reserved fields are zero. -/
def CopyRec.of (ws : List W64) : CopyRec :=
  let w (i : Nat) : Nat := (ws.getD i 0).toNat
  { sspace := bits (w 0) 63 60, saddr := bits (w 0) 53 0, dspace := bits (w 1) 63 60, daddr := bits (w 1) 53 0,
    rows := bits (w 2) 63 52 + 1, cols := bits (w 2) 51 36 + 1, spitch := 16 * bits (w 2) 35 18, dpitch := 16 * bits (w 2) 17 0,
    stamp := (BitVec.ofNat 24 (bits (w 3) 63 40)).toInt, slack := bits (w 3) 39 28, lp := bit (w 3) 27, lpi := bits (w 3) 26 23,
    sfmt := bits (w 3) 22 19, dfmt := bits (w 3) 18 15, scope := bits (w 3) 14 12, blk := bits (w 3) 11 10,
    zero := decide (bits (w 0) 59 54 = 0 ∧ bits (w 1) 59 54 = 0 ∧ bits (w 3) 9 0 = 0) }

/-- Whether the source, and the destination, carry block scales (R244). -/
def CopyRec.scaledSrc (c : CopyRec) : Bool := decide (c.blk ≠ 0) && scaledFmt c.sfmt
def CopyRec.scaledDst (c : CopyRec) : Bool := decide (c.blk ≠ 0) && scaledFmt c.dfmt
/-- The address of the sequence stamp. -/
def CopyRec.stampAt (c : CopyRec) : Int := (c.daddr : Int) + 8 * c.stamp
/-- Formats a copy knows (R243). -/
def copyFmt (f : Nat) : Bool := decide (f ≤ 5 ∨ f = 11)

/-! ## Layout programs (R246, R247) -/

/-- A step of a layout program. -/
inductive LStep where
  | transpose
  | tile (p q : Nat)
  | interleave (g : Nat)
  | split (g : Nat)
  | pad (c : Nat)
  | swizzle (m : Nat)
  | convert
  | scale (k : Int)
  deriving DecidableEq, Repr

/-- A step from its image, none where its parameters or its operation are not as R247 says. -/
def LStep.of (w : Nat) : Option LStep :=
  let p1 := bits w 31 16
  let p2 := bits w 15 0
  match bits w 63 60 with
  | 1 => if p1 = 0 ∧ p2 = 0 then some .transpose else none
  | 2 => if 1 ≤ p1 ∧ 1 ≤ p2 then some (.tile p1 p2) else none
  | 3 => if 1 ≤ p1 then some (.interleave p1) else none
  | 4 => if 1 ≤ p1 then some (.split p1) else none
  | 5 => some (.pad (p1 + 1))
  | 6 => if p1 = 0 ∧ bits p2 15 3 = 0 then some (.swizzle (bits p2 2 0)) else none
  | 7 => if p1 = 0 ∧ p2 = 0 then some .convert else none
  | 8 => if p1 = 0 ∧ bits p2 15 8 = 0 then some (.scale (BitVec.ofNat 8 p2).toInt) else none
  | _ => none

/-- The steps of an image up to its first END. -/
def layoutSteps : List W64 → Option (List LStep)
  | [] => some []
  | w :: l =>
    if bits w.toNat 63 60 = 0 then (if bits w.toNat 31 0 = 0 then some [] else none)
    else match LStep.of w.toNat, layoutSteps l with
      | some x, some r => some (x :: r)
      | _, _ => none

/-- Whether an image is one that LPROG loads (R246, R262). -/
def imageOk (ws : List W64) : Bool :=
  let ops := ws.map (fun w => bits w.toNat 63 60)
  ws.all (fun w => decide (bits w.toNat 59 32 = 0)) && ops.all (fun o => decide (o ≤ 8))
    && (ws.dropWhile (fun w => decide (bits w.toNat 63 60 ≠ 0))).tail.all (fun w => decide (w = 0))
    && decide ((ops.filter (fun o => decide (o = 7))).length ≤ 1)

/-- The shape a step makes of r rows and c columns of elements of es bytes, none where its requirement fails. -/
def LStep.shape (es : Nat) (r c : Nat) : LStep → Option (Nat × Nat)
  | .transpose => some (c, r)
  | .tile p q => if r % p = 0 ∧ c % q = 0 then some (r * c / (p * q), p * q) else none
  | .interleave g => if c % (2 * g) = 0 then some (r, c) else none
  | .split g => if c % (2 * g) = 0 then some (r, c) else none
  | .pad c1 => if c ≤ c1 then some (r, c1) else none
  | .swizzle m => if c * es % (16 * 2 ^ m) = 0 then some (r, c) else none
  | .convert => some (r, c)
  | .scale _ => some (r, c)

/-- Where an output position of a step comes from, none for a padded one. -/
def LStep.back (es : Nat) (c : Nat) (i j : Nat) : LStep → Option (Nat × Nat)
  | .transpose => some (j, i)
  | .tile p q => let n := c / q; some (i / n * p + j / q, i % n * q + j % q)
  | .interleave g =>
    let y := j % (2 * g)
    some (i, if y < g then g * (j / (2 * g)) + y else c / 2 + g * (j / (2 * g)) + y - g)
  | .split g =>
    let h := c / 2
    some (i, if j < h then 2 * g * (j / g) + j % g else 2 * g * ((j - h) / g) + g + (j - h) % g)
  | .pad _ => if j < c then some (i, j) else none
  | .swizzle m => some (i, j ^^^ (16 / es * (i % 2 ^ m)))
  | .convert => some (i, j)
  | .scale _ => some (i, j)

/-- The element size at a point of a program. -/
def CopyRec.es (c : CopyRec) (conv : Bool) : Nat := elemBytes (if conv then c.dfmt else c.sfmt)

/-- The shape of the result: under a layout program every intermediate array and the result have at most 2^20 elements. -/
def CopyRec.shape (c : CopyRec) : List LStep → Bool → Nat → Nat → Option (Nat × Nat)
  | [], _, r, k => if c.lp ∧ 2 ^ 20 < r * k then none else some (r, k)
  | s :: l, conv, r, k =>
    match s.shape (c.es conv) r k with
    | none => none
    | some (r1, k1) => if 2 ^ 20 < r1 * k1 then none else c.shape l (conv || decide (s = .convert)) r1 k1

/-- The source position of a result's element, none for a padded one. -/
def CopyRec.origin (c : CopyRec) : List LStep → Bool → Nat → Nat → Nat → Nat → Option (Nat × Nat)
  | [], _, _, _, i, j => some (i, j)
  | s :: l, conv, r, k, i, j =>
    match s.shape (c.es conv) r k with
    | none => none
    | some (r1, k1) => (c.origin l (conv || decide (s = .convert)) r1 k1 i j).bind (fun p => s.back (c.es conv) k p.1 p.2)

/-- The scale steps before the conversion point, and those after it. -/
def scalesOf : List LStep → List Int × List Int
  | [] => ([], [])
  | .convert :: l => ([], (scalesOf l).1 ++ (scalesOf l).2)
  | .scale k :: l => (k :: (scalesOf l).1, (scalesOf l).2)
  | _ :: l => scalesOf l

/-! ## Elements and rows (R244, R245) -/

/-- Where a source element and its scale byte lie (R244); a source row whose length is no multiple of the block begins its next row's scales with a new
byte (DESIGN CHOICE, log entry 95). -/
def CopyRec.srcAt (c : CopyRec) (r k : Nat) : Nat := c.saddr + c.spitch * r + k * elemBytes c.sfmt
def CopyRec.srcScaleAt (c : CopyRec) (r k : Nat) : Nat :=
  let bl := blockLen c.blk
  c.saddr + c.spitch * c.rows + r * ((c.cols + bl - 1) / bl) + k / bl

/-- A source element's code. -/
def CopyRec.code (c : CopyRec) (byte : Nat → Nat) (r k : Nat) : Nat :=
  (List.range (elemBytes c.sfmt)).foldl (fun x i => x + 256 ^ i * byte (c.srcAt r k + i)) 0

/-- A source element's value under its scale. -/
def CopyRec.value (c : CopyRec) (byte : Nat → Nat) (r k : Nat) : XReal :=
  let x := elemValue c.sfmt (c.code byte r k)
  if c.scaledSrc then rescale (byte (c.srcScaleAt r k)) x else x

/-- Codes of a row as values, under the scales of its blocks. -/
def CopyRec.values (c : CopyRec) (codes scales : List Nat) : List XReal :=
  (codes.zipIdx).map (fun x =>
    let v := elemValue c.dfmt x.1
    if c.scaledDst then rescale (scales.getD (x.2 / blockLen c.blk) 127) v else v)

/-- A result's row i of n elements: its codes and the scales of its blocks. Equal formats with no SCALE step copy bits (R33, R245). -/
def CopyRec.row (c : CopyRec) (steps : List LStep) (byte : Nat → Nat) (n i : Nat) : List Nat × List Nat :=
  let src := (List.range n).map (fun j => c.origin steps false c.rows c.cols i j)
  let (pre, post) := scalesOf steps
  if c.sfmt = c.dfmt ∧ pre.isEmpty ∧ post.isEmpty then
    (src.map (fun p => match p with
      | some (r, k) => c.code byte r k
      | none => 0), [])
  else
    let xs := src.map (fun p => match p with
      | some (r, k) => (c.value byte r k).scale (pre.foldl (· + ·) 0)
      | none => .fin false 0 0 false)
    let bl := if c.scaledDst then blockLen c.blk else 0
    let once (vs : List XReal) : List Nat × List Nat := let r := convertRow c.dfmt bl vs; (r.1.map Prod.fst, r.2)
    post.foldl (fun r k => once ((c.values r.1 r.2).map (XReal.scale k))) (once xs)

/-- The bytes of a row's codes. -/
def CopyRec.rowBytes (c : CopyRec) (codes : List Nat) : List Byte := codes.flatMap (fun x => Bytes.ofNat (elemBytes c.dfmt) x)

/-! ## The destination in the order of R250 -/

/-- Bytes of the result's rows, and of all that is written but the stamp. -/
def CopyRec.payload (c : CopyRec) (r k : Nat) : Nat := r * k * elemBytes c.dfmt
def CopyRec.total (c : CopyRec) (r k : Nat) : Nat := c.payload r k + (if c.scaledDst then r * (k / blockLen c.blk) else 0)

/-- The address of the destination byte at an offset, and how many bytes follow in its row (R244, R250). -/
def CopyRec.destAt (c : CopyRec) (r k o : Nat) : Nat × Nat :=
  let rb := k * elemBytes c.dfmt
  if o < c.payload r k then (c.daddr + c.dpitch * (o / rb) + o % rb, rb - o % rb)
  else (c.daddr + c.dpitch * r + (o - c.payload r k), c.total r k - o)

/-- Whether the entry writes bytes of a line again in a later row, or in its scales (R158): the line of the part at an offset. -/
def CopyRec.targetsLater (c : CopyRec) (r k o : Nat) : Bool :=
  let a := (c.destAt r k o).1
  decide (o < c.payload r k)
    && (((List.range r).filter (fun i => decide (o / (k * elemBytes c.dfmt) < i))).any (fun i =>
          overlap (c.daddr + c.dpitch * i) (k * elemBytes c.dfmt) (a / 128 * 128) 128)
      || (c.scaledDst && overlap (c.daddr + c.dpitch * r) (r * (k / blockLen c.blk)) (a / 128 * 128) 128))

/-- The part of a line from an offset on: its address and length. -/
def CopyRec.chunk (c : CopyRec) (r k o : Nat) : Nat × Nat :=
  let (a, n) := c.destAt r k o
  (a, min n (128 - a % 128))

/-- The bytes of a part, from the rows that it takes. -/
def CopyRec.chunkBytes (c : CopyRec) (row : Nat → List Nat × List Nat) (r k o n : Nat) : List Byte :=
  let rb := k * elemBytes c.dfmt
  if o < c.payload r k then ((c.rowBytes (row (o / rb)).1).drop (o % rb)).take n
  else
    let per := k / blockLen c.blk
    (List.range n).map (fun x =>
      let q := o - c.payload r k + x
      BitVec.ofNat 8 ((row (q / per)).2.getD (q % per) 0))

/-- The ranges of source bytes that an element of a result's row i of n elements takes, with those of its block where the block is scaled (R46, R399). -/
def CopyRec.takes (c : CopyRec) (steps : List LStep) (n i j : Nat) : List (Nat × Nat) :=
  let bl := if c.scaledDst then blockLen c.blk else 1
  (List.range bl).flatMap (fun x =>
    if j / bl * bl + x < n then
      (match c.origin steps false c.rows c.cols i (j / bl * bl + x) with
        | some (r, k) => (c.srcAt r k, elemBytes c.sfmt) :: (if c.scaledSrc then [(c.srcScaleAt r k, 1)] else [])
        | none => [])
    else [])

/-- The ranges of source bytes that a part of n bytes at an offset takes. -/
def CopyRec.chunkTakes (c : CopyRec) (steps : List LStep) (r k o n : Nat) : List (Nat × Nat) :=
  let es := elemBytes c.dfmt
  let rb := k * es
  if o < c.payload r k then
    ((List.range ((n + es - 1) / es)).filter (fun x => decide (o % rb / es + x < k))).flatMap (fun x => c.takes steps k (o / rb) (o % rb / es + x))
  else
    let per := k / blockLen c.blk
    (List.range n).flatMap (fun x =>
      let q := o - c.payload r k + x
      c.takes steps k (q / per) (q % per * blockLen c.blk))

/-- Byte ranges of the source and of the destination, by address in their spaces. -/
def CopyRec.srcRanges (c : CopyRec) : List (Nat × Nat) :=
  (List.range (if c.spitch = 0 then 1 else c.rows)).map (fun r => (c.srcAt r 0, c.cols * elemBytes c.sfmt))
    ++ (if c.scaledSrc then [(c.srcScaleAt 0 0, c.rows * ((c.cols + blockLen c.blk - 1) / blockLen c.blk))] else [])
def CopyRec.dstRanges (c : CopyRec) (r k : Nat) : List (Nat × Nat) :=
  (List.range r).map (fun i => (c.daddr + c.dpitch * i, k * elemBytes c.dfmt))
    ++ (if c.scaledDst then [(c.daddr + c.dpitch * r, r * (k / blockLen c.blk))] else [])

/-- Lines of 128 bytes of the source that a result's row i needs: its own source row's without a program, else all. -/
def CopyRec.linesFor (c : CopyRec) (steps : List LStep) (i : Nat) : List Nat :=
  if steps.isEmpty then
    linesOf (c.srcAt i 0) (c.cols * elemBytes c.sfmt)
      ++ (if c.scaledSrc then linesOf (c.srcScaleAt i 0) ((c.cols + blockLen c.blk - 1) / blockLen c.blk) else [])
  else (c.srcRanges.flatMap (fun r => linesOf r.1 r.2)).eraseDups

/-! ## Checks at acceptance (R243, R244, R252) -/

/-- Whether a range lies in its space: extents of S and C are given (R144). -/
def inSpace (sp a n sExt cExt : Nat) : Bool :=
  match sp with
  | 0 => decide (a + n ≤ 2 ^ 54)
  | 1 => decide (a + n ≤ sExt)
  | 2 => decide (a + n ≤ cExt)
  | 3 => decide (a + n ≤ 2 ^ 27)
  | _ => false

/-- Whether the stamp's address passes the checks that need no translation. -/
def CopyRec.stampOk (c : CopyRec) (ranges : List (Nat × Nat)) (sExt cExt : Nat) : Bool :=
  decide (0 ≤ c.stampAt ∧ c.stampAt % 8 = 0) && inSpace c.dspace c.stampAt.toNat 8 sExt cExt
    && !(ranges.any (fun r => overlap r.1 r.2 c.stampAt.toNat 8))

/-- The first check of R243 and R244 that an entry fails, as its code of R252; translation apart. steps is none where the layout
program is not one, or is another world's. -/
def CopyRec.failCode (c : CopyRec) (steps : Option (List LStep)) (sExt cExt : Nat) : Option Nat :=
  if !c.zero ∨ 3 < c.sspace ∨ 3 < c.dspace ∨ 5 < c.scope ∨ !copyFmt c.sfmt ∨ !copyFmt c.dfmt then some 1
  else if c.blk ≠ 0 ∧ (c.sfmt = c.dfmt ∨ !(scaledFmt c.sfmt ∨ scaledFmt c.dfmt)) then some 1
  else match steps with
    | none => some 7
    | some st =>
      match c.shape st false c.rows c.cols with
      | none => some 7
      | some (r, k) =>
        if c.blk ≠ 0 ∧ k % blockLen c.blk ≠ 0 then some 1
        else if 1 < c.rows ∧ c.dpitch < k * elemBytes c.dfmt then some 1
        else if c.saddr % elemBytes c.sfmt ≠ 0 ∨ c.daddr % elemBytes c.dfmt ≠ 0 ∨ c.stampAt % 8 ≠ 0 then some 5
        else if 0 ≤ c.stampAt ∧ (c.dstRanges r k).any (fun x => overlap x.1 x.2 c.stampAt.toNat 8) then some 1
        else if !(c.srcRanges.all (fun x => inSpace c.sspace x.1 x.2 sExt cExt))
            ∨ !((c.dstRanges r k).all (fun x => inSpace c.dspace x.1 x.2 sExt cExt))
            ∨ c.stampAt < 0 ∨ !inSpace c.dspace c.stampAt.toNat 8 sExt cExt then some 4
        else none

end Sys2Proof.Machine
end

