-- ==== Sys2Proof/Machine/LineCode.lean ====
section
/-! DEFINITION. How an L2 slice encodes a line (R156), and which lines may share a frame (R157). The encodings change capacity and timing only
(R28), so that no step of the machine reads them: decoding restores every byte. -/

namespace Sys2Proof.Machine

/-- The elements of a line, some bytes each, little-endian. -/
def lineElements (size : Nat) (bs : List Byte) : List Nat := (List.range (128 / size)).map (fun i => Bytes.toNat ((bs.drop (size * i)).take size))

/-- Whether every element lies within a signed delta of the first, modulo the element width. -/
def deltasFit (size delta : Nat) (bs : List Byte) : Bool :=
  let es := lineElements size bs
  es.all (fun x => let d := (x + 256 ^ size - es.headD 0) % 256 ^ size; decide (d < 256 ^ delta / 2 ∨ 256 ^ size - 256 ^ delta / 2 ≤ d))

/-- Element and delta bytes of the codes with deltas. -/
def deltaShape (code : Nat) : Option (Nat × Nat) := match code with
  | 2 => some (8, 1) | 3 => some (8, 2) | 4 => some (8, 4) | 5 => some (4, 1) | 6 => some (4, 2)
  | _ => none

/-- Whether an encoding fits a line. -/
def lineFits (bs : List Byte) (code : Nat) : Bool := match deltaShape code with
  | some (size, delta) => deltasFit size delta bs
  | none =>
    if code = 0 then bs.all (fun b => decide (b = 0))
    else if code = 1 then (lineElements 8 bs).all (fun x => decide (x = (lineElements 8 bs).headD 0))
    else decide (code = 7)

/-- Bytes an encoding takes. -/
def lineSize (code : Nat) : Nat := match deltaShape code with
  | some (size, delta) => size + 128 / size * delta
  | none => match code with | 0 => 0 | 1 => 8 | _ => 128

/-- The encodings in order of stored size. -/
def lineOrder : List Nat := [0, 1, 2, 5, 3, 6, 4, 7]

/-- The code a slice gives a line: of those that fit, the one of least size. -/
def lineCode (bs : List Byte) : Nat := (lineOrder.find? (lineFits bs)).getD 7

/-- The bytes stored for a line under a code: nothing, one element, the first element and the deltas, or the line. -/
def lineStored (bs : List Byte) (code : Nat) : List Byte := match deltaShape code with
  | some (size, delta) =>
    let es := lineElements size bs
    bs.take size ++ es.flatMap (fun x => Bytes.ofNat delta ((x + 256 ^ size - es.headD 0) % 256 ^ size))
  | none => match code with | 0 => [] | 1 => bs.take 8 | _ => bs

/-- The line that stored bytes stand for. -/
def lineRestored (stored : List Byte) (code : Nat) : List Byte := match deltaShape code with
  | some (size, delta) =>
    let base := Bytes.toNat (stored.take size)
    (List.range (128 / size)).flatMap (fun i =>
      let d := Bytes.toNat ((stored.drop (size + delta * i)).take delta)
      let signed := if d < 256 ^ delta / 2 then d else d + 256 ^ size - 256 ^ delta
      Bytes.ofNat size ((base + signed) % 256 ^ size))
  | none => match code with | 0 => List.replicate 128 0 | 1 => (List.replicate 16 (stored.take 8)).flatten | _ => stored

/-- Whether a line of a code may share a frame with another of its set (R157). -/
def lineShares (code : Nat) : Bool := decide (lineSize code ≤ 64)

end Sys2Proof.Machine
end

