-- ==== Sys2Proof/Machine/Codes.lean ====
section
/-! DEFINITION. The Reed-Solomon codes of HBM: the field, encoding, bounded-distance decoding, and where a frame's granule puts the bytes of an
access in its codewords (R278, R279). -/

namespace Sys2Proof.Machine

/-! ## GF(2^8) under 0x11D (R279) -/

/-- A field element times α. -/
def gfDouble (x : Nat) : Nat := let y := 2 * x; if y < 256 then y else (y - 256) ^^^ 0x1D
/-- A product, over the low n bits of the first factor. -/
def gfMulGo : Nat → Nat → Nat → Nat
  | 0, _, _ => 0
  | n + 1, x, y => (if x % 2 = 1 then y else 0) ^^^ gfMulGo n (x / 2) (gfDouble y)
def gfMul (x y : Nat) : Nat := gfMulGo 8 x y
/-- A power of α. -/
def gfExp : Nat → Nat
  | 0 => 1
  | n + 1 => gfDouble (gfExp n)
/-- The inverse of a non-zero element: its 254th power. -/
def gfInv (x : Nat) : Nat := (List.range 253).foldl (fun p _ => gfMul p x) x
/-- A polynomial, highest degree first, at a point. -/
def gfEval (p : List Nat) (x : Nat) : Nat := p.foldl (fun a c => gfMul a x ^^^ c) 0

/-! ## Encoding -/

/-- The generator with n roots α^0 .. α^(n−1), highest degree first. -/
def rsGen : Nat → List Nat
  | 0 => [1]
  | n + 1 =>
    let g := rsGen n
    let r := gfExp n
    ((g ++ [0]).zip (0 :: g.map (gfMul r))).map (fun (p : Nat × Nat) => p.1 ^^^ p.2)

/-- One step of the division that leaves the check symbols. -/
def rsShift (gen : List Nat) (rem : List Nat) (x : Nat) : List Nat :=
  let f := (rem.headD 0) ^^^ x
  ((rem.tail ++ [0]).zip (gen.tail.map (gfMul f))).map (fun (p : Nat × Nat) => p.1 ^^^ p.2)

/-- The n check symbols of some data. -/
def rsCheck (n : Nat) (data : List Nat) : List Nat := data.foldl (rsShift (rsGen n)) (List.replicate n 0)

/-! ## Decoding: Berlekamp-Massey, then error places and values -/

/-- The n syndromes of a word. -/
def rsSyndromes (n : Nat) (w : List Nat) : List Nat := (List.range n).map (fun i => gfEval w (gfExp i))

/-- Two polynomials, lowest degree first, added. -/
def gfAdd : List Nat → List Nat → List Nat
  | [], q => q
  | p, [] => p
  | a :: p, b :: q => (a ^^^ b) :: gfAdd p q

/-- The state of the search for the error locator: locator, the one before, its length, shift and last discrepancy. -/
structure Locator where
  c : List Nat
  b : List Nat
  len : Nat
  m : Nat
  last : Nat

/-- One step, for syndrome i. -/
def Locator.step (syn : List Nat) (x : Locator) (i : Nat) : Locator :=
  let d := (List.range (x.len + 1)).foldl (fun a j => if j ≤ i then a ^^^ gfMul (x.c.getD j 0) (syn.getD (i - j) 0) else a) 0
  if d = 0 then { x with m := x.m + 1 }
  else
    let k := gfMul d (gfInv x.last)
    let c1 := gfAdd x.c (List.replicate x.m 0 ++ x.b.map (gfMul k))
    if 2 * x.len ≤ i then { c := c1, b := x.c, len := i + 1 - x.len, m := 1, last := d }
    else { x with c := c1, m := x.m + 1 }

/-- The error locator of some syndromes, lowest degree first, and its length. -/
def rsLocator (syn : List Nat) : List Nat × Nat :=
  let r := (List.range syn.length).foldl (Locator.step syn) { c := [1], b := [1], len := 0, m := 1, last := 1 }
  (r.c.take (r.len + 1), r.len)

/-- Decoding a word with n check symbols (R279): at most n / 2 wrong symbols are corrected; with more, where no such codeword is near, the
decoder's answer is free (Config.rsBeyond, log entry 10). none says that it cannot resolve the word. -/
def rsDecode (n : Nat) (w : List Nat) : Option (List Nat) :=
  let syn := rsSyndromes n w
  if syn.all (fun s => decide (s = 0)) then some w
  else
    let (loc, len) := rsLocator syn
    let size := w.length
    let bad := (List.range size).filter (fun i => decide (gfEval loc.reverse (gfInv (gfExp (size - 1 - i))) = 0))
    let omega := (List.range n).map (fun i => (List.range (i + 1)).foldl (fun a j => a ^^^ gfMul (loc.getD j 0) (syn.getD (i - j) 0)) 0)
    let deriv := (loc.zipIdx).map (fun (p : Nat × Nat) => if p.2 % 2 = 1 then p.1 else 0)
    let fix (i : Nat) : Nat :=
      let x := gfExp (size - 1 - i)
      let xi := gfInv x
      let den := gfEval (deriv.tail).reverse xi
      gfMul x (gfMul (gfEval omega.reverse xi) (gfInv den))
    let out := (w.zipIdx).map (fun (p : Nat × Nat) => if bad.contains p.2 then p.1 ^^^ fix p.2 else p.1)
    if bad.length = len ∧ 2 * len ≤ n ∧ (rsSyndromes n out).all (fun s => decide (s = 0)) then some out
    else Config.rsBeyond w

/-! ## Codewords of a frame (R278, R279) -/

/-- Bytes of an access of a granule. -/
def granBytes (g : Nat) : Nat := 32 * 2 ^ g
/-- Check symbols of a codeword of a granule. -/
def granCheck (g : Nat) : Nat := match g with | 0 => 4 | 1 => 8 | _ => 16

/-- The codeword that holds a byte: the offsets of its data bytes within the access, in the order of its symbols. -/
def wordBytes (g off : Nat) : List Nat :=
  if g = 3 then (List.range 256).filter (fun j => decide (j % 32 / 16 = off % 32 / 16)) else List.range (granBytes g)

end Sys2Proof.Machine
end

