-- ==== Sys2Proof/Machine/Storage.lean ====
section
/-! DEFINITION. Words of storage that err: which unit and die they lie in, what an access or a movement that decodes one brings about (R396, R397,
R399, R401, R402). -/

namespace Sys2Proof.Machine

/-! ## Lines and units -/

/-- The number of a line in the tables of lines: its address in 128-B units, from 2^48 on for a CXL-attached line. -/
def Loc.line (l : Loc) : Nat := l.a / 128 + (if l.sp = .cxl then 2 ^ 48 else 0)
/-- The place of a numbered line. -/
def lineAt (line : Nat) : Loc := if line < 2 ^ 48 then hbmAt (128 * line) else { sp := .cxl, own := 0, a := 128 * (line - 2 ^ 48) }
/-- The home slice of a physical line on its home die (R155). -/
def homeSlice (pa : Nat) : Nat := bits pa 12 7 ^^^ bits pa 18 13 ^^^ bits pa 24 19 ^^^ bits pa 30 25
/-- The physical core of a logical one, by the die's slot map (R12, R349). -/
def Dev.physCore (d : Dev) (c : Nat) : Nat :=
  dieOf c * 80 + ((d.die (dieOf c)).slotMap.getD (c / 16 % 4) 255) * 16 + c % 16

/-- The world that an error belongs to (R401, R412): the frame's owner, or the latch of the core it lies in. -/
def Dev.errWorld (d : Dev) (x : ErrSite) : Nat :=
  match x.group with
  | some (c, _) => (d.core c).world
  | none =>
    match x.kind with
    | .lane _ => 0
    | .icache c => (d.core c).world
    | _ => ((d.frame (x.pa / 65536)).world).getD 0

/-- The die whose test queue takes a site (R397): that of the unit or of the row; ports are shared out evenly (log entry 26). -/
def Dev.errDie (d : Dev) (x : ErrSite) : Nat :=
  match x.kind with
  | .hbm => d.homeDie x.pa
  | .lane _ => x.unit / 18
  | .icache c => dieOf c
  | .sram => match x.cls with
    | 2 => x.unit / 68
    | 3 => x.unit / 18
    | _ => x.unit / 80

/-- The place of a unit's count of corrected errors. -/
def siteCount (x : ErrSite) : Nat := x.cls * 1024 + x.unit

/-- A corrected error is counted and logged, and a test of its site is queued while its die's queue has room (R396, R397). -/
def Dev.corrected (d : Dev) (x : ErrSite) : Dev :=
  let d1 := d.logError 1 x.cls x.unit x.pa (d.errWorld x)
  let d2 : Dev := { d1 with logCounts := Tab.insert d1.logCounts (siteCount x) (Tab.get 0 d1.logCounts (siteCount x) + 1) }
  d2.modDie (d2.errDie x) (fun k => { k with tests := if k.tests.length < 256 then k.tests ++ [x] else k.tests })

/-- An uncorrectable error is reported: found by an access, or by a movement of its line, which leaves a deferred record (R396, R401). -/
def Dev.reported (d : Dev) (x : ErrSite) : Dev := d.logError (if x.moved then 3 else 2) x.cls x.unit x.pa (d.errWorld x)

/-! ## What DIAGST left (R279, R402) -/

/-- The class and index of the unit a stored word lies in: its core's record, that of its home slice, and 0 for HBM (log entry 26). -/
def Dev.rawUnit (d : Dev) (r : Raw) : Nat × Nat :=
  if r.array ≤ 5 then (0, d.physCore r.inst)
  else if r.array ≤ 7 then (2, 68 * r.inst + (match r.loc with
    | some x => homeSlice x.a
    | none => 0))
  else (0, 0)

/-- The site of a stored word, met by an access or by a movement of its line. -/
def Dev.rawSite (d : Dev) (r : Raw) (moved : Bool) : ErrSite :=
  { cls := (d.rawUnit r).1, unit := (d.rawUnit r).2, kind := if r.array ≤ 7 then .sram else .hbm,
    pa := (match r.loc with
      | some x => if x.sp = .hbm then x.a else r.addr
      | none => r.addr),
    group := if r.array ≤ 5 ∧ r.array ≠ 1 then some (r.inst, 0) else none, moved := moved }

/-- The codeword of HBM that holds a physical address: granule, base of the access, and the addresses of its data bytes (R278, R279). -/
def Dev.codeword (d : Dev) (pa : Nat) : Nat × List Nat :=
  let g := (d.frame (pa / 65536)).gran
  let base := pa / granBytes g * granBytes g
  (g, (wordBytes g (pa - base)).map (fun j => base + j))

/-- Whether an access to a range decodes a stored word for the first time: the word of SRAM, or the codeword that comes in with its line. -/
def Dev.meetsRaw (d : Dev) (l : Loc) (n : Nat) (r : Raw) : Bool :=
  r.pending && (if r.array ≤ 7 then r.holds l n && r.stands d
    else decide (l.sp = .hbm) && (let size := if (d.frame (r.addr / 65536)).gran = 3 then 256 else 128
      overlap (l.a / 128 * 128) (n + l.a % 128) (r.addr / size * size) size))

/-- A stored word decoded by an access or a movement: a word of SRAM that its code corrects is repaired; one that it can make nothing of is reported
(R279, R396, R401). -/
def Dev.decodeRaw (d : Dev) (moved : Bool) (r : Raw) : Dev :=
  let now (x : Raw) : Bool := decide (x.array = r.array ∧ x.inst = r.inst ∧ x.addr = r.addr)
  if r.bad then ({ d with raw := d.raw.map (fun x => if now x then { x with pending := false } else x) }).reported (d.rawSite r moved)
  else ({ d with raw := if r.array ≤ 7 then d.raw.filter (fun x => !now x) else d.raw.map (fun x => if now x then { x with pending := false } else x) }).corrected
    (d.rawSite r moved)

/-- A range of a core's operand or weight buffer read by the array is decoded (R396, R402). -/
def Dev.meetBuf (d : Dev) (core : Nat) (weight : Bool) (base n : Nat) : Dev :=
  (d.raw.filter (fun r => r.pending && decide (r.array = (if weight then 5 else 4) ∧ r.inst = core) && overlap r.addr 8 base n && r.stands d)).foldl
    (fun d r => d.decodeRaw false r) d

/-- An access to a range decodes what is stored there (R279, R396, R402). -/
def Dev.reportRaw (d : Dev) (l : Loc) (n : Nat) : Dev := (d.raw.filter (d.meetsRaw l n)).foldl (fun d r => d.decodeRaw false r) d

/-- A line's movement out of a core's L1 (array 1) or out of L2 (array 6) decodes its words: with one that cannot be corrected it is written on as poisoned,
and the owner has a deferred record (R396, R401). -/
def Dev.moveRaw (d : Dev) (array inst line : Nat) : Dev :=
  let mine (r : Raw) : Bool := decide (r.array = array ∧ (array = 1 → r.inst = inst)) && (match r.loc with
    | some x => decide (x.line = line)
    | none => false)
  if !d.raw.any mine then d
  else
    let ls := d.raw.filter (fun r => mine r && r.stands d)
    let d1 := (ls.filter (fun r => r.bad || r.pending)).foldl (fun d r => d.decodeRaw true r) d
    let d2 := if ls.any (fun r => r.bad) then d1.addPoison (lineAt line) 128 else d1
    { d2 with raw := d2.raw.filter (fun r => !mine r) }

end Sys2Proof.Machine
end

