-- ==== Sys2Proof/Machine/Cache.lean ====
section
/-! DEFINITION. The L1 data caches, the L2 slices and the directory (R151 to R153, R155, R157, R193, R194): which lines they hold, in which state
and in which frame. The bytes themselves stand in memory once; a U copy's partials stand with its core. -/

namespace Sys2Proof.Machine

/-- Whether the L1s hold lines of a place's memory (R151, R177). -/
def Loc.cached (l : Loc) : Bool := decide (l.sp = .hbm ∨ l.sp = .cxl)
/-- The 32-B sectors of its line that a range touches. -/
def sectorsOf (a n : Nat) : BitVec 4 :=
  ((List.range 4).filter (fun i => overlap (a % 128) n (32 * i) 32)).foldl (fun b i => b ||| BitVec.ofNat 4 (2 ^ i)) 0
/-- The sectors that an L1 miss fetches: under G32 the addressed ones, under G64 the addressed halves, else the whole line (R152). -/
def fetchedSectors (gran a n : Nat) : BitVec 4 :=
  let s := sectorsOf a n
  match gran with
  | 0 => s
  | 1 => (if s &&& 3 = 0 then 0 else 3) ||| (if s &&& 12 = 0 then 0 else 12)
  | _ => 15

/-! ## Pseudo-LRU (R151) -/

/-- The set of a line in an L1 of 256 sets of 16 ways (DESIGN CHOICE, log entry 88). -/
def l1Set (line : Nat) : Nat := line % 256
/-- A number with one bit as given. -/
def setBit (b n : Nat) (v : Bool) : Nat := if bit b n = v then b else if v then b + 2 ^ n else b - 2 ^ n
/-- The tree of 15 bits of a set after one way has become the most or the least recent: each bit on the way's path points away from it, or to
it. -/
def plruMark (b way : Nat) (recent : Bool) : Nat :=
  (List.range 4).foldl (fun b k =>
    let dir := decide (way / 2 ^ (3 - k) % 2 = 1)
    setBit b (2 ^ k + way / 2 ^ (4 - k)) (if recent then !dir else dir)) b
/-- The way the tree points to among those that may go: at each node the half it points to, else the other. -/
def plruGo (b : Nat) (ok : Nat → Bool) : Nat → Nat → Nat → Option Nat
  | 0, _, base => if ok base then some base else none
  | n + 1, node, base =>
    let lo := plruGo b ok n (2 * node) base
    let hi := plruGo b ok n (2 * node + 1) (base + 2 ^ n)
    if bit b node then hi.or lo else lo.or hi
/-- The way to replace in a set. -/
def plruPick (b : Nat) (ok : Nat → Bool) : Option Nat := plruGo b ok 4 1 0

/-! ## L2 (R153, R155, R157) -/

/-- The slice of a line, counted over the device, and its set there. -/
def Dev.l2Key (d : Dev) (line : Nat) : Nat := (64 * d.homeDie (128 * line) + homeSlice (128 * line)) * 2 ^ 40 + line % Config.l2Sets
/-- A set without a line; its partner in a shared frame stays. -/
def L2Set.without (x : L2Set) (line : Nat) : L2Set :=
  { frames := (x.frames.map (fun f => f.filter (fun e => decide (e.1 ≠ line)))).filter (fun f => !f.isEmpty)
    order := x.order.filter (fun l => decide (l ≠ line)) }
/-- A frame that a line of at most 64 B may share: one line of at most 64 B stands in it. -/
def shareable (f : List (Nat × Nat)) : Bool :=
  match f with
  | [e] => lineShares e.2
  | _ => false
/-- A line put beside the first that may share its frame. -/
def putBeside (e : Nat × Nat) : List (List (Nat × Nat)) → List (List (Nat × Nat))
  | [] => []
  | f :: l => if shareable f then (f ++ [e]) :: l else f :: putBeside e l
/-- A line that stands in no frame put into one: a shared one where it qualifies, else a free one; with none free the least recent line is
evicted first (R157). -/
def L2Set.place (ways line code : Nat) : Nat → L2Set → L2Set
  | 0, x => x
  | n + 1, x =>
    if lineShares code && x.frames.any shareable then { x with frames := putBeside (line, code) x.frames }
    else if x.frames.length < ways then { x with frames := x.frames ++ [[(line, code)]] }
    else match x.order.getLast? with
      | some v => L2Set.place ways line code n (x.without v)
      | none => x
/-- A line written into its set with an encoding: where it stands, unless it has grown in a shared frame; then it moves (R157). -/
def L2Set.put (ways : Nat) (x : L2Set) (line code : Nat) (recent : Bool) : L2Set :=
  let stays := x.frames.any (fun f => f.any (fun e => decide (e.1 = line)) && (decide (f.length = 1) || lineShares code))
  let x1 :=
    if stays then { x with frames := x.frames.map (fun f => f.map (fun e => if e.1 = line then (line, code) else e)) }
    else L2Set.place ways line code (2 * ways + 1) (x.without line)
  let rest := x1.order.filter (fun l => decide (l ≠ line))
  { x1 with order := if recent then line :: rest else rest ++ [line] }
/-- A line of local memory allocated or written in its home slice, with the encoding of the bytes it now has (R153, R156); the words of the lines that
it evicts are decoded (R401), and the slice's service is counted (R350). -/
def Dev.l2Put (d : Dev) (line : Nat) (recent : Bool) : Dev :=
  if line ≥ 2 ^ 48 then d
  else
    let k := d.l2Key line
    let x := Tab.get { frames := [], order := [] } d.l2 k
    let y := x.put Config.l2Ways line (lineCode (d.readBytes (lineAt line) 128)) recent
    (x.order.filter (fun v => !y.order.contains v)).foldl (fun d v => d.moveRaw 6 0 v)
      ({ d with l2 := Tab.insert d.l2 k y }.addBusy (384 + 64 * d.homeDie (128 * line) + homeSlice (128 * line)) 1)
/-- A line leaves its home slice. -/
def Dev.l2Drop (d : Dev) (line : Nat) : Dev := ({ d with l2 := Tab.modify d.l2 (d.l2Key line) (fun x => x.without line) }).moveRaw 6 0 line
/-- The lines L2 fills for a miss: under G256 the two of its burst (R152). -/
def Dev.l2Fill (d : Dev) (gran line : Nat) (recent : Bool) : Dev :=
  if gran = 3 then (d.l2Put (line / 2 * 2 + (1 - line % 2)) recent).l2Put line recent else d.l2Put line recent

/-! ## L1 (R151 to R153) -/

/-- The lines of tentative data a task holds (R14, R204). -/
def tentLines (t : Task) : List Nat := (t.tent.map (fun c => c.1 / 128)).eraseDups
/-- Whether a line is pinned in a core's L1: a resident task of the core holds tentative stores of it (R151). -/
def Dev.pinned (d : Dev) (core line : Nat) : Bool :=
  d.tasks.any (fun t => decide (t.2.core = core) && !t.2.slots.isEmpty && (tentLines t.2).contains line)
/-- A line leaves a core's L1: its words are decoded, a U copy's partials go home, and a modified line is written back to its home slice (R151, R193,
R401). -/
def Dev.l1Drop (d : Dev) (core line : Nat) : Dev :=
  match Tab.find (d.core core).l1 line with
  | none => d
  | some x =>
    let d0 := d.moveRaw 1 core line
    let d1 := if x.st = .u then d0.combineCore core line else if x.st = .m then d0.l2Put line true else d0
    d1.modCore core (fun k => { k with l1 := Tab.erase k.l1 line })
/-- A line of an L1 put in a state, with sectors, at the most or the least recent position; a line with no way free takes that of the line its
set's bits point to, which is evicted. Where every way is pinned nothing is allocated. -/
def Dev.l1Put (d : Dev) (core line : Nat) (st : LineState) (sectors : BitVec 4) (recent : Bool) : Dev :=
  let set := l1Set line
  let into (d : Dev) (way : Nat) (old : BitVec 4) : Dev := d.modCore core (fun k => { k with
    l1 := Tab.insert k.l1 line { st := st, sectors := old ||| sectors, way := way }
    plru := Tab.set 0 k.plru set (plruMark (Tab.get 0 k.plru set) way recent) })
  match Tab.find (d.core core).l1 line with
  | some x => into d x.way x.sectors
  | none =>
    let here := (d.core core).l1.filter (fun x => decide (l1Set x.1 = set))
    match firstBelow (fun w => here.all (fun x => decide (x.2.way ≠ w))) 16 with
    | some w => into d w 0
    | none =>
      let ok (w : Nat) : Bool := here.any (fun x => decide (x.2.way = w) && !d.pinned core x.1)
      match plruPick (Tab.get 0 (d.core core).plru set) ok with
      | none => d
      | some w => match here.find? (fun x => decide (x.2.way = w)) with
        | some v => into (d.l1Drop core v.1) w 0
        | none => d
/-- Every other core's copy of a line given up (R151). -/
def Dev.recallOthers (d : Dev) (core line : Nat) : Dev :=
  (d.cores.filter (fun c => decide (c.1 ≠ core) && (Tab.find c.2.l1 line).isSome)).foldl (fun d c => d.l1Drop c.1 line) d
/-- Every core's copy of a line given up. -/
def Dev.recallAll (d : Dev) (line : Nat) : Dev :=
  (d.cores.filter (fun c => (Tab.find c.2.l1 line).isSome)).foldl (fun d c => d.l1Drop c.1 line) d
/-- Copies that another core holds for itself become shared, as a line comes into one L1 for reading; a modified one is written back, its words decoded (R401). -/
def Dev.shareOthers (d : Dev) (core line : Nat) : Dev :=
  (d.cores.filter (fun c => decide (c.1 ≠ core))).foldl (fun d c => match Tab.find c.2.l1 line with
    | some x =>
      if x.st = .e ∨ x.st = .m then
        (if x.st = .m then (d.moveRaw 1 c.1 line).l2Put line true else d).modCore c.1 (fun k => { k with l1 := Tab.insert k.l1 line { x with st := .s } })
      else d
    | none => d) d

/-- What the directory knows of a line: the cores whose L1 holds a copy of it, with its state, and the copy engines' channels that hold it, by
cluster (R155, R158). -/
def Dev.directory (d : Dev) (line : Nat) : List (Nat × LineState) × List (Nat × Nat) :=
  (d.cores.filterMap (fun c => (Tab.find c.2.l1 line).map (fun x => (c.1, x.st))),
    d.clusters.flatMap (fun c => (c.2.held.filter (fun h => h.2.contains (lineAt line))).map (fun h => (c.1, h.1))))

/-- Whether a thread access to a place must wait until a copy engine has written the block there (R158): the blocks an engine holds are the
destination blocks of entries that are running, and the directory names their holders. -/
def Dev.engineHolds (d : Dev) (l : Loc) (n : Nat) : Bool :=
  if l.cached then (linesOf l.a n).any (fun x => !(d.directory (({ l with a := 128 * x } : Loc).line)).2.isEmpty)
  else d.clusters.any (fun c => c.2.held.any (fun h => h.2.any (fun x => decide (x.sp = l.sp ∧ x.own = l.own) && overlap x.a 128 l.a n)))

/-- Whether no L1 may hold a line for writing: one with a bound trigger word or an installed window's post word (R285, R321). -/
def Dev.pinnedHome (d : Dev) (line : Nat) : Bool :=
  d.boxes.any (fun b => b.2.bound && decide (b.2.kind = 0 ∧ b.2.trig / 128 = line))
    || d.windows.any (fun w => w.2.v && decide (w.2.post / 128 = line))

/-- A line fill that the home of a frame serves to a die (R324). -/
def Dev.countFill (d : Dev) (die : Nat) (l : Loc) : Dev :=
  if l.sp = .hbm then d.modFrame (l.a / 65536) (fun f => { f with fills := setAt f.fills die (f.fills.getD die 0 + 1) }) else d

/-- A read of a range by a core brings its line into the L1 in S state where it is not held: the sectors of the page's granule, at the position the
cache code names; a miss is counted for the frame and the core's die (R152, R153, R324). With code 11 (3) nothing is allocated in L1 and a copy
that is hit is then given up. -/
def Dev.readLine (d : Dev) (core cache gran : Nat) (l : Loc) (n : Nat) : Dev :=
  let line := l.line
  let recent := decide (cache ≠ 2)
  if !l.cached then d
  else
    let held := Tab.find (d.core core).l1 line
    let miss := match held with
      | some x => decide (sectorsOf l.a n &&& ~~~x.sectors ≠ 0)
      | none => true
    let d1 := if miss then (d.countFill (dieOf core) l).l2Fill gran line recent else d
    if cache = 3 then (if held.isSome then d1.l1Drop core line else d1)
    else match held with
      | some x => d1.l1Put core line x.st (if miss then fetchedSectors gran l.a n else 0) recent
      | none => (d1.shareOthers core line).l1Put core line .s (fetchedSectors gran l.a n) recent

/-- A write of a range by a core: the line is had exclusively (E) and becomes M in its L1, and no other L1 holds it; with cache code 11 it is written
through to its home slice, and so is a line that no L1 may hold for writing (R151, R153, R321). -/
def Dev.writeLine (d : Dev) (core cache gran : Nat) (l : Loc) (n : Nat) : Dev :=
  let line := l.line
  if !l.cached then d
  else if cache = 3 ∨ d.pinnedHome line then (d.recallAll line).l2Put line true
  else
    let d1 := d.recallOthers core line
    let d2 := if (Tab.find (d1.core core).l1 line).isSome then d1
      else ((d1.countFill (dieOf core) l).l2Fill gran line (decide (cache ≠ 2))).l1Put core line .e (fetchedSectors gran l.a n) (decide (cache ≠ 2))
    d2.l1Put core line .m (fetchedSectors gran l.a n) (decide (cache ≠ 2))

/-- An operation performed at the home slice: the line is recalled from every L1, and L2 holds it (R192, R195). -/
def Dev.homeLine (d : Dev) (l : Loc) : Dev := if l.cached then (d.recallAll l.line).l2Put l.line true else d

/-- A modified line written back to its home slice, its words decoded; its L1 keeps it clean (R401, log entry 89). -/
def Dev.cleanLine (d : Dev) (core line : Nat) : Dev :=
  match Tab.find (d.core core).l1 line with
  | some x =>
    if x.st = .m then ((d.moveRaw 1 core line).modCore core (fun k => { k with l1 := Tab.insert k.l1 line { x with st := .e } })).l2Put line true else d
  | none => d
/-- Every modified line of a core written back, as a RELST at domain or system scope awaits (R177, R178). -/
def Dev.cleanAll (d : Dev) (core : Nat) : Dev := ((d.core core).l1.map Prod.fst).foldl (fun d l => d.cleanLine core l) d

/-- Whether a store at system scope to a place awaits an acknowledgement (R177, R195): CXL-attached memory's completer, or the host's
giving up its copy. -/
def Dev.hostSees (d : Dev) (l : Loc) : Bool := decide (l.sp = .cxl) || (decide (l.sp = .hbm) && d.hostCopies.contains l.line)
/-- The host gives up its copies of some lines (R195, R197). -/
def Dev.hostGives (d : Dev) (ls : List Nat) : Dev := { d with hostCopies := d.hostCopies.filter (fun l => !ls.contains l) }

/-- A range read by a unit of a core whose L1 keeps nothing of it: U copies go home, and a line that the L1 does not hold is filled by its home for the
core's die (R158, R194, R324). -/
def Dev.serveLines (d : Dev) (core : Nat) (l : Loc) (n : Nat) : Dev :=
  let d1 := d.combineRange l n
  if !l.cached then d1
  else (linesOf l.a n).foldl (fun d i =>
    let x : Loc := { l with a := 128 * i }
    if (Tab.find (d.core core).l1 x.line).isSome then d
    else ((d.shareOthers core x.line).countFill (dieOf core) x).l2Fill (d.frame (x.a / 65536)).gran x.line true) d1

/-- Lines served to a core, each once. -/
def Dev.serveAll (d : Dev) (core : Nat) (ls : List Loc) : Dev := ls.eraseDups.foldl (fun d x => d.serveLines core x 128) d

/-- A line brought into a core's L1 in S state where it, or the addressed part of it, is not held (R152, R164, R167). -/
def Dev.fillL1 (d : Dev) (core cache gran : Nat) (l : Loc) (n : Nat) : Dev :=
  match Tab.find (d.core core).l1 l.line with
  | some x => if sectorsOf l.a n &&& ~~~x.sectors = 0 then d else d.readLine core cache gran l n
  | none => d.readLine core cache gran l n

end Sys2Proof.Machine
end

