-- ==== Sys2Proof/Machine/Memory.lean ====
section
/-! DEFINITION. Outstanding operations: issuing loads, stores and atomics, sending remote requests, binding values, performing
stores, and what atomic sets make of an access (R149, R158 to R164, R169 to R174, R188 to R208, R281, R301, R405). -/

namespace Sys2Proof.Machine

/-! ## Kinds of operations -/

/-- Whether an operation writes memory. -/
def OpKind.writes : OpKind → Bool
  | .store => true | .red _ _ => true | .atom _ _ => true | _ => false

/-- Whether an operation is a load. -/
def OpKind.loads : OpKind → Bool
  | .load _ _ => true | .loadU _ => true | _ => false

/-- Whether an operation is a prefetch, or a fetch for a monitor. -/
def OpKind.prefetches : OpKind → Bool
  | .pref _ => true | _ => false

/-- The kind of access an operation makes. -/
def OpKind.acc : OpKind → AccKind
  | .store => .write
  | .atom _ _ => .rmw
  | .red _ _ => .rmw
  | _ => .read

/-- Whether a place is in a peer's memory. -/
def Loc.isRemote (l : Loc) : Bool :=
  match l.sp with
  | .remote _ _ => true
  | _ => false

/-! ## Links to peers (R301) -/

/-- The ports of a link (R293). -/
def Dev.portsOf (d : Dev) (l : Nat) : List Nat := if d.gangMode then (List.range 4).map (fun i => 4 * l + i) else [l]

/-- The link sessions of a link's ports (R390). -/
def Dev.linkSessions (d : Dev) (l : Nat) : List Session :=
  (d.sessions.filter (fun s => match s.2.port with
    | some p => (d.portsOf l).contains p
    | none => false)).map Prod.snd

/-- Whether no link session of a link is in error, with which it reads as down (R305). -/
def Dev.linkSound (d : Dev) (l : Nat) : Bool := (d.linkSessions l).all (fun s => decide (s.st ≠ .error))

/-- Whether a link is up (R305). -/
def Dev.linkUp (d : Dev) (l : Nat) : Bool := decide ((d.link l).st = 2) && d.linkSound l

/-- Whether a link carries messages: it is up, or retrains and will be again (R298, R301). -/
def Dev.linkOpen (d : Dev) (l : Nat) : Bool := decide ((d.link l).st = 2 ∨ (d.link l).st = 3) && d.linkSound l

/-- The link a message to a peer about an address takes (R301). One for a reserved peer id, which no route leads to, goes to a link that drops it
(R293). -/
def Dev.route (d : Dev) (peer va : Nat) : Option Nat :=
  if d.gangMode then
    let set := (List.range 18).filter (fun l => ((Tab.get 0 d.routes peer).getLsbD l || decide (1536 ≤ peer)) && d.linkOpen l)
    if set.isEmpty then none else set[(bits va 53 7 + peer) % set.length]?
  else
    let h := (bits va 53 7 + peer) % 72
    ((List.range 72).map (fun i => (h + i) % 72)).find? (fun p => d.linkOpen p)

/-- Queueing a message on the link that leads to its peer. With none it waits, and so does a request for a line with an earlier one waiting
(R301, R302). -/
def Dev.sendMsg (d : Dev) (vc : Nat) (m : Msg) : Dev :=
  let behind := d.stranded.any (fun x => decide (x.peer = m.peer ∧ x.va / 128 = m.va / 128))
  match d.route m.peer m.va with
  | some l =>
    if behind then { d with stranded := d.stranded ++ [m] }
    else d.modLink l (fun k => { k with queued := Tab.insert k.queued vc (Tab.get [] k.queued vc ++ [m]) })
  | none => { d with stranded := d.stranded ++ [m] }

/-! ## Remote requests (R191, R281, R286) -/

/-- The ticket-table entry of a die for a page, if one is open (R286). -/
def Dev.ticketFor (d : Dev) (die owner win page world : Nat) : Option (Nat × TicketEntry) :=
  (d.die die).tickets.find? (fun e =>
    decide (e.2.owner = owner ∧ e.2.win = win ∧ e.2.page = page ∧ e.2.world = world ∧ e.2.notice = none))

/-- An operation among those that wait at an entry, once. -/
def TicketEntry.join (e : TicketEntry) (o : Nat) : TicketEntry := { e with ops := if e.ops.contains o then e.ops else e.ops ++ [o] }

/-- The kind number of a request's message (R295). -/
def msgKind : AccKind → Nat
  | .write => 1 | .rmw => 2 | _ => 0

/-- Messages that wait for a link sent again, as a link may have opened (R302). -/
def Dev.flushStranded (d : Dev) : Dev :=
  d.stranded.foldl (fun d m => d.sendMsg (match m.kind with
    | 0 => 0
    | 1 => 0
    | 2 => 0
    | 5 => 2
    | 6 => 2
    | 8 => 3
    | 9 => 3
    | _ => 1) m) { d with stranded := [] }

/-- Sending one remote part of an operation to its owner: with the page's ticket open on the die it joins that entry instead,
and is not sent (R286). -/
def Dev.sendPart (d : Dev) (die world o part peer win va len opc scope : Nat) (kind : AccKind) (data : List Byte) : Dev :=
  match d.ticketFor die peer win (va / 65536) world with
  | some (k, e) =>
    let d1 := d.modDie die (fun x => { x with tickets := Tab.insert x.tickets k (e.join o) })
    d1.modOp o (fun p => { p with st := .ticketed e.tkt })
  | none =>
    let tag := d.nextTag
    let r : Request :=
      { peer := peer, win := win, va := va, op := o, part := part, kind := kind, sent := d.time, resend := none, full := false, world := world,
        keep := true }
    let m : Msg :=
      { kind := msgKind kind, win := win, va := va, tag := tag % 65536, len := (len + 15) / 16 - 1, op := if kind = .write then len % 16 else opc, scope := scope,
        tkt := 0, data := data, peer := peer, world := world }
    ({ d with requests := Tab.insert d.requests tag r, nextTag := tag + 1 }).sendMsg 0 m

/-- The operation field of an atomic's message: FN in the high bits, sub in the low (R295). -/
def Op.atomCode (o : Op) : Nat :=
  match o.kind with
  | .atom fn _ => fn * 2
  | .red fn sub => fn * 2 + (if sub then 1 else 0)
  | _ => 0

/-- The parts one request carries: the lanes of an atomic that name one word go together (R191, log entry 90), any other part alone. -/
def Op.together (o : Op) (i : Nat) : List LanePart :=
  let p := o.parts.getD i default
  if o.kind.acc = .rmw then o.parts.filter (fun q => !q.done && decide (q.loc = p.loc)) else [p]

/-- Whether a part goes with a lower lane's. -/
def Op.follows (o : Op) (i : Nat) (p : LanePart) : Bool :=
  decide (o.kind.acc = .rmw) && (o.parts.take i).any (fun q => !q.done && decide (q.loc = p.loc))

/-- The data a request for some parts brings: none for a read, the bytes of a store, 16 bytes for each lane of an atomic, with a CAS lane's new value
above its compare value (R188, log entry 90). -/
def partData (kind : AccKind) (ps : List LanePart) : List Byte :=
  match kind with
  | .rmw => ps.flatMap (fun q => Bytes.ofNat 16 q.data.toNat)
  | .write => ps.flatMap (fun q => Bytes.ofNat q.n q.data.toNat)
  | _ => []

/-- The bytes a request for some parts moves. -/
def partLen (kind : AccKind) (ps : List LanePart) : Nat := if kind = .rmw then 16 * ps.length else (ps.headD default).n

/-- Whether a core's clean copy of a byte in a peer's memory (R177). -/
def Core.copyAt (k : Core) (l : Loc) : Option Byte := (k.copies.find? (fun c => decide (c.1 = l))).map Prod.snd

/-- Whether a core holds a clean copy of some bytes. -/
def Dev.hasCopy (d : Dev) (core : Nat) (l : Loc) (n : Nat) : Bool := (List.range n).all (fun i => ((d.core core).copyAt (l.plus i)).isSome)

/-- Bytes that a core keeps a copy of, or keeps no longer (R177). -/
def Dev.dropCopy (d : Dev) (core : Nat) (l : Loc) (n : Nat) : Dev :=
  d.modCore core (fun k => { k with copies := k.copies.filter (fun c =>
    !decide (c.1.sp = l.sp ∧ l.a ≤ c.1.a ∧ c.1.a < l.a + n)) })
def Dev.keepCopy (d : Dev) (core : Nat) (l : Loc) (bs : List Byte) : Dev :=
  (d.dropCopy core l bs.length).modCore core (fun k => { k with copies := (bs.zipIdx).map (fun b => (l.plus b.2, b.1)) ++ k.copies })

/-- A store to some bytes of a peer's memory leaves its core no older copy: what it holds goes, and replies under way are not kept (R149, R177). -/
def Dev.outdate (d : Dev) (core : Nat) (l : Loc) (n : Nat) : Dev :=
  let d1 := d.dropCopy core l n
  let meets (r : Request) : Bool := decide (Space.remote r.peer r.win = l.sp) && (match d.op? r.op with
    | some o => decide (o.core = core) && overlap r.va ((o.parts.getD r.part default).n) l.a n
    | none => false)
  { d1 with requests := Tab.mapV d1.requests (fun _ r => if meets r then { r with keep := false } else r) }

/-- Whether a remote part of a load below domain scope is served from its core's copy (R177). -/
def Dev.servedByCopy (d : Dev) (o : Op) (p : LanePart) : Bool :=
  o.kind.loads && p.loc.isRemote && decide (o.scope < 4) && d.hasCopy o.core p.loc p.n

/-- Whether a part of an operation is with its owner already. -/
def Dev.asked (d : Dev) (n i : Nat) : Bool := d.requests.any (fun r => decide (r.2.op = n ∧ r.2.part = i))

/-- Whether two parts touch a byte in common. -/
def LanePart.meets (a b : LanePart) : Bool := decide (a.loc.sp = b.loc.sp ∧ a.loc.own = b.loc.own) && overlap a.loc.a a.n b.loc.a b.n

/-- Whether an older part of its group that has gone out stands in the way of a part: one at a common byte that is not done, where one of the two
writes or both are one lane's (R180, R181), or the younger is issued again by a replay (R287). A store held back takes its place when it goes out
(R178). -/
def Dev.partBlocked (d : Dev) (n : Nat) (o : Op) (p : LanePart) : Bool :=
  d.ops.any (fun q => decide (q.1 < n ∧ q.2.core = o.core ∧ q.2.slot = o.slot ∧ q.2.st ≠ .held ∧ q.2.st ≠ .ended)
    && (q.2.kind.loads || q.2.kind.writes)
    && q.2.parts.any (fun a => !a.done && a.meets p && (q.2.kind.writes || o.kind.writes || o.again || decide (a.lane = p.lane))))

/-- The line a part's outstanding-transaction entry is for. -/
def Loc.entryLine (l : Loc) : Loc := { l with a := l.a / 128 * 128 }

/-- Sending the remote parts of an operation that have their entry and that nothing older blocks, numbered from i on. -/
def Dev.sendParts (d : Dev) (n i : Nat) : List LanePart → Dev
  | [] => d
  | p :: l =>
    let d1 := match d.op? n, p.loc.sp with
      | some o, .remote peer win =>
        if p.done || o.waits.contains p.loc.entryLine || d.asked n i || o.follows i p || d.servedByCopy o p || d.partBlocked n o p then d
        else
          let ps := o.together i
          (if o.kind.writes then d.outdate o.core p.loc p.n else d).sendPart (dieOf o.core) (d.core o.core).world n i peer win p.loc.a
            (partLen o.kind.acc ps) o.atomCode o.scope o.kind.acc (partData o.kind.acc ps)
      | _, _ => d
    d1.sendParts n (i + 1) l

/-- Whether an operation sends all its remote parts as soon as it can: a load, store or atomic, and the reads of records, streams and tile operations, which
have domain scope. -/
def Op.sendsAll (o : Op) : Bool :=
  match o.kind with
  | .record => true
  | .stream _ => true
  | .tile _ _ => decide (o.scope = 4)
  | k => k.loads || k.writes

/-- Parts that an older one held back go out when nothing stands in their way any more (R149, R181, R287). -/
def Dev.sendHeldBack (d : Dev) : Dev :=
  d.ops.foldl (fun d x => if x.2.sendsAll && decide (x.2.st = .going) then d.sendParts x.1 0 x.2.parts else d) d

/-! ## Outstanding-transaction entries (R17, R159, R174) -/

/-- Whether an access to a place takes an entry. -/
def Loc.entered (l : Loc) : Bool :=
  match l.sp with
  | .hbm => true | .cxl => true | .kmem => true | .remote _ _ => true
  | _ => false

/-- The order entries are taken in: by line address, those of peers' memories before the device's own (R159, log entry 91). -/
def Loc.entryKey (l : Loc) : Nat :=
  match l.sp with
  | .remote peer win => (peer * 32 + win) * 2 ^ 64 + l.a
  | .hbm => 2 ^ 90 + l.a
  | .cxl => 2 ^ 91 + l.a
  | _ => 2 ^ 92 + l.a

/-- A place put among others in that order. -/
def insertLine (x : Loc) : List Loc → List Loc
  | [] => [x]
  | y :: l => if x.entryKey ≤ y.entryKey then x :: y :: l else y :: insertLine x l

/-- The 128-byte lines of G and K that parts touch, one entry each, ascending. -/
def entryLines (l : List LanePart) : List Loc :=
  (((l.filter (fun p => p.loc.entered)).map (fun p => p.loc.entryLine)).eraseDups).foldl (fun acc x => insertLine x acc) []

/-- The entries each operation of a core holds: its slot, whether it is a prefetch's, and how many. -/
def Dev.entriesOf (d : Dev) (core : Nat) : List (Nat × Bool × Nat) :=
  (d.ops.filter (fun o => decide (o.2.core = core))).map (fun o => (o.2.slot, o.2.kind.prefetches, o.2.held.length))

/-- The entries among some that a slot's words hold. -/
def slotEntries (l : List (Nat × Bool × Nat)) (slot : Nat) : Nat :=
  ((l.filter (fun x => decide (x.1 = slot) && !x.2.1)).map (fun x => x.2.2)).foldl (· + ·) 0

/-- The entries of the shared part in use: those of each slot past its four, the handler's and the prefetches' (R17). -/
def sharedEntries (l : List (Nat × Bool × Nat)) : Nat :=
  ((List.range 32).map (fun s => slotEntries l s - 4)).foldl (· + ·) 0 + slotEntries l handlerSlot
    + ((l.filter (fun x => x.2.1)).map (fun x => x.2.2)).foldl (· + ·) 0

/-- The entries in use on a core. -/
def allEntries (l : List (Nat × Bool × Nat)) : Nat := (l.map (fun x => x.2.2)).foldl (· + ·) 0

/-- Entries of the shared part that are free: 512 less the reserved ones, four for each occupied slot, and never more than are free at all (R14, R17). -/
def Dev.sharedFree (d : Dev) (core : Nat) : Nat :=
  min (512 - allEntries (d.entriesOf core)) <| 512 - 4 * (d.groups.filter (fun g => decide (g.1 / 64 = core ∧ g.1 % 64 ≠ handlerSlot))).length - sharedEntries (d.entriesOf core)

/-- Entries a group may still take: what is left of its four, and the shared part's, as far as the 512 reach (R14, R17). -/
def Dev.entriesFree (d : Dev) (core slot : Nat) : Nat :=
  min (512 - allEntries (d.entriesOf core)) <| (if slot = handlerSlot then 0 else 4 - slotEntries (d.entriesOf core) slot) + d.sharedFree core

/-- An operation takes further entries as they come free, in order (R159). -/
def Dev.takeEntries (d : Dev) (n : Nat) : Dev :=
  match d.op? n with
  | some o =>
    if o.waits.isEmpty then d
    else
      let k := d.entriesFree o.core o.slot
      d.modOp n (fun q => { q with waits := q.waits.drop k, held := q.held ++ q.waits.take k })
  | none => d

/-- Whether a word must stall at issue before it raises a counter: the counter stands at 63, or no entry is free though the
word needs one (R17, R159, R170). -/
def State.mustStall (s : State) (c : Ctr) (needsEntry : Bool) : Bool :=
  decide ((s.grp.count c).length ≥ 63) || (needsEntry && decide (s.dev.entriesFree s.iss.core s.iss.slot = 0))

/-! ## Issuing an operation -/

/-- Whether the issuing task has acquired a set and works tentatively (R204); after the grant of the token it does not (R206). -/
def Dev.tentative (d : Dev) (t : Nat) : Bool :=
  match d.task? t with
  | some k => k.sets.any (fun p => p.2.acquired) && !decide (k.token = .held)
  | none => false

/-- The trap an operation that failed is still due in its group, if any (R173). -/
def Group.failureOf (g : Group) (op : Nat) : Option FailRec :=
  match g.failed.find? (fun f => decide (f.op = op)) with
  | some f => some f
  | none =>
    let inQueue (i : Nat) (l : List Count) : Option FailRec :=
      l.findSome? (fun c => if c.op = op then c.bad.map (fun t => ({ ctr := i, seq := c.seq, op := op, tr := t } : FailRec)) else none)
    (inQueue 0 g.cl).or ((inQueue 1 g.cs).or ((inQueue 2 g.cc).or (inQueue 3 g.ct)))

/-- Whether no result is coming for a register that waits on an operation: the operation has failed (its trap, once raised, leaves the number 0). -/
def Group.lost (g : Group) (op : Nat) : Bool := decide (op = 0) || (g.failureOf op).isSome

/-- A register an operation will write is not ready (R114); one that a failed operation left not ready stays so besides (R173). -/
def Group.await (g : Group) (rs : List RegName) (o : Nat) : Group :=
  { g with notReady := (g.notReady.filter (fun p => !rs.contains p.1 || g.lost p.2)) ++ rs.map (fun r => (r, o)) }

/-- The parts of a store that are performed: of the lanes that write one place, the highest (R149). -/
def lastWrites : List LanePart → List LanePart
  | [] => []
  | p :: l => if l.any (fun q => decide (q.loc = p.loc)) then lastWrites l else p :: lastWrites l

/-- A new operation of the issuing group, at a state: its counter rises, but a RELST's as its wait ends (R178); its registers are not ready, it takes
the entries it can have, and its remote parts are sent (R114, R159, R170, R281). -/
def State.newOp (s : State) (c : Ctr) (kind : OpKind) (parts : List LanePart) (scope : Nat) (rs : List RegName) (st : OpState) : State :=
  let n := s.dev.nextOp
  let t := s.taskId
  let slot := s.iss.slot
  let parts := if kind = .store then lastWrites parts else parts
  let tent := decide (slot ≠ handlerSlot) && s.dev.tentative t && kind.writes && parts.any (fun p => decide (p.loc.sp = .hbm))
  let ls := entryLines parts
  let free := s.dev.entriesFree s.iss.core slot
  let o : Op :=
    { core := s.iss.core, slot := slot, task := t, ctr := c, kind := kind, parts := parts, scope := scope, tent := tent, pos := s.iss.pos,
      st := st, waits := ls.drop free, held := ls.take free }
  let s1 := s.modDev (fun d => { d with ops := Tab.insert d.ops n o, nextOp := n + 1 })
  let s2 := s1.modGrp (fun g => ((if st = .held ∧ s.old.role = .none then g else g.raise c n)).await rs n)
  if st = .held then s2 else s2.modDev (fun d => d.sendParts n 0 parts)

/-! ## Binding a value (R149, R172) -/

/-- A byte overlaid by the parts not yet performed of the group's own stores that issued before (R149). -/
def Dev.overlay (d : Dev) (core slot before : Nat) (l : Loc) (b : Byte) : Byte :=
  let own := d.ops.filter (fun o => decide (o.1 < before ∧ o.2.core = core ∧ o.2.slot = slot ∧ o.2.kind = .store ∧ o.2.st ≠ .ended))
  let put (b : Byte) (p : LanePart) : Byte :=
    if !p.done ∧ p.loc.sp = l.sp ∧ p.loc.own = l.own ∧ p.loc.a ≤ l.a ∧ l.a < p.loc.a + p.n then BitVec.ofNat 8 (p.data.toNat / 256 ^ (l.a - p.loc.a))
    else b
  own.foldl (fun b o => o.2.parts.foldl put b) b

/-- A byte as an operation of a task and slot reads it: the task's tentative byte, else memory or the core's copy, overlaid by the group's own
outstanding stores (R149, R204). -/
def Dev.seenByte (d : Dev) (core slot task before : Nat) (l : Loc) : Byte :=
  d.overlay core slot before l (match d.task? task, l.sp with
    | _, .remote _ _ => ((d.core core).copyAt l).getD 0
    | some t, .hbm => (Tab.find t.tent l.a).getD (d.readByte l)
    | _, _ => d.readByte l)

/-- The value of n bytes as an operation sees them. -/
def Dev.seen (d : Dev) (core slot task before : Nat) (l : Loc) : Nat → Nat
  | 0 => 0
  | n + 1 => (d.seenByte core slot task before l).toNat + 256 * d.seen core slot task before (l.plus 1) n

/-- Writing a bound value of n bytes to lane registers from D on, with sign extension to 32 bits where asked (R160). -/
def Regs.bindV (r : Regs) (d lane n : Nat) (sext : Bool) (x : Nat) : Regs :=
  if n ≤ 4 then
    let y := if sext && bit x (8 * n - 1) then x + 2 ^ 32 - 2 ^ (8 * n) else x
    r.writeV d lane (BitVec.ofNat 32 y)
  else (List.range (n / 4)).foldl (fun r i => r.writeV (d + i) lane (BitVec.ofNat 32 (x / 2 ^ (32 * i)))) r

/-- Registers an operation writes. -/
def OpKind.regs (k : OpKind) (n : Nat) : List RegName :=
  match k with
  | .load d _ => if d = 127 then [] else (List.range (max 1 (n / 4))).map (fun i => .v (d + i))
  | .loadU d => if d = 0 then [] else [.s d.toNat]
  | .atom _ d => if d = 127 then [] else [.v d]
  | _ => []

/-- Whether a register is still awaited from an operation: a GWR has not taken it over (R333). -/
def Group.awaits (g : Group) (r : RegName) (o : Nat) : Bool := g.notReady.contains (r, o)

/-- A value bound for an entry of a pair is kept for the trailer (R405). -/
def Group.keepValue (g : Group) (o : Nat) (p : LanePart) (x : Nat) : Group :=
  { g with pairBuf := g.pairBuf.map (fun e =>
      if e.op = o then { e with values := e.values ++ [(p.lane, BitVec.ofNat 128 x)] } else e) }

/-- Delivering a bound value of one lane part to the group's registers. -/
def Group.deliver (g0 : Group) (o : Nat) (k : OpKind) (p : LanePart) (x : Nat) : Group :=
  let g := g0.keepValue o p x
  match k with
  | .load d sext =>
    if p.n ≤ 4 then (if g.awaits (.v d) o then { g with regs := g.regs.bindV d p.lane p.n sext x } else g)
    else { g with regs := (List.range (p.n / 4)).foldl (fun r i =>
        if g.awaits (.v (d + i)) o then r.writeV (d + i) p.lane (BitVec.ofNat 32 (x / 2 ^ (32 * i))) else r) g.regs }
  | .loadU d => if g.awaits (.s d.toNat) o then { g with regs := g.regs.writeS d.toNat (BitVec.ofNat 64 x) } else g
  | .atom _ d => if g.awaits (.v d) o then { g with regs := g.regs.writeV d p.lane (BitVec.ofNat 32 x) } else g
  | _ => g

/-- The record of the trap an operation is due when it ends without its effect (R173, R328, R400). -/
def Op.failure (o : Op) (cause addr tkt : Nat) : TrapRec :=
  { slot := o.slot, split := 0, mask := 0, pos := o.pos, cause := cause, sub := 0, tcode := 0, kind := kindCode o.kind.acc,
    orig := if cause = 0x10 ∨ cause = 0x0E then o.pos.word * 2 ^ 54 + o.pos.pc else 0, addr := addr, tkt := tkt, lane := 0, launch := 0, queue := 0, raised := 0 }

/-- An operation ends: its count is marked, its registers become ready unless it failed, and it leaves the table (R171, R174). -/
def Dev.endOp (d : Dev) (n : Nat) (bad : Option TrapRec) : Dev :=
  match d.op? n with
  | none => d
  | some o =>
    let free (g : Group) : Group :=
      match bad with
      | none => { g with notReady := g.notReady.filter (fun p => p.2 ≠ n) }
      | some _ => g
    let d1 := d.modHome o (fun g => free (g.endOp o.ctr n bad))
    ({ d1 with ops := Tab.erase d1.ops n }).wakeStalls

/-- A part of an operation is done, with the value bound for it and whether an acknowledgement is still due. Its line's entry is released when no part of
the line is left to do (R174). -/
def Op.finish (o : Op) (i : Nat) (x : Nat) (owed : Bool) : Op :=
  let ps := setAt o.parts i { (o.parts.getD i default) with done := true, res := BitVec.ofNat 128 x, wrote := owed }
  { o with parts := ps, held := o.held.filter (fun l => ps.any (fun p => (!p.done || p.wrote) && decide (p.loc.entryLine = l))) }

/-- The bound values of an operation's parts delivered. -/
def Op.deliverAll (o : Op) (n : Nat) (g : Group) : Group := o.parts.foldl (fun g p => g.deliver n o.kind p p.res.toNat) g

/-- Ending an operation whose parts are all done and acknowledged: its values reach its registers as it ends. -/
def Dev.endIfDone (d : Dev) (n : Nat) : Dev :=
  match d.op? n with
  | some o => if o.parts.all (fun p => p.done && !p.wrote) then (d.modHome o (o.deliverAll n)).endOp n none else d
  | none => d

/-- Whether an older load of the group by one lane at a common byte is not bound (R181). -/
def Dev.olderLoad (d : Dev) (n : Nat) (o : Op) (p : LanePart) : Bool :=
  d.ops.any (fun q => decide (q.1 < n ∧ q.2.core = o.core ∧ q.2.slot = o.slot) && q.2.kind.loads &&
    q.2.parts.any (fun a => !a.done && decide (a.lane = p.lane) && a.meets p))

/-- Whether an older store or atomic of the group at a common byte is not performed (R181); a RELST's held store takes its place when it goes out
(R178). -/
def Dev.olderStore (d : Dev) (n : Nat) (o : Op) (p : LanePart) : Bool :=
  d.ops.any (fun q => decide (q.1 < n ∧ q.2.core = o.core ∧ q.2.slot = o.slot ∧ q.2.st ≠ .held) && q.2.kind.writes &&
    q.2.parts.any (fun a => !a.done && a.meets p))

/-- Whether a part can be done on this device now: it has its entry, it is local or served by its core's copy, and no engine holds its block. -/
def Dev.partHere (d : Dev) (o : Op) (p : LanePart) : Bool :=
  !p.done && !o.waits.contains p.loc.entryLine && (!p.loc.isRemote || d.servedByCopy o p) && !d.engineHolds p.loc p.n

/-- Whether a part of a load can bind now. -/
def Dev.bindable (d : Dev) (n : Nat) (o : Op) (p : LanePart) : Bool := d.partHere o p && !d.olderLoad n o p

/-- Binding one part of a load: from a copy, which cache code 11 then gives up, or from memory, where what is stored is decoded (R153, R172, R194,
R396). -/
def Dev.bindPart (d : Dev) (n : Nat) (o : Op) (i : Nat) (p : LanePart) : Dev :=
  let d0 := ((d.combineRange p.loc p.n).reportRaw p.loc p.n).readLine o.core p.cache p.gran p.loc p.n
  let x := d0.seen o.core o.slot o.task n p.loc p.n
  (if p.loc.isRemote ∧ p.cache = 3 then d0.dropCopy o.core p.loc p.n else d0).modOp n (fun o => o.finish i x false)

/-- Binding every part of a load that can be bound. -/
def Dev.bindParts (d : Dev) (n : Nat) (o : Op) (i : Nat) : List LanePart → Dev
  | [] => d
  | p :: l => (if d.bindable n o p then d.bindPart n o i p else d).bindParts n o (i + 1) l

/-- A load's values that can be are bound; with none left it ends. Poisoned bytes end it without its registers (R400). -/
def Dev.bindLoad (d : Dev) (n : Nat) : Dev :=
  match d.op? n with
  | none => d
  | some o =>
    match o.parts.find? (fun p => d.bindable n o p && d.poisoned p.loc p.n) with
    | some p => (d.reportRaw p.loc p.n).endOp n (some (o.failure 0x14 p.addr 0))
    | none => ((d.bindParts n o 0 o.parts).endIfDone n).wakeStalls

/-- A prefetch's lines come in: into L1 and L2, or L2 alone; a line's U copies go home first (R164, R194). -/
def Dev.fillPref (d : Dev) (n : Nat) (o : Op) (l1 : Bool) : Dev :=
  let ps := o.parts.filter (fun p => !p.done && !p.loc.isRemote)
  let d1 := ps.foldl (fun d0 p =>
    let d := (d0.combineRange p.loc p.n).reportRaw p.loc p.n
    if l1 then d.fillL1 o.core p.cache p.gran p.loc p.n else if p.loc.cached then (d.countFill (dieOf o.core) p.loc).l2Fill p.gran p.loc.line (decide (p.cache ≠ 2)) else d) d
  { d1 with ops := Tab.erase d1.ops n }

/-! ## Performing stores and atomics (R172, R190 to R195) -/

/-- The operation number of ATOM and RED forms (R71). -/
def atomOpOf (k : OpKind) : Nat :=
  match k with
  | .atom fn _ => fn
  | .red fn sub =>
    match fn, sub with
    | 11, _ => 0
    | 12, false => 1 | 12, true => 2
    | 13, false => 3 | 13, true => 4
    | 14, false => 5 | 14, true => 6
    | _, false => 7
    | _, true => 9
  | _ => 0

/-- Whether a part works on its task's tentative copy (R204). -/
def Op.tentAt (o : Op) (p : LanePart) : Bool := o.tent && decide (p.loc.sp = .hbm)

/-- Writing tentatively: bytes into the task's tentative copies, the first of a line after the core's modified data went home (R204); what its streams had
read of them is stale (R266). -/
def Dev.tentWrite (d : Dev) (core t a : Nat) (bs : List Byte) : Dev :=
  let ls := watchLines (hbmAt a) bs.length
  (d.cleanLine core (a / 128)).modTask t (fun k => { k with
    streams := Tab.mapV k.streams (fun _ x => { x with queue := x.queue.map (StreamEntry.touch ls) })
    tent := ((List.range bs.length).zip bs).foldl (fun m b => Tab.insert m (a + b.1) b.2) k.tent })

/-- A line of a task's own writes below system scope is still unseen by the host or a completer (R177, R178). -/
def Dev.noteUnseen (d : Dev) (o : Op) (l : Loc) : Dev :=
  if o.scope < 5 ∧ d.hostSees l then d.modHome o (fun g => { g with unseen := if g.unseen.contains l.line then g.unseen else l.line :: g.unseen }) else d

/-- A performed write of a store at its place, or into the tentative copy: the core's L1 takes the line to write it, and at domain and system scope it goes
home (R151, R177, R204). -/
def Dev.storePart (d : Dev) (o : Op) (p : LanePart) : Dev :=
  let bs := Bytes.ofNat p.n p.data.toNat
  if o.tentAt p then d.tentWrite o.core o.task p.loc.a bs
  else
    let d1 := (d.perform p.loc bs).writeLine o.core p.cache p.gran p.loc p.n
    (if 4 ≤ o.scope then d1.cleanLine o.core p.loc.line else d1).noteUnseen o p.loc

/-- The word an atomic reads: tentative where the part is. -/
def Dev.atomRead (d : Dev) (o : Op) (p : LanePart) : W32 :=
  BitVec.ofNat 32 (if o.tentAt p then
    (List.range 4).foldl (fun x i => x + 256 ^ i * (match d.task? o.task with
      | some t => ((Tab.find t.tent (p.loc.a + i)).getD (d.readByte (p.loc.plus i))).toNat
      | none => (d.readByte (p.loc.plus i)).toNat)) 0
  else d.readNat p.loc 4)

/-- Whether an atomic at system scope on a page with its system-wide-atomic bit is atomic with the host's (R197). -/
def Op.systemWide (o : Op) (p : LanePart) : Bool := p.swa && decide (o.scope = 5)

/-- Whether an atomic counts for the mixed-atomic counter: performed as on a page whose system-wide-atomic bit is clear (R197). -/
def Op.mixes (o : Op) (p : LanePart) : Bool := !o.systemWide p && !o.tentAt p

/-- A device atomic about to be performed: one that is atomic with the host's own AtomicOps still meets host writes of any other kind (R197, R411). -/
def Dev.atomMeets (d : Dev) (o : Op) (p : LanePart) : Dev :=
  if o.mixes p then d.countMixed p.loc [1, 4] else if o.systemWide p && !o.tentAt p then d.countMixed p.loc [1] else d

/-- A device atomic's write (R197). -/
def Dev.atomWrote (d : Dev) (o : Op) (p : LanePart) : Dev :=
  if o.mixes p then d.markWriter p.loc 4 2 else if o.systemWide p && !o.tentAt p then d.markWriter p.loc 4 3 else d

/-- What one lane of an atomic leaves in its word, none where a CAS does not match (R188, R190). -/
def atomNew (k : OpKind) (old : W32) (data : BitVec 128) : Option W32 :=
  match k with
  | .atom 10 _ => if old = data.truncate 32 then some ((data >>> 32).truncate 32) else none
  | _ => some (atomApply (atomOpOf k) old (data.truncate 32))

/-- One lane of an atomic at its home, where its line is recalled from every L1, or on the tentative copy: read, and write where it writes (R188, R190 to
R192, R204). Its part ends with the old value; a write at system scope may await the host or a completer (R195). -/
def Dev.atomPart (d : Dev) (n : Nat) (o : Op) (i : Nat) (p : LanePart) : Dev :=
  let d0 := ((d.combineRange p.loc 4).reportRaw p.loc 4).atomMeets o p
  let old := d0.atomRead o p
  let d1 := match atomNew o.kind old p.data with
    | none => d0
    | some w =>
      if o.tentAt p then d0.tentWrite o.core o.task p.loc.a (Bytes.ofNat 4 w.toNat)
      else ((d0.perform p.loc (Bytes.ofNat 4 w.toNat)).atomWrote o p).noteUnseen o p.loc
  let d2 := if o.tentAt p then d1 else d1.homeLine p.loc
  d2.modOp n (fun q => q.finish i old.toNat (decide (o.scope = 5) && !o.tentAt p && (atomNew o.kind old p.data).isSome && d.hostSees p.loc))

/-- A line in U state in a core's L1: other cores' copies that are no U copies are given up, and a modified one of its own goes home (R151, R193). -/
def Dev.enterU (d : Dev) (core cache line : Nat) : Dev :=
  let others := d.cores.filter (fun c => decide (c.1 ≠ core) && (match Tab.find c.2.l1 line with
    | some x => decide (x.st ≠ .u)
    | none => false))
  let d1 := others.foldl (fun d c => d.l1Drop c.1 line) d
  match Tab.find (d1.core core).l1 line with
  | some x => if x.st = .u then d1 else (d1.l1Drop core line).l1Put core line .u 15 (decide (cache ≠ 2))
  | none => d1.l1Put core line .u 15 (decide (cache ≠ 2))

/-- Whether a core's L1 holds a line in U state. -/
def Dev.holdsU (d : Dev) (core line : Nat) : Bool :=
  match Tab.find (d.core core).l1 line with
  | some x => decide (x.st = .u)
  | none => false

/-- A reduction gathered in the issuing core's U copy; a word tagged with another operation first sends the line's partials home (R193). -/
def Dev.gather (d : Dev) (core cache op a : Nat) (v : W32) : Dev :=
  let w := a / 4
  let d0 := match Tab.find (d.core core).upart w with
    | some (t, _) => if t = op then d else (d.combineCore core (a / 128)).enterU core cache (a / 128)
    | none => d
  d0.modCore core (fun k =>
    let p := match Tab.find k.upart w with
      | some (_, x) => x
      | none => atomIdentity op
    { k with upart := Tab.insert k.upart w (op, atomApply op p v) })

/-- Whether a RED is gathered in U state (R193, R204): local G, scope device or narrower, cache code other than 11, not
tentative, and no bound trigger or post word in its line (R285, R321). -/
def Dev.gathers (d : Dev) (o : Op) (p : LanePart) : Bool :=
  (match o.kind with
    | .red _ _ => true
    | _ => false) && decide (p.loc.sp = .hbm ∧ o.scope ≤ 3 ∧ p.cache ≠ 3) && !o.tentAt p && !d.pinnedHome p.loc.line

/-- One part performed here: a store, a reduction gathered where its line can be had in U state, else an atomic at its home. -/
def Dev.performPart (d : Dev) (n : Nat) (o : Op) (i : Nat) (p : LanePart) : Dev :=
  let e := if d.gathers o p then d.enterU o.core p.cache p.loc.line else d
  if d.gathers o p && e.holdsU o.core p.loc.line then
    ((((e.atomMeets o p).gather o.core p.cache (atomOpOf o.kind) p.loc.a (p.data.truncate 32)).atomWrote o p).staleStreams p.loc 4).modOp n
      (fun q => q.finish i 0 false)
  else match o.kind with
    | .store => (d.storePart o p).modOp n (fun q => q.finish i 0 (decide (o.scope = 5) && !o.tentAt p && d.hostSees p.loc))
    | _ => d.atomPart n o i p

/-- Whether a part of a store or atomic can be performed now. -/
def Dev.performable (d : Dev) (n : Nat) (o : Op) (p : LanePart) : Bool := !p.loc.isRemote && d.partHere o p && !d.olderStore n o p

/-- Every part that can be performed, in ascending lane (R149, R191). -/
def Dev.performParts (d : Dev) (n : Nat) (o : Op) (i : Nat) : List LanePart → Dev
  | [] => d
  | p :: l => (if d.performable n o p then d.performPart n o i p else d).performParts n o (i + 1) l

/-- Whether lanes on peers' pages are still to be performed: the lanes on this device's own wait for them, since none performs when a ticket of the
operation turns fatal (R173). -/
def Op.remoteLeft (o : Op) : Bool := o.parts.any (fun p => p.loc.isRemote && !p.done)

/-- Whether an atomic must first have a line exclusive over CXL.cache, or the host's copies recalled (R197). -/
def Dev.recallsHost (d : Dev) (n : Nat) (o : Op) : Bool :=
  decide (o.kind.acc = .rmw) && o.parts.any (fun p => d.performable n o p && o.systemWide p && !o.tentAt p && d.hostSees p.loc)

/-- The parts of an operation that can be are performed; when all are, it ends, or awaits the completer or the host (R177, R190, R195). -/
def Dev.performNow (d : Dev) (n : Nat) (o : Op) : Dev :=
  let d1 := d.performParts n o 0 o.parts
  match d1.op? n with
  | some q =>
    if q.parts.all (fun p => p.done) && q.parts.any (fun p => p.wrote) then d1.modOp n (fun q => { q with st := .awaiting 0 })
    else (d1.endIfDone n).wakeStalls
  | none => d1

/-- A store, reduction or fetch atomic goes on (R172, R190). A fetch atomic on poisoned bytes performs nothing (R400); one that is atomic with the
host's first has its lines (R197). -/
def Dev.performOp (d : Dev) (n : Nat) : Dev :=
  match d.op? n with
  | none => d
  | some o =>
    if o.remoteLeft then d
    else match o.kind, o.parts.find? (fun p => !p.done && d.poisoned p.loc p.n) with
      | .atom _ _, some p => (d.reportRaw p.loc p.n).endOp n (some (o.failure 0x14 p.addr 0))
      | _, _ => if d.recallsHost n o then d.modOp n (fun q => { q with st := .awaiting 1 }) else d.performNow n o

/-- What an operation awaited outside the device has come (R177, R195, R197): lines exclusive or recalled, with which an atomic performs; or the
acknowledgement of what was performed. -/
def Dev.hostAnswers (d : Dev) (n : Nat) : Dev :=
  match d.op? n with
  | none => d
  | some o =>
    let ls := (o.parts.filter (fun p => decide (p.loc.sp = .hbm) && (p.wrote || (decide (o.st = .awaiting 1) && !o.tentAt p)))).map (fun p => p.loc.line)
    let d1 := (d.hostGives ls).modOp n (fun q => { q with st := .going })
    let d2 := d1.modOp n (fun q => { q with parts := q.parts.map (fun p => { p with wrote := false }) })
    match o.st, o.kind with
    | .awaiting 1, _ => d1.performNow n { o with st := .going }
    | .awaiting _, .copy _ _ => d2.wakeStalls
    | .awaiting _, _ => d2.endIfDone n
    | _, _ => d

/-! ## Atomic sets (R200 to R210) -/

/-- The declared sets of a task that a range of G addresses meets and that are not acquired. -/
def Task.touched (t : Task) (ranges : List (Nat × Nat)) : List Nat :=
  (t.sets.filter (fun p => !p.2.acquired && ranges.any (fun r => overlap r.1 r.2 p.2.base p.2.len))).map Prod.fst

/-- A task's world. -/
def Dev.worldOf (d : Dev) (t : Nat) : Nat :=
  match d.gridOf t with
  | some g => g.world
  | none => 0

/-- The tasks that hold an acquired set in conflict with a set of task x (R201). -/
def Dev.holders (d : Dev) (x : Nat) (b len : Nat) : List Nat :=
  (d.tasks.filter (fun kt => decide (kt.1 ≠ x ∧ d.worldOf kt.1 = d.worldOf x) &&
    kt.2.sets.any (fun p => p.2.acquired && overlap b len p.2.base p.2.len))).map Prod.fst

/-- Whether a group has no lanes left (R93). -/
def Dev.exited (d : Dev) (core slot : Nat) : Bool :=
  let g := d.group core slot
  g.splits.all Option.isNone && g.stack.isEmpty && g.trap.isNone

/-- Whether a task is in commit: from the exit of its last group on (R205). -/
def Dev.inCommit (d : Dev) (t : Task) : Bool :=
  decide (t.phase = .committing) || (decide (t.phase = .running) && !t.slots.isEmpty && t.slots.all (fun sl => d.exited t.core sl))

/-- Matrix entries of a task that a wound discards: those not started and those parked; their counts end, and a granted array is free again (R238). -/
def Dev.dropMatrix (d : Dev) (y : Nat) : Dev :=
  match d.task? y with
  | none => d
  | some t =>
    let goes (e : MxEntry) : Bool := decide (e.task = y) && (e.started.isNone || e.parked.isSome)
    let gone := (d.core t.core).mq.filter goes
    let saved := t.savedMx.filter goes
    let d1 := d.modCore t.core (fun k => { k with mq := k.mq.filter (fun e => !goes e) })
    let d2 := d1.modPair (pairOf t.core) (fun p => { p with owner := p.owner.filter (fun o => !(decide (o.1 = t.core) && gone.any (fun e => decide (e.id = o.2)))) })
    (d2.modTask y (fun t => { t with savedMx := t.savedMx.filter (fun e => !goes e) })).abandonOps ((gone ++ saved).map (fun e => e.op))

/-- What a wound leaves of an operation: the parts on tentative copies are gone, and no register is written; the others go on (R208). -/
def Op.untent (o : Op) : Op :=
  if o.tent then
    let ps := o.parts.map (fun p => if decide (p.loc.sp = .hbm) && !p.done then { p with done := true } else p)
    { o with parts := ps, tent := false, held := o.held.filter (fun l => ps.any (fun p => (!p.done || p.wrote) && decide (p.loc.entryLine = l)))
             kind := (match o.kind with
               | .atom fn _ => .atom fn 127
               | k => k) }
  else o

/-- A wound takes effect (R208, steps 1 to 3; R238): loads and what works on tentative copies are abandoned, tentative work discarded, the copy queue
put back to its first acquisition, the sets released. The task restarts by TASK_RESTART, a saved one after its restore (R209). -/
def Dev.wound (d00 : Dev) (y : Nat) : Dev :=
  let d : Dev := { d00 with ops := Tab.mapV d00.ops (fun _ o => if o.task = y ∧ o.slot ≠ handlerSlot then o.untent else o) }
  let d1 := d.abandon (fun o => decide (o.task = y ∧ o.slot ≠ handlerSlot) && (match o.kind with
    | .load _ _ => true
    | .loadU _ => true
    | .monitor _ => true
    | .pref _ => true
    | .record => true
    | .stream _ => true
    | .atom _ _ => o.parts.all (fun p => p.done && !p.wrote)
    | .red _ _ => o.parts.all (fun p => p.done && !p.wrote)
    | .store => o.parts.all (fun p => p.done && !p.wrote)
    | _ => false))
  let undo (t : Task) : Task := { t with
    phase := (if t.phase = .running then .wounded else t.phase), restart := true, cqFirst := none,
    cq := (match t.cqFirst with
      | some c => { c with entries := t.cq.entries, err := t.cq.err }
      | none => t.cq) }
  let d2 := ((d1.dropSets y).modTask y undo).dropMatrix y
  let d3 : Dev := { d2 with ops := Tab.keep d2.ops (fun _ o => !decide (o.task = y ∧ o.st = .ended)) }
  d3.dropTrailers y

/-- What wound-wait says of one set a task needs (R203): the tasks to wound, and whether any holder is left to wait for. -/
def Dev.settle (d : Dev) (x id : Nat) : List Nat × Bool :=
  match d.task? x with
  | none => ([], false)
  | some t =>
    let s := Tab.get { base := 0, len := 0, acquired := false } t.sets id
    let hs := d.holders x s.base s.len
    let mine := decide (t.token = .held)
    let hurt := hs.filter (fun h => match d.task? h with
      | some k => !d.inCommit k && (mine || (decide (t.age < k.age) && !decide (k.token = .held)))
      | none => false)
    (hurt, !hs.isEmpty)

/-- Acquiring sets of a task; the first acquisition keeps the copy queue as it stands, and makes the request that AIRREV recorded
(R204, R207, R208). -/
def Dev.acquire (d : Dev) (x : Nat) (ids : List Nat) : Dev :=
  if ids.isEmpty then d
  else d.modTask x (fun t => { t with
    cqFirst := (if t.cqFirst.isNone then some t.cq else t.cqFirst),
    token := (if t.token = .recorded then .atFirst else t.token),
    sets := ids.foldl (fun ss i => Tab.modify ss i (fun r => { r with acquired := true })) t.sets })

/-- What must be settled before a word's lanes may perform (R202, R203, R206, R207): the sets its G ranges meet, each acquired at once where no other
task's stands against it, and the token for an access a wound could not undo, and for one that has waited for its sets after an AIRREV. Answers the state
with its acquisitions, or the stalled one. -/
def State.settleSets (s : State) (ranges : List (Nat × Nat)) (irrevocable : Bool) : State ⊕ State :=
  if s.iss.slot = handlerSlot then .inl s
  else match s.dev.task? s.taskId with
    | none => .inl s
    | some t =>
      let x := s.taskId
      let ids := t.touched ranges
      let free := ids.filter (fun i => !(s.dev.settle x i).2)
      let rest := ids.filter (fun i => (s.dev.settle x i).2)
      let hurt := (rest.flatMap (fun i => (s.dev.settle x i).1)).eraseDups
      if !rest.isEmpty then
        .inr (s.stall (.stallSet rest) (fun d => hurt.foldl Dev.wound (d.acquire x free)))
      else
        let s1 := s.modDev (fun d => d.acquire x ids)
        let holds := (t.sets.any (fun p => p.2.acquired)) || !ids.isEmpty
        let waited := match s.dev.split? s.iss.core s.iss.slot s.iss.split with
          | some x => decide (x.tried = 6)
          | none => false
        let wants := (irrevocable && !decide (t.token = .held)) || decide (t.token = .recorded) || (decide (t.token = .atFirst) && waited)
        if holds && wants then
          .inr (s.stall .stallToken (fun d => (d.acquire x ids).modTask x (fun k => { k with token := .requested })))
        else .inl s1

/-- The lines that a task's queued MTST entries will write, as far as they translate (R231). -/
def Dev.queuedLines (d : Dev) (core t : Nat) : List Nat :=
  ((d.core core).mq.filter (fun e => decide (e.task = t ∧ e.started = none))).flatMap (fun e => match e.kind with
    | .mtst _ dst pitch f =>
      ((List.range 64).flatMap (fun i => linesOf (dst + i * pitch) (64 * elemBytes f))).filterMap (fun l =>
        match (d.translate (d.slotCtx core e.slot) .write (128 * l % 2 ^ 54)).out with
        | .ok p => if p.loc.sp = .hbm then some (p.loc.a / 128) else none
        | .error _ => none)
    | _ => [])

/-- The lines of the tentative capacity that a task has taken or will take with what it has issued (R14, R206). -/
def Dev.tentTaken (d : Dev) (core : Nat) (t : Nat × Task) : List Nat :=
  if t.2.sets.any (fun p => p.2.acquired) && !decide (t.2.token = .held) then
    let open_ := d.ops.flatMap (fun o => if o.2.task = t.1 ∧ o.2.core = core ∧ o.2.tent = true
      then (o.2.parts.filter (fun p => !p.done && decide (p.loc.sp = .hbm))).map (fun p => p.loc.a / 128) else [])
    (tentLines t.2 ++ open_ ++ d.queuedLines core t.1).eraseDups
  else tentLines t.2

/-- Whether writes to these places by a task that holds sets, or comes to hold them with this word (will), would need more than the tentative capacity of
its core's L1, which the core's resident tasks share (R14, R206). -/
def Dev.tentFull (d : Dev) (core x : Nat) (will : Bool) (l : List Loc) : Bool :=
  match d.task? x with
  | none => false
  | some t =>
    (will || t.sets.any (fun p => p.2.acquired)) && !decide (t.token = .held) &&
      (let others := ((d.tasks.filter (fun kt => decide (kt.2.core = core ∧ kt.1 ≠ x) && !kt.2.slots.isEmpty)).map
          (fun kt => (d.tentTaken core kt).length)).foldl (· + ·) 0
       decide (others + (d.tentTaken core (x, t) ++ (l.filter (fun (q : Loc) => decide (q.sp = .hbm))).map (fun (q : Loc) => q.a / 128)).eraseDups.length > 1024))

/-! ## Redundant pairs (R405) -/

/-- The group's partner slot. -/
def State.partner (s : State) : Group := s.dev.group s.grp.partner.1 s.grp.partner.2

/-- The leader's entry for a word in the pair's buffer: the leader's own slot keeps it. -/
def Group.pushEntry (g : Group) (e : PairEntry) : Group := { g with pairBuf := g.pairBuf ++ [e] }

/-- The kind of the checkpoint a group stands at. -/
def Group.checkKind (g : Group) : Option Nat := g.atCheckpoint.map (fun k => k % 8)

/-- The entry of a word that the leader has performed since the pair's checkpoint, which it does not perform again (R405). -/
def performedEntry (l : List PairEntry) : Option PairEntry := l.find? (fun e => decide (e.cat = 2) && e.matched)

/-- Restoring a group of a pair from its checkpoint (R406); a register that an operation left standing still owes stays awaited. A word that the leader has
performed since stays performed: the checkpoint stands taken for it (R407). -/
def Group.restoreCheckpoint (g : Group) (gone : List Nat) (done : Option PairEntry) : Group :=
  match g.checkpoint with
  | some c => { g with
      regs := c.regs, splits := c.splits, stack := c.stack
      pairBuf := if g.role = .leader then done.toList else []
      notReady := g.notReady.filter (fun r => !gone.contains r.2),
      cl := g.cl.filter (fun c => !gone.contains c.op), cs := g.cs.filter (fun c => !gone.contains c.op)
      rollbacks := min (g.rollbacks + 1) (2 ^ 32 - 1), rollRun := g.rollRun + 1
      atCheckpoint := if done.isSome then g.atCheckpoint.map (fun k => 3 + 8 * (k / 8)) else none }
  | none => g

/-- A rollback of a pair (R406): the loads and stores since go, but a word performed once stays performed; both groups go back to their last checkpoint and the matrix exception
counters with them; a third without a checkpoint between raises cause 0x15 in the leader and dissolves the pair. -/
def Dev.rollPair (d : Dev) (core slot : Nat) : Dev :=
  let g := d.group core slot
  let (lc, ls, tc, ts) := if g.role = .trailer then (g.partner.1, g.partner.2, core, slot) else (core, slot, g.partner.1, g.partner.2)
  let lead := d.group lc ls
  let done := performedEntry lead.pairBuf
  let gone := Tab.keys (Tab.keep d.ops (fun n o =>
    decide (done.map (fun e => e.op) ≠ some n) && decide ((o.core = lc ∧ o.slot = ls ∧ (o.ctr = .cl ∨ o.ctr = .cs)) ∨ (o.core = tc ∧ o.slot = ts))))
  let d0 := d.abandonOps gone
  let d1 := (({ d0 with ops := Tab.keep d0.ops (fun n _ => !gone.contains n) }).modGroup lc ls (fun g => g.restoreCheckpoint gone done)).modGroup tc ts
    (fun g => g.restoreCheckpoint gone done)
  let d2 := match lead.checkpoint with
    | some c => d1.modTask lead.task (fun t => { t with mxc := c.mxc, restarts := (t.restarts + 1) % 2 ^ 32 })
    | none => d1
  if lead.rollRun ≥ 2 then
    let s0 := (d2.group lc ls).splits.findIdx? Option.isSome
    let sp := (d2.group lc ls).splits.getD (s0.getD 0) none
    let d3 := d2.dissolve lc ls
    match sp with
    | some x => d3.raiseTrap lc ls (s0.getD 0) x.mask x.pos (TrapInfo.plain 0x15)
    | none => d3
  else d2

/-- The signature of a memory word (R405). -/
def pairSig (kind : Nat) (parts : List LanePart) : W32 :=
  Config.pairSignature (kind :: parts.flatMap (fun p => [p.lane, p.addr, p.data.toNat]))

end Sys2Proof.Machine
end

