-- ==== Sys2Proof/Machine/MemWords.lean ====
section
/-! DEFINITION. The words of the M pipe: loads and stores of the five levels, uniform and generic forms, prefetch, barrier words,
monitors, release and acquire, atomics, reductions and the words of atomic sets (R144 to R168, R178, R179, R186 to R213). -/

namespace Sys2Proof.Machine

/-! ## A memory word as a whole -/

/-- A memory word before its checks: counter, kind, kind of access, bytes a lane moves, scope, registers it will write, its acting lanes
with the generic address or offset of each, how a lane is checked, and each lane's data. -/
structure MemWord where
  ctr : Ctr
  kind : OpKind
  n : Nat
  scope : Nat
  regs : List RegName
  lanes : List Nat
  addr : Nat → Nat
  check : State → Nat → State × Except TrapInfo Access
  data : Nat → BitVec 128

/-- The effective cache code of an access: the word's own field, or the policy of its page (R153). -/
def State.cacheCode (s : State) (a : Access) : Nat :=
  if a.lv ≠ .g then 0 else if s.cacheField ≠ 0 then s.cacheField else leafCache a.leaf + 1

/-- The part of a lane whose access passed its checks, with what its page says of it (R153, R197, R272). -/
def State.partOf (s : State) (lane addr n : Nat) (data : BitVec 128) (a : Access) : LanePart :=
  { lane := lane, loc := a.loc, addr := addr, n := n, data := data, done := false, cache := s.cacheCode a,
    swa := decide (a.lv = .g) && leafSwa a.leaf, gran := leafGran a.leaf }

/-- The lane parts of a word whose lanes passed their checks. -/
def MemWord.parts (w : MemWord) (s : State) (as : List (Nat × Access)) : List LanePart :=
  as.map (fun a => s.partOf a.1 (w.addr a.1) w.n (w.data a.1) a.2)

/-- The ranges of G that lanes reach, by virtual address (R202). -/
def gRanges (w : MemWord) (as : List (Nat × Access)) : List (Nat × Nat) :=
  (as.filter (fun a => decide (a.2.lv = .g))).map (fun a => (w.addr a.1, w.n))

/-- Whether a word makes a writing access that a wound could not undo: to a remote or CXL-attached page, or into a tentative copy for
which the core has no room (R206). -/
def State.irrevocable (s : State) (w : MemWord) (as : List (Nat × Access)) : Bool :=
  let will := match s.dev.task? s.taskId with
    | some t => !(t.touched (gRanges w as)).isEmpty
    | none => false
  w.kind.writes && (as.any (fun a => a.2.loc.isRemote || decide (a.2.loc.sp = .cxl))
    || s.dev.tentFull s.iss.core s.taskId will (as.map (fun a => a.2.loc)))

/-- The widest level scope the lanes of a word reach, or its own (R65). -/
def MemWord.wide (w : MemWord) (as : List (Nat × Access)) : Nat := as.foldl (fun sc a => levelScope a.2.lv sc) w.scope

/-- The operation of a word whose checks, sets and room are settled. -/
def State.begin (s : State) (w : MemWord) (as : List (Nat × Access)) (st : OpState) : State :=
  s.newOp w.ctr w.kind (w.parts s as) (w.wide as) w.regs st

/-! ## Redundant pairs (R405) -/

/-- The leader's slot of the pair a slot belongs to. -/
def Dev.leaderOf (d : Dev) (core slot : Nat) : Nat × Nat :=
  let g := d.group core slot
  if g.role = .trailer then g.partner else (core, slot)

/-- Both slots of a pair. -/
def Dev.pairSlots (d : Dev) (core slot : Nat) : List (Nat × Nat) := [(core, slot), (d.group core slot).partner]

/-- The entries of a pair, which its leader keeps. -/
def Dev.entries (d : Dev) (core slot : Nat) : List PairEntry :=
  let l := d.leaderOf core slot
  (d.group l.1 l.2).pairBuf

/-- The entries of a pair replaced. -/
def Dev.setEntries (d : Dev) (core slot : Nat) (l : List PairEntry) : Dev :=
  let k := d.leaderOf core slot
  d.modGroup k.1 k.2 (fun g => { g with pairBuf := l })

/-- Marking the first unmatched entry of a pair, which for a load leaves the queue; the last matched store signature is kept (R405). -/
def matchFirst : List PairEntry → List PairEntry
  | [] => []
  | e :: l =>
    if e.matched then e :: matchFirst l
    else if e.cat = 1 then l
    else { e with matched := true } :: l

/-- The first entry the trailer has not matched. -/
def firstUnmatched (l : List PairEntry) : Option PairEntry := l.find? (fun e => !e.matched)

/-- A checkpoint standing at a group. -/
def Dev.setCheckpoint (d : Dev) (core slot code : Nat) : Dev :=
  d.modGroup core slot (fun g => { g with atCheckpoint := some code })

/-- The trailer's registers take the values the leader's operation bound (R405). -/
def Regs.take (r : Regs) (k : OpKind) (ps : List LanePart) (vs : List (Nat × BitVec 128)) : Regs :=
  ps.foldl (fun r p =>
    match vs.find? (fun v => decide (v.1 = p.lane)), k with
    | some v, .load d sext => r.bindV d p.lane p.n sext v.2.toNat
    | some v, .loadU d => r.writeS d.toNat (v.2.truncate 64)
    | some v, .atom _ d => r.writeV d p.lane (v.2.truncate 32)
    | _, _ => r) r

/-- A mismatch: the issue group has no effect and the pair rolls back (R406). -/
def State.mismatch (s : State) : State :=
  { s with dev := s.rollback.rollPair s.iss.core s.iss.slot, iss := Issue.closed }

/-- Whether the group that issues is one of a pair. -/
def State.paired (s : State) : Bool := decide (s.old.role ≠ .none)

/-- The stores a pair holds, as the group that issues has come to them: the leader's all, the trailer's those it has matched (R405). -/
def State.pairHeld (s : State) : Nat :=
  ((s.iss.base.entries s.iss.core s.iss.slot).filter (fun e => decide (e.cat = 0) && (e.matched || decide (s.old.role = .leader)))).length

/-- A word that cannot go on while its pair holds stores brings an implicit checkpoint: its group stands at it with the word still to issue (R171, R405,
log entry 45). -/
def State.stopAtCheckpoint (s : State) : State :=
  s.stall .stallPair (fun d => (d.setCheckpoint s.iss.core s.iss.slot 4).wakeStalls)

/-- The leader's load or store: a store is held until a checkpoint, and stalls 32 unmatched stores ahead; a load stalls when its queue of
64 is full (R405). -/
def State.leaderWord (s : State) (w : MemWord) (as : List (Nat × Access)) (cat : Nat) (sig : W32) : State :=
  let c := s.iss.core
  let sl := s.iss.slot
  let l := s.dev.entries c sl
  let open_ := (l.filter (fun e => decide (e.cat = cat) && !e.matched)).length
  if (cat = 0 ∧ 32 ≤ open_) ∨ (cat = 1 ∧ 64 ≤ open_) then s.stall .stallPair id
  else
    let n := s.dev.nextOp
    let s1 := s.begin w as (if cat = 0 then .held else .going)
    s1.modDev (fun d => (d.setEntries c sl (l ++ [{ cat := cat, sig := sig, matched := false, op := n, values := [] }])).wakeStalls)

/-- What a trailer's word does that finds nothing to match: it waits, or stands with its leader at an implicit checkpoint; a leader at another checkpoint
has not issued the word, which is a mismatch (R405, R406). -/
def State.trailerWaits (s : State) : State :=
  match (s.dev.group s.old.partner.1 s.old.partner.2).checkKind with
  | some 4 => s.stopAtCheckpoint
  | some 0 => s.mismatch
  | some 1 => s.mismatch
  | _ => s.stall .stallPair id

/-- The trailer's load or store: it must match the leader's next entry, touches no memory, and takes a load's forwarded values (R405). -/
def State.trailerWord (s : State) (w : MemWord) (as : List (Nat × Access)) (cat : Nat) (sig : W32) : State :=
  let c := s.iss.core
  let sl := s.iss.slot
  let l := s.dev.entries c sl
  match firstUnmatched l with
  | none => s.trailerWaits
  | some e =>
    if e.cat ≠ cat ∨ e.sig ≠ sig then s.mismatch
    else if cat = 1 ∧ (s.dev.op? e.op).isSome then s.stall .stallPair id
    else
      let s1 := s.modGrp (fun g => if cat = 1 then { g with regs := g.regs.take w.kind (w.parts s as) e.values } else g)
      s1.modDev (fun d =>
        let d1 := (d.setEntries c sl (matchFirst l)).wakeStalls
        if cat = 0 then (d.pairSlots c sl).foldl (fun d x => d.modGroup x.1 x.2 (fun g => { g with lastSig := sig })) d1 else d1)

/-- The entry of the word that the issuing group stands at a checkpoint for, once the leader has performed it. -/
def State.pairDone (s : State) : Option PairEntry :=
  if s.old.checkKind = some 3 then performedEntry (s.dev.entries s.iss.core s.iss.slot) else none

/-- Whether the issuing group takes results rather than perform the word: the trailer, and a leader rolled back after it performed the word (R405). -/
def State.pairFollows (s : State) : Bool := decide (s.old.role = .trailer) || (decide (s.old.role = .leader) && s.pairDone.isSome)

/-- The gate of a pair's atomic, barrier-word or monitor word (R405): both groups stop at it with equal signatures, a checkpoint is
taken, and only then does the leader go on; the trailer goes on when the leader has performed it. Answers what to do now: go on, or the state that
stands in its place. -/
def State.pairGate (s : State) (sig : W32) : Option State :=
  let c := s.iss.core
  let sl := s.iss.slot
  let g := s.old
  let l := s.dev.entries c sl
  match g.role with
  | .none => none
  | .leader =>
    if g.checkKind = some 3 then
      (if g.atCheckpoint ≠ some (3 + 8 * s.iss.split) then some (s.stall .stallPair id)
      else match s.pairDone with
        | some e => if (s.dev.op? e.op).isSome then some (s.stall .stallPair id) else none
        | none => none)
    else some (s.stall .stallPair (fun d =>
      ((d.setEntries c sl (l ++ [{ cat := 2, sig := sig, matched := false, op := 0, values := [] }])).setCheckpoint c sl (2 + 8 * s.iss.split)).wakeStalls))
  | .trailer =>
    if g.checkKind = some 3 then
      match s.pairDone with
      | some e => if (s.dev.op? e.op).isSome ∨ g.atCheckpoint ≠ some (3 + 8 * s.iss.split) then some (s.stall .stallPair id) else none
      | none => some (s.stall .stallPair id)
    else match firstUnmatched l with
      | none => some s.trailerWaits
      | some e =>
        if e.cat ≠ 2 ∨ e.sig ≠ sig then some s.mismatch
        else some (s.stall .stallPair (fun d => (d.setEntries c sl (matchFirst l)).setCheckpoint c sl (2 + 8 * s.iss.split)))

/-- What follows the performed word in a pair: the leader leaves its results in an entry, and a further checkpoint is due (R405). -/
def State.pairAfter (s : State) (op : Nat) (values : List (Nat × BitVec 128)) : State :=
  let c := s.iss.core
  let sl := s.iss.slot
  match s.old.role with
  | .none => s
  | .leader =>
    if s.pairFollows then s.modDev (fun d => d.setCheckpoint c sl (5 + 8 * s.iss.split))
    else s.modDev (fun d =>
      ((d.setEntries c sl (d.entries c sl ++ [{ cat := 2, sig := 0, matched := true, op := op, values := values }])).setCheckpoint c sl
        (5 + 8 * s.iss.split)).wakeStalls)
  | .trailer => s.modDev (fun d => d.setCheckpoint c sl (5 + 8 * s.iss.split))

/-- The results the leader left. -/
def State.pairResults (s : State) : List (Nat × BitVec 128) :=
  match s.pairDone with
  | some e => e.values
  | none => []

/-! ## Issuing a memory word -/

/-- The category of a word in a pair (R405). -/
def OpKind.cat : OpKind → Nat
  | .load _ _ => 1
  | .loadU _ => 1
  | .store => 0
  | _ => 2

/-- A memory word whose lanes passed and whose sets are settled. A pair's store or load that has no room, and its RELST, first have the held stores
performed (R178, R405). -/
def State.enter (s : State) (w : MemWord) (as : List (Nat × Access)) (st : OpState) : State :=
  let ps := w.parts s as
  let full := s.mustStall w.ctr (!(entryLines ps).isEmpty)
  if !s.paired then (if full then s.stall .stallEngine id else s.begin w as st)
  else
    let sig := pairSig w.kind.cat ps
    match w.kind.cat, s.old.role with
    | 2, _ =>
      match s.pairGate sig with
      | some s1 => s1
      | none =>
        if s.pairFollows then
          (s.modGrp (fun g => { g with regs := g.regs.take w.kind ps s.pairResults })).pairAfter 0 []
        else if full then s.stall .stallEngine id
        else (s.begin w as st).pairAfter s.dev.nextOp []
    | c, .trailer => if st = .held ∧ 0 < s.pairHeld then s.stopAtCheckpoint else s.trailerWord w as c sig
    | c, _ =>
      if (full ∨ st = .held) ∧ 0 < s.pairHeld then s.stopAtCheckpoint
      else if full then s.stall .stallEngine id
      else s.leaderWord w as c sig

/-- A memory word: with no acting lane it does nothing; a lane that fails a check traps; sets are acquired; then it enters its counter
(R148, R161, R170, R202). -/
def State.memWord (s : State) (w : MemWord) (st : OpState) : State :=
  if w.lanes.isEmpty then s
  else
    match s.checkLanes w.check w.lanes with
    | (s1, .error t) => s1.takeTrap t
    | (s1, .ok as) =>
      match s1.settleSets (gRanges w as) (s1.irrevocable w as) with
      | .inr s2 => s2
      | .inl s2 => s2.enter w as st

/-! ## Loads and stores of the levels (R160, R161) -/

/-- Bytes of a size code (R71). -/
def sizeBytes (z : Nat) : Nat :=
  match z with
  | 0 => 1 | 1 => 2 | 2 => 4 | 3 => 8 | 4 => 16 | 5 => 1 | _ => 2

/-- Whether a size code sign-extends (R71). -/
def sizeSigned (z : Nat) : Bool := decide (z = 5 ∨ z = 6)

/-- What an index is multiplied by: 1, or the access size (R71). -/
def scaleOf (x : BitVec 1) (n : Nat) : Nat := if x = 1 then n else 1

/-- Store data of a lane: consecutive registers, the first the least significant (R160). -/
def State.laneData (s : State) (d : VReg) (n lane : Nat) : BitVec 128 :=
  BitVec.ofNat 128 ((List.range (max 1 (n / 4))).foldl (fun x k => x + (s.rdV (d + BitVec.ofNat 7 k) lane).toNat * 2 ^ (32 * k)) 0)

/-- The default scope of a level (R65). -/
def levelDefault (lv : Level) : Nat :=
  match lv with
  | .p => 0 | .s => 0 | .c => 1 | _ => 3

/-- A level load. -/
def State.levelLoad (s : State) (lv : Level) (z : BitVec 4) (d : VReg) (b : SReg) (v : VReg) (x : BitVec 1) : State :=
  let n := sizeBytes z.toNat
  let addr := s.laneAddr b v (scaleOf x n)
  let kind := OpKind.load d.toNat (sizeSigned z.toNat)
  s.memWord
    { ctr := .cl, kind := kind, n := n, scope := s.scopeOr (levelDefault lv), regs := kind.regs n, lanes := lanesOf s.acting,
      addr := addr, check := fun st i => st.checkAt lv .read i (addr i) (addr i) n, data := fun _ => 0 } .going

/-- A level store. -/
def State.levelStore (s : State) (lv : Level) (z : BitVec 4) (d : VReg) (b : SReg) (v : VReg) (x : BitVec 1) : State :=
  let n := sizeBytes z.toNat
  let addr := s.laneAddr b v (scaleOf x n)
  s.memWord
    { ctr := .cs, kind := .store, n := n, scope := s.scopeOr (levelDefault lv), regs := [], lanes := lanesOf s.acting,
      addr := addr, check := fun st i => st.checkAt lv .write i (addr i) (addr i) n, data := s.laneData d n } .going

/-- LD.P (R160). -/
def execLdP (z : BitVec 4) (d : VReg) (b : SReg) (v : VReg) (x : BitVec 1) (s : State) : Out := .next (s.levelLoad .p z d b v x)
/-- ST.P (R160). -/
def execStP (z : BitVec 4) (d : VReg) (b : SReg) (v : VReg) (x : BitVec 1) (s : State) : Out := .next (s.levelStore .p z d b v x)
/-- LD.S (R160). -/
def execLdS (z : BitVec 4) (d : VReg) (b : SReg) (v : VReg) (x : BitVec 1) (s : State) : Out := .next (s.levelLoad .s z d b v x)
/-- ST.S (R160). -/
def execStS (z : BitVec 4) (d : VReg) (b : SReg) (v : VReg) (x : BitVec 1) (s : State) : Out := .next (s.levelStore .s z d b v x)
/-- LD.C (R160). -/
def execLdC (z : BitVec 4) (d : VReg) (b : SReg) (v : VReg) (x : BitVec 1) (s : State) : Out := .next (s.levelLoad .c z d b v x)
/-- ST.C (R160). -/
def execStC (z : BitVec 4) (d : VReg) (b : SReg) (v : VReg) (x : BitVec 1) (s : State) : Out := .next (s.levelStore .c z d b v x)
/-- LD.K (R160). -/
def execLdK (z : BitVec 4) (d : VReg) (b : SReg) (v : VReg) (x : BitVec 1) (s : State) : Out := .next (s.levelLoad .k z d b v x)
/-- ST.K (R160). -/
def execStK (z : BitVec 4) (d : VReg) (b : SReg) (v : VReg) (x : BitVec 1) (s : State) : Out := .next (s.levelStore .k z d b v x)
/-- LD.G (R160). -/
def execLdG (z : BitVec 4) (d : VReg) (b : SReg) (v : VReg) (x : BitVec 1) (s : State) : Out := .next (s.levelLoad .g z d b v x)
/-- ST.G (R160). -/
def execStG (z : BitVec 4) (d : VReg) (b : SReg) (v : VReg) (x : BitVec 1) (s : State) : Out := .next (s.levelStore .g z d b v x)

/-! ## Generic and uniform forms (R162, R163) -/

/-- Every level. -/
def anyLevel (_ : Level) : Bool := true
/-- Every level but P, for a uniform address (R150). -/
def notP (lv : Level) : Bool := decide (lv ≠ .p)
/-- G, C and K, for atomics (R187). -/
def atomLevel (lv : Level) : Bool := decide (lv = .g ∨ lv = .c ∨ lv = .k)
/-- S and C, for barrier words (R166). -/
def barLevel (lv : Level) : Bool := decide (lv = .s ∨ lv = .c)

/-- The lane a uniform word is performed for, as trap records name it: the lowest acting one. -/
def State.uniLanes (s : State) : List Nat := (lanesOf s.acting).take 1

/-- A per-lane 32-bit load at generic addresses (R163). -/
def State.genericLoad (s : State) (d : VReg) (b : SReg) (v : VReg) (x : BitVec 1) : State :=
  let addr := s.laneAddr b v (scaleOf x 4)
  s.memWord
    { ctr := .cl, kind := .load d.toNat false, n := 4, scope := s.scopeOr 3, regs := (OpKind.load d.toNat false).regs 4,
      lanes := lanesOf s.acting, addr := addr, check := fun st i => st.checkGeneric anyLevel .read i (addr i) 4,
      data := fun _ => 0 } .going

/-- A per-lane 32-bit store at generic addresses (R163, R178). -/
def State.genericStore (s : State) (d : VReg) (b : SReg) (v : VReg) (x : BitVec 1) (st : OpState) : State :=
  let addr := s.laneAddr b v (scaleOf x 4)
  s.memWord
    { ctr := .cs, kind := .store, n := 4, scope := s.scopeOr 3, regs := [], lanes := lanesOf s.acting, addr := addr,
      check := fun st i => st.checkGeneric anyLevel .write i (addr i) 4, data := s.laneData d 4 } st

/-- LDU (R162). -/
def execLdu (d b : SReg) (s : State) : Out :=
  let a := s.uniAddr b
  .next (s.memWord
    { ctr := .cl, kind := .loadU d, n := 8, scope := s.scopeOr 3, regs := (OpKind.loadU d).regs 8, lanes := s.uniLanes,
      addr := fun _ => a, check := fun st i => st.checkGeneric notP .read i a 8, data := fun _ => 0 } .going)

/-- STU (R162). -/
def execStu (d b : SReg) (s : State) : Out :=
  let a := s.uniAddr b
  .next (s.memWord
    { ctr := .cs, kind := .store, n := 8, scope := s.scopeOr 3, regs := [], lanes := s.uniLanes, addr := fun _ => a,
      check := fun st i => st.checkGeneric notP .write i a 8, data := fun _ => (s.rdS d).zeroExtend 128 } .going)

/-- LDA (R163). -/
def execLda (d : VReg) (b : SReg) (v : VReg) (x : BitVec 1) (s : State) : Out := .next (s.genericLoad d b v x)

/-- STA (R163). -/
def execSta (d : VReg) (b : SReg) (v : VReg) (x : BitVec 1) (s : State) : Out := .next (s.genericStore d b v x .going)

/-! ## Prefetch (R164) -/

/-- One lane of a prefetch: the place its address translates to by a TLB hit alone, if it passes every check (R164, R276); a peer's memory is not asked, whose owner
could open a ticket. -/
def Dev.prefetchPlace (d : Dev) (core slot a : Nat) : Option Access :=
  if a / 2 ^ 54 ≠ 0 then none
  else
    let x := { d.slotCtx core slot with spec := true }
    match d.tlbLookup x .read a with
    | none => none
    | some e =>
      let pl := leafPlace e.leaf.toNat (levelOf e.size) a
      if (leafCheck x .read e.leaf.toNat (levelOf e.size)).isSome ∨ !d.placeHedge pl x.world ∨ pl.isRemote then none
      else some { loc := pl, leaf := e.leaf.toNat, lv := .g }

/-- A prefetch: its lines come in S state as its operation ends, which takes an entry of the shared part and counts in no counter; what it cannot do it
drops (R17, R164). A trailer touches no memory (R405). -/
def State.prefetch (s : State) (l1 : Bool) (b : SReg) (v : VReg) (x : BitVec 1) : State :=
  let addr := s.laneAddr b v (scaleOf x 4)
  let ps := (lanesOf s.acting).filterMap (fun i =>
    (s.dev.prefetchPlace s.iss.core s.iss.slot (addr i)).map (s.partOf i (addr i) 1 0))
  if s.dev.sharedFree s.iss.core = 0 ∨ ps.isEmpty ∨ s.old.role = .trailer then s
  else
    let n := s.dev.nextOp
    let o : Op :=
      { core := s.iss.core, slot := s.iss.slot, task := s.taskId, ctr := .cl, kind := .pref l1, parts := ps, scope := 3, tent := false,
        pos := s.iss.pos, st := .going, waits := [], held := (entryLines ps).take 1 }
    s.modDev (fun d => { d with ops := Tab.insert d.ops n o, nextOp := n + 1 })

/-- PREF.l1 (R164). -/
def execPrefL1 (b : SReg) (v : VReg) (x : BitVec 1) (s : State) : Out := .next (s.prefetch true b v x)

/-- PREF.l2 (R164). -/
def execPrefL2 (b : SReg) (v : VReg) (x : BitVec 1) (s : State) : Out := .next (s.prefetch false b v x)

/-! ## Acquire and release (R178, R179) -/

/-- ACQLD: the load, then the split waits until CL = 0; at domain and system scope clean copies of remote and CXL lines are dropped as
the wait ends (R179). -/
def execAcqld (d : VReg) (b : SReg) (v : VReg) (x : BitVec 1) (s : State) : Out :=
  let s1 := s.genericLoad d b v x
  if s1.iss.open_ then
    .next (s1.park (.acqld (s.scopeOr 3) (s1.grp.covers [0, 63, 63, 63])))
  else .next s1

/-- The trap that a covered failed operation makes a wait raise (R173, R229, R252, R400). -/
def TrapRec.info (r : TrapRec) : TrapInfo :=
  { cause := r.cause, sub := r.sub, tcode := r.tcode, kind := r.kind, orig := r.orig, addr := r.addr, tkt := r.tkt, lane := r.lane }

/-- A failed operation, once its trap is raised, raises none again; its registers stay not ready (R173). -/
def Group.dropFailure (g : Group) (f : FailRec) : Group :=
  let clear (l : List Count) : List Count := l.map (fun c => if c.op = f.op then { c with bad := none } else c)
  { g with notReady := g.notReady.map (fun p => if p.2 = f.op then (p.1, 0) else p), failed := g.failed.filter (fun x => x.op ≠ f.op), cl := clear g.cl, cs := clear g.cs, cc := clear g.cc, ct := clear g.ct }

/-- Ending an issue group at a failure that one of its words covers: it traps with the failure's record (R173). -/
def State.takeFailure (s : State) (f : FailRec) : State :=
  let s1 := s.takeTrap f.tr.info
  { s1 with dev := s1.dev.modGroup s.iss.core s.iss.slot (fun g => g.dropFailure f) }

/-- RELST: its checks come first; its store is held until CS is 0 and the group's earlier stores are performed at its scope, and the wait takes
place even when no lane acts (R178). In a pair the earlier stores are performed at a checkpoint before it, a failure among them traps here, and its own
store goes out at the next checkpoint, once they stand at its scope (R173, R405). -/
def execRelst (d : VReg) (b : SReg) (v : VReg) (x : BitVec 1) (s : State) : Out :=
  let cov := s.grp.covers [63, 0, 63, 63]
  let n := s.dev.nextOp
  let s1 := s.genericStore d b v x .held
  if !s1.iss.open_ then .next s1
  else if s.paired then
    if s.acting = 0 ∧ 0 < s.pairHeld then .next s.stopAtCheckpoint
    else match s.grp.coveredFailure cov with
      | some f => .next (s.takeFailure f)
      | none => .next s1
  else
    let s2 := if s1.dev.nextOp = n then s1.newOp .cs .store [] (s.scopeOr 3) [] .held else s1
    .next (s2.park (.relst n (s.scopeOr 3) cov))

/-! ## Barrier words (R165, R166, R168) -/

/-- Whether a group has stores that are not performed. -/
def Dev.storesOut (d : Dev) (core slot : Nat) : Bool :=
  d.ops.any (fun o => decide (o.2.core = core ∧ o.2.slot = slot ∧ o.2.ctr = .cs))

/-- The stores that the words ahead in the issuing group have brought are performed, as far as they lie on this device, before a word that waits for the
group's stores goes on (R166, R178, log entry 93). -/
def State.ownStores (s : State) : State :=
  if s.dev.storesOut s.iss.core s.iss.slot then
    s.modDev (fun d => (d.ops.filter (fun o => decide (o.2.core = s.iss.core ∧ o.2.slot = s.iss.slot ∧ o.2.ctr = .cs ∧ o.2.st = .going))).foldl
      (fun d o => d.performOp o.1) d)
  else s

/-- The word after an arrival, none when the word is malformed (R166). -/
def barArrive (old : Nat) : Option Nat :=
  let target := bits old 30 16
  let n := bits old 15 0 + 1
  if target = 0 ∨ bits old 15 0 ≥ target then none
  else if n = target then some ((if bit old 31 then 0 else 2 ^ 31) + target * 65536)
  else some (bits old 31 16 * 65536 + n)

/-- A count that has ended as soon as it was raised. -/
def State.countOnce (s : State) (c : Ctr) : State :=
  let n := s.dev.nextOp
  (s.modDev (fun d => { d with nextOp := n + 1 })).modGrp (fun g => ((g.raise c n).endOp c n none).endCounts c)

/-- The check of a uniform word's address: the state with the walk's updates, and the trap or the access. -/
def State.uniCheck (s : State) (ok : Level → Bool) (k : AccKind) (b : SReg) (n : Nat) : State × Except TrapInfo Access :=
  s.checkGeneric ok k ((s.uniLanes.head?).getD 0) (s.uniAddr b) n

/-- A barrier word at its address: the arrival of BARW and BARA once the group's stores are performed, then what follows from the old
word. The trailer of a pair takes the old word that the leader read (R405). -/
def State.barArrival (s : State) (b : SReg) (after : State → Loc → Nat → State) : State :=
  if !s.performs then s
  else match s.uniCheck barLevel .rmw b 4 with
    | (s1, .error t) => s1.takeTrap t
    | (s1, .ok a) =>
      let sig := pairSig 2 [{ lane := 0, loc := a.loc, addr := s.uniAddr b, n := 4, data := 1, done := false }]
      match s1.pairGate sig with
      | some s2 => s2
      | none =>
        if s1.pairFollows then
          (after s1 a.loc ((s1.pairResults.map (fun v => v.2.toNat)).headD 0)).pairAfter 0 []
        else if s1.iss.base.storesOut s.iss.core s.iss.slot then s1.stall .stallStores id
        else if s1.dev.engineHolds a.loc 4 then s1.stall .stallEngine id
        else
          let s2 := s1.ownStores
          let old := s2.dev.readNat a.loc 4
          match barArrive old with
          | none => s2.takeTrap (checkInfo 0x0A .rmw (s.uniAddr b) ((s.uniLanes.head?).getD 0))
          | some w =>
            (after (s2.modDev (fun d => d.perform a.loc (Bytes.ofNat 4 w))) a.loc old).pairAfter 0 [(0, BitVec.ofNat 128 old)]

/-- The split waits at a barrier word until its phase differs, unless it differs already. -/
def State.barWait (s : State) (l : Loc) (phase : Bool) : State :=
  if bit (s.dev.readNat l 4) 31 ≠ phase then s else s.park (.barrier l phase)

/-- BARW (R166). -/
def execBarw (b : SReg) (s : State) : Out :=
  .next (s.barArrival b (fun s l old => s.barWait l (bit old 31)))

/-- BARA (R166): CL counts it until S[D] is bound, which is at once. -/
def execBara (d b : SReg) (s : State) : Out :=
  if s.performs && s.mustStall .cl false then .next (s.stall .stallEngine id)
  else .next (s.barArrival b (fun s _ old => (s.wrS d (BitVec.ofNat 64 old)).countOnce .cl))

/-- BART (R166): no arrival. -/
def execBart (a b : SReg) (s : State) : Out :=
  if !s.performs then .next s
  else match s.uniCheck barLevel .read b 4 with
    | (s1, .error t) => .next (s1.takeTrap t)
    | (s1, .ok c) =>
      match s1.pairGate (pairSig 2 [{ lane := 0, loc := c.loc, addr := s.uniAddr b, n := 4, data := 0, done := false }]) with
      | some s2 => .next s2
      | none =>
        if s1.dev.engineHolds c.loc 4 then .next (s1.stall .stallEngine id)
        else .next ((s1.barWait c.loc (bit (s.rdS a).toNat 31)).pairAfter 0 [])

/-! ## Monitors (R167) -/

/-- The watched block of a place: its aligned 128 bytes. -/
def Loc.block (l : Loc) : Loc := { l with a := l.a / 128 * 128 }

/-- The fetch of a remote block for a monitor: a read of its 128 bytes, which the core then holds a copy of (R167, R177). -/
def State.fetchBlock (s : State) (a : Access) (addr : Nat) : State :=
  let n := s.dev.nextOp
  let p : LanePart := { s.partOf 0 (addr / 128 * 128) 128 0 a with loc := a.loc.block }
  let o : Op :=
    { core := s.iss.core, slot := s.iss.slot, task := s.taskId, ctr := .cl, kind := .pref true, parts := [p], scope := 3, tent := false, pos := s.iss.pos,
      st := .going, waits := [], held := [] }
  s.modDev (fun d => { d with ops := Tab.insert d.ops n o, nextOp := n + 1 }.sendParts n 0 [p])

/-- Arming the group's monitor on the block of a place; in G the line is fetched in S state, but by no trailer (R405). -/
def State.arm (s : State) (a : Access) (addr : Nat) : State :=
  let s1 := s.modGrp (fun g => { g with monitor := some a.loc.block })
  if s.old.role = .trailer then s1
  else if a.loc.isRemote then s1.fetchBlock a addr
  else if a.loc.cached then s1.modDev (fun d => (d.combineRange a.loc 1).fillL1 s.iss.core (s.cacheCode a) (leafGran a.leaf) a.loc 1)
  else s1

/-- A monitor word's address checked and its sets settled; at a block that an engine holds it waits for the recall (R158). -/
def State.monAddress (s : State) (b : SReg) (n : Nat) (k : State → Access → State) : State :=
  if !s.performs then s
  else match s.uniCheck notP .read b n with
    | (s1, .error t) => s1.takeTrap t
    | (s1, .ok a) =>
      match s1.settleSets (if a.lv = .g then [(s.uniAddr b, n)] else []) false with
      | .inr s2 => s2
      | .inl s2 =>
        match s2.pairGate (pairSig 2 [{ lane := 0, loc := a.loc, addr := s.uniAddr b, n := n, data := 0, done := false }]) with
        | some s3 => s3
        | none => if s2.dev.engineHolds a.loc n then s2.stall .stallEngine id else k s2 a

/-- MARM (R167). -/
def execMarm (b : SReg) (s : State) : Out :=
  .next (s.monAddress b 1 (fun t a => (t.arm a (s.uniAddr b)).pairAfter 0 []))

/-- Dropping the clean copies of remote and CXL lines a core and its die hold (R179). -/
def Dev.dropCopies (d : Dev) (core : Nat) : Dev :=
  let clean (x : Nat × L1Line) : Bool := decide (2 ^ 48 ≤ x.1) && decide (x.2.st = .s ∨ x.2.st = .e)
  d.modCore core (fun k => { k with copies := [], l1 := k.l1.filter (fun x => !clean x) })

/-- What an acquire at a scope does as it ends: at domain and system scope the clean copies go (R179, R185). -/
def Dev.acquired (d : Dev) (core scope : Nat) : Dev := if 4 ≤ scope then d.dropCopies core else d

/-- The condition of MWAIT (R167). -/
def mwaitHolds (ge : Bool) (w d : W64) : Bool := if ge then decide (d.toNat ≤ w.toNat) else decide (w ≠ d)

/-- A re-read of a remote word that an MWAIT waits on: sent to its owner at domain scope (R167). -/
def Dev.monitorRead (d : Dev) (core slot split addr : Nat) (l : Loc) : Dev :=
  let n := d.nextOp
  let g := d.group core slot
  let o : Op :=
    { core := core, slot := slot, task := g.task, ctr := .cl, kind := .monitor split,
      parts := [{ lane := 0, loc := l, addr := addr, n := 8, data := 0, done := false }], scope := 4, tent := false,
      pos := { pc := 0, word := 0 }, st := .going, waits := [], held := [] }
  ({ d with ops := Tab.insert d.ops n o, nextOp := n + 1 }).sendParts n 0 o.parts

/-- MWAIT: arms unless armed on the block, loads, and either takes the word and disarms or parks (R167). -/
def State.mwait (s : State) (ge : Bool) (d b : SReg) : State :=
  s.monAddress b 8 (fun s a =>
    let l := a.loc
    let s1 := if s.grp.monitor = some l.block then s else s.arm a (s.uniAddr b)
    let p : Park := .mwait ge d (s.uniAddr b) (s.scopeOr 3) l
    if s.pairFollows then
      match s.pairResults with
      | v :: _ => (s1.wrS d (v.2.truncate 64)).pairAfter 0 []
      | [] => (s1.park p).pairAfter 0 []
    else if l.isRemote then ((s1.park p).modDev (fun x => x.monitorRead s.iss.core s.iss.slot s.iss.split (s.uniAddr b) l)).pairAfter 0 []
    else
      let s2 := s1.modDev (fun x => x.combineRange l 8)
      let w : W64 := BitVec.ofNat 64 (s2.dev.seen s.iss.core s.iss.slot s.taskId s2.dev.nextOp l 8)
      if mwaitHolds ge w (s.rdS d) then
        ((((s2.wrS d w).modGrp (fun g => { g with monitor := none })).modDev (fun x => x.acquired s.iss.core (s.scopeOr 3)))).pairAfter 0
          [(0, w.zeroExtend 128)]
      else (s2.park p).pairAfter 0 [])

/-- MWAIT.ne (R167). -/
def execMwaitNe (d b : SReg) (s : State) : Out := .next (s.mwait false d b)
/-- MWAIT.ge (R167). -/
def execMwaitGe (d b : SReg) (s : State) : Out := .next (s.mwait true d b)

/-! ## Atomics and reductions (R186 to R198) -/

/-- A fetch form; for CAS the compare value is in the even register and the new value in the next (R188, R190). -/
def State.atomic (s : State) (fn : Nat) (d : VReg) (b : SReg) (v : VReg) : State :=
  let addr := s.laneAddr b v 4
  let kind := OpKind.atom fn d.toNat
  s.memWord
    { ctr := .cl, kind := kind, n := 4, scope := s.scopeOr 3, regs := kind.regs 4, lanes := lanesOf s.acting, addr := addr,
      check := fun st i => st.checkGeneric atomLevel .rmw i (addr i) 4,
      data := fun i => if fn = 10 then s.laneData d 8 i else s.laneData d 4 i } .going

/-- A reduction (R188, R193). -/
def State.reduce (s : State) (fn : Nat) (sub : Bool) (d : VReg) (b : SReg) (v : VReg) : State :=
  let addr := s.laneAddr b v 4
  s.memWord
    { ctr := .cs, kind := .red fn sub, n := 4, scope := s.scopeOr 3, regs := [], lanes := lanesOf s.acting, addr := addr,
      check := fun st i => st.checkGeneric atomLevel .rmw i (addr i) 4, data := s.laneData d 4 } .going

/-- ATOM.add (R188). -/
def execAtomAdd (d : VReg) (b : SReg) (v : VReg) (s : State) : Out := .next (s.atomic 0 d b v)
/-- ATOM.min.i (R188). -/
def execAtomMinI (d : VReg) (b : SReg) (v : VReg) (s : State) : Out := .next (s.atomic 1 d b v)
/-- ATOM.min.n (R188). -/
def execAtomMinN (d : VReg) (b : SReg) (v : VReg) (s : State) : Out := .next (s.atomic 2 d b v)
/-- ATOM.max.i (R188). -/
def execAtomMaxI (d : VReg) (b : SReg) (v : VReg) (s : State) : Out := .next (s.atomic 3 d b v)
/-- ATOM.max.n (R188). -/
def execAtomMaxN (d : VReg) (b : SReg) (v : VReg) (s : State) : Out := .next (s.atomic 4 d b v)
/-- ATOM.and (R188). -/
def execAtomAnd (d : VReg) (b : SReg) (v : VReg) (s : State) : Out := .next (s.atomic 5 d b v)
/-- ATOM.or (R188). -/
def execAtomOr (d : VReg) (b : SReg) (v : VReg) (s : State) : Out := .next (s.atomic 6 d b v)
/-- ATOM.xor (R188). -/
def execAtomXor (d : VReg) (b : SReg) (v : VReg) (s : State) : Out := .next (s.atomic 7 d b v)
/-- ATOM.xchg (R188). -/
def execAtomXchg (d : VReg) (b : SReg) (v : VReg) (s : State) : Out := .next (s.atomic 8 d b v)
/-- ATOM.add.f32 (R188). -/
def execAtomAddF32 (d : VReg) (b : SReg) (v : VReg) (s : State) : Out := .next (s.atomic 9 d b v)
/-- ATOM.cas (R190): the field names half the even register. -/
def execAtomCas (d : SReg) (b : SReg) (v : VReg) (s : State) : Out := .next (s.atomic 10 (d.zeroExtend 7 <<< 1) b v)

/-- RED.add (R193). -/
def execRedAdd (d : VReg) (b : SReg) (v : VReg) (s : State) : Out := .next (s.reduce 11 false d b v)
/-- RED.min.i (R193). -/
def execRedMinI (d : VReg) (b : SReg) (v : VReg) (s : State) : Out := .next (s.reduce 12 false d b v)
/-- RED.min.n (R193). -/
def execRedMinN (d : VReg) (b : SReg) (v : VReg) (s : State) : Out := .next (s.reduce 12 true d b v)
/-- RED.max.i (R193). -/
def execRedMaxI (d : VReg) (b : SReg) (v : VReg) (s : State) : Out := .next (s.reduce 13 false d b v)
/-- RED.max.n (R193). -/
def execRedMaxN (d : VReg) (b : SReg) (v : VReg) (s : State) : Out := .next (s.reduce 13 true d b v)
/-- RED.and (R193). -/
def execRedAnd (d : VReg) (b : SReg) (v : VReg) (s : State) : Out := .next (s.reduce 14 false d b v)
/-- RED.or (R193). -/
def execRedOr (d : VReg) (b : SReg) (v : VReg) (s : State) : Out := .next (s.reduce 14 true d b v)
/-- RED.xor (R193). -/
def execRedXor (d : VReg) (b : SReg) (v : VReg) (s : State) : Out := .next (s.reduce 15 false d b v)
/-- RED.add.f32 (R193). -/
def execRedAddF32 (d : VReg) (b : SReg) (v : VReg) (s : State) : Out := .next (s.reduce 15 true d b v)

/-! ## Atomic sets (R200, R207, R211) -/

/-- Sets declared on the device (R200). -/
def Dev.activeSets (d : Dev) : Nat := (d.tasks.map (fun t => t.2.sets.length)).foldl (· + ·) 0

/-- Whether ADECL's operands are valid for a task (R200). -/
def setValid (t : Task) (id base len : Nat) : Bool :=
  decide (base % 128 = 0 ∧ len % 128 = 0 ∧ 128 ≤ len ∧ len ≤ 2 ^ 34 ∧ base + len ≤ 2 ^ 54) && (Tab.find t.sets id).isNone

/-- ADECL (R200, R210); a pair's trailer leaves it to its leader (R405). On a full table a task that holds a set is wounded, the token holder too (DESIGN CHOICE, log entry 107). -/
def execAdecl (i : BitVec 4) (b l : SReg) (s : State) : Out :=
  if !s.performs ∨ s.old.role = .trailer then .next s
  else
    let base := (s.rdS b).toNat
    let len := (s.rdS l).toNat
    match s.dev.task? s.taskId with
    | none => .next (s.takeTrap (TrapInfo.plain 0x0B))
    | some t =>
      if !setValid t i.toNat base len then .next (s.takeTrap { TrapInfo.plain 0x0B with addr := base })
      else if 4096 ≤ s.dev.activeSets then
        if t.sets.any (fun r => r.2.acquired) then
          let x := s.taskId
          .next { s with dev := s.rollback.wound x, iss := Issue.closed }
        else .next (s.stall .stallAdecl id)
      else .next (s.modDev (fun d => d.modTask s.taskId (fun k =>
        { k with sets := Tab.insert k.sets i.toNat { base := base, len := len, acquired := false } })))

/-- The value of ASTAT (R211). -/
def Task.astat (t : Task) : Nat :=
  let mask (p : SetRec → Bool) : Nat := (t.sets.filter (fun r => p r.2)).foldl (fun x r => x + 2 ^ r.1) 0
  min (tentLines t).length 1024 * 2 ^ 34
    + (match t.token with | .none => 0 | .held => 2 | _ => 1) * 2 ^ 32
    + mask (fun _ => true) * 65536 + mask (fun r => r.acquired)

/-- ASTAT (R211): a request only recorded by AIRREV counts as requested. -/
def execAstat (d : SReg) (s : State) : Out :=
  if !s.performs then .next s
  else match s.dev.task? s.taskId with
    | some t => .next (s.wrS d (BitVec.ofNat 64 t.astat))
    | none => .next (s.wrS d 0)

/-- The token of the issuing task's world is needed: with sets acquired and no token held the split waits for it; with none acquired
nothing waits (R206). Answers the stalled state when it must wait. -/
def State.needToken (s : State) : Option State :=
  if s.iss.slot = handlerSlot then none
  else match s.dev.task? s.taskId with
    | none => none
    | some t =>
      if t.token = .held ∨ !t.sets.any (fun r => r.2.acquired) then none
      else
        let x := s.taskId
        some (s.stall .stallToken (fun d => d.modTask x (fun k => { k with token := .requested })))

/-- AIRREV (R207). -/
def execAirrev (s : State) : Out :=
  if !s.performs ∨ s.iss.slot = handlerSlot then .next s
  else match s.needToken with
    | some s1 => .next s1
    | none => .next (s.modDev (fun d => d.modTask s.taskId (fun k =>
        { k with token := if k.token = .held then .held else .recorded })))

end Sys2Proof.Machine
end

