-- ==== Sys2Proof/Machine/LifeBase.lean ====
section
/-! DEFINITION. Units that keep wear records, and the life budget: allowance, surplus and the binding surplus (R349, R352, R353,
R356, R357). A unit's number is its record's place in order of class, then index: 320 cores, 320 arrays, 272 slices,
72 link macros. -/

namespace Sys2Proof.Machine

/-- Units with records (R349). -/
def unitCount : Nat := 984
/-- The class of a unit (R349). -/
def unitClass (u : Nat) : Nat := if u < 320 then 0 else if u < 640 then 1 else if u < 912 then 2 else 3
/-- The physical index of a unit in its class (R349). -/
def unitIndex (u : Nat) : Nat := if u < 320 then u else if u < 640 then u - 320 else if u < 912 then u - 640 else u - 912
/-- The unit of a class and index, none outside R349. -/
def unitOf (cls ix : Nat) : Option Nat :=
  match cls with
  | 0 => if ix < 320 then some ix else none
  | 1 => if ix < 320 then some (320 + ix) else none
  | 2 => if ix < 272 then some (640 + ix) else none
  | _ => if ix < 72 then some (912 + ix) else none

/-- A record before any sample: service, but spare for the granary pair and the spare slices (log entries 7 and 8). -/
def wearInit (u : Nat) : Wear :=
  let ix := unitIndex u
  let spare := match unitClass u with
    | 0 => decide (ix % 80 / 16 = 4)
    | 1 => decide (ix % 80 / 16 = 4)
    | 2 => decide (ix % 68 ≥ 64)
    | _ => false
  let logical := ix / 80 * 64 + ix % 80
  { Wear.new with st := if spare then 3 else 0, core := if unitClass u ≤ 1 ∧ !spare then logical else 255 }

/-- A wear record. -/
def Dev.wearOf (d : Dev) (u : Nat) : Wear := (Tab.find d.wear u).getD (wearInit u)
/-- Changing a wear record. -/
def Dev.modWear (d : Dev) (u : Nat) (f : Wear → Wear) : Dev :=
  { d with wear := Tab.insert d.wear u (f (d.wearOf u)) }

/-- The two logical clusters of a slot. -/
def slotClusters (die slot : Nat) : List Nat := [die * 8 + slot * 2, die * 8 + slot * 2 + 1]

/-- Whether a logical core is in service (R13): its slot is mapped. -/
def Dev.inService (d : Dev) (c : Nat) : Bool := decide ((d.die (dieOf c)).slotMap.getD (c / 16 % 4) 255 < 5)
/-- The count of cores in service, reported through the management status (R13; R412 names no field or read for it, so the place
it is held in is the model's choice, DESIGN CHOICE, log entry 6). -/
def Dev.reportCores (d : Dev) : Dev := { d with mgmt := { d.mgmt with cores := ((List.range 256).filter d.inService).length } }

/-- The three mechanisms in order: BTI 0, HCI 1, EM 2. -/
def Wear.consumed (w : Wear) (m : Nat) : Nat :=
  match m with | 0 => w.bti | 1 => w.hci | _ => w.em
/-- Outstanding boost commitment of a mechanism. -/
def Wear.commit (w : Wear) (m : Nat) : Nat :=
  match m with | 0 => w.cbti | 1 => w.chci | _ => w.cem

/-- A target's service life in hours (R365). -/
def Target.hours (t : Target) : Nat := bits (t.words.getD 0 0).toNat 63 32

/-- A target's allowance of a class and mechanism in sh (R365). -/
def Target.allowance (t : Target) (cls m : Nat) : Nat :=
  let w := (t.words.getD (1 + cls) 0).toNat
  match m with | 0 => bits w 63 42 | 1 => bits w 41 21 | _ => bits w 20 0

/-- The allowance of a class and mechanism in sh, 0 with no target. -/
def Dev.allowance (d : Dev) (cls m : Nat) : Nat := (d.target.map (fun t => t.allowance cls m)).getD 0

/-- Allowed stress so far in 2^-24 sh (R356), by the target that stood at the latest sample (R366): the service time is kept in milliseconds. -/
def Dev.allowed (d : Dev) (cls m : Nat) : Nat :=
  match d.lifeNow with
  | some t =>
    let l := t.hours * 3600000
    if l = 0 then 0 else t.allowance cls m * 2 ^ 24 * min d.serviceMs l / l
  | none => 0

/-- Surplus of a unit in a mechanism (R356). -/
def Dev.surplus (d : Dev) (u m : Nat) : Int :=
  (d.allowed (unitClass u) m : Int) - (d.wearOf u).consumed m - (d.wearOf u).commit m

/-- The units in service: state 0 (R356). -/
def Dev.serving (d : Dev) : List Nat := (List.range unitCount).filter (fun u => decide ((d.wearOf u).st = 0))

/-- The least surplus of a list of units and the first unit that has it. -/
def minSurplus (d : Dev) (m : Nat) : List Nat → Option (Int × Nat)
  | [] => none
  | u :: l =>
    match minSurplus d m l with
    | none => some (d.surplus u m, u)
    | some (x, v) => if d.surplus u m ≤ x then some (d.surplus u m, u) else some (x, v)

/-- The binding surplus of a mechanism (R357). -/
def Dev.binding (d : Dev) (m : Nat) : Int :=
  match minSurplus d m d.serving with
  | some (x, _) => x
  | none => Config.emptyMin

/-- A surplus as a 21-bit field in units of 2^-4 sh, rounded down and saturated (R357). -/
def surplusField (x : Int) : Nat :=
  let y := x / 2 ^ 20
  let z := if y < -(2 ^ 20) then -(2 ^ 20) else if y > 2 ^ 20 - 1 then 2 ^ 20 - 1 else y
  (z % 2 ^ 21).toNat

/-- The register LBR (R357). -/
def Dev.bindingSurplus (d : Dev) : Nat :=
  (if d.serving.any (fun u => (d.wearOf u).disc) then 2 ^ 63 else 0) + surplusField (d.binding 0) * 2 ^ 42
    + surplusField (d.binding 1) * 2 ^ 21 + surplusField (d.binding 2)

/-- A core's wear index (R349, R352): 64ths of the largest consumed fraction over its record and its array's, at most 64; a
discordant record counts as 63 unless it is 64. -/
def Dev.wearIndex (d : Dev) (core : Nat) : Nat :=
  let p := d.physCore core
  let one (u : Nat) : Nat :=
    let ixs := (List.range 3).map (fun m =>
      let a := d.allowance (unitClass u) m * 2 ^ 24
      if a = 0 then 0 else min 64 (64 * (d.wearOf u).consumed m / a))
    let ix := ixs.foldl max 0
    if (d.wearOf u).disc ∧ ix ≠ 64 then 63 else ix
  max (one p) (one (320 + p))

/-! ## Parameters and budgets (R376, R377, R413) -/

/-- The defaults of the parameters (R413). -/
def paramDefault (n : Nat) : Nat :=
  match n with
  | 0 => 2 ^ 20
  | 1 => 50000
  | 2 => 10000
  | 3 => 10000
  | 4 => 10000
  | 5 => 1024
  | 6 => 95
  | _ => 0

/-- A parameter's value. -/
def Dev.param (d : Dev) (n : Nat) : Nat := Tab.get (paramDefault n) d.params n

/-- The default budget of a background activity for each 100 µs period (R376), by its code of R412: 0 scrub, 1 re-encryption sweep, 2
targeted self-test, 3 MRAM commit, 4 page migration, 5 fallow transitions, 6 probes. -/
def budgetDefault (activity : Nat) : Nat :=
  match activity with
  | 0 => 4194304
  | 1 => 1048576
  | 2 => 16
  | 3 => 64
  | 4 => 8192
  | 5 => 1
  | 6 => 256
  | _ => 0

/-- The budget of an activity's instance. -/
def Dev.budget (d : Dev) (activity inst : Nat) : Nat :=
  Tab.get (budgetDefault activity) d.budgets (activity * 256 + inst)

/-- Whether an activity has n units of its budget left in this period (R377). -/
def Dev.budgetLeft (d : Dev) (activity inst n : Nat) : Bool :=
  decide (Tab.get 0 d.spent (activity * 256 + inst) + n ≤ d.budget activity inst)

/-- Spending n units of an activity's budget. -/
def Dev.spend (d : Dev) (activity inst n : Nat) : Dev :=
  { d with spent := Tab.insert d.spent (activity * 256 + inst) (Tab.get 0 d.spent (activity * 256 + inst) + n) }

/-- One microsecond in TIME units (R374). -/
def usTime : Nat := 16000

end Sys2Proof.Machine
end

