-- ==== Sys2Proof/Machine/Scalar.lean ====
section
/-! DEFINITION. The uniform scalar and special-register words of the S pipe (R116 to R122). -/

namespace Sys2Proof.Machine

/-- One 16-bit chunk of a 64-bit value replaced (R119). -/
def chunkInsert (x : W64) (k : BitVec 2) (i : BitVec 16) : W64 :=
  (x &&& ~~~((0xFFFF#64) <<< (16 * k.toNat))) ||| ((i.zeroExtend 64) <<< (16 * k.toNat))

/-- The lowest lane of a mask, and the highest; 0 for an empty one. -/
def lowLane (m : W32) : Nat := ((lanesOf m).head?).getD 0
def highLane (m : W32) : Nat := ((lanesOf m).getLast?).getD 0

/-- A vote's outcome (R122). -/
def vote (mode : Nat) (active val : W32) : Bool :=
  let a := (lanesOf active).length
  let t := (lanesOf (active &&& val)).length
  match mode with
  | 0 => decide (t = 0)
  | 1 => decide (2 * t > a)
  | 2 => decide (0 < t ∧ t < a)
  | 3 => laneIn val (lowLane active)
  | 4 => laneIn val (highLane active)
  | _ => decide (t % 2 = 0)

/-- A position in the layout of HPC (R328). -/
def Pos.word64 (p : Pos) : Nat := p.word * 2 ^ 54 + p.pc

/-- The handler registers of the trap being served (R328), HPEND and HERR. -/
def handlerReg (c : Core) (n : Nat) : Nat :=
  match c.serving with
  | none => if n = 135 then c.waiting.length else if n = 136 then (if c.herr then 1 else 0) else 0
  | some (_, r) =>
    match n with
    | 128 => r.tcode * 2 ^ 28 + r.kind * 2 ^ 26 + r.sub * 2 ^ 16 + r.cause
    | 129 => r.pos.word64
    | 130 => r.orig
    | 131 => r.addr
    | 132 => r.tkt
    | 133 => r.mask.toNat * 2 ^ 32 + r.lane * 2 ^ 16 + r.split * 2 ^ 5 + r.slot
    | 134 => r.launch * 256 + r.queue
    | 135 => c.waiting.length + 1
    | 136 => if c.herr then 1 else 0
    | _ => 0

/-- A workgroup's x, y and z index in its grid (R116, R313). -/
def Task.xyz (t : Task) (g : Grid) : Nat × Nat × Nat :=
  (t.linear % (g.dx + 1), t.linear / (g.dx + 1) % (g.dy + 1), t.linear / (g.dx + 1) / (g.dy + 1))

/-- The value of a special register for the issuing split (R116). In the handler slot GROUP and SLOT read 0 (DESIGN CHOICE, log entry 102). TIME does not fall
below what the group has read on the cluster it left (R117). -/
def State.special (s : State) (n : Nat) : W64 :=
  let c := s.iss.core
  let g := s.old
  let t := s.dev.task? s.taskId
  let gr := s.dev.gridOf s.taskId
  let ofTask (f : Task → Nat) : Nat := match t with
    | some t => f t
    | none => 0
  let both (f : Task → Grid → Nat) : Nat := match t, gr with
    | some t, some g => f t g
    | _, _ => 0
  BitVec.ofNat 64 (match n with
    | 0 => s.iss.mask.toNat
    | 1 => ((List.range 8).filter (fun q => decide ((s.iss.mask >>> (4 * q)) &&& 0xF#32 ≠ 0))).foldl (fun x q => x + 2 ^ q) 0
    | 2 => if s.iss.slot = handlerSlot then 0 else g.index
    | 3 => both (fun t g => (t.xyz g).1 + (t.xyz g).2.1 * 2 ^ 32 + (t.xyz g).2.2 * 2 ^ 48)
    | 4 => both (fun _ g => g.dx + g.dy * 2 ^ 32 + g.dz * 2 ^ 48)
    | 5 => both (fun t g => t.linear % (g.gangLess + 1) + g.gangLess * 16)
    | 6 => c
    | 7 => pairOf c % 4
    | 8 => clusterOf c
    | 9 => dieOf c
    | 10 => max (s.dev.regionTime (clusterOf s.iss.core) / 2 ^ 24) g.timeFloor
    | 11 => ofTask (fun t => if t.deadlineFrom.isSome then 1 else 0)
    | 12 => g.regs.sig.toNat
    | 13 => g.regs.flags.toNat
    | 14 => s.dev.bindingSurplus
    | 15 => (s.dev.core c).world
    | 16 => ofTask (fun t => t.age)
    | 17 => ofTask (fun t => t.queue)
    | 18 => ofTask (fun t => t.restarts)
    | 19 => s.iss.slot % 32
    | _ => handlerReg (s.dev.core c) n)

/-- SADD (R118). -/
def execSadd (d a b : SReg) (s : State) : Out :=
  .next (s.wrS d (s.rdS a + s.rdS b))

/-- SSUB (R118). -/
def execSsub (d a b : SReg) (s : State) : Out :=
  .next (s.wrS d (s.rdS a - s.rdS b))

/-- SMUL (R118). -/
def execSmul (d a b : SReg) (s : State) : Out :=
  .next (s.wrS d (s.rdS a * s.rdS b))

/-- SAND (R118). -/
def execSand (d a b : SReg) (s : State) : Out :=
  .next (s.wrS d (s.rdS a &&& s.rdS b))

/-- SOR (R118). -/
def execSor (d a b : SReg) (s : State) : Out :=
  .next (s.wrS d (s.rdS a ||| s.rdS b))

/-- SXOR (R118). -/
def execSxor (d a b : SReg) (s : State) : Out :=
  .next (s.wrS d (s.rdS a ^^^ s.rdS b))

/-- SANDN (R118). -/
def execSandn (d a b : SReg) (s : State) : Out :=
  .next (s.wrS d (s.rdS a &&& ~~~(s.rdS b)))

/-- SSHL: 0 from a shift by 64 on (R118). -/
def execSshl (d a b : SReg) (s : State) : Out :=
  .next (s.wrS d (s.rdS a <<< ((s.rdS b).toNat % 256)))

/-- SSHR: logical, 0 from a shift by 64 on (R118). -/
def execSshr (d a b : SReg) (s : State) : Out :=
  .next (s.wrS d (s.rdS a >>> ((s.rdS b).toNat % 256)))

/-- SSRA: arithmetic, by at most 63 (R118). -/
def execSsra (d a b : SReg) (s : State) : Out :=
  .next (s.wrS d ((s.rdS a).sshiftRight (min ((s.rdS b).toNat % 256) 63)))

/-- SMIN: signed (R118). -/
def execSmin (d a b : SReg) (s : State) : Out :=
  .next (s.wrS d (if (s.rdS a).toInt ≤ (s.rdS b).toInt then s.rdS a else s.rdS b))

/-- SMAX: signed (R118). -/
def execSmax (d a b : SReg) (s : State) : Out :=
  .next (s.wrS d (if (s.rdS a).toInt ≥ (s.rdS b).toInt then s.rdS a else s.rdS b))

/-- SMOV (R118). -/
def execSmov (d a : SReg) (s : State) : Out :=
  .next (s.wrS d (s.rdS a))

/-- SSEL (R118). -/
def execSsel (d a b : SReg) (f : FReg) (s : State) : Out :=
  .next (s.wrS d (if s.rdF f then s.rdS a else s.rdS b))

/-- SLI replaces one 16-bit chunk of SD (R119). -/
def execSli (d : SReg) (k : BitVec 2) (i : BitVec 16) (s : State) : Out :=
  .next (s.wrS d (chunkInsert (s.rdS d) k i))

/-- SADDI (R120). -/
def execSaddi (d a : SReg) (i : BitVec 13) (s : State) : Out :=
  .next (s.wrS d (s.rdS a + i.signExtend 64))

/-- SCMP on 64 bits (R72, R121). -/
def execScmp (n : BitVec 4) (f : FReg) (a b : SReg) (s : State) : Out :=
  .next (s.wrF f (icond n.toNat (s.rdS a) (s.rdS b)))

/-- RDSPC (R116, R117, R122). -/
def execRdspc (d : SReg) (n : BitVec 8) (s : State) : Out :=
  .next (s.wrS d (s.special n.toNat))

/-- WRSPC of FPFLAGS, the one register it may name; the group's flags are raised on top of it (R52, R117, R122). -/
def execWrspc (a : SReg) (n : BitVec 8) (s : State) : Out :=
  if n = 13 then .next (s.modGrp (fun g => { g with regs := { g.regs with flags := (s.rdS a).extractLsb' 0 5 } }))
  else .next (s.takeTrap (TrapInfo.plain 0x01))

/-- VTOS: all 32 lanes (R122). -/
def execVtos (d : SReg) (p : PReg) (s : State) : Out :=
  .next (s.wrS d ((s.rdP p).zeroExtend 64))

/-- STOV: the active lanes of the issuing split (R122). -/
def execStov (p : PReg) (a : SReg) (s : State) : Out :=
  .next (s.wrP p s.iss.mask ((s.rdS a).truncate 32))

/-- BALLOT (R122). -/
def execBallot (d : SReg) (p : PReg) (s : State) : Out :=
  .next (s.wrS d ((s.rdP p &&& s.iss.mask).zeroExtend 64))

/-- VOTE over the active lanes of the issuing split (R122). -/
def execVote (f : FReg) (p : PReg) (m : BitVec 6) (s : State) : Out :=
  .next (s.wrF f (vote m.toNat s.iss.mask (s.rdP p)))

end Sys2Proof.Machine
end

