-- ==== Sys2Proof/Machine/Control.lean ====
section
/-! DEFINITION. Modifier words and the words that steer control: branches, calls, loops, waits, joins, exits, yields, traps and
signature checks (R63, R64, R88, R92 to R100, R175, R206, R337, R338, R345, R403, R404). -/

namespace Sys2Proof.Machine

/-! ## Modifier words -/

/-- MOD of arithmetic kind: kept for the word that follows (R63). -/
def execModArithmetic (g : PReg) (e : BitVec 1) (r : BitVec 2) (t : BitVec 1) (l : BitVec 2) (n m a b : BitVec 1) (k : BitVec 5)
    (s : State) : Out :=
  .next (s.modIss (fun i => { i with
    mod := some (.arith g (decide (e = 1)) r.toNat l.toNat (decide (t = 1)) (decide (n = 1)) (decide (m = 1)) (decide (a = 1))
      (decide (b = 1)) k.toInt) }))

/-- MOD of memory kind: kept for the word that follows (R64). -/
def execModMemory (g : PReg) (e : BitVec 1) (sc : BitVec 3) (h : BitVec 2) (o : BitVec 15) (s : State) : Out :=
  .next (s.modIss (fun i => { i with mod := some (.memory g (decide (e = 1)) sc.toNat h.toNat o.toInt) }))

/-! ## Control transfer (R57, R58, R88, R95 to R100) -/

/-- The split goes to a target, word 0, at the end of the issue group. -/
def State.goto (s : State) (pc : Nat) : State := s.modIss (fun i => { i with target := some pc })

/-- A jump to the packet in the low 54 bits of a register; a target that is no packet address traps (R58, R98). -/
def State.jump (s : State) (x : W64) (f : State → State) : State :=
  let t := bits x.toNat 53 0
  if t % 12 ≠ 0 then s.takeTrap (TrapInfo.plain 0x03) else (f s).goto t

/-- S63 takes the return packet (R95, R98). -/
def State.link (s : State) : State := s.wrS 63#6 (BitVec.ofNat 64 (packetAt s.iss.pos.pc 1))

/-- NOP (R100). -/
def execNop (s : State) : Out := .next s

/-- EXIT: the split's lanes end with the issue group (R93). -/
def execExit (s : State) : Out := .next (s.modIss (fun i => { i with exits := true }))

/-- RET (R98). -/
def execRet (s : State) : Out := .next (s.jump (s.rdS 63#6) id)

/-- JOIN: the split parks at the word after the issue group (R92). -/
def execJoin (s : State) : Out := .next (s.park .join)

/-- JMPI (R98). -/
def execJmpi (a : SReg) (s : State) : Out := .next (s.jump (s.rdS a) id)

/-- CALLI reads its register before it writes S63 (R98). -/
def execCalli (a : SReg) (s : State) : Out := .next (s.jump (s.rdS a) State.link)

/-- CALL (R98). -/
def execCall (o : BitVec 21) (s : State) : Out := .next (s.link.goto (packetAt s.iss.pos.pc o.toInt))

/-- BRF: taken when the flag is NOT sense (R96). -/
def execBrf (e : BitVec 1) (f : FReg) (o : BitVec 21) (s : State) : Out :=
  .next (if s.rdF f = decide (e = 0) then s.goto (packetAt s.iss.pos.pc o.toInt) else s)

/-- BRA (R96). -/
def execBra (o : BitVec 21) (s : State) : Out := .next (s.goto (packetAt s.iss.pos.pc o.toInt))

/-- The lanes of a split in which a BRV's branch holds (R88, R97). -/
def State.taken (s : State) (e : BitVec 1) (p : PReg) : W32 :=
  s.iss.mask &&& (if e = 1 then ~~~(s.rdP p) else s.rdP p)

/-- Live splits of a group. -/
def Group.live (g : Group) : Nat := (g.splits.filter Option.isSome).length

/-- BRV (R88, R89): all lanes go, none goes, or the split divides; with four splits live and a full stack the division traps. -/
def execBrv (e : BitVec 1) (p : PReg) (o : BitVec 21) (s : State) : Out :=
  let t := s.taken e p
  let pc := packetAt s.iss.pos.pc o.toInt
  if t = s.iss.mask then .next (s.goto pc)
  else if t = 0 then .next s
  else if s.old.live = 4 ∧ 16 ≤ s.old.stack.length then .next (s.takeTrap (TrapInfo.plain 0x04))
  else .next (s.modIss (fun i => { i with divide := some (t, pc) }))

/-- LOOP (R99): the full 64 bits are decremented and tested. -/
def execLoop (d : SReg) (i : BitVec 13) (s : State) : Out :=
  let v := s.rdS d - 1
  let s1 := s.wrS d v
  .next (if v ≠ 0 then s1.goto (packetAt s.iss.pos.pc i.toInt) else s1)

/-- ELECT (R100). -/
def execElect (d : SReg) (s : State) : Out := .next (s.wrS d (BitVec.ofNat 64 (lowLane s.iss.mask)))

/-! ## WAITC (R173, R175, R206) -/

/-- Whether every counter is at or below its field. -/
def Group.countsAt (g : Group) (l sc p t : Nat) : Bool :=
  decide (g.cl.length ≤ l ∧ g.cs.length ≤ sc ∧ g.cc.length ≤ p ∧ g.ct.length ≤ t)

/-- Whether a WAITC's CC field covers a deferred copy of the task (R206). -/
def State.coversDeferred (s : State) (cov : List Nat) : Bool :=
  match s.dev.task? s.taskId with
  | some t => t.cq.entries.any (fun e => e.deferred && decide (e.slot = s.iss.slot) &&
      s.grp.cc.any (fun c => decide (c.op = e.opId ∧ c.seq < cov.getD 2 0)))
  | none => false

/-- Whether the registers of an issue group wait for results (R82, R114). One that a failed operation left not ready stays so until GWR writes it or its
group is killed or restarted, and holds back no group that only writes it, since no result is coming (R173, R333; DEDUCED, log entry 110). -/
def Group.holdsBack (g : Group) (reads writes : List RegName) : Bool :=
  g.notReady.any (fun p => reads.contains p.1 || (writes.contains p.1 && !g.lost p.2))

/-- WAITC (R175): the operations issued before it, or before its own issue group's words, are what it covers. -/
def execWaitc (l sc p t : BitVec 6) (s : State) : Out :=
  let g := s.old
  let cov := g.covers [l.toNat, sc.toNat, p.toNat, t.toNat]
  let wait := Park.waitc l.toNat sc.toNat p.toNat t.toNat cov
  if s.paired ∧ sc.toNat < s.pairHeld then .next s.stopAtCheckpoint
  else if s.coversDeferred cov then
    match s.needToken with
    | some s1 => .next s1
    | none => .next (s.park wait)
  else if g.countsAt l.toNat sc.toNat p.toNat t.toNat then
    match g.coveredFailure cov with
    | some f => .next (s.takeFailure f)
    | none => .next s
  else .next (s.park wait)

/-! ## Signature check (R404, R406) -/

/-- The fold of SIG to 16 bits (R8, R404). -/
def fold16 (x : W32) : BitVec 16 := x.extractLsb' 16 16 ^^^ x.extractLsb' 0 16

/-- SIGCHK. -/
def execSigchk (i : BitVec 16) (s : State) : Out :=
  if fold16 s.old.regs.sig = i then .next (s.modGrp (fun g => { g with regs := { g.regs with sig := 0 } }))
  else if s.paired then .next s.mismatch
  else .next (s.takeTrap (TrapInfo.plain 0x13))

/-! ## Yield, trap, return, probe (R337, R338, R345) -/

/-- YLD: parks the split while PREQ reads 1; in the handler slot it does nothing (R338, R348). -/
def execYld (s : State) : Out :=
  if s.iss.slot = handlerSlot then .next s
  else if (s.dev.task? s.taskId).any (fun t => t.deadlineFrom.isSome) then .next (s.park .yld)
  else match (s.dev.cluster (clusterOf s.iss.core)).drain with
    | some c => .next (s.park (.drain c))
    | none => .next s

/-- TRAP: cause 0x11 with the code, once the words chained to it have executed, at the position after its issue group (R337). -/
def execTrap (t : BitVec 12) (s : State) : Out := .next (s.modIss (fun i => { i with trapCode := some t.toNat }))

/-- TRET: the handler's split waits for its counters; the activation ends as they reach 0 (R337). -/
def execTret (s : State) : Out := .next (s.park .tret)

/-- Cycles that a wait on a core has lasted. -/
def Dev.lasted (d : Dev) (core since : Nat) : Nat := d.now (clusterOf core) - since

/-- The cycle at which a group's trap hold began: as its own trap was raised, or as the handler held its workgroup (R343). -/
def Group.holdSince (g : Group) : Option Nat :=
  match g.trap with
  | some r => some r.raised
  | none => if g.held then some g.heldAt else none

/-- The waits of a workgroup (R343): for each of its groups its trap hold and its splits' waits, with the cycles each has lasted; its MMAs that await the
pair's arbiter; and the tickets its operations wait on. -/
def Dev.waits (d : Dev) (t : Nat) : List (Nat × Nat) :=
  let splits := (d.groups.filter (fun g => decide (g.2.task = t ∧ g.1 % 64 ≠ handlerSlot))).flatMap (fun g =>
    (g.2.holdSince.map (fun c => (10, d.lasted (g.1 / 64) c))).toList
      ++ g.2.splits.filterMap (fun o => o.bind (fun x => if x.waitKind = 0 then none else some (x.waitKind, d.lasted (g.1 / 64) x.since))))
  let core := match d.task? t with
    | some k => k.core
    | none => 0
  let mmas := (d.core core).mq.filterMap (fun e => match e.reqAt with
    | some c => if e.task = t ∧ e.started.isNone then some (5, d.now (clusterOf core) - c) else none
    | none => none)
  let tickets := d.dies.flatMap (fun x => (x.2.tickets.filter (fun e => e.2.ops.any (fun o => match d.op? o with
    | some p => decide (p.task = t)
    | none => false))).map (fun e => (8, d.cyclesIn (clusterOf core) (d.time - e.2.since))))
  splits ++ mmas ++ tickets

/-- The longest of some waits. -/
def longest : List (Nat × Nat) → Nat × Nat
  | [] => (0, 0)
  | w :: l => if (longest l).2 ≤ w.2 then w else longest l

/-- PROBE (R345). -/
def execProbe (d : SReg) (s : State) : Out :=
  let ws := s.dev.waits s.taskId
  let w := longest ws
  let cyc := match s.dev.task? s.taskId with
    | some t => t.cyc
    | none => false
  .next (s.wrS d (BitVec.ofNat 64 ((if w.1 ≠ 0 ∧ s.dev.param 0 ≤ w.2 then 2 ^ 63 else 0) + (if cyc then 2 ^ 62 else 0) + w.1)))

end Sys2Proof.Machine
end

