-- ==== Sys2Proof/Machine/Issue.lean ====
section
/-! DEFINITION. Issue: fetching a packet, the rules an issue group must meet, which split a port issues, opening and closing an issue
group, and what happens to splits between issue groups (R53 to R58, R74, R80 to R94, R114, R115, R403). -/

namespace Sys2Proof.Machine

/-! ## Words of an issue group (R54 to R56) -/

/-- The pipe of a word: S, V, M, E, a modifier, or none (R55). -/
inductive Pipe where
  | s | v | m | e | modifier | none
  deriving DecidableEq, Repr

/-- The major opcode of a word. -/
def majorOf (w : W32) : Nat := (w.extractLsb' 25 6).toNat
/-- The FN field of a word. -/
def fnOf (w : W32) : Nat := (w.extractLsb' 21 4).toNat

/-- The pipe of a word (R55). -/
def pipeOf (w : W32) : Pipe :=
  let m := majorOf w
  if m < 0x10 then .s else if m < 0x28 then .v else if m < 0x34 then .m else if m < 0x3E then .e
  else if m = 0x3E then .none else .modifier

/-- The words of an issue group that begins with the first of a list: up to the first with C = 0 (R54). -/
def runOf : List W32 → List W32
  | [] => []
  | w :: l => if chainBit w then w :: runOf l else [w]

/-- Rule 3: each modifier is chained to a V-pipe or M-pipe word that follows it (R56). -/
def modifiersOk : List W32 → Bool
  | [] => true
  | [w] => decide (pipeOf w ≠ .modifier)
  | w :: x :: l =>
    (decide (pipeOf w ≠ .modifier) || (chainBit w && decide (pipeOf x = .v ∨ pipeOf x = .m))) && modifiersOk (x :: l)

/-- Rule 2: at most one word of each pipe (R56). -/
def pipesOk (ws : List W32) : Bool :=
  [Pipe.s, Pipe.v, Pipe.m, Pipe.e].all (fun p => decide ((ws.filter (fun w => decide (pipeOf w = p))).length ≤ 1))

/-- The instruction a word decodes to, if it is one. -/
def decoded (w : W32) : Option Instr :=
  match decodeWord w with
  | .ok i => some i
  | .error _ => none

/-- The single registers an operand covers. -/
def refNames : RegRef → List RegName
  | .v n k => (List.range k).map (fun i => .v (n.toNat + i))
  | .s n => [.s n.toNat]
  | .p n => [.p n.toNat]
  | .f n => [.f n.toNat]
  | .spc n => [.spc n]

/-- The registers a word writes; a write to V127 or S0 is discarded and names none (R61, R74, log entry 11). -/
def destsOf (i : Instr) : List RegName :=
  ((i.regs.wr.flatMap refNames).eraseDups).filter (fun r => decide (r ≠ .v 127 ∧ r ≠ .s 0))
/-- The registers a word reads. -/
def sourcesOf (i : Instr) : List RegName := (i.regs.rd.flatMap refNames).eraseDups
/-- The stream-queue heads a word names (R61, R115). -/
def headsOf (i : Instr) : List Nat :=
  (sourcesOf i).filterMap (fun r => match r with
    | .v n => if 120 ≤ n ∧ n ≤ 123 then some n else none
    | _ => none)

/-- No entry stands twice. -/
def allDistinct {α : Type} [DecidableEq α] : List α → Bool
  | [] => true
  | x :: l => !l.contains x && allDistinct l

/-- R56 for the words of an issue group: it ends within its packet, rules 2 to 5. A word that is no legal instruction still names the registers of the
instruction whose place it takes (R74). -/
def packetOk (ws : List W32) : Bool :=
  (match ws.getLast? with
    | some w => !chainBit w
    | none => false)
  && pipesOk ws && modifiersOk ws
  && allDistinct ((ws.filterMap assignedWord).flatMap destsOf)
  && allDistinct ((ws.filterMap assignedWord).flatMap headsOf)

/-! ## What a modifier may bring (R66) -/

/-- Fields of an arithmetic modifier that a class of words accepts beside the guard. -/
structure Accepts where
  round : Bool
  sat : Bool
  clamp : Bool
  negA : Bool
  negB : Bool
  absA : Bool
  absB : Bool
  k : Bool
  deriving DecidableEq, Repr

/-- Every field. -/
def Accepts.all : Accepts := { round := true, sat := true, clamp := true, negA := true, negB := true, absA := true, absB := true, k := true }
/-- A conversion to a floating format: no B fields. -/
def Accepts.toFloat : Accepts := { Accepts.all with negB := false, absB := false }
/-- A conversion to an integer format, L6 or E8M0. -/
def Accepts.convert : Accepts := { Accepts.toFloat with clamp := false }
/-- Integer. -/
def Accepts.integer : Accepts := { Accepts.all with round := false, clamp := false }
/-- Integer with an immediate in the B field. -/
def Accepts.immediate : Accepts := { Accepts.integer with negB := false, absB := false }
/-- Only a guard. -/
def Accepts.guard : Accepts :=
  { round := false, sat := false, clamp := false, negA := false, negB := false, absA := false, absB := false, k := false }

/-- The class of a V-pipe word (R66). -/
def acceptsOf (w : W32) : Accepts :=
  let fn := fnOf w
  match majorOf w with
  | 0x10 => if fn ≤ 12 then .integer else .guard
  | 0x12 => .immediate
  | 0x13 => .immediate
  | 0x1B => .all
  | 0x1C => .all
  | 0x1D => if fn ≤ 2 then .integer else .all
  | 0x1E => if fn ≤ 4 then .toFloat else .convert
  | 0x1F => if fn = 2 then .convert else .toFloat
  | _ => .guard

/-- Whether a modifier suits the word after it: its kind, the fields of the word's class, and no offset before ADECL, ASTAT and AIRREV
(R66, R213). -/
def modSuits (m w : W32) : Bool :=
  match decoded m with
  | some (.modArithmetic _ _ r t l n mb a b k) =>
    let c := acceptsOf w
    decide (pipeOf w = .v) && (c.round || decide (r = 0)) && (c.sat || decide (t = 0)) && (c.clamp || decide (l = 0))
      && (c.negA || decide (n = 0)) && (c.negB || decide (mb = 0)) && (c.absA || decide (a = 0)) && (c.absB || decide (b = 0))
      && (c.k || decide (k = 0))
  | some (.modMemory _ _ _ _ o) =>
    decide (pipeOf w = .m) && !(decide (majorOf w = 0x33 ∧ 12 ≤ fnOf w ∧ o ≠ 0))
  | _ => true

/-- Every modifier of an issue group suits the word after it. -/
def modsSuit : List W32 → Bool
  | w :: x :: l => modSuits w x && modsSuit (x :: l)
  | _ => true

/-! ## What depends on where a word issues (R74, R214, R265, R290, R318, R348, R360, R364, R384, R402, R405) -/

/-- Words of the trap-handler slot alone. -/
def handlerOnly : Instr → Bool
  | .tret => true
  | .grd _ _ => true
  | .gwr _ _ => true
  | .gstat _ _ => true
  | .gresume _ _ => true
  | .gkill _ => true
  | .rdspc _ n => decide (128 ≤ n.toNat)
  | _ => false

/-- Words of a core that latches world 0. -/
def worldZero (w : W32) : Bool :=
  match majorOf w, fnOf w with
  | 0x39, 7 => true
  | 0x39, 8 => true
  | 0x39, 9 => true
  | 0x3A, 0 => true
  | 0x3A, 2 => true
  | 0x3A, 3 => true
  | _, _ => false

/-- Words of world 0 or of the trap-handler slot: TLBI and QCFG. -/
def worldZeroOrHandler (w : W32) : Bool :=
  decide ((majorOf w = 0x39 ∧ fnOf w = 5) ∨ (majorOf w = 0x38 ∧ fnOf w = 3))

/-- Words that a group of a redundant pair may not issue: CQ, STRM, MMA, MCTL and LAUNCH (R405). -/
def barredInPair (w : W32) : Bool := decide (0x34 ≤ majorOf w ∧ majorOf w ≤ 0x38)

/-- The tiles, handles, shape records and stream contexts a word names. -/
structure Named where
  tiles : List Nat
  handles : List Nat
  shapes : List Nat
  streams : List Nat

/-- Names of the workgroup's declared resources in a word (R214, R265). -/
def namedOf : Instr → Named
  | .mma t a b _ _ _ s r =>
    { tiles := [t.toNat], handles := [a.toNat, b.toNat] ++ (if r = 0 then [] else [r.toNat]), shapes := [s.toNat], streams := [] }
  | .mres _ _ h => { tiles := [], handles := [h.toNat], shapes := [], streams := [] }
  | .mrel h => { tiles := [], handles := [h.toNat], shapes := [], streams := [] }
  | .mlda h _ _ => { tiles := [], handles := [h.toNat], shapes := [], streams := [] }
  | .mldb h _ _ => { tiles := [], handles := [h.toNat], shapes := [], streams := [] }
  | .mshape s _ => { tiles := [], handles := [], shapes := [s.toNat], streams := [] }
  | .mzero t => { tiles := [t.toNat], handles := [], shapes := [], streams := [] }
  | .mtld t _ _ => { tiles := [t.toNat], handles := [], shapes := [], streams := [] }
  | .mtst t _ _ => { tiles := [t.toNat], handles := [], shapes := [], streams := [] }
  | .mtrv _ t _ => { tiles := [t.toNat], handles := [], shapes := [], streams := [] }
  | .mtwv t _ _ => { tiles := [t.toNat], handles := [], shapes := [], streams := [] }
  | .sopen _ _ n => { tiles := [], handles := [], shapes := [], streams := [n.toNat] }
  | .sclose n => { tiles := [], handles := [], shapes := [], streams := [n.toNat] }
  | .sskip _ n => { tiles := [], handles := [], shapes := [], streams := [n.toNat] }
  | .sstat _ n => { tiles := [], handles := [], shapes := [], streams := [n.toNat] }
  | _ => { tiles := [], handles := [], shapes := [], streams := [] }

/-- Whether a word's registers and resources lie within what a slot's workgroup holds (R61, R74, R214, R265). -/
def Dev.allotted (d : Dev) (core slot : Nat) (i : Instr) : Bool :=
  let n := namedOf i
  let of (f : Grid → Nat) : Nat := match d.gridOf (d.taskAt core slot) with
    | some g => f g
    | none => 0
  ((sourcesOf i) ++ (destsOf i)).all (fun r => match r with
    | .v k => decide (k < d.vregsAt core slot ∨ 120 ≤ k)
    | _ => true)
  && n.tiles.all (fun k => decide (k < of Grid.tiles)) && n.handles.all (fun k => decide (k < of Grid.handles))
  && n.shapes.all (fun k => decide (k < of Grid.shapes)) && n.streams.all (fun k => decide (k < of Grid.streams))

/-- Whether a slot may issue a word at all. -/
def Dev.mayIssue (d : Dev) (core slot : Nat) (w : W32) : Bool :=
  match decoded w with
  | none => false
  | some i =>
    let handler := decide (slot = handlerSlot)
    let zero := decide ((d.core core).world = 0)
    (handler || !handlerOnly i) && (zero || !worldZero w) && (zero || handler || !worldZeroOrHandler w)
      && (decide ((d.group core slot).role = .none) || !barredInPair w) && d.allotted core slot i

/-! ## Fetch (R53, R58, R110) -/

/-- One word of a packet, fetched for issue. Poisoned bytes trap as a load's do (R400). -/
def Dev.fetchWord (d : Dev) (core slot va : Nat) : Dev × Except TrapInfo W32 :=
  let r := d.translate (d.slotCtx core slot) .fetch va
  match r.out with
  | .error f => (r.dev, .error (f.info .fetch va 0))
  | .ok p =>
    if r.dev.poisoned p.loc 4 then (r.dev.reportRaw p.loc 4, .error { TrapInfo.plain 0x14 with kind := 3, addr := va })
    else
      let d1 := (r.dev.combineRange p.loc 4).reportRaw p.loc 4
      (d1, .ok (BitVec.ofNat 32 (d1.readNat p.loc 4)))

/-- The three words of a packet; the first that faults ends the fetch. -/
def Dev.fetchFrom (d : Dev) (core slot va : Nat) : Nat → Dev × Except TrapInfo (List W32)
  | 0 => (d, .ok [])
  | n + 1 =>
    match d.fetchWord core slot va with
    | (d1, .error t) => (d1, .error t)
    | (d1, .ok w) =>
      match d1.fetchFrom core slot (va + 4) n with
      | (d2, .error t) => (d2, .error t)
      | (d2, .ok l) => (d2, .ok (w :: l))

/-- The number of a place's line in an instruction cache: its address in 96-byte lines, those of CXL-attached memory from 2^56 bytes on. -/
def codeLine (l : Loc) : Nat := (l.a + (if l.sp = .cxl then 2 ^ 56 else 0)) / 96

/-- The lines of a packet that are not in its core's instruction cache; a word that does not translate is in none and is fetched for its fault
(R58, R82). -/
def Dev.missing (d : Dev) (core slot pc : Nat) : List Nat :=
  (List.range 3).filterMap (fun i => match (d.translate (d.slotCtx core slot) .fetch (pc + 4 * i)).out with
    | .ok p => if (d.core core).icache.contains (codeLine p.loc) then none else some (codeLine p.loc)
    | .error _ => none)

/-- The packet at an address. -/
def Dev.fetchPacket (d : Dev) (core slot pc : Nat) : Dev × Except TrapInfo (List W32) := d.fetchFrom core slot pc 3

/-! ## The issue group a split stands at -/

/-- What a split's next issue group makes of an attempt to issue it. -/
inductive Plan where
  | notReady
  | trap (pos : Pos) (t : TrapInfo)
  | failed (pos : Pos) (f : FailRec)
  | go (pos : Pos) (raw : List W32)
  deriving DecidableEq, Repr

/-- The group of its workgroup that a slot's contexts belong to: the trap-handler slot's own is no group of the workgroup's (R265, R267). -/
def Dev.streamOwner (d : Dev) (core slot : Nat) : Nat := if slot = handlerSlot then handlerSlot else (d.group core slot).index

/-- The open stream context bound to one of a slot's queues (R265). -/
def Dev.streamOf (d : Dev) (core slot q : Nat) : Option (Nat × Stream) :=
  match d.task? (d.taskAt core slot) with
  | some t => t.streams.find? (fun x => decide (x.2.group = d.streamOwner core slot ∧ bits (x.2.words.getD 5 0).toNat 59 58 = q))
  | none => none

/-- Positions of a stream's walk, and entries (R263, R264). -/
def Stream.count (x : Stream) (l : Nat) : Nat := bits (x.words.getD (1 + l) 0).toNat 63 40
def Stream.positions (x : Stream) : Nat := x.count 0 * x.count 1 * x.count 2 * x.count 3
def Stream.map (x : Stream) : Nat := bits (x.words.getD 5 0).toNat 54 52
def Stream.entries (x : Stream) : Nat := if x.map = 0 then (x.positions + 31) / 32 else x.positions

/-- How a named stream queue stands: underflow, not ready, or an entry to pop (R115, R266, R267). -/
inductive HeadState where
  | underflow | waits | ready
  deriving DecidableEq, Repr

/-- Whether a store of the group that is not performed reaches lines of a queued entry, which it is about to make stale (R149, R266). -/
def Dev.storeNear (d : Dev) (core slot : Nat) (e : StreamEntry) : Bool :=
  d.ops.any (fun o => decide (o.2.core = core ∧ o.2.slot = slot) && o.2.kind.writes &&
    o.2.parts.any (fun p => !p.done && (watchLines p.loc p.n).any (fun l => e.lines.contains l)))

/-- The state of a queue head for the issue of a word that names it. -/
def Dev.headState (d : Dev) (core slot q : Nat) : HeadState :=
  match d.streamOf core slot q with
  | none => .underflow
  | some (_, x) =>
    match x.queue with
    | [] => if x.entries ≤ x.popped then .underflow else .waits
    | e :: _ => if e.stale ∨ e.marked ∨ d.storeNear core slot e then .waits else .ready

/-- A split's plan for the words of the packet it stands at (R56, R74, R82, R114, R115, R173). -/
def Dev.planGroup (d : Dev) (core slot : Nat) (pos : Pos) (ws : List W32) : Plan :=
  let raw := runOf (ws.drop pos.word)
  let g := d.group core slot
  if !packetOk raw then .trap pos (TrapInfo.plain 0x02)
  else if !(raw.all (d.mayIssue core slot) && modsSuit raw) then .trap pos (TrapInfo.plain 0x01)
  else
    let is := raw.filterMap decoded
    let reads := is.flatMap sourcesOf
    match (g.notReady.filter (fun p => reads.contains p.1)).findSome? (fun p => g.failureOf p.2) with
    | some f => .failed pos f
    | none =>
      if g.holdsBack reads (is.flatMap destsOf) then .notReady
      else
        let hs := (is.flatMap headsOf).map (fun q => d.headState core slot (q - 120))
        if hs.contains .underflow then .trap pos (TrapInfo.plain 0x0F)
        else if hs.contains .waits then .notReady
        else .go pos raw

/-- Where a split stands for its next issue group: a split told to pass over its group stands at the one after it, which may begin the next packet (R335).
None where the packet it must read for that does not come. -/
def Dev.standsAt (d : Dev) (core slot : Nat) (x : Split) : Dev × Except TrapInfo Pos :=
  if x.skip then
    match d.fetchPacket core slot x.pos.pc with
    | (d1, .error t) => (d1, .error t)
    | (d1, .ok ws) => (d1, .ok (x.pos.after (runOf (ws.drop x.pos.word)).length))
  else (d, .ok x.pos)

/-- A split's plan. A fetch fault is raised when the split comes to issue (R58); a group that is not in the instruction cache is not ready (R82). -/
def Dev.plan (d : Dev) (core slot : Nat) (x : Split) : Dev × Plan :=
  match d.standsAt core slot x with
  | (d1, .error t) => (d1, .trap x.pos t)
  | (d1, .ok pos) =>
    match d1.fetchPacket core slot pos.pc with
    | (d2, .error t) => (d2, .trap pos t)
    | (d2, .ok ws) => if (d2.missing core slot pos.pc).isEmpty then (d2, d2.planGroup core slot pos ws) else (d2, .notReady)

/-! ## Stalls at issue (R17, R82, R170) -/

/-- The issue in progress when a split's issue group begins; base is the device the group's words read. -/
def openIssue (d : Dev) (core slot split : Nat) (x : Split) (pos : Pos) (raw : List W32) : Issue :=
  { Issue.closed with
    open_ := true, core := core, slot := slot, split := split, mask := x.mask, pos := pos,
    words := raw.filterMap decoded, fall := pos.after raw.length, base := d }

/-- What a word that counts in a counter needs to issue: its counter, whether it counts once for its group, and where an entry may be needed: the level's
lines, a generic address for each lane, a uniform one, or none. -/
inductive EntryNeed where
  | none
  | lines
  | lanes (b : SReg) (v : VReg) (scale : Nat)
  | uniform (b : SReg)

/-- The counter and the entry a word needs (R159, R169). -/
def needsOf : Instr → Option (Ctr × EntryNeed)
  | .ldP _ _ _ _ _ => some (.cl, .none) | .ldS _ _ _ _ _ => some (.cl, .none) | .ldC _ _ _ _ _ => some (.cl, .none)
  | .ldK _ _ _ _ _ => some (.cl, .lines) | .ldG _ _ _ _ _ => some (.cl, .lines)
  | .stP _ _ _ _ _ => some (.cs, .none) | .stS _ _ _ _ _ => some (.cs, .none) | .stC _ _ _ _ _ => some (.cs, .none)
  | .stK _ _ _ _ _ => some (.cs, .lines) | .stG _ _ _ _ _ => some (.cs, .lines)
  | .ldu _ b => some (.cl, .uniform b) | .stu _ b => some (.cs, .uniform b)
  | .lda _ b v x => some (.cl, .lanes b v (scaleOf x 4)) | .acqld _ b v x => some (.cl, .lanes b v (scaleOf x 4))
  | .sta _ b v x => some (.cs, .lanes b v (scaleOf x 4)) | .relst _ b v x => some (.cs, .lanes b v (scaleOf x 4))
  | .bara _ _ => some (.cl, .none)
  | .atomAdd _ b v => some (.cl, .lanes b v 4) | .atomMinI _ b v => some (.cl, .lanes b v 4) | .atomMinN _ b v => some (.cl, .lanes b v 4)
  | .atomMaxI _ b v => some (.cl, .lanes b v 4) | .atomMaxN _ b v => some (.cl, .lanes b v 4) | .atomAnd _ b v => some (.cl, .lanes b v 4)
  | .atomOr _ b v => some (.cl, .lanes b v 4) | .atomXor _ b v => some (.cl, .lanes b v 4) | .atomXchg _ b v => some (.cl, .lanes b v 4)
  | .atomAddF32 _ b v => some (.cl, .lanes b v 4) | .atomCas _ b v => some (.cl, .lanes b v 4)
  | .redAdd _ b v => some (.cs, .lanes b v 4) | .redMinI _ b v => some (.cs, .lanes b v 4) | .redMinN _ b v => some (.cs, .lanes b v 4)
  | .redMaxI _ b v => some (.cs, .lanes b v 4) | .redMaxN _ b v => some (.cs, .lanes b v 4) | .redAnd _ b v => some (.cs, .lanes b v 4)
  | .redOr _ b v => some (.cs, .lanes b v 4) | .redXor _ b v => some (.cs, .lanes b v 4) | .redAddF32 _ b v => some (.cs, .lanes b v 4)
  | .mma _ _ _ _ _ _ _ _ => some (.ct, .none) | .mlda _ _ _ => some (.ct, .none) | .mldb _ _ _ => some (.ct, .none)
  | .mzero _ => some (.ct, .none) | .mtld _ _ _ => some (.ct, .none) | .mtst _ _ _ => some (.ct, .none)
  | .mtrv _ _ _ => some (.ct, .none) | .mtwv _ _ _ => some (.ct, .none)
  | .cqpush _ _ => some (.cc, .none) | .cqpub _ _ => some (.cc, .none)
  | _ => none

/-- Whether a generic address names G or K. -/
def reachesLines (a : Nat) : Bool :=
  match genericDecode a with
  | some (.g, _) => true
  | some (.k, _) => true
  | _ => false

/-- Whether a word with its acting lanes needs an entry. -/
def State.entryNeeded (s : State) : EntryNeed → Bool
  | .none => false
  | .lines => true
  | .lanes b v scale => (lanesOf s.acting).any (fun i => reachesLines (s.laneAddr b v scale i))
  | .uniform b => reachesLines (s.uniAddr b)

/-- The modifier a word brings to the next. -/
def memoryMod : Instr → Option Mod
  | .modMemory g e sc h o => some (.memory g (decide (e = 1)) sc.toNat h.toNat o.toInt)
  | _ => none

/-- The matrix queue proper: parked entries have left it (R222). -/
def Core.queued (k : Core) : List MxEntry := k.mq.filter (fun e => e.parked.isNone)

/-- Whether a core's matrix queue is full (R222). -/
def Core.mxFull (k : Core) : Bool := decide (8 ≤ k.queued.length)

/-- Whether some word of an issue group must stall at issue: it acts, and its counter stands at 63, or it needs an entry and none is free, or it needs a
matrix-queue entry and the queue is full (R17, R170, R222). -/
def State.groupStalls (s : State) (before : Option Mod) : List Instr → Bool
  | [] => false
  | i :: l =>
    let t := s.modIss (fun x => { x with mod := before })
    (match needsOf i with
      | some (c, e) => t.performs && (t.mustStall c (t.entryNeeded e) || (decide (c = .ct) && (t.dev.core t.iss.core).mxFull))
      | none => false) || s.groupStalls (memoryMod i) l

/-! ## Readiness and rank (R82 to R84) -/

/-- Whether a group may issue at all: it has no trap waiting, is not held, killed or at a checkpoint, its task runs, and its cluster is
neither stopped for a clock change nor being saved (R82, R94, R208, R330, R340, R372, R405). -/
def Dev.groupRuns (d : Dev) (core slot : Nat) : Bool :=
  let g := d.group core slot
  let cl := d.cluster (clusterOf core)
  !d.stopped && cl.settling.isNone && !cl.clearing && g.trap.isNone && !g.held && !g.killed
    && (decide (g.atCheckpoint = none ∨ g.checkKind = some 3))
    && (if slot = handlerSlot then (d.core core).serving.isSome
        else match d.task? g.task with
          | some t => decide (t.phase = .running)
          | none => false)

/-- The values at the stream-queue heads that an issue group names (R115). -/
def Dev.peekHeads (d : Dev) (core slot : Nat) (raw : List W32) : Tab (List W32) :=
  ((raw.filterMap decoded).flatMap headsOf).foldl (fun t q => match d.streamOf core slot (q - 120) with
    | some (_, x) => Tab.insert t q ((x.queue.map (fun e => e.vals)).headD [])
    | none => t) []

/-- Whether no stall at issue applies to an issue group (R82). A pair's trailer raises no counter, and a leader that lacks room while its pair holds stores
comes to a checkpoint instead (R405). -/
def Dev.roomFor (d : Dev) (core slot : Nat) (x : Split) (pos : Pos) (raw : List W32) : Bool :=
  let s : State := { dev := d, iss := { openIssue d core slot 0 x pos raw with heads := d.peekHeads core slot raw }, agenda := [], pick := none }
  decide (s.old.role = .trailer) || (decide (s.old.role = .leader) && decide (0 < s.pairHeld)) || !s.groupStalls none (raw.filterMap decoded)

/-- Whether a split may be issued in some cycle as things stand (R82): it runs, and its next issue group has all it needs. One that has been woken from an
engine stall within the drain window of a clock change waits for its end (R372). -/
def Dev.able (d : Dev) (core slot : Nat) (x : Split) : Bool :=
  d.groupRuns core slot && decide (x.park = .running)
    && !((d.cluster (clusterOf core)).drain.isSome && decide (x.tried = 3 ∨ x.tried = 4)) &&
    ((d.group core slot).poisoned || (match (d.plan core slot x).2 with
      | .notReady => false
      | .go pos raw => d.roomFor core slot x pos raw
      | _ => true))

/-- Whether a split is a candidate for issue in this cycle (R82, R91). -/
def Dev.ready (d : Dev) (core slot : Nat) (x : Split) : Bool := decide (x.rest ≤ d.now (clusterOf core)) && d.able core slot x

/-- The slots a port serves (R80). -/
def portSlots (port : Nat) : List Nat :=
  (if port = 0 then [handlerSlot] else []) ++ (List.range 8).map (fun i => port + 4 * i)

/-- The live splits of a port's groups, as slot, index and split; of a group whose pair's checkpoint is taken for a word, the split that is to issue it
(R405). -/
def Dev.portSplits (d : Dev) (core port : Nat) : List (Nat × Nat × Split) :=
  (portSlots port).flatMap (fun sl =>
    if d.hasGroup core sl then
      (((d.group core sl).splits.zipIdx).filter (fun p => decide ((d.group core sl).checkKind ≠ some 3 ∨ (d.group core sl).atCheckpoint = some (3 + 8 * p.2)))).filterMap
        (fun p => p.1.map (fun x => (sl, p.2, x)))
    else [])

/-- A split's rank, smaller first (R83): handler slot, global tier by promotion, class, promoted in the class, age, slot, index. -/
def Dev.rank (d : Dev) (core : Nat) (c : Nat × Nat × Split) : List Nat :=
  let x := c.2.2
  let far := 2 ^ 64
  let (cls, age) := match d.task? (d.group core c.1).task with
    | some t => ((d.queue t.queue).cls, t.age)
    | none => (0, 0)
  [if c.1 = handlerSlot then 0 else 1, x.globalPromo.getD far, 3 - cls, x.classPromo.getD far, age, c.1, c.2.1]

/-- Whether one list of numbers comes before another, the first difference deciding. -/
def lexLess : List Nat → List Nat → Bool
  | a :: l, b :: m => decide (a < b) || (decide (a = b) && lexLess l m)
  | _, _ => false

/-- The first ranked of some candidates. -/
def Dev.firstRanked (d : Dev) (core : Nat) : List (Nat × Nat × Split) → Option (Nat × Nat × Split)
  | [] => none
  | c :: l =>
    match d.firstRanked core l with
    | none => some c
    | some b => if lexLess (d.rank core b) (d.rank core c) then some b else some c

/-- The lowest free split index. -/
def freeSplit (l : List (Option Split)) : Option Nat := firstBelow (fun i => decide ((l.getD i none) = none)) 4

/-- A split without counts and promotions (R84). -/
def Split.uncounted (x : Split) : Split := { x with waitCount := 0, classPromo := none, globalPromo := none }

/-- Whether a port of a core has issued in the cycle under way. -/
def Dev.coreIssued (d : Dev) (core : Nat) : Bool :=
  (List.range 4).any (fun p => (Tab.find d.turn (4 * core + p)).any (fun t => decide (t.1 = d.now (clusterOf core))))

/-- A port issues from a split: it issues no more in this cycle (R81), the core's cycles in which it issued count one more (R350), and the counts of the split
clear (R84). -/
def Dev.issued (d : Dev) (core port slot split : Nat) : Dev :=
  ({ (if d.coreIssued core then d else d.addBusy core 1) with
    turn := Tab.insert d.turn (4 * core + port) (d.now (clusterOf core), slot, split) } : Dev).modGroup core slot (fun g =>
    { g with splits := modSplit g.splits split Split.uncounted })

/-- Whether a port may still issue in the cycle of its cluster under way: it has not (R81), and where the cluster is held to half its rate the cycle is an
even one (R370). -/
def Dev.portOpen (d : Dev) (core port : Nat) : Bool :=
  let n := d.now (clusterOf core)
  (match Tab.find d.turn (4 * core + port) with
    | some t => decide (t.1 ≠ n)
    | none => true) && !((d.cluster (clusterOf core)).halfRate && decide (n % 2 = 1))

/-- The split that a port would issue in this cycle. -/
def Dev.portChoice (d : Dev) (core port : Nat) : Option (Nat × Nat × Split) :=
  if d.portOpen core port then d.firstRanked core ((d.portSplits core port).filter (fun c => d.ready core c.1 c.2.2)) else none

/-- Whether a split only lacks room in its core's matrix queue, which is an engine stall (R82, R222). -/
def Dev.queueStalled (d : Dev) (core slot : Nat) (x : Split) : Bool :=
  d.groupRuns core slot && decide (x.park = .running) && (d.core core).mxFull &&
    (match (d.plan core slot x).2 with
      | .go _ raw => raw.any (fun w => ((decoded w).bind needsOf).any (fun n => decide (n.1 = .ct)))
      | _ => false)

/-- A split after so many cycles from one of its cluster's on (R84): ready in those it did not issue in, its wait count rises; not ready, it clears, and one
that the matrix queue has no room for is parked. -/
def Dev.waited (d : Dev) (core slot i : Nat) (x : Split) (n k : Nat) : Split :=
  if d.able core slot x then
    if x.rest ≤ n then
      let used := match Tab.find d.turn (4 * core + slot % 4) with
        | some t => if t = (n, slot, i) then 1 else 0
        | none => 0
      { x with waitCount := x.waitCount + (k - used) }
    else { x.uncounted with waitCount := n + k - x.rest }
  else if d.queueStalled core slot x then x.uncounted.stallAt .stallEngine n
  else x.uncounted

/-- The activity of a pair's arrays in eighths (R233, R370): that of its state, or of balance filler where it is idle. -/
def Dev.activity (d : Dev) (p : Nat) : Nat := if (d.pair p).st = .cold then (d.cluster (clusterOfPair p)).filler else (d.pair p).level

/-- The pairs whose arrays are active. -/
def Dev.activePairs (d : Dev) : List Nat :=
  ((d.pairs.filter (fun p => decide (p.2.level ≠ 0))).map Prod.fst ++ (d.clusters.filter (fun c => decide (c.2.filler ≠ 0))).flatMap (fun c => pairsOf c.1)).eraseDups

/-- The groups of e after the cycles that have passed since d: wait counts (R84), which a forced save keeps (R94), the stacks that pop in the cycle that
begins (R90), and the work of the arrays meanwhile (R350). -/
def Dev.elapsed (e d : Dev) : Dev :=
  let worked := d.activePairs.foldl (fun t p =>
    let c := clusterOfPair p
    Tab.insert t (256 + p) (Tab.get 0 t (256 + p) + d.activity p * (e.now c - d.now c))) e.busy
  { e with busy := worked, groups := Tab.mapV e.groups (fun key g =>
      let core := key / 64
      let slot := key % 64
      let n := d.now (clusterOf core)
      let k := e.now (clusterOf core) - n
      if k = 0 ∨ (d.cluster (clusterOf core)).clearing then g
      else { g with
        splits := (g.splits.zipIdx).map (fun p => p.1.map (fun x => d.waited core slot p.2 x n k))
        mayPop := !g.stack.isEmpty && (freeSplit g.splits).isSome }) }

/-! ## SIG (R403) -/

/-- What an issue group adds to SIG. -/
def sigTerm (ws : List W32) (mask : W32) : W32 :=
  let x := ws.foldl (fun x w => x ^^^ (w &&& 0x7FFFFFFF#32)) 0
  (x.rotateLeft ((lanesOf mask).length % 32)) ^^^ mask

/-- SIG after an issue group; the one that holds SIGCHK leaves it. -/
def sigAfter (sig : W32) (ws : List W32) (mask : W32) : W32 :=
  if ws.any (fun w => decide (majorOf w = 0x0B)) then sig else sig + sigTerm ws mask

/-! ## Opening an issue group -/

/-- The value range in G of a queued entry's elements, for the acquisition of sets at its pop (R202): the addresses of its positions. -/
def Stream.elementSize (x : Stream) : Nat :=
  match bits (x.words.getD 5 0).toNat 63 60 with
  | 0 => 4 | 1 => 2 | 2 => 2 | 5 => 2 | 6 => 2 | _ => 1

/-- The address of a position of the walk (R264). -/
def Stream.addr (x : Stream) (p : Nat) : Nat :=
  let stride (l : Nat) : Int := (BitVec.ofNat 40 (bits (x.words.getD (1 + l) 0).toNat 39 0)).toInt
  let i0 := p % x.count 0
  let i1 := p / x.count 0 % x.count 1
  let i2 := p / (x.count 0 * x.count 1) % x.count 2
  let i3 := p / (x.count 0 * x.count 1 * x.count 2)
  (((bits (x.words.getD 0 0).toNat 53 0 : Int) + i0 * stride 0 + i1 * stride 1 + i2 * stride 2 + i3 * stride 3) % 2 ^ 64).toNat

/-- The address lane i of entry e reads, none past the walk (R264). -/
def Stream.laneAddr (x : Stream) (e i : Nat) : Option Nat :=
  match x.map with
  | 0 => if 32 * e + i < x.positions then some (x.addr (32 * e + i)) else none
  | 1 => some (x.addr e)
  | _ =>
    let ls : Int := (BitVec.ofNat 40 (bits (x.words.getD 6 0).toNat 39 0)).toInt
    some ((((x.addr e : Nat) : Int) + i * ls) % 2 ^ 64).toNat

/-- The ranges of G an entry was read from; none for the other spaces. -/
def Stream.ranges (x : Stream) (e : Nat) : List (Nat × Nat) :=
  if bits (x.words.getD 0 0).toNat 63 60 = 0 then
    ((List.range 32).filterMap (x.laneAddr e)).map (fun a => (a, x.elementSize))
  else []

/-- Popping the queues that an issue group names: each gives one entry, whose values its words read (R115). -/
def State.popHeads (s : State) : List Nat → State
  | [] => s
  | q :: l =>
    let c := s.iss.core
    let sl := s.iss.slot
    match s.dev.streamOf c sl (q - 120) with
    | some (ctx, x) =>
      let vals := match x.queue with
        | e :: _ => e.vals
        | [] => []
      let s1 := s.modDev (fun d => d.modTask (d.taskAt c sl) (fun t =>
        { t with streams := Tab.insert t.streams ctx { x with queue := x.queue.tail, popped := x.popped + 1 } }))
      (s1.modIss (fun i => { i with heads := Tab.insert i.heads q vals })).popHeads l
    | none => s.popHeads l

/-- The ranges that the pops of an issue group touch. -/
def State.popRanges (s : State) (qs : List Nat) : List (Nat × Nat) :=
  qs.flatMap (fun q => match s.dev.streamOf s.iss.core s.iss.slot (q - 120) with
    | some (_, x) => x.ranges x.popped
    | none => [])

/-- The group's step into its issue group: sets its pops need are settled (R202), queues pop, SIG changes. -/
def State.enterGroup (s : State) (raw : List W32) : State :=
  let qs := (raw.filterMap decoded).flatMap headsOf
  match s.settleSets (s.popRanges qs) false with
  | .inr s1 => s1
  | .inl s1 =>
    (s1.popHeads qs).modGrp (fun g => { g with regs := { g.regs with sig := sigAfter g.regs.sig raw s.iss.mask } })

/-- A split told to pass over its group has done so (R335): it stands at the group after it, where a trap or a stall leaves it. -/
def Dev.moveSplit (d : Dev) (core slot split : Nat) (pos : Pos) : Dev :=
  d.modGroup core slot (fun g => { g with splits := modSplit g.splits split (fun y => { y with pos := pos, skip := false }) })

/-- What DIAGST left in a group's registers, or in its workgroup's buffers, is decoded as an issue group reads it, or makes it trap (R396, R400, R402). -/
def Dev.meetRegs (d : Dev) (core slot : Nat) (reads : List RegName) : Dev :=
  (d.raw.filter (fun r => r.pending && decide (r.inst = core) && r.stands d &&
    (if r.array = 0 then
      (let p := Config.diagPlace 0 core r.addr
       decide (p.1 = slot) && (r.bad || reads.contains (.v p.2.1)))
    else decide (r.array = 4 ∨ r.array = 5) && r.bad && (d.group core slot).poisoned))).foldl (fun d r => d.decodeRaw false r) d

/-- Issuing the split a port has chosen (R83): its packet is fetched for good, and its issue group begins or traps. An uncorrectable error of the group's own
storage comes first: it traps, or rolls the group's pair back (R400, R406). -/
def State.issueSplit (s : State) (core slot split : Nat) (x : Split) : State :=
  let (d1, p) := s.dev.plan core slot x
  let at_ (pos : Pos) (raw : List W32) : State :=
    let d2 := (if x.skip then d1.moveSplit core slot split pos else d1).meetRegs core slot ((raw.filterMap decoded).flatMap sourcesOf)
    { s with dev := d2, iss := openIssue d2 core slot split x pos raw }
  let g := d1.group core slot
  if g.poisoned then
    let clean (u : State) : State := u.modDev (fun d => d.modGroup core slot (fun g => { g with poisoned := false }))
    if g.role = .none then clean ((at_ x.pos []).takeTrap (TrapInfo.plain 0x14))
    else clean (({ s with dev := d1.meetRegs core slot [] } : State).modDev (fun d => d.rollPair core slot))
  else match p with
    | .notReady => s
    | .trap pos t => (at_ pos []).takeTrap t
    | .failed pos f => (at_ pos []).takeFailure f
    | .go pos raw => (at_ pos raw).enterGroup raw

/-- ISSUE_GROUP (R81, R83): a port that has not issued in this cycle issues its first ranked ready split; with none ready nothing issues. The words then
run one after another (Machine/Step.lean), reading the registers as they stood before. -/
def execIssueGroup (core port : Nat) (s : State) : Out :=
  match s.dev.portChoice core port with
  | none => .next s
  | some (slot, split, x) => .next ((s.modDev (fun d => d.issued core port slot split)).issueSplit core slot split x)

/-! ## Closing an issue group -/

/-- The code address a stack entry's packet offset counts from (R89): the workgroup's entry, in the handler slot its handler's. -/
def Dev.codeOf (d : Dev) (core slot : Nat) : Nat :=
  if slot = handlerSlot then Tab.get 0 d.handlers (d.core core).world
  else match d.gridOf (d.group core slot).task with
    | some g => g.code
    | none => 0

/-- A split at a position with the waits of its issue group. -/
def Issue.splitAt (i : Issue) (d : Dev) (mask : W32) (pos : Pos) (parks : List Park) : Split :=
  { Split.start mask pos (d.now (clusterOf i.core)) with issued := i.pos }.waitFor (parks.map (fun p => (p, i.pos)))

/-- The waits of the issue group in order, a JOIN last; within the drain window of a clock change a yield point adds its own (R372). -/
def State.waitsOf (s : State) : List Park :=
  let i := s.iss
  let ps := i.parks.filter (fun p => decide (p ≠ .join)) ++ i.parks.filter (fun p => decide (p = .join))
  match (s.dev.cluster (clusterOf i.core)).drain with
  | some c => if !i.exits ∧ (i.target.isSome ∨ i.divide.isSome ∨ !i.parks.isEmpty) then ps.filter (fun p => decide (p ≠ .drain c)) ++ [.drain c] else ps
  | none => ps

/-- The splits and stack of a group after a division (R88, R89). -/
def State.divideGroup (s : State) (g : Group) (taken : W32) (pc : Nat) (parks : List Park) : Group :=
  let i := s.iss
  let rest := i.mask &&& ~~~taken
  let goes := i.splitAt s.dev taken { pc := pc, word := 0 } parks
  match freeSplit g.splits with
  | some k =>
    { g with splits := setAt (setAt g.splits i.split (some (i.splitAt s.dev rest i.fall parks))) k (some goes) }
  | none =>
    let off : Int := (((i.fall.pc : Int) - (s.dev.codeOf i.core i.slot : Int)) / 12)
    { g with
      splits := setAt g.splits i.split (some goes)
      stack := { mask := rest, word := i.fall.word, packet := BitVec.ofInt 30 off } :: g.stack }

/-- What a checkpoint keeps of a group (R407). -/
def Group.save (g : Group) (mxc : List Nat) : PairSave := { regs := g.regs, splits := g.splits, stack := g.stack, mxc := mxc }

/-- The trailer that RDN.BEGIN placed starts after it, with a copy of the leader's registers and split state, which is also the pair's first
checkpoint (R405). -/
def Dev.startTrailer (d : Dev) (core slot : Nat) : Dev :=
  let g := d.group core slot
  let mxc := match d.task? g.task with
    | some t => t.mxc
    | none => []
  let g1 := { g with checkpoint := some (g.save mxc), pairBuf := [], rollRun := 0 }
  let t := { Group.empty with
    task := g.task, index := g.index, regs := g.regs, splits := g.splits, stack := g.stack, exitPos := g.exitPos, role := .trailer,
    partner := (core, slot), checkpoint := some (g.save mxc) }
  (d.setGroup core slot g1).setGroup g.partner.1 g.partner.2 t

/-- Closing an issue group whose words have all run (R52, R57, R88, R93, R337): FPFLAGS take the flags raised, the split moves on,
divides, parks or ends, and a TRAP raises its trap at the position after. -/
def State.closeIssue (s : State) : State :=
  let i := s.iss
  let parks := s.waitsOf
  let move (g : Group) : Group :=
    if i.exits then
      ({ g with splits := setAt g.splits i.split (some { i.splitAt s.dev i.mask i.fall parks with exiting := true }) } : Group).leave i.split
    else match i.divide with
      | some (t, pc) => s.divideGroup g t pc parks
      | none =>
        let pos : Pos := match i.target with
          | some pc => { pc := pc, word := 0 }
          | none => i.fall
        { g with splits := setAt g.splits i.split (some (i.splitAt s.dev i.mask pos parks)) }
  let d1 := s.dev.modGroup i.core i.slot (fun g => move { g with regs := { g.regs with flags := g.regs.flags ||| i.raised } })
  let d2 := match i.trapCode with
    | some c => d1.raiseTrap i.core i.slot i.split i.mask i.fall { TrapInfo.plain 0x11 with tcode := c }
    | none => d1
  let fresh := decide ((i.base.group i.core i.slot).role = .none ∧ (d2.group i.core i.slot).role = .leader)
  { s with dev := if fresh then d2.startTrailer i.core i.slot else d2, iss := Issue.closed }

/-! ## Between issue groups (R84, R90 to R92) -/

/-- WAIT_COUNT_PROMOTION (R84): the promotion bears the cycle of the cluster in which the count reached its mark; two of one cycle are told apart by the rest of the rank
(DESIGN CHOICE, log entry 105). -/
def execWaitCountPromotion (core slot split : Nat) (s : State) : Out :=
  let n := s.dev.now (clusterOf core)
  let f (x : Split) : Split :=
    { x with
      classPromo := (if 64 ≤ x.waitCount ∧ x.classPromo.isNone then some (n - (x.waitCount - 64)) else x.classPromo)
      globalPromo := (if 1024 ≤ x.waitCount ∧ x.globalPromo.isNone then some (n - (x.waitCount - 1024)) else x.globalPromo) }
  .next (s.modDev (fun d => d.modGroup core slot (fun g => { g with splits := modSplit g.splits split f })))

/-- RECONVERGENCE_STACK_POP (R90): in a cycle that begins with an index free the top entry becomes a running split with the lowest free index, one
entry a cycle. -/
def execReconvergenceStackPop (core slot : Nat) (s : State) : Out :=
  let g := s.dev.group core slot
  if !g.mayPop then .next s
  else match g.stack, freeSplit g.splits with
  | e :: l, some k =>
    let x := Split.start e.mask { pc := packetAt (s.dev.codeOf core slot) e.packet.toInt, word := e.word } (s.dev.now (clusterOf core))
    .next (s.modDev (fun d => d.modGroup core slot (fun g => { g with stack := l, splits := setAt g.splits k (some x), mayPop := false })))
  | _, _ => .next s

/-- The position at which a live split may merge (R91): where it stands for its next issue group; none for one whose lanes have exited. -/
def Dev.mergePos (d : Dev) (core slot : Nat) (x : Split) : Option Pos :=
  if x.exiting then none
  else match (d.standsAt core slot x).2 with
    | .ok p => some p
    | .error _ => none

/-- Whether two live splits merge (R91): at one position, at word 0 or both parked at the same JOIN. -/
def Dev.mergeable (d : Dev) (core slot : Nat) (a b : Split) : Bool :=
  match d.mergePos core slot a, d.mergePos core slot b with
  | some p, some q => decide (p = q) && (decide (p.word = 0) || (decide (a.park = .join) && decide (b.park = .join)))
  | _, _ => false

/-- The waits of a split, in order, each with the position of the issue group that brought it. -/
def Split.waits (x : Split) : List (Park × Pos) := if x.park = .running then x.later else (x.park, x.issued) :: x.later

/-- The first pair of split indices of a group that merge, lower first; none while the group is trapped or held (R348). -/
def Dev.mergePair (d : Dev) (core slot : Nat) : Option (Nat × Nat) :=
  let l := (d.group core slot).splits
  if (d.group core slot).held ∨ (d.group core slot).trap.isSome then none
  else [(0, 1), (0, 2), (0, 3), (1, 2), (1, 3), (2, 3)].find? (fun p =>
    match l.getD p.1 none, l.getD p.2 none with
    | some a, some b => d.mergeable core slot a b
    | _, _ => false)

/-- Waits without those that an earlier one already names. -/
def dropRepeated : List (Park × Pos) → List (Park × Pos)
  | [] => []
  | w :: l => w :: (dropRepeated l).filter (fun x => decide (x.1 ≠ w.1))

/-- Whether a wait leaves its split at an issue group that is still to issue: a stall at issue (R82). -/
def Park.atIssue : Park → Bool
  | .stallEngine => true | .stallStores => true | .stallSet _ => true | .stallToken => true | .stallAdecl => true | .stallStream _ => true
  | .stallPair => true | _ => false

/-- The waits of two splits that have become one: a wait for what has issued outlasts a stall, which the issue group meets again (R91). -/
def mergedWaits (l : List (Park × Pos)) : List (Park × Pos) :=
  let fixed := l.filter (fun w => !w.1.atIssue)
  if fixed.isEmpty then l.take 1 else dropRepeated fixed

/-- Two splits become one, at a cycle: both masks, the waits of both, at the place where they stand; it does not issue in this cycle, and no count or promotion is
carried over (R91; DESIGN CHOICE, log entry 106). -/
def Split.merged (x y : Split) (pos : Pos) (now : Nat) : Split :=
  { Split.start (x.mask ||| y.mask) pos now with issued := x.issued, since := x.since, probed := x.probed, rest := now + 1 }.waitFor
    (mergedWaits (x.waits ++ y.waits))

/-- SPLIT_MERGE (R91): the lower index keeps both masks, and is parked if either was. -/
def execSplitMerge (core slot : Nat) (s : State) : Out :=
  let g := s.dev.group core slot
  match s.dev.mergePair core slot with
  | none => .next s
  | some (a, b) =>
    match g.splits.getD a none, g.splits.getD b none with
    | some x, some y =>
      let m := x.merged y ((s.dev.mergePos core slot x).getD x.pos) (s.dev.now (clusterOf core))
      .next (s.modDev (fun d => d.modGroup core slot (fun g => { g with splits := setAt (setAt g.splits a (some m)) b none })))
    | _, _ => .next s

/-- Whether a group's JOINs release (R92): no live split runs, some is parked at a JOIN, and the stack is empty or no index is
free. -/
def Group.joinsRelease (g : Group) : Bool :=
  let live := g.splits.filterMap id
  !live.isEmpty && live.all (fun x => decide (x.park = .join)) && (g.stack.isEmpty || decide (live.length = 4))

/-- JOIN_RELEASE (R92, R403): all parked splits run on, and SIG takes the released mask. -/
def execJoinRelease (core slot : Nat) (s : State) : Out :=
  let g := s.dev.group core slot
  if !g.joinsRelease then .next s
  else
    let mask := (g.splits.filterMap id).foldl (fun m x => m ||| x.mask) 0
    .next (s.modDev (fun d => d.modGroup core slot (fun g =>
      { g with
        splits := g.splits.map (fun o => o.map Split.unpark)
        regs := { g.regs with sig := g.regs.sig + mask.rotateLeft 16 } })))

end Sys2Proof.Machine
end

