-- ==== Sys2Proof/Machine/Progress.lean ====
section
/-! DEFINITION. How outstanding work ends: loads bound, stores performed, counts ended, waits released, monitors woken, fetches and walks
completed, and the checkpoints of redundant pairs (R110, R149, R166, R167, R171 to R179, R274, R405 to R407). -/

namespace Sys2Proof.Machine

/-! ## Loads and stores (R149, R159, R172, R177, R181) -/

/-- Whether an operation may take a further entry (R159). -/
def Dev.entryDue (d : Dev) (o : Op) : Bool := !o.waits.isEmpty && decide (0 < d.entriesFree o.core o.slot)

/-- An operation takes the entries it can and sends the remote parts that then have one. -/
def Dev.advance (d : Dev) (n : Nat) : Dev :=
  match d.op? n with
  | some o => if o.waits.isEmpty then d else (d.takeEntries n).sendParts n 0 o.parts
  | none => d

/-- Whether a load, or a prefetch, may go on now; a line that a copy engine holds is waited for (R158, R168). -/
def Dev.canBind (d : Dev) (n : Nat) : Bool :=
  match d.op? n with
  | some o =>
    decide (o.st = .going) && ((o.kind.loads && (d.entryDue o || o.parts.any (d.bindable n o)))
      || (o.kind.prefetches && o.parts.all (fun p => !p.loc.isRemote && !d.engineHolds p.loc p.n)))
  | none => false

/-- LOAD_VALUE_BOUND (R159, R164, R172): a load takes entries, and the bytes of the parts that have one are read; a prefetch's lines come in. -/
def execLoadValueBound (op : Nat) (s : State) : Out :=
  .next (if s.dev.canBind op then
      match s.dev.op? op with
      | some { kind := .pref l1, .. } => s.modDev (fun d => d.fillPref op ((d.op? op).getD default) l1)
      | _ => s.modDev (fun d => (d.advance op).bindLoad op)
    else s)

/-- Whether a store held back for a RELST has lost the split that waited, as the handler's activation ended (R331, R340), and the slot's earlier stores
have ended. -/
def Dev.orphan (d : Dev) (n : Nat) (o : Op) : Bool :=
  let g := d.group o.core o.slot
  let waits (p : Park) : Bool := match p with
    | .relst k _ _ => decide (k = n)
    | _ => false
  decide (o.st = .held ∧ o.core < 65536 ∧ g.role = .none) && !g.splits.any (fun s => s.any (fun x => waits x.park || x.later.any (fun l => waits l.1)))
    && !d.ops.any (fun q => decide (q.1 < n ∧ q.2.core = o.core ∧ q.2.slot = o.slot ∧ q.2.ctr = .cs))

/-- Whether a store or atomic may go on now: it may take an entry, or a part can be performed in the order of its group's stores to the place
(R180, R181), none of its lanes on a peer's page being still to do (R173); or it was held back and nothing waits to send it. -/
def Dev.canPerform (d : Dev) (n : Nat) : Bool :=
  match d.op? n with
  | some o => (decide (o.st = .going) && o.kind.writes && (d.entryDue o || (!o.remoteLeft && o.parts.any (d.performable n o)))) || d.orphan n o
  | none => false

/-- A store held back goes out, as its split would have sent it. -/
def Dev.sendOrphan (d : Dev) (n : Nat) : Dev :=
  match d.op? n with
  | some o => if d.orphan n o then (d.modOp n (fun q => { q with st := .going })).sendParts n 0 o.parts else d
  | none => d

/-- STORE_PERFORMED (R159, R172): it takes entries, and its local lanes that can be are performed, in ascending lane. -/
def execStorePerformed (op : Nat) (s : State) : Out :=
  .next (if s.dev.canPerform op then s.modDev (fun d => ((d.sendOrphan op).advance op).performOp op) else s)

/-- Whether a RELST at system scope whose other waits are over still waits for the host or a completer (R177, R178). -/
def Dev.relstUnseen (d : Dev) (o : Op) : Bool :=
  decide (o.st = .held ∧ o.scope = 5) && ((d.group o.core o.slot).cs.isEmpty || decide ((d.group o.core o.slot).role = .leader)) && !(d.group o.core o.slot).unseen.isEmpty

/-- CXL_COMPLETER_ACK (R177, R178, R195, R197): what an operation awaits of the host or a completer has come. -/
def execCxlCompleterAck (op : Nat) (s : State) : Out :=
  match s.dev.op? op with
  | some o =>
    match o.st with
    | .awaiting _ => .next (s.modDev (fun d => d.hostAnswers op))
    | _ =>
      if s.dev.relstUnseen o then
        .next (s.modDev (fun d => (d.hostGives (d.group o.core o.slot).unseen).modGroup o.core o.slot (fun g => { g with unseen := [] })))
      else .next s
  | none => .next s

/-- COUNTER_END (R171): the ended counts at a counter's head end; groups stalled on the counter try again. -/
def execCounterEnd (core slot : Nat) (ctr : Ctr) (s : State) : Out :=
  .next (s.modDev (fun d => (d.modGroup core slot (fun g => g.endCounts ctr)).wakeStalls))

/-! ## Waits (R166, R167, R173, R175, R178, R179, R337) -/

/-- A wait that ends in the trap of a covered operation: the split stands again at the issue group that waited; a RELST that another of its lanes brought
still waits (R91, R178). -/
def Dev.trapWait (d : Dev) (core slot split : Nat) (x : Split) (f : FailRec) : Dev :=
  let d1 := d.modGroup core slot (fun g => { g.dropFailure f with
    splits := modSplit g.splits split (fun y =>
      ({ y with pos := y.issued, exiting := false }).waitFor (y.later.filter (fun w => w.1.isRelst))) })
  d1.raiseTrap core slot split x.mask x.issued f.tr.info

/-- A TLBI that waits for an operation waits for it under its new number (R290). -/
def Dev.followOp (d : Dev) (op n : Nat) : Dev :=
  let p (w : Park) : Park := match w with
    | .tlbi a c (some l) => .tlbi a c (some (l.map (fun o => if o = op then n else o)))
    | w => w
  d.mapGroups (fun g => { g with splits := g.splits.map (fun s => s.map (fun x => { x with park := p x.park })) })

/-- A store that RELST held back goes out (R178): its count rises now, and it takes its place after the stores that the group has issued meanwhile, under a
new number. One with no lane acting does nothing. -/
def Dev.releaseStore (d : Dev) (core slot op : Nat) : Dev :=
  match d.op? op with
  | none => d
  | some o =>
    let d0 := { d with ops := Tab.erase d.ops op }
    if o.parts.isEmpty then d0
    else
      let n := d.nextOp
      let d1 := { d0 with ops := Tab.insert d0.ops n { o with st := .going }, nextOp := n + 1 }.followOp op n
      (d1.modGroup core slot (fun g => g.raise .cs n)).sendParts n 0 o.parts

/-- Whether an access that used a translation has been bound or performed, or has ended otherwise (R290): of a record or a stream entry, when its bytes
have been read. -/
def Dev.accessOver (d : Dev) (n : Nat) : Bool :=
  match d.op? n with
  | none => true
  | some o => match o.kind with
    | .record => o.parts.all (fun p => p.done)
    | .stream _ => o.parts.all (fun p => p.done)
    | _ => false

/-- Whether a wait on counters has come to its end. -/
def Dev.waitOver (d : Dev) (core slot : Nat) (p : Park) : Bool :=
  let g := d.group core slot
  match p with
  | .waitc l s c t _ => g.countsAt l s c t
  | .acqld _ _ => g.cl.isEmpty
  | .relst _ sc _ => g.cs.isEmpty && (decide (sc < 5) || g.unseen.isEmpty)
  | .tret => g.countsAt 0 0 0 0
  | .tlbi _ _ (some ops) => ops.all d.accessOver
  | _ => false

/-- What a wait covers, for the traps of R173. -/
def Park.covered : Park → List Nat
  | .waitc _ _ _ _ cov => cov
  | .acqld _ cov => cov
  | .relst _ _ cov => cov
  | _ => [0, 0, 0, 0]

/-- WAITC_RELEASE (R175): a split parked on counters runs on when they are at or below their fields; a covered operation that failed
makes it trap instead (R173). ACQLD, RELST, TRET and TLBI wait in the same way (R178, R179, R290, R337). -/
def execWaitcRelease (core slot split : Nat) (s : State) : Out :=
  match s.dev.split? core slot split with
  | none => .next s
  | some x =>
    if !s.dev.waitOver core slot x.park then .next s
    else match (s.dev.group core slot).coveredFailure x.park.covered with
      | some f =>
        if (s.dev.group core slot).trap.isSome then .next s else
        let gone (d : Dev) : Dev := match x.park with
          | .relst op _ _ => { d with ops := Tab.erase d.ops op }
          | _ => d
        .next (s.modDev (fun d => (gone d).trapWait core slot split x f))
      | none =>
        .next (s.modDev (fun d =>
          match x.park with
          | .acqld sc _ => (d.acquired core sc).unpark core slot split
          | .relst op sc _ => ((if 4 ≤ sc then d.cleanAll core else d).releaseStore core slot op).unpark core slot split
          | .tret => (d.unpark core slot split).trapReturn core
          | _ => d.unpark core slot split))

/-- A split released from a barrier is ready in the cycle after (R166). -/
def Dev.restSplit (d : Dev) (core slot split : Nat) : Dev :=
  d.modGroup core slot (fun g => { g with splits := modSplit g.splits split (fun x => { x with rest := d.now (clusterOf core) + 1 }) })

/-- BARRIER_RELEASE (R166): the split runs on when the word's phase differs from the one it waits on, from the next cycle. -/
def execBarrierRelease (core slot split : Nat) (s : State) : Out :=
  match s.dev.split? core slot split with
  | some { park := .barrier w phase, .. } =>
    .next (if bit (s.dev.readNat w 4) 31 ≠ phase ∧ !s.dev.engineHolds w 4 then s.modDev (fun d => (d.unpark core slot split).restSplit core slot split) else s)
  | _ => .next s

/-- An MWAIT's word is seen: where its condition holds, S[D] takes it, the monitor is disarmed and the split runs on, its later accesses after the word as
an ACQLD's at the word's scope, which on a peer's page is the domain's at least (R167, R185); in a pair both groups' splits do (R405). -/
def Dev.mwaitSees (d : Dev) (core slot split : Nat) (w : W64) : Dev :=
  match d.split? core slot split with
  | some { park := .mwait ge r _ sc l, .. } =>
    let g := d.group core slot
    if mwaitHolds ge w (g.regs.readS r.toNat) then
      let one (d : Dev) (c sl : Nat) : Dev := (d.modGroup c sl (fun g => { g with regs := g.regs.writeS r.toNat w, monitor := none })).unpark c sl split
      let d1 := (one d core slot).acquired core (if l.isRemote then max 4 sc else sc)
      if g.role = .none then d1 else one d1 g.partner.1 g.partner.2
    else d
  | _ => d

/-- MONITOR_WAKE (R167): a parked MWAIT on a block of this device checks its condition again. -/
def execMonitorWake (core slot split : Nat) (s : State) : Out :=
  match s.dev.split? core slot split with
  | some { park := .mwait _ _ _ _ w, .. } =>
    if w.isRemote ∨ (s.dev.group core slot).role = .trailer ∨ s.dev.engineHolds w 8 then .next s
    else
      let d1 := s.dev.combineRange w 8
      let v : W64 := BitVec.ofNat 64 (d1.seen core slot (d1.taskAt core slot) d1.nextOp w 8)
      .next { s with dev := d1.mwaitSees core slot split v }
  | _ => .next s

/-- MONITOR_REMOTE_REREAD (R167): the word of a remote block is asked for again, one read at a time. -/
def execMonitorRemoteReread (core slot split : Nat) (s : State) : Out :=
  match s.dev.split? core slot split with
  | some { park := .mwait _ _ a _ w, .. } =>
    if w.isRemote ∧ !(s.dev.ops.any (fun o => decide (o.2.core = core ∧ o.2.slot = slot ∧ o.2.kind = .monitor split))) then
      .next (s.modDev (fun d => d.monitorRead core slot split a w))
    else .next s
  | _ => .next s

/-! ## Walks and fetches (R110, R274) -/

/-- PAGE_WALK (R274): a non-speculative walk for a slot ends in a TLB entry, or in a fault that the access raises when it issues. -/
def execPageWalk (core slot va : Nat) (kind : AccKind) (s : State) : Out :=
  .next (s.modDev (fun d => (d.translate (d.slotCtx core slot) kind va).dev))

/-- INSTRUCTION_FETCH (R110, R324): a line comes into the instruction cache and is counted as a fill; what issue reads is the memory behind it (log
entry 12). -/
def execInstructionFetch (core pa : Nat) (spec : Bool) (s : State) : Out :=
  .next (if spec ∧ pa < 2 ^ 39 ∧ !(s.dev.hedge pa (s.dev.core core).world) then s
    else s.modDev (fun d => (if pa < 2 ^ 39 ∧ !(d.core core).icache.contains (pa / 96) then d.countFill (dieOf core) (hbmAt pa) else d).modCore core (fun k =>
      { k with icache := if k.icache.contains (pa / 96) then k.icache else ((pa / 96) :: k.icache).take 1365 })))

/-! ## Checkpoints (R405 to R407) -/

/-- The kind of checkpoint that follows one: of one before an atomic, the one taken for it (R405). -/
def nextCheckpoint (at_ : Option Nat) : Option Nat := at_.bind (fun k => if k % 8 = 2 then some (3 + 8 * (k / 8)) else none)

/-- Whether a pair has come to a checkpoint: both groups stand at one of the same kind, every entry is matched, and the leader's
other operations have ended (R407). -/
def Dev.pairArrived (d : Dev) (core slot : Nat) : Bool :=
  let g := d.group core slot
  let t := d.group g.partner.1 g.partner.2
  decide (g.role = .leader) && g.atCheckpoint.isSome && decide (g.checkKind = t.checkKind ∧ g.checkKind ≠ some 3)
    && (firstUnmatched g.pairBuf).isNone
    && !(d.ops.any (fun o => decide (o.2.core = core ∧ o.2.slot = slot ∧ o.2.st ≠ .held) && decide (o.2.ctr = .cl ∨ o.2.ctr = .cs)))

/-- The pair's held stores go out, in order: a remote one is sent (R407). Before one at domain or system scope, which may be a RELST's, the core's modified
lines go home; at system scope it waits while the group has writes that the host or a completer has not seen (R178). -/
def Dev.performHeld (d : Dev) : List PairEntry → Dev
  | [] => d
  | e :: l => match d.op? e.op with
    | some o =>
      if e.cat = 0 ∧ o.st = OpState.held then
        (if o.scope = 5 ∧ (d.group o.core o.slot).unseen ≠ [] then d
        else (((if 4 ≤ o.scope then d.cleanAll o.core else d).modOp e.op (fun o => { o with st := .going })).sendParts e.op 0 o.parts).performOp e.op
          |>.performHeld l)
      else d.performHeld l
    | none => d.performHeld l

/-- Whether a pair holds stores. -/
def Dev.holdsStores (d : Dev) (l : List PairEntry) : Bool :=
  l.any (fun e => decide (e.cat = 0) && (match d.op? e.op with
    | some o => decide (o.st = .held)
    | none => false))

/-- CHECKPOINT (R407): SIG is compared; the held stores are performed, and when all have ended the state is saved and the groups go on; RDN.END's
dissolves the pair. A mismatch of SIG rolls back. -/
def execCheckpoint (core slot : Nat) (s : State) : Out :=
  let d := s.dev
  if !d.pairArrived core slot then .next s
  else
    let g := d.group core slot
    let p := g.partner
    if g.regs.sig ≠ (d.group p.1 p.2).regs.sig then .next (s.modDev (fun d => d.rollPair core slot))
    else if d.holdsStores g.pairBuf then .next (s.modDev (fun d => d.performHeld g.pairBuf))
    else
      let mxc := match d.task? g.task with
        | some t => t.mxc
        | none => []
      let keep (g : Group) : Group := { g with checkpoint := some (g.save mxc), atCheckpoint := nextCheckpoint g.atCheckpoint, pairBuf := [], rollRun := 0 }
      let d1 := (d.modGroup core slot keep).modGroup p.1 p.2 keep
      .next { s with dev := (if g.checkKind = some 1 then d1.dissolve core slot else d1).wakeStalls }

end Sys2Proof.Machine
end

