-- ==== Sys2Proof/Machine/Records.lean ====
section
/-! DEFINITION. Loading a record from memory for a word of the E pipe (R148, R150, R216, R221, R262, R265, R317): the load is done as
the word issues; on a remote page the word stalls until the reply is there. -/

namespace Sys2Proof.Machine

/-- The 16-byte pieces of a range, as parts of an operation. -/
def chunks (l : Loc) (addr n : Nat) : List LanePart :=
  (List.range ((n + 15) / 16)).map (fun i =>
    { lane := i, loc := l.plus (16 * i), addr := addr + 16 * i, n := min 16 (n - 16 * i), data := 0, done := false })

/-- The bytes that an operation's parts have brought. -/
def partBytes (l : List LanePart) : List Byte := l.flatMap (fun p => Bytes.ofNat p.n p.data.toNat)

/-- The 64-bit words of some bytes (R4). -/
def wordsOf : List Byte → Nat → List W64
  | _, 0 => []
  | bs, n + 1 => BitVec.ofNat 64 (Bytes.toNat (bs.take 8)) :: wordsOf (bs.drop 8) n

/-- What loading a record came to: another state in the word's place, or the state after it and the record's words. -/
inductive Rec where
  | stop (s : State)
  | got (s : State) (ws : List W64)

/-- A record's read of a remote page that the issuing group has under way. -/
def State.recordOp (s : State) (a n : Nat) : Option (Nat × Op) :=
  s.dev.ops.find? (fun o => decide (o.2.core = s.iss.core ∧ o.2.slot = s.iss.slot ∧ o.2.kind = .record)
    && o.2.parts.any (fun p => decide (p.addr = a ∧ p.lane = 0 ∧ o.2.parts.length = (n + 15) / 16)))

/-- A new read of a record on a remote page. -/
def Dev.askRecord (d : Dev) (core slot task : Nat) (ps : List LanePart) : Dev :=
  let n := d.nextOp
  let o : Op :=
    { core := core, slot := slot, task := task, ctr := .cl, kind := .record, parts := ps, scope := 4, tent := false,
      pos := { pc := 0, word := 0 }, st := .going, waits := [], held := [] }
  ({ d with ops := Tab.insert d.ops n o, nextOp := n + 1 }).sendParts n 0 ps

/-- What is stored at a place is decoded by the access of a word, whether its issue group then traps or not (R279, R396). -/
def State.decoded (s : State) (l : Loc) (n : Nat) : State :=
  { s with dev := s.dev.reportRaw l n, iss := { s.iss with base := s.iss.base.reportRaw l n } }

/-- A record of n bytes, n-aligned, at a generic address in window G, S, C or K; a block that a copy engine holds is waited for (R158). -/
def State.loadRecord (s : State) (a n : Nat) : Rec :=
  let lane := lowLane s.iss.mask
  match s.checkGeneric notP .read lane a n with
  | (s1, .error t) => .stop (s1.takeTrap t)
  | (s1, .ok acc) =>
    if s1.dev.poisoned acc.loc n then .stop ((s1.decoded acc.loc n).takeTrap { checkInfo 0x14 .read a lane with kind := 0 })
    else if acc.loc.isRemote then
      match s1.recordOp a n with
      | none => .stop (s1.stall .stallEngine (fun d => d.askRecord s.iss.core s.iss.slot s.taskId (chunks acc.loc a n)))
      | some (k, o) =>
        if o.st = .ended then
          match s1.grp.failureOf k with
          | some f => .stop ((s1.takeFailure f).modDev (fun d => { d with ops := Tab.erase d.ops k }))
          | none => .stop (s1.stall .stallEngine (fun d => { d with ops := Tab.erase d.ops k }))
        else if o.parts.all (fun p => p.done) then
          .got (s1.modDev (fun d => { d with ops := Tab.erase d.ops k })) (wordsOf (partBytes o.parts) (n / 8))
        else .stop (s1.stall .stallEngine id)
    else if s1.dev.engineHolds acc.loc n then .stop (s1.stall .stallEngine id)
    else
      let s2 := (s1.decoded acc.loc n).modDev (fun d => d.serveLines s.iss.core acc.loc n)
      let bs := (List.range n).map (fun i => s2.dev.seenByte s.iss.core s.iss.slot s.taskId s2.dev.nextOp (acc.loc.plus i))
      .got s2 (wordsOf bs (n / 8))

/-- Loading several records of one size one after another: all their words, or the first that stops. -/
def State.loadRecords (s : State) (n : Nat) : List Nat → Rec
  | [] => .got s []
  | a :: l =>
    match s.loadRecord a n with
    | .stop s1 => .stop s1
    | .got s1 ws =>
      match s1.loadRecords n l with
      | .stop s2 => .stop s2
      | .got s2 vs => .got s2 (ws ++ vs)

/-- What follows a record's load. -/
def State.withRecord (s : State) (a n : Nat) (k : State → List W64 → State) : State :=
  match s.loadRecord a n with
  | .stop s1 => s1
  | .got s1 ws => k s1 ws

/-- A word whose effect a wound could not undo waits for the token of its world first (R206). -/
def State.irrevocably (s : State) (k : State → State) : State :=
  match s.needToken with
  | some s1 => s1
  | none => k s

/-- Stores below a scope made to stand at it (R177, R178): at domain and system scope the core's modified lines go home, and at system scope what the
host and completers have not seen of the group's lines reaches them at once (log entry 96). -/
def Dev.raiseStores (d : Dev) (core slot sc : Nat) : Dev :=
  let d1 := if 4 ≤ sc then d.cleanAll core else d
  if sc = 5 then (d1.hostGives (d1.group core slot).unseen).modGroup core slot (fun g => { g with unseen := [] }) else d1

/-- The wait of RELST at issue at a scope: the stores that the group issued before its issue group are performed first, and a failed one traps (R173, R178,
R257, R258). -/
def State.afterStores (s : State) (sc : Nat) (k : State → State) : State :=
  match s.old.coveredFailure (s.old.covers [63, 0, 63, 63]) with
  | some f => s.takeFailure f
  | none => if s.iss.base.storesOut s.iss.core s.iss.slot then s.stall .stallStores id
    else k (s.ownStores.modDev (fun d => d.raiseStores s.iss.core s.iss.slot sc))

end Sys2Proof.Machine
end

