-- ==== Sys2Proof/Machine/Work.lean ====
section
/-! DEFINITION. Workgroups from dispatch to retirement: what fits on a core, fresh registers, placement, dispatch and restore, commit and
restart, waits for atomic sets and tokens, slot release and charging (R10, R13, R21 to R27, R93, R112, R147, R199 to R210, R306 to R309,
R312, R313, R316, R323, R342). -/

namespace Sys2Proof.Machine

/-! ## Resources of a core (R14, R15, R25) -/

/-- What a workgroup takes of a core. -/
structure Need where
  vregs : Nat
  priv : Nat
  scr : Nat
  groups : Nat
  tiles : Nat
  handles : Nat
  shapes : Nat
  streams : Nat
  deriving DecidableEq, Repr

/-- Nothing. -/
def Need.zero : Need := { vregs := 0, priv := 0, scr := 0, groups := 0, tiles := 0, handles := 0, shapes := 0, streams := 0 }

/-- Two needs together. -/
def Need.add (a b : Need) : Need :=
  { vregs := a.vregs + b.vregs, priv := a.priv + b.priv, scr := a.scr + b.scr, groups := a.groups + b.groups,
    tiles := a.tiles + b.tiles, handles := a.handles + b.handles, shapes := a.shapes + b.shapes, streams := a.streams + b.streams }

/-- Whether needs lie within one core (R14, R15). -/
def Need.fits (a : Need) : Bool :=
  decide (a.vregs ≤ 65536 ∧ a.priv ≤ 126976 ∧ a.scr ≤ 262144 ∧ a.groups ≤ 32 ∧ a.tiles ≤ 4 ∧ a.handles ≤ 16 ∧ a.shapes ≤ 16
    ∧ a.streams ≤ 16)

/-- A workgroup's need. -/
def Grid.need (g : Grid) : Need :=
  { vregs := g.groups * 32 * g.vregs, priv := g.groups * 32 * g.pBytes, scr := g.sBytes, groups := g.groups, tiles := g.tiles,
    handles := g.handles, shapes := g.shapes, streams := g.streams }

/-- Whether a task holds resources of its core: it is neither saved nor retired (R27). -/
def Task.resident (t : Task) : Bool :=
  match t.phase with
  | .saved _ => false
  | .retired => false
  | _ => true

/-- The resident tasks of a core. -/
def Dev.residents (d : Dev) (core : Nat) : List (Nat × Task) :=
  d.tasks.filter (fun t => decide (t.2.core = core) && t.2.resident)

/-- What a core's resident workgroups and the trailers of its redundant pairs take (R405). -/
def Dev.used (d : Dev) (core : Nat) : Need :=
  let ofTask (t : Nat × Task) : Need := match d.grid? t.2.grid with
    | some g => g.need
    | none => Need.zero
  let ofTrailer (g : Nat × Group) : Need := match d.gridOf g.2.task with
    | some gr => { Need.zero with vregs := 32 * gr.vregs, groups := 1 }
    | none => { Need.zero with groups := 1 }
  ((d.residents core).map ofTask ++ (d.groups.filter (fun g => decide (g.1 / 64 = core ∧ g.2.role = .trailer))).map ofTrailer).foldl
    Need.add Need.zero

/-- How many workgroups of a need still fit on a core, at most a bound. -/
def fitCount (used need : Need) : Nat → Nat
  | 0 => 0
  | n + 1 => let u := used.add need; if u.fits then 1 + fitCount u need n else 0

/-- KiB of a core's share partition in use (R21). -/
def Dev.shareUsed (d : Dev) (core : Nat) : Nat := (d.gangs.map (fun g => Tab.get 0 g.2.share core)).foldl (· + ·) 0

/-- Whether a task is saved. -/
def Task.isSaved (t : Task) : Bool :=
  match t.phase with
  | .saved _ => true
  | _ => false

/-- Whether a core holds no resident workgroup, no trailer of one (R405), no unit of a cluster-shared allotment (R383), and is not the core that a workgroup
saved for a call-up resumes on (R12). -/
def Dev.emptyCore (d : Dev) (core : Nat) : Bool :=
  (d.residents core).isEmpty && !d.tasks.any (fun t => t.2.isSaved && decide (t.2.fixed = some core)) && decide (d.shareUsed core = 0)
    && !d.groups.any (fun g => decide (g.1 / 64 = core ∧ g.1 % 64 ≠ handlerSlot))

/-! ## Fresh groups and tasks (R112, R312) -/

/-- A group's registers at dispatch and at restart. -/
def freshRegs (g : Grid) (launch : Nat) : Regs :=
  let s0 : Tab W64 := (List.range 6).foldl (fun t i => Tab.set 0 t (i + 1) (g.words.getD (10 + i) 0)) []
  let s1 := Tab.set 0 s0 7 (BitVec.ofNat 64 launch)
  let s2 := match g.mailbox with
    | some b => Tab.set 0 ((List.range 8).foldl (fun t i => Tab.set 0 t (8 + i) (g.snapshot.getD i 0)) s1) 16 (BitVec.ofNat 64 b)
    | none => s1
  { Regs.zero with s := s2, v := (List.range 31).map (fun i => (i + 1, BitVec.ofNat 32 (i + 1))) }

/-- A group at its entry point: one split of all 32 lanes. -/
def freshGroup (g : Grid) (launch task index now : Nat) : Group :=
  let x := Split.start (BitVec.allOnes 32) { pc := g.code, word := 0 } now
  { Group.empty with
    task := task, index := index, regs := freshRegs g launch, splits := [some x, none, none, none],
    exitPos := { pc := g.code, word := 0 } }

/-- The sets that a grid's table declares for each of its workgroups (R310). -/
def tableSets (g : Grid) : Tab SetRec :=
  (g.sets.zipIdx).map (fun p => (p.2, { base := p.1.1, len := p.1.2, acquired := false }))

/-- The lowest free slots of a core, n of them: a workgroup holds each of its slots until it retires or is saved (R10, R27). -/
def Dev.freeSlots (d : Dev) (core n : Nat) : List Nat :=
  ((List.range 32).filter (fun s => !d.hasGroup core s && !(d.residents core).any (fun t => t.2.slots.contains s))).take n

/-- The stamp the next dispatch would form, none when the sequence has wrapped within its time value (R199). -/
def Dev.nextAge (d : Dev) : Option (Nat × Nat) :=
  let t := d.time / 65536
  let seq := if d.ageTime = t then d.ageSeq else 0
  if seq < 65536 then some (t, seq) else none

/-- Whether a pre-emption request stands on a core for the class of a queue (R338). -/
def Dev.askedAt (d : Dev) (core q : Nat) : Bool := (Tab.find (d.core core).preq (d.queue q).cls).isSome

/-- A workgroup placed on a core: its task with a stamp of its own, its groups in the core's lowest free slots, allotments being cleared
(R10, R112, R147, R199). -/
def Dev.newTask (d : Dev) (launch : Nat) (g : Grid) (linear gang core : Nat) : Dev :=
  match d.nextAge with
  | none => d
  | some (at_, seq) =>
    let n := d.nextTask
    let slots := d.freeSlots core g.groups
    let t : Task :=
      { grid := launch, linear := linear, gang := gang, core := core, slots := slots, left := [], fixed := none, queue := g.queue,
        phase := .clearing,
        age := at_ % 2 ^ 48 * 65536 + seq, restarts := 0, since := d.now (clusterOf core), ran := 0, smem := [], pmem := [], tent := [], tiles := [],
        handles := [], shapes := [], mxc := [0, 0, 0, 0, 0], streams := [], cq := CopyQueue.empty, cqFirst := none,
        sets := tableSets g, token := .none, killed := false, cyc := false, restart := false, saved := [], savedMx := [],
        savedBuf := [],
        deadlineFrom := if d.askedAt core g.queue then some (d.now (clusterOf core)) else none, floor := 0 }
    let d1 := { d with nextTask := n + 1, ageTime := at_, ageSeq := seq + 1, tasks := Tab.insert d.tasks n t }
    (slots.zipIdx).foldl (fun d p => d.setGroup core p.1 (freshGroup g launch n p.2 (d.now (clusterOf core)))) d1

/-! ## Placement (R307, R323) -/

/-- Whether the slot of a core is paused for a call-up's save (R12). -/
def Dev.paused (d : Dev) (core : Nat) : Bool :=
  match (d.die (dieOf core)).callup with
  | some (_, slot, stage) => decide (slot = core / 16 % 4 ∧ 3 ≤ stage)
  | none => false

/-- Whether a queue may use a core: in its mask, in service, not paused, its cluster not being saved (R307, R340). -/
def Dev.inMask (d : Dev) (q core : Nat) : Bool :=
  (d.queue q).mask.getLsbD core && d.inService core && !d.paused core && !(d.cluster (clusterOf core)).clearing

/-- Whether a core's cluster is powered (R354). -/
def Dev.powered (d : Dev) (core : Nat) : Bool := decide ((d.cluster (clusterOf core)).fallow = 0)

/-- Whether a core may take work of a world now: it latches it, or is empty and may be re-latched; none is being cleared (R323, R383). -/
def Dev.worldOk (d : Dev) (core world : Nat) (relatch : Bool) : Bool :=
  let k := d.core core
  k.clearing.isNone && (decide (k.world = world) || (relatch && d.emptyCore core))

/-- The cores open to a queue at a stage of the search: powered only or fallow too, matching only or empty ones of other worlds too. -/
def Dev.openCores (d : Dev) (q : Nat) (fallow relatch : Bool) : List Nat :=
  (List.range 256).filter (fun c => d.inMask q c && (fallow || d.powered c) && d.worldOk c (d.queue q).world relatch)

/-- A workgroup's resource fraction in 262,144ths (R24). -/
def Grid.fraction (g : Grid) : Nat :=
  max (max (g.need.vregs * 4) g.need.scr) (max (g.need.priv * 2) (g.need.groups * 8192))

/-- The difference that a core's pair of clusters would have between their currents, in steps of 7.5 A, with n workgroups of a grid on the core's cluster:
the last window's means and what the workgroups would draw, which the spec does not state (R323, R370, log entry 92); currents are kept in mA. -/
def Dev.imbalance (d : Dev) (g : Grid) (n core : Nat) : Nat :=
  let a := (d.cluster (clusterOf core)).current + Config.addedCurrent g.fraction * n
  let b := (d.cluster (clusterOf core / 2 * 2 + (1 - clusterOf core % 2))).current
  (max a b - min a b) / 7500

/-- The members of a list that are least in a measure. -/
def keepLeast {α : Type} (f : α → Nat) (l : List α) : List α :=
  match l with
  | [] => []
  | x :: r => let m := r.foldl (fun m y => min m (f y)) (f x); l.filter (fun y => decide (f y = m))

/-- The home die of the page that S1 names, if S1 is a mapped G address (R323). -/
def Dev.localDie (d : Dev) (g : Grid) : Option Nat :=
  let a := (g.words.getD 10 0).toNat
  if a / 2 ^ 54 ≠ 0 then none
  else d.mappedHome { core := none, die := 0, world := g.world, asn := (d.queue g.queue).asn, root := (d.queue g.queue).root,
                      priv := false, spec := true } a

/-- Whether a single workgroup with its own cluster-shared allotment, or a gang, has its allotment on a cluster: KiB wanted, and the
units each core of a list gives, chosen cores first (R21, R145). -/
def Dev.shareOn (d : Dev) (want : Nat) : List Nat → Option (Tab Nat)
  | [] => if want = 0 then some [] else none
  | c :: l =>
    let n := min want (128 - d.shareUsed c)
    match d.shareOn (want - n) l with
    | none => none
    | some t => some (if n = 0 then t else Tab.insert t c n)

/-- A gang's place: its cores, in order of member, and the units of its cluster-shared allotment by core. -/
structure Place where
  cores : List Nat
  share : Tab Nat
  deriving DecidableEq, Repr

/-- Cores of an open list sorted by wear index, the lower number first among equals; or by most room first where asked. -/
def insertBy (f : Nat → Nat) (c : Nat) : List Nat → List Nat
  | [] => [c]
  | x :: l => if f c < f x then c :: x :: l else x :: insertBy f c l
def sortBy (f : Nat → Nat) (l : List Nat) : List Nat := l.foldl (fun acc c => insertBy f c acc) []

/-- Cores that latch a world before those that would be re-latched to it (R323). -/
def Dev.matchingFirst (d : Dev) (world : Nat) (l : List Nat) : List Nat :=
  l.filter (fun c => decide ((d.core c).world = world)) ++ l.filter (fun c => decide ((d.core c).world ≠ world))

/-- A gang's place in a cluster, among open cores: its fitting cores of lowest wear index, or of most room, matching ones first; and its allotment (R323). -/
def Dev.placeIn (d : Dev) (g : Grid) (opens : List Nat) (roomy : Bool) (cluster : Nat) : Option Place :=
  let mine := opens.filter (fun c => decide (clusterOf c = cluster))
  let fit := mine.filter (fun c => ((d.used c).add g.need).fits)
  let order := d.matchingFirst g.world (sortBy (fun c => if roomy then 32 - fitCount (d.used c) g.need 32 else d.wearIndex c) fit)
  let chosen := order.take (g.gangLess + 1)
  if chosen.length < g.gangLess + 1 then none
  else
    let kib := g.cBytes / 1024
    match d.shareOn kib (chosen ++ d.matchingFirst g.world (mine.filter (fun c => !chosen.contains c))) with
    | some sh => some { cores := chosen, share := sh }
    | none => none

/-- The best place of a gang among open cores by the stages of R323; for a single workgroup each core is a candidate of its own. -/
def Dev.bestPlace (d : Dev) (g : Grid) (opens : List Nat) (roomy : Bool) : Option Place :=
  let clusters := List.range 32
  let cands : List Place :=
    if g.gangLess = 0 then
      opens.filterMap (fun c =>
        if ((d.used c).add g.need).fits then
          match d.shareOn (g.cBytes / 1024) (c :: d.matchingFirst g.world (opens.filter (fun x => decide (clusterOf x = clusterOf c ∧ x ≠ c)))) with
          | some sh => some { cores := [c], share := sh }
          | none => none
        else none)
    else clusters.filterMap (d.placeIn g opens roomy)
  let core1 (p : Place) : Nat := p.cores.headD 0
  let same := cands.filter (fun p => p.cores.all (fun c => decide ((d.core c).world = g.world)))
  let s1 := if same.isEmpty then cands else same
  let s2 := keepLeast (fun p => d.imbalance g p.cores.length (core1 p)) s1
  let s3 := keepLeast (fun p => (p.cores.map d.wearIndex).foldl max 0) s2
  let s4 :=
    if g.gangLess = 0 then
      match d.localDie g with
      | some die => keepLeast (fun p => if dieOf (core1 p) = die then 0 else 1) s3
      | none => s3
    else keepLeast (fun p => ((coresOf (clusterOf (core1 p))).filter (fun c => !(d.residents c).isEmpty)).length) s3
  let low (p : Place) : Nat := p.cores.foldl min 256
  (keepLeast low s4).head?

/-- The core for a trailer: another core of the die that the queue may use, latched to its world, with room; chosen by the stages of R323 that
tell cores apart (R405). -/
def Dev.trailerCore (d : Dev) (core t : Nat) : Option Nat :=
  match d.task? t, d.gridOf t with
  | some k, some g =>
    let need : Need := { Need.zero with vregs := 32 * g.vregs, groups := 1 }
    let cs := (d.openCores k.queue false false).filter (fun c =>
      decide (c ≠ core ∧ dieOf c = dieOf core) && ((d.used c).add need).fits && !(d.freeSlots c 1).isEmpty)
    (keepLeast d.wearIndex (keepLeast (d.imbalance g 0) cs)).head?
  | _, _ => none

/-! ## Heads (R308, R309) -/

/-- What a queue would dispatch next: saved tasks to restore together, or a grid's next workgroups. -/
inductive Head where
  | restore (tasks : List Nat)
  | fresh (grid : Nat)
  deriving DecidableEq, Repr

/-- Whether a grid still has workgroups to dispatch: it has not failed and not all are dispatched (R308, R314, R315). -/
def Grid.pending (g : Grid) : Bool := decide ((g.fail = 0 ∨ g.fail = 2) ∧ g.next < g.size)

/-- The tasks saved and restored as one with a task: its co-resident grid's, else its gang's (R338, R342). -/
def Dev.unitOf (d : Dev) (t : Task) : List (Nat × Task) :=
  match d.grid? t.grid with
  | some g => if g.coRes then d.tasks.filter (fun x => decide (x.2.grid = t.grid ∧ x.2.phase ≠ .retired))
      else d.tasks.filter (fun x => decide (x.2.gang = t.gang ∧ x.2.phase ≠ .retired))
  | none => []

/-- The tasks a saved one is restored with: those saved as one with it; of one saved for a call-up, its gang, unless others of its unit have been saved
otherwise meanwhile (R12, R338). -/
def Dev.restoreUnit (d : Dev) (t : Task) : List (Nat × Task) :=
  let u := d.unitOf t
  if t.fixed.isSome && !u.any (fun x => x.2.isSaved && x.2.fixed.isNone) then u.filter (fun x => decide (x.2.gang = t.gang)) else u

/-- The oldest saved task of a queue whose whole unit is saved. -/
def Dev.savedHead (d : Dev) (q : Nat) : Option (Nat × Task) :=
  let l := d.tasks.filter (fun t => decide (t.2.queue = q) && t.2.isSaved && (d.restoreUnit t.2).all (fun u => u.2.isSaved))
  (keepLeast (fun t => t.2.age) l).head?

/-- A queue's head: its saved tasks first, else its oldest grid with workgroups left, once that grid's dependences are satisfied. -/
def Dev.head (d : Dev) (q : Nat) : Option Head :=
  match d.savedHead q with
  | some t => some (.restore ((d.restoreUnit t.2).map Prod.fst))
  | none =>
    match d.grids.find? (fun g => decide (g.2.queue = q) && g.2.pending) with
    | some g => if g.2.dep0 && g.2.dep1 then some (.fresh g.1) else none
    | none => none

/-- Whether a queue is eligible (R308, R379). -/
def Queue.eligible (x : Queue) : Bool := x.en && decide (0 < x.deficit) && !x.spent

/-- A head's stamp and launch id, by which heads of a class compete (R26, R308). -/
def Dev.headKey (d : Dev) (h : Head) : List Nat :=
  match h with
  | .restore ts => [((ts.filterMap d.task?).map (fun t => t.age)).foldl min (2 ^ 64), 0]
  | .fresh g => [d.time / 65536 * 65536 + 65536, g]

/-- Queues in the order in which their heads compete. -/
def insertHead (d : Dev) (x : Nat × Head) : List (Nat × Head) → List (Nat × Head)
  | [] => [x]
  | y :: l => if lexLess (d.headKey x.2) (d.headKey y.2) then x :: y :: l else y :: insertHead d x l

/-! ## Dispatch -/

/-- Whether a request that stands on some core reaches a task: on its own, or on that of a workgroup that is saved as one with it (R338). -/
def Dev.requested (d : Dev) (t : Task) : Bool :=
  (d.unitOf t).any (fun x => x.2.resident && d.askedAt x.2.core x.2.queue)

/-- A standing request reaches all that is saved as one with a workgroup just placed, each with its deadline from now (R338). -/
def Dev.spreadAsk (d : Dev) (t : Nat) : Dev :=
  match d.task? t with
  | none => d
  | some k =>
    if d.requested k then (d.unitOf k).foldl (fun d x => d.modTask x.1 (fun y =>
      { y with deadlineFrom := if y.deadlineFrom.isSome ∨ !y.resident then y.deadlineFrom else some (d.now (clusterOf y.core)) })) d
    else d

/-- Dispatching one gang of a grid at a place. -/
def Dev.placeGang (d : Dev) (launch : Nat) (g : Grid) (p : Place) : Dev :=
  let gid := d.nextEntry
  let linear := match d.grid? launch with
    | some x => x.next
    | none => 0
  let d1 := { d with
    nextEntry := gid + 1
    gangs := Tab.insert d.gangs gid
      { cmem := [], extent := g.cBytes, share := p.share, cluster := clusterOf (p.cores.headD 0), live := p.cores.length } }
  let d2 := (p.cores.zipIdx).foldl (fun d c => d.newTask launch g (linear + c.2) gid c.1) d1
  ((List.range p.cores.length).foldl (fun d i => d.spreadAsk (d1.nextTask + i)) d2).modGrid launch (fun x => { x with next := x.next + p.cores.length })

/-- A saved group's outstanding operations follow it to its new core and slot (R238, R289, R342). -/
def Op.moveTo (o : Op) (core slot : Nat) : Op :=
  { o with core := core, slot := slot, kind := (match o.kind with
    | .tile _ e => .tile core e
    | k => k) }
def Dev.moveOps (d : Dev) (t core : Nat) (slots : List Nat) : Dev :=
  { d with ops := Tab.mapV d.ops (fun _ o =>
      if o.task = t ∧ o.core = 65536 + t then o.moveTo core (slots.getD o.slot 0) else o) }

/-- The stores that a redundant pair of a saved task holds go on by themselves: a wound has ended the pair (R208, R407). -/
def Dev.unpairOps (d : Dev) (t : Nat) : Dev :=
  { d with ops := Tab.mapV d.ops (fun n o =>
      if o.task = t ∧ o.core = 65536 + t ∧ o.st = .held ∧ ((d.task? t).any (fun k => k.saved.any (fun g => g.role = .leader ∧ g.cs.any (fun c => c.op = n)))) = true
      then o.letGo else o) }

/-- The trailers of a saved task's redundant pairs: none of one that a wound is to restart, unpaired (R407). -/
def Task.trailers (k : Task) : List Group := if k.restart then [] else k.saved.filter (fun g => decide (g.role = .trailer))

/-- A saved group of a task that a wound is to restart, which is in no pair any more. -/
def Group.unpair (g : Group) : Group := { g with role := .none, pairBuf := [], checkpoint := none, atCheckpoint := none, rollRun := 0 }

/-- The trailers of a restored task on cores of their own, each pair whole; none where one finds no room (R407). -/
def Dev.placeTrailers (t core : Nat) (places : List Nat) : List Group → Dev → Option Dev
  | [], d => some d
  | x :: l, d =>
    match d.trailerCore core t with
    | none => none
    | some c =>
      let ls := places.getD x.partner.2 0
      let sl := (d.freeSlots c 1).headD 0
      Dev.placeTrailers t core places l ((d.setGroup c sl { x with partner := (core, ls) }).modGroup core ls (fun g => { g with partner := (c, sl) }))

/-- Bytes of a buffer unit range replaced. -/
def bufWrite (m : List Host.Cell) (base : Nat) (bs : List Byte) : List Host.Cell := Memory.writeL m base bs

/-- The lowest free run of 256-B units in a buffer of 1,024 (R216): units listed are reserved or being cleared. -/
def freeRun (used : Tab Nat) (len : Nat) : Option Nat :=
  firstBelow (fun u => decide (u + len ≤ 1024) && (List.range len).all (fun i => (Tab.find used (u + i)).isNone)) 1024

/-- Units reserved for a task. -/
def reserve (used : Tab Nat) (base len t : Nat) : Tab Nat := (List.range len).foldl (fun u i => Tab.insert u (base + i) t) used

/-- The buffer of a reservation record (R215), 0 A, 1 B, 2 a remote descriptor, and its length in units. -/
def Binding.buf (b : Binding) : Nat := bits b.w0.toNat 63 62
def Binding.units (b : Binding) : Nat := bits b.w0.toNat 53 43

/-- One handle of a restored task bound again on its core, with its bytes (R238, R342). -/
def Dev.rebind (d : Dev) (t core h : Nat) (b : Binding) (bs : List Byte) : Dev :=
  if b.buf = 2 then d
  else
    let k := d.core core
    match freeRun (if b.buf = 0 then k.opUsed else k.wUsed) b.units with
    | none => d
    | some u =>
      let d1 := d.modCore core (fun k =>
        if b.buf = 0 then { k with opUsed := reserve k.opUsed u b.units t, opBuf := bufWrite k.opBuf (256 * u) bs }
        else { k with wUsed := reserve k.wUsed u b.units t, wBuf := bufWrite k.wBuf (256 * u) bs })
      d1.modTask t (fun x => { x with handles := Tab.insert x.handles h { b with base := 256 * u } })

/-- Whether every reservation of a saved task finds room on a core. -/
def Dev.bindingsFit (d : Dev) (t core : Nat) : Bool :=
  match d.task? t with
  | none => false
  | some k =>
    let k0 := d.core core
    let step (a : Option (Tab Nat × Tab Nat)) (h : Nat × Binding) : Option (Tab Nat × Tab Nat) :=
      a.bind (fun u =>
        if h.2.buf = 2 then some u
        else if h.2.buf = 0 then (freeRun u.1 h.2.units).map (fun b => (reserve u.1 b h.2.units t, u.2))
        else (freeRun u.2 h.2.units).map (fun b => (u.1, reserve u.2 b h.2.units t)))
    (k.handles.foldl step (some (k0.opUsed, k0.wUsed))).isSome

/-- Whether a core's tentative capacity has room for what a saved task brings back (R14, R209). -/
def Dev.tentRoom (d : Dev) (t core : Nat) : Bool :=
  match d.task? t with
  | none => false
  | some k => decide (((d.residents core).map (fun x => (tentLines x.2).length)).foldl (· + ·) (tentLines k).length ≤ 1024)

/-- The matrix state of a restored task: handles bound again, entries back in the queue in order (R238). -/
def Dev.restoreMatrix (d : Dev) (t core : Nat) (slots : List Nat) : Dev :=
  match d.task? t with
  | none => d
  | some k =>
    let d1 := k.handles.foldl (fun d h => d.rebind t core h.1 h.2 (Tab.get [] k.savedBuf h.1)) d
    let back (e : MxEntry) : MxEntry := { e with slot := slots.getD e.slot 0 }
    (d1.modCore core (fun c => { c with mq := c.mq ++ k.savedMx.map back })).modTask t (fun x => { x with savedMx := [], savedBuf := [] })

/-- A saved task placed on a core: each of its groups returns to the slot of its index among free slots of the core, where they wait for the restore to
complete; the workgroup holds the slots of groups that had left too, its operations and copy entries follow their groups, and the trailers of its redundant
pairs come with it: none where they find no room (R10, R342, R407). -/
def Dev.placeSaved (d : Dev) (t core : Nat) : Option Dev :=
  match d.task? t with
  | none => some d
  | some k =>
    let own := k.saved.filter (fun g => decide (g.role ≠ .trailer))
    let slots := d.freeSlots core (match d.gridOf t with
      | some g => g.groups
      | none => own.length)
    let places := own.map (fun g => slots.getD g.index 0)
    let d0 := if k.restart then d.unpairOps t else d
    let d1 := ((places.zip own).foldl (fun d p => d.setGroup core p.1 { (if k.restart then p.2.unpair else p.2) with task := t }) d0).moveOps t core places
    let d2 := (d1.restoreMatrix t core places).modTask t (fun k => { k with
      core := core, slots := slots, left := slots.filter (fun s => !places.contains s), fixed := none,
      saved := [], phase := .restoring, since := d.now (clusterOf core),
      cq := { k.cq with entries := k.cq.entries.map (fun e => { e with slot := places.getD e.slot 0 }) }
      deadlineFrom := if d.askedAt core k.queue then some (d.now (clusterOf core)) else none })
    Dev.placeTrailers t core places k.trailers d2

/-- Restoring a gang's members at a place; its cluster-shared allotment comes with it. -/
def Dev.placeRestored (d : Dev) (ts : List Nat) (p : Place) : Option Dev :=
  let gang := match ts.head?.bind d.task? with
    | some k => k.gang
    | none => 0
  ((ts.zip p.cores).foldl (fun (o : Option Dev) x => o.bind (fun d => d.placeSaved x.1 x.2)) (some d)).map (fun d1 =>
    ts.foldl Dev.spreadAsk { d1 with gangs := Tab.modify d1.gangs gang (fun g => { g with share := p.share, cluster := clusterOf (p.cores.headD 0) }) })

/-- Whether the trailers of a saved task find a core beside one (R407). -/
def Dev.trailersFit (d : Dev) (t core : Nat) : Bool :=
  match d.task? t with
  | some k => k.trailers.isEmpty || (d.trailerCore core t).isSome
  | none => true

/-- Placing gangs of a grid one after another, n of them at most by this count, all or none. -/
def Dev.placeMany (opens : Dev → List Nat) (roomy : Bool) (launch : Nat) (d : Dev) (used : List Nat) : Nat → Option (Dev × List Nat)
  | 0 => some (d, used)
  | n + 1 =>
    match d.grid? launch with
    | none => none
    | some g =>
      match d.bestPlace g (opens d) roomy with
      | none => none
      | some p => Dev.placeMany opens roomy launch (d.placeGang launch g p) (used ++ p.cores ++ Tab.keys p.share) n

/-- The place of a gang saved for a call-up: the cores it was on, once they are in service again and latch its world, and for its allotment others of its
queue's mask that do (R12, R307, R383); none where its members may go anywhere. -/
def Dev.fixedPlace (d : Dev) (g : Grid) (ts : List Nat) : Option (Option Place) :=
  let cs := ts.filterMap (fun t => (d.task? t).bind (fun k => k.fixed))
  if cs.isEmpty ∨ cs.length ≠ ts.length then none
  else if cs.all (fun c => d.inService c && !d.paused c && d.worldOk c g.world false && ((d.used c).add g.need).fits) then
    let mine := coresOf (clusterOf (cs.headD 0))
    some ((d.shareOn (g.cBytes / 1024) (cs ++ mine.filter (fun c => !cs.contains c && d.inMask g.queue c && d.worldOk c g.world false))).map
      (fun sh => { cores := cs, share := sh }))
  else some none

/-- Restoring gangs of a unit one after another, all or none. -/
def Dev.restoreMany (opens : Dev → List Nat) (roomy : Bool) (d : Dev) (used : List Nat) : List (List Nat) → Option (Dev × List Nat)
  | [] => some (d, used)
  | ts :: l =>
    match (ts.head?.bind d.task?).bind (fun k => d.grid? k.grid) with
    | none => none
    | some g =>
      let room (c : Nat) : Bool := ts.all (fun t => d.bindingsFit t c && d.tentRoom t c && d.trailersFit t c)
      match (d.fixedPlace g ts).getD (d.bestPlace g ((opens d).filter room) roomy) with
      | none => none
      | some p =>
        if (ts.zip p.cores).all (fun x => d.bindingsFit x.1 x.2 && d.tentRoom x.1 x.2) then
          match d.placeRestored ts p with
          | some d1 => Dev.restoreMany opens roomy d1 (used ++ p.cores ++ Tab.keys p.share) l
          | none => none
        else none

/-- The gangs of a unit of tasks. -/
def Dev.gangsOf (d : Dev) (ts : List Nat) : List (List Nat) :=
  let gs := (ts.filterMap (fun t => (d.task? t).map (fun k => k.gang))).eraseDups
  gs.map (fun g => ts.filter (fun t => decide ((d.task? t).map (fun k => k.gang) = some g)))

/-- Gangs a head dispatches in one cycle: a co-resident grid's all, else one (R309, R316). -/
def Grid.burst (g : Grid) : Nat := if g.coRes then g.size / (g.gangLess + 1) else 1

/-- One attempt at a head with the cores open at a stage; a co-resident one whose greedy choice fails tries the roomiest cores. -/
def Dev.attempt (d : Dev) (q : Nat) (h : Head) (fallow relatch : Bool) : Option (Dev × List Nat) :=
  let start := d.openCores q fallow relatch
  let opens (_ : Dev) : List Nat := start
  match h with
  | .restore ts =>
    (Dev.restoreMany opens false d [] (d.gangsOf ts)).or (Dev.restoreMany opens true d [] (d.gangsOf ts))
  | .fresh l =>
    match d.grid? l with
    | none => none
    | some g => (Dev.placeMany opens false l d [] g.burst).or (Dev.placeMany opens true l d [] g.burst)

/-- Active-set entries a head's dispatch takes (R325). -/
def Dev.setsWanted (d : Dev) (h : Head) : Nat :=
  match h with
  | .restore _ => 0
  | .fresh l => match d.grid? l with
    | some g => g.sets.length * g.burst * (g.gangLess + 1)
    | none => 0

/-- Workgroups a head dispatches, each of which needs a stamp (R199). -/
def Dev.stampsWanted (d : Dev) (h : Head) : Nat :=
  match h with
  | .restore _ => 0
  | .fresh l => match d.grid? l with
    | some g => g.burst * (g.gangLess + 1)
    | none => 0

/-- Whether the stamps are there. -/
def Dev.stampsLeft (d : Dev) (n : Nat) : Bool :=
  match d.nextAge with
  | some (_, seq) => decide (seq + n ≤ 65536)
  | none => decide (n = 0)

/-- Clusters of some cores stop a gating that has begun (R382), and fallow ones are woken (R354). -/
def Dev.wakeFor (d : Dev) (cores : List Nat) : Dev :=
  ((cores.map clusterOf).eraseDups).foldl (fun d c => d.modCluster c (fun k =>
    { k with gating := none, idleSince := d.time, waking := k.waking || decide (k.fallow ≠ 0) })) d

/-- Beginning the clearing of a core for a new world (R383). -/
def Dev.relatch (d : Dev) (core world : Nat) : Dev :=
  d.modCore core (fun k => { k with clearing := some world })

/-- Whether a core of a queue's mask is being re-latched to its world or woken already. -/
def Dev.comingUp (d : Dev) (q : Nat) : Bool :=
  (List.range 256).any (fun c => d.inMask q c &&
    (decide ((d.core c).clearing = some (d.queue q).world) || (d.cluster (clusterOf c)).waking))

/-- Placing a head by the stages of the search (R323, R354): matching powered cores first, then ones to re-latch, then those of fallow clusters. -/
def Dev.place (d : Dev) (q : Nat) (h : Head) : Option (Dev × List Nat) :=
  [(false, false), (false, true), (true, false), (true, true)].findSome? (fun x => d.attempt q h x.1 x.2)

/-- Trying to serve a head: the device, and whether the head was placed. Where its place needs a re-latch or a wake, that begins and the dispatch waits; it
waits too for entries of atomic sets and for stamps (R199, R325). The gating of every cluster of the place is cancelled (R382). None when the head fits
nowhere. -/
def Dev.serve (d : Dev) (q : Nat) (h : Head) : Option (Dev × Bool) :=
  let world := (d.queue q).world
  match d.place q h with
  | none => none
  | some (d1, cores) =>
    let cold := cores.filter (fun c => !d.powered c)
    let other := cores.filter (fun c => decide ((d.core c).world ≠ world))
    if 4096 < d.activeSets + d.setsWanted h ∨ !d.stampsLeft (d.stampsWanted h) then some (d, false)
    else if cold.isEmpty ∧ other.isEmpty then some (d1.wakeFor cores, true)
    else if d.comingUp q then some (d, false)
    else some (other.foldl (fun d c => d.relatch c world) (d.wakeFor cores), false)

/-- Whether a head fits on no core of its queue's mask: neither now, nor once the cores being re-latched to its world are ready (R309). -/
def Dev.fitsNowhere (d : Dev) (q : Nat) (h : Head) : Bool :=
  let coming (k : Core) : Core := if k.clearing = some (d.queue q).world then { k with world := (d.queue q).world, clearing := none } else k
  (d.place q h).isNone && (({ d with cores := Tab.mapV d.cores (fun _ k => coming k) } : Dev).place q h).isNone

/-- A pre-emption request for a class on a core, by one who asks: PREQ reads 1 in every
workgroup of the class there, and in the rest of its gang or co-resident grid; deadlines count from now (R309, R338). -/
def Dev.requestPreempt (d : Dev) (core cls who : Nat) : Dev :=
  let hit := (d.residents core).filter (fun t => decide ((d.queue t.2.queue).cls = cls))
  let all := (hit.flatMap (fun t => (d.unitOf t.2).map Prod.fst)).eraseDups
  let d1 := d.modCore core (fun k => { k with
    preq := Tab.insert k.preq cls (let l := Tab.get [] k.preq cls; if l.contains who then l else who :: l) })
  all.foldl (fun d t => d.modTask t (fun k => { k with
    deadlineFrom := if k.deadlineFrom.isSome then k.deadlineFrom else some (d.now (clusterOf k.core)) })) d1

/-- A head of a class that fits nowhere asks a core of its mask for the lowest lower class resident there (R309). -/
def Dev.askFor (d : Dev) (q : Nat) : Dev :=
  let cls := (d.queue q).cls
  let lower (c : Nat) : List Nat := ((d.residents c).map (fun t => (d.queue t.2.queue).cls)).filter (fun k => decide (k < cls))
  match (List.range 256).find? (fun c => d.inMask q c && !(lower c).isEmpty) with
  | some c => d.requestPreempt c ((lower c).foldl min 4) (q + 1)
  | none => d

/-- A request withdrawn (R338): PREQ reads 0 where no other request reaches the workgroup, and its parked splits run on. -/
def Dev.withdraw (d : Dev) (core cls : Nat) : Dev :=
  let hit := (d.residents core).filter (fun t => decide ((d.queue t.2.queue).cls = cls))
  let d1 := d.modCore core (fun k => { k with preq := Tab.erase k.preq cls })
  let all := ((hit.flatMap (fun t => d.unitOf t.2)).filter (fun t => !d1.requested t.2)).map Prod.fst |>.eraseDups
  all.foldl (fun d t =>
    (d.modTask t (fun k => { k with deadlineFrom := none })).mapGroups (fun g =>
      if g.task = t then { g with splits := g.splits.map (fun o => o.map (fun x => if x.park = .yld then x.unpark else x)) } else g)) d1

/-- One who asked asks no more: the request stands while another asks for it. -/
def Dev.withdrawBy (d : Dev) (core cls who : Nat) : Dev :=
  let l := (Tab.get [] (d.core core).preq cls).filter (fun w => decide (w ≠ who))
  if l.isEmpty then d.withdraw core cls else d.modCore core (fun k => { k with preq := Tab.insert k.preq cls l })

/-- The requests of one who asks no more. -/
def Dev.withdrawAll (d : Dev) (who : Nat) : Dev :=
  (d.cores.flatMap (fun c => (c.2.preq.filter (fun p => p.2.contains who)).map (fun p => (c.1, p.1)))).foldl
    (fun d x => d.withdrawBy x.1 x.2 who) d

/-- The requests that a queue's head made end as its work is placed (R338). -/
def Dev.withdrawFor (d : Dev) (q : Nat) : Dev := d.withdrawAll (q + 1)

/-- The first head of a class that can be served. -/
def Dev.serveFirst (d : Dev) : List (Nat × Head) → Option Dev
  | [] => none
  | x :: l => match d.serve x.1 x.2 with
    | some (d1, placed) => some (if placed then d1.withdrawFor x.1 else d1)
    | none => d.serveFirst l

/-- The heads of the enabled queues of a class. -/
def Dev.headsOfClass (d : Dev) (cls : Nat) : List (Nat × Head) :=
  (List.range 64).filterMap (fun q => if (d.queue q).en ∧ (d.queue q).cls = cls then (d.head q).map (fun h => (q, h)) else none)

/-- A round: every queue of the class with work adds its quantum (R308). -/
def Dev.round (d : Dev) (hs : List (Nat × Head)) : Dev :=
  hs.foldl (fun d x => d.modQueue x.1 (fun k => { k with deficit := k.deficit + k.quantum })) d

/-- The classes in strict order (R308): in each, a round first when work waits and no queue is eligible, then the first of its eligible heads that fits. Whether
one was served, and the device. -/
def Dev.serveClasses (d : Dev) : List Nat → Dev × Bool
  | [] => (d, false)
  | c :: l =>
    let hs := d.headsOfClass c
    let d1 := if !hs.any (fun x => (d.queue x.1).eligible) then d.round hs else d
    match d1.serveFirst ((hs.filter (fun x => (d1.queue x.1).eligible)).foldl (fun l x => insertHead d1 x l) []) with
    | some d2 => (d2, true)
    | none => d1.serveClasses l

/-- The enabled queues whose head fits nowhere (R309). -/
def Dev.unplaced (d : Dev) : List Nat :=
  (List.range 64).filter (fun q => (d.queue q).en && (match d.head q with
    | some h => d.fitsNowhere q h
    | none => false))

/-- A queue with no undispatched work has a positive deficit set to 0 (R308). -/
def Dev.idleDeficits (d : Dev) : Dev :=
  (List.range 64).foldl (fun d q =>
    if 0 < (d.queue q).deficit ∧ (d.head q).isNone ∧ !(d.grids.any (fun g => decide (g.2.queue = q) && g.2.pending)) then
      d.modQueue q (fun k => { k with deficit := 0 })
    else d) d

/-- Whether an accepted co-resident grid can still fit the empty cores of its queue (R13, R316). -/
def Dev.fitsEmpty (d : Dev) (g : Grid) : Bool :=
  let n := g.gangLess + 1
  let gangs := g.size / n
  let per (cl : Nat) : Nat :=
    let cs := (coresOf cl).filter (fun c => (d.queue g.queue).mask.getLsbD c && d.inService c)
    let cap := fitCount Need.zero g.need 32
    let byCores := if cs.length < n then 0 else cs.length * cap / n
    let kib := g.cBytes / 1024
    if kib = 0 then byCores else min byCores (cs.length * 128 / kib)
  decide (gangs ≤ ((List.range 32).map per).foldl (· + ·) 0)

/-- Co-resident grids that no longer fit fail with code 3 (R13, R315). -/
def Dev.failLost (d : Dev) : Dev :=
  { d with grids := Tab.mapV d.grids (fun _ g =>
      if g.coRes ∧ g.next = 0 ∧ g.fail = 0 ∧ (List.range 256).any (fun c => (d.queue g.queue).mask.getLsbD c && !d.inService c)
        ∧ !d.fitsEmpty g then { g with fail := 3 } else g) }

/-- DISPATCH (R308, R309): one decision of the distributor, and the requests of the heads that fit nowhere. -/
def execDispatch (s : State) : Out :=
  let d := (s.dev.failLost.idleDeficits.serveClasses [3, 2, 1, 0]).1
  .next { s with dev := d.unplaced.foldl Dev.askFor d }

/-- ALLOTMENT_CLEAR_DONE (R147): the cleared allotments are ready and the workgroup's groups may issue. -/
def execAllotmentClearDone (task : Nat) (s : State) : Out :=
  .next (s.modDev (fun d => d.modTask task (fun t => if t.phase = .clearing then { t with phase := .running } else t)))

/-! ## Release and retirement (R24, R27, R93) -/

/-- The charge of a residency in core-cycles (R24). -/
def Grid.charge (g : Grid) (cycles : Nat) : Nat := (cycles * g.fraction + 262143) / 262144

/-- Buffer units of a task go to clearing (R216). -/
def Core.freeUnits (k : Core) (t : Nat) : Core :=
  let f (u : Tab Nat) : Tab Nat := Tab.mapV u (fun _ o => if o = t then 0 else o)
  { k with opUsed := f k.opUsed, wUsed := f k.wUsed }

/-- The mark of a pre-emption request that the loss of a world's heartbeat raised (R391). -/
def expelMark (w : Nat) : Nat := 200 + w

/-- Cores that latch a world whose heartbeat was lost re-latch to world 0 once they are empty, and are asked no more for its sake (R391). -/
def Dev.expelCores (d : Dev) : Dev :=
  if d.expelled.isEmpty then d
  else (List.range 256).foldl (fun d c =>
    let w := (d.core c).world
    if d.expelled.contains w ∧ (d.core c).clearing.isNone ∧ d.emptyCore c then
      (d.relatch c 0).modCore c (fun k => { k with
        preq := Tab.keep (Tab.mapV k.preq (fun _ l => l.filter (fun x => decide (x ≠ expelMark w)))) (fun _ l => !l.isEmpty) })
    else d) d

/-- Retirement of a workgroup whose groups have all released their slots (R24, R27, R308, R315, R322). -/
def Dev.retire (d : Dev) (t : Nat) : Dev :=
  match d.task? t with
  | none => d
  | some k =>
    let g := d.grid? k.grid
    let cost := match g with
      | some g => g.charge (k.ran + (d.now (clusterOf k.core) - k.since))
      | none => 0
    let d1 := (d.dropSets t).modQueue k.queue (fun q => { q with deficit := q.deficit - cost })
    let d2 := d1.modGrid k.grid (fun g => { g with retired := g.retired + 1 })
    let d3 := match g.bind (fun g => g.mailbox) with
      | some b => d2.modBox b (fun m => { m with run := m.run - 1 })
      | none => d2
    let gangs := (Tab.modify d3.gangs k.gang (fun g => { g with live := g.live - 1 })).filter (fun p => decide (p.2.live ≠ 0))
    let d4 := (d3.modCore k.core (fun c => c.freeUnits t)).modCluster (clusterOf k.core) (fun c => { c with idleSince := d.time })
    (Dev.wakeStalls { d4 with gangs := gangs, tasks := Tab.erase d4.tasks t }).expelCores

/-- Whether a task waits for a commit before its last group may leave (R205). -/
def Task.commitDue (t : Task) : Bool := !t.killed && !t.sets.isEmpty

/-- The task that a core's handler serves, if it is active (R329). -/
def Dev.servedTask (d : Dev) (core : Nat) : Option Nat := (d.core core).serving.map Prod.fst

/-- The slot of the trapped group that a core's handler serves, whose slices its own lanes reach (R329). -/
def Dev.servedSlot (d : Dev) (core : Nat) : Option Nat := (d.core core).serving.map (fun x => x.2.slot)

/-- GROUP_SLOT_RELEASE (R27, R93, R173): a group all of whose lanes have exited, with its counters at 0, leaves its slot, which its workgroup holds until it
retires; a failure that no word has raised traps first. A redundant pair whose groups have exited ends as RDN.END ends it. A workgroup that the handler
serves does not retire before the activation ends, nor does the trapped group leave its slot: the handler works in its address space, its allotments and its slices
(R329). -/
def execGroupSlotRelease (core slot : Nat) (s : State) : Out :=
  let d := s.dev
  let g := d.group core slot
  match d.task? g.task with
  | none => .next s
  | some t =>
    if !d.hasGroup core slot ∨ slot = handlerSlot ∨ 0 < g.live ∨ !g.stack.isEmpty ∨ g.trap.isSome ∨ d.servedSlot core = some slot ∨ (t.phase ≠ .running ∧ t.phase ≠ .committing) then .next s
    else if g.role ≠ .none then
      if g.atCheckpoint.isSome then .next s
      else .next (s.modDev (fun d => d.setCheckpoint core slot 1))
    else if !g.countsAt 0 0 0 0 then .next s
    else match g.failed with
      | f :: _ =>
        .next (s.modDev (fun d => ((d.modGroup core slot (fun g => g.dropFailure f))).raiseTrap core slot 0 0 g.exitPos f.tr.info))
      | [] =>
        let last := t.slots.all (fun x => decide (x = slot) || t.left.contains x)
        if last ∧ (t.commitDue ∨ d.servedTask core = some g.task) then .next s
        else
          let d1 := { d with groups := Tab.erase d.groups (gkey core slot) }
          let now := max g.timeFloor (d.regionTime (clusterOf core) / 2 ^ 24)
          let d2 := d1.modTask g.task (fun k => { k with left := slot :: k.left, floor := max k.floor now })
          .next { s with dev := if last then d2.retire g.task else d2 }

/-! ## Commit, restart, sets and tokens (R203 to R210) -/

/-- Merging a task's tentative bytes into their homes (R205, step 1): its core takes each line exclusive, and there is one write for each listed byte's line. -/
def Dev.mergeTent (d : Dev) (t : Nat) : Dev :=
  match d.task? t with
  | none => d
  | some k =>
    let d1 := k.tent.foldl (fun d c => (d.combine (c.1 / 128)).writeByte (hbmAt c.1) c.2) d
    let d2 := (tentLines k).foldl (fun d l =>
      let touched (b : Nat) : Bool := (List.range 8).any (fun i => (Tab.find k.tent (b + i)).isSome)
      let d3 : Dev := { d with boxes := Tab.mapV d.boxes (fun _ b =>
        if b.bound ∧ b.kind = 0 ∧ b.trig / 128 = l ∧ touched b.trig then { b with arrived := b.arrived ++ [d.snapshot b] } else b) }
      let ws := d3.windows.filter (fun (w : Nat × Window) => w.2.v && decide (w.2.post / 128 = l) && touched w.2.post)
      let d4 := { d3 with posted := d3.posted ++ ws.map (fun (w : Nat × Window) => (w.1, BitVec.ofNat 64 (d3.readNat (hbmAt w.2.post) 8))) }
      ((d4.staleStreams (hbmAt (128 * l)) 128).markWriter (hbmAt (128 * l)) 128 0).writeLine k.core 0 (d4.frame (l / 512)).gran (hbmAt (128 * l)) 128) d1
    d2.modTask t (fun k => { k with tent := [] })

/-- Releasing a task's deferred copies to the engine (R205, step 2). -/
def Dev.releaseCopies (d : Dev) (t : Nat) : Dev :=
  d.modTask t (fun k => { k with cq := { k.cq with entries := k.cq.entries.map (fun e => { e with deferred := false }) } })

/-- Whether tentative operations of a task are still outstanding. -/
def Dev.tentOps (d : Dev) (t : Nat) : Bool := d.ops.any (fun o => decide (o.2.task = t ∧ o.2.slot ≠ handlerSlot ∧ o.2.st ≠ .ended) && o.2.tent)

/-- TASK_COMMIT (R205): when the task's last group has exited and its tentative operations have ended, its tentative lines are merged, its deferred copies released, its sets and
its token given back. -/
def execTaskCommit (task : Nat) (s : State) : Out :=
  match s.dev.task? task with
  | none => .next s
  | some t =>
    let out := t.slots.all (fun sl => decide ((s.dev.group t.core sl).live = 0) && (s.dev.group t.core sl).stack.isEmpty
      && (s.dev.group t.core sl).trap.isNone)
    if !out ∨ !t.commitDue ∨ t.phase ≠ .running ∨ s.dev.tentOps task then .next s
    else
      let d1 := ((s.dev.mergeTent task).releaseCopies task).modTask task (fun k => { k with sets := [], token := .none, cqFirst := none })
      .next { s with dev := Dev.wakeStalls { d1 with tokens := d1.tokens.filter (fun p => decide (p.2 ≠ task)) } }

/-- Operations that a wounded task's restart waits for: its stores, copies and started tile operations (R208, step 4). -/
def Dev.woundBusy (d : Dev) (task : Nat) (t : Task) : Bool :=
  d.ops.any (fun o => decide (o.2.task = task ∧ o.2.slot ≠ handlerSlot ∧ o.2.st ≠ .ended) && !o.2.kind.prefetches)
    || (d.core t.core).mq.any (fun e => decide (e.task = task)) || !t.cq.entries.all (fun e => e.stop.isSome && e.chan.isNone)

/-- TASK_RESTART (R208, step 5; R214, R238, R268): every group at its entry again, those that had left their slots too, the matrix state and the streams as
at dispatch; P, S, C and K keep their bytes. It waits until the sets of its table have their entries again (R23), and a killed one does not restart
(R336). -/
def execTaskRestart (task : Nat) (s : State) : Out :=
  match s.dev.task? task with
  | none => .next s
  | some t =>
    match s.dev.grid? t.grid with
    | none => .next s
    | some g =>
      let busy := s.dev.woundBusy task t || t.slots.any (fun sl => (s.dev.group t.core sl).held || (s.dev.group t.core sl).trap.isSome)
      if t.phase ≠ .wounded ∨ t.killed ∨ busy ∨ 4096 < s.dev.activeSets + g.sets.length then .next s
      else
        let again (d : Dev) (i sl : Nat) : Group :=
          { freshGroup g t.grid task i (d.now (clusterOf t.core)) with timeFloor := max t.floor (d.group t.core sl).timeFloor }
        let d1 := (t.slots.zipIdx).foldl (fun d p => d.setGroup t.core p.1 (again d p.2 p.1)) s.dev
        let d2 := d1.modTask task (fun k => { k with
          phase := .running, restart := false, restarts := (k.restarts + 1) % 2 ^ 32, left := [], tiles := [], handles := [], shapes := [],
          mxc := [0, 0, 0, 0, 0], streams := [], sets := tableSets g, token := .none, tent := [] })
        .next { s with dev := (d2.modCore t.core (fun c => c.freeUnits task)).wakeStalls }

/-- The splits of a task that wait for atomic sets, with the sets. -/
def Dev.setWaiters (d : Dev) : List (Nat × Nat × Nat × List Nat) :=
  d.groups.flatMap (fun g => (g.2.splits.zipIdx).filterMap (fun p => match p.1 with
    | some { park := .stallSet ids, .. } => some (g.2.task, g.1, p.2, ids)
    | _ => none))

/-- Whether an older task of the same world waits for a set that meets a set of a task: it acquires first (R203). -/
def Dev.olderWaits (d : Dev) (task : Nat) (t : Task) (id : Nat) : Bool :=
  let rec_ (k : Task) (i : Nat) : SetRec := Tab.get { base := 0, len := 0, acquired := false } k.sets i
  d.setWaiters.any (fun (w : Nat × Nat × Nat × List Nat) => decide (w.1 ≠ task ∧ d.worldOf w.1 = d.worldOf task) && (match d.task? w.1 with
    | some k => decide (k.phase = .running ∧ k.age < t.age) && w.2.2.2.any (fun j =>
        overlap (rec_ t id).base (rec_ t id).len (rec_ k j).base (rec_ k j).len)
    | none => false))

/-- ATOMIC_SET_WAIT_ACQUIRE (R203): a waiting task examines its sets again, each in age order after older waiters: younger holders are wounded, and a set with
no holder left is acquired at once; a split with none left to wait for issues again. -/
def execAtomicSetWaitAcquire (task : Nat) (s : State) : Out :=
  match s.dev.task? task with
  | none => .next s
  | some t =>
    let d := s.dev
    let mine := d.setWaiters.filter (fun w => decide (w.1 = task))
    let ids := ((mine.flatMap (fun w => w.2.2.2)).eraseDups).filter (fun i => !d.olderWaits task t i)
    if t.phase ≠ .running ∨ ids.isEmpty then .next s
    else
      let hurt := ((ids.map (fun i => d.settle task i)).flatMap Prod.fst).eraseDups
      let d1 := hurt.foldl Dev.wound d
      let got := ids.filter (fun i => !(d1.settle task i).2)
      let goOn (d : Dev) (w : Nat × Nat × Nat × List Nat) : Dev :=
        let rest := w.2.2.2.filter (fun i => !got.contains i)
        if rest.isEmpty then d.modGroup (w.2.1 / 64) (w.2.1 % 64) (fun g => { g with splits := modSplit g.splits w.2.2.1 Split.retry })
        else d.modGroup (w.2.1 / 64) (w.2.1 % 64) (fun g => { g with splits := modSplit g.splits w.2.2.1 (fun x => { x with park := .stallSet rest }) })
      .next { s with dev := mine.foldl goOn (d1.acquire task got) }

/-- The oldest task of a world that has requested its token. -/
def Dev.tokenNext (d : Dev) (world : Nat) : Option Nat :=
  let l := d.tasks.filter (fun t => decide ((t.2.token = .requested ∨ t.2.token = .atFirst) ∧ d.worldOf t.1 = world))
  ((keepLeast (fun t => t.2.age) l).head?).map Prod.fst

/-- IRREVOCABLE_TOKEN_GRANT (R206): the free token goes to the oldest requester; its tentative lines are committed and its deferred
copies released, its writes go in place from then on, those still outstanding too, and its parked splits issue again. -/
def execIrrevocableTokenGrant (world : Nat) (s : State) : Out :=
  if (Tab.find s.dev.tokens world).isSome then .next s
  else match s.dev.tokenNext world with
    | none => .next s
    | some t =>
      let d1 := ((s.dev.mergeTent t).releaseCopies t).modTask t (fun k => { k with token := .held, cqFirst := none })
      let d2 := { d1 with
        tokens := Tab.insert d1.tokens world t
        ops := Tab.mapV d1.ops (fun _ o => if o.task = t ∧ o.slot ≠ handlerSlot then { o with tent := false } else o) }
      .next { s with dev := d2.wakeTask (fun g => decide (g.task = t)) (fun p => decide (p = .stallToken)) }

/-- ACTIVE_SET_ENTRY_FREE (R210): with an entry free, the task's splits parked at ADECL issue again. -/
def execActiveSetEntryFree (task : Nat) (s : State) : Out :=
  .next (if s.dev.activeSets < 4096 then
      s.modDev (fun d => d.wakeTask (fun g => decide (g.task = task)) (fun p => decide (p = .stallAdecl)))
    else s)

end Sys2Proof.Machine
end

