-- ==== Sys2Proof/Machine/Copy.lean ====
section
/-! DEFINITION. Copy queues and the clusters' copy engines: the words of the CQ major, acceptance, the writing of an entry line by line, its
stamp and its failures (R158, R241 to R262, R377). -/

namespace Sys2Proof.Machine

/-! ## The queue of a workgroup (R241, R256) -/

/-- The place of the slot of entry n, and of the notify word. -/
def CopyQueue.slotAt (q : CopyQueue) (task n : Nat) : Loc :=
  { sp := .smem, own := task, a := q.ofs + 32 + 32 * ((n - 1) % q.cap) }
def CopyQueue.notifyAt (q : CopyQueue) (task : Nat) : Loc := { sp := .smem, own := task, a := q.ofs }
/-- Published entries that no channel has accepted, accepted ones that have not ended, and both (R241, R261). -/
def CopyEntry.unaccepted (e : CopyEntry) : Bool := e.words.isNone && e.stop.isNone
def CopyEntry.running (e : CopyEntry) : Bool := e.chan.isSome
def CopyQueue.unacc (q : CopyQueue) : Nat := (q.entries.filter CopyEntry.unaccepted).length
def CopyQueue.busy (q : CopyQueue) : Bool := q.entries.any (fun e => e.unaccepted || e.running)
/-- Entries kept: those that have not ended, and the last 64 published (R260). -/
def CopyQueue.prune (q : CopyQueue) : CopyQueue :=
  { q with entries := q.entries.filter (fun e => e.unaccepted || e.running || decide (q.last < e.n + 64)) }

/-- CQINIT (R256). -/
def execCqinit (d a : SReg) (s : State) : Out :=
  let x := (s.rdS a).toNat
  let cap := bits x 23 18 + 1
  let ofs := bits x 17 0
  match s.dev.task? s.taskId with
  | none => .next (s.wrS d 2)
  | some t =>
    let ext := s.dev.extent s.iss.core s.iss.slot .s
    if t.cq.busy then .next (s.wrS d 1)
    else if bits x 63 24 ≠ 0 ∨ ofs % 32 ≠ 0 ∨ ext < ofs + 32 * (cap + 1) then .next (s.wrS d 2)
    else
      let q : CopyQueue := { init := true, ofs := ofs, cap := cap, last := 0, stage := 0, err := 0, entries := [] }
      .next ((s.modDev (fun e =>
        (e.modTask s.taskId (fun k => { k with cq := q })).perform (q.notifyAt s.taskId) (Bytes.ofNat 8 0))).wrS d 0)

/-! ## Publication (R202, R206, R257, R258) -/

/-- The layout program that an entry names, as the slot stands: none where it is another world's or is no program. -/
def Dev.programOf (d : Dev) (core world : Nat) (c : CopyRec) : Option (List LStep) :=
  if !c.lp then some []
  else
    let p := Tab.get (0, []) (d.cluster (clusterOf core)).layouts c.lpi
    if p.1 ≠ world then none else layoutSteps p.2

/-- The ranges of G that an entry reads or writes (R202). -/
def Dev.copyRanges (d : Dev) (core world : Nat) (c : CopyRec) : List (Nat × Nat) :=
  let dst := match (d.programOf core world c).bind (fun st => c.shape st false c.rows c.cols) with
    | some (r, k) => c.dstRanges r k
    | none => []
  (if c.sspace = 0 then c.srcRanges else []) ++ (if c.dspace = 0 then dst ++ (if 0 ≤ c.stampAt then [(c.stampAt.toNat, 8)] else []) else [])

/-- One entry published by the issuing group: its operation, its count, its place in the queue (R249, R257). -/
def State.publish (s : State) (ws : List W64) : State :=
  let x := s.taskId
  let o := s.dev.nextOp
  match s.dev.task? x with
  | none => s
  | some t =>
    let n := t.cq.last + 1
    let op : Op :=
      { core := s.iss.core, slot := s.iss.slot, task := x, ctr := .cc, kind := .copy x n, parts := [], scope := (CopyRec.of ws).scope,
        tent := false, pos := s.iss.pos, st := .going, waits := [], held := [] }
    let e : CopyEntry :=
      { n := n, deadline := t.cq.stage + (CopyRec.of ws).slack, order := s.dev.nextOrder, deferred := s.dev.tentative x, words := none,
        chan := none, written := 0, total := 0, stop := none, slot := s.iss.slot, opId := o }
    (s.modDev (fun d =>
      { (d.modTask x (fun k => { k with cq := ({ k.cq with last := n, entries := k.cq.entries ++ [e] }).prune })) with
        ops := Tab.insert d.ops o op, nextOp := o + 1, nextOrder := d.nextOrder + 1 })).modGrp (fun g => g.raise .cc o)

/-- The notify word takes the last published number (R241). -/
def State.notify (s : State) : State :=
  match s.dev.task? s.taskId with
  | some t => s.modDev (fun d => d.perform (t.cq.notifyAt s.taskId) (Bytes.ofNat 8 t.cq.last))
  | none => s

/-- The words of the slot of an entry. -/
def Dev.slotWords (d : Dev) (task : Nat) (q : CopyQueue) (n : Nat) : List W64 :=
  (List.range 4).map (fun i => BitVec.ofNat 64 (d.readNat ((q.slotAt task n).plus (8 * i)) 8))

/-- CQPUSH (R257). -/
def execCqpush (d : SReg) (a : BitVec 4) (s : State) : Out :=
  let ws := (List.range 4).map (fun i => s.rdS (BitVec.ofNat 6 (4 * a.toNat + i)))
  match s.dev.task? s.taskId with
  | none => .next (s.takeTrap (TrapInfo.plain 0x0D))
  | some t =>
    if !t.cq.init then .next (s.takeTrap (TrapInfo.plain 0x0D))
    else if t.cq.cap ≤ t.cq.unacc then
      if t.cq.entries.any (fun e => e.deferred) then .next ((s.needToken).getD (s.stall .stallEngine id))
      else .next (s.stall .stallEngine id)
    else if s.mustStall .cc false then .next (s.stall .stallEngine id)
    else .next (s.afterStores (CopyRec.of ws).scope (fun s =>
      match s.settleSets (s.dev.copyRanges s.iss.core (s.dev.worldOf s.taskId) (CopyRec.of ws)) false with
      | .inr s1 => s1
      | .inl s1 =>
        let n := t.cq.last + 1
        let s2 := s1.modDev (fun e => e.perform (t.cq.slotAt s.taskId n) (ws.flatMap (fun w => Bytes.ofNat 8 w.toNat)))
        ((s2.publish ws).notify).wrS d (BitVec.ofNat 64 n)))

/-- CQPUB (R258): the deadlines take the slack that the slots hold at publication. -/
def execCqpub (d a : SReg) (s : State) : Out :=
  let k := bits (s.rdS a).toNat 6 0
  match s.dev.task? s.taskId with
  | none => .next (s.wrS d 0x8000000000000002)
  | some t =>
    if !t.cq.init ∨ k = 0 ∨ t.cq.cap < k then .next (s.wrS d 0x8000000000000002)
    else if t.cq.cap - t.cq.unacc < k then .next (s.wrS d 0x8000000000000001)
    else if 63 < s.grp.cc.length + k then .next (s.stall .stallEngine id)
    else .next (s.afterStores 3 (fun s =>
      let all := (List.range k).map (fun i => s.dev.slotWords s.taskId t.cq (t.cq.last + 1 + i))
      match s.settleSets (all.flatMap (fun ws => s.dev.copyRanges s.iss.core (s.dev.worldOf s.taskId) (CopyRec.of ws))) false with
      | .inr s1 => s1
      | .inl s1 => ((all.foldl State.publish s1).notify).wrS d (BitVec.ofNat 64 (t.cq.last + k))))

/-! ## Reading and steering the queue (R259 to R262) -/

/-- CQSTAGE (R259). -/
def execCqstage (a : SReg) (s : State) : Out :=
  let n := bits (s.rdS a).toNat 15 0
  .next (s.modDev (fun d => d.modTask s.taskId (fun k => { k with cq := { k.cq with stage := (k.cq.stage + n) % 2 ^ 64 } })))

/-- What CQWPTR reads of an entry (R260): the last 64 published are tracked. -/
def CopyQueue.progress (q : CopyQueue) (n : Nat) : Nat :=
  if n = 0 ∨ q.last < n then 0
  else if n + 64 ≤ q.last then 2 ^ 64 - 1
  else match q.entries.find? (fun e => decide (e.n = n)) with
    | none => 2 ^ 64 - 1
    | some e =>
      if e.unaccepted then 0
      else if e.running then e.written
      else if e.stop = some 0 then e.total else 2 ^ 64 - 1

/-- CQWPTR (R260). -/
def execCqwptr (d a : SReg) (s : State) : Out :=
  match s.dev.task? s.taskId with
  | some t => .next (s.wrS d (BitVec.ofNat 64 (t.cq.progress (bits (s.rdS a).toNat 55 0))))
  | none => .next (s.wrS d 0)

/-- CQSTAT's word (R261). -/
def CopyQueue.status (q : CopyQueue) : Nat :=
  q.err * 2 ^ 56 + (if q.init then q.cap else 0) * 2 ^ 40 + q.unacc * 2 ^ 32
    + (q.entries.filter CopyEntry.running).length * 2 ^ 24 + q.stage % 2 ^ 24

/-- CQSTAT (R261). -/
def execCqstat (d : SReg) (s : State) : Out :=
  match s.dev.task? s.taskId with
  | some t => .next (s.wrS d (BitVec.ofNat 64 t.cq.status))
  | none => .next (s.wrS d 0)

/-- LPROG (R246, R262). -/
def execLprog (d a : SReg) (n : BitVec 4) (s : State) : Out :=
  .next (s.withRecord (s.rdS a).toNat 64 (fun s ws =>
    if !imageOk ws then s.wrS d 2
    else (s.modDev (fun x => x.modCluster (clusterOf s.iss.core) (fun k =>
      { k with layouts := Tab.insert k.layouts n.toNat ((x.core s.iss.core).world, ws) }))).wrS d 0))

/-! ## The engine (R158, R244, R248 to R254) -/

/-- The context of an engine's accesses for a task (R248, R271). -/
def Dev.engineCtx (d : Dev) (t : Task) (spec : Bool) : XCtx :=
  { core := none, die := dieOf t.core, world := (d.queue t.queue).world, asn := (d.queue t.queue).asn, root := (d.queue t.queue).root,
    priv := false, spec := spec }

/-- The place of an address of a space of R242 and its page's granule, or the failure code of R252. -/
def Dev.copyXlate (d : Dev) (task : Nat) (t : Task) (k : AccKind) (spec : Bool) (sp a : Nat) : Dev × Except Nat (Loc × Nat) :=
  match sp with
  | 0 =>
    let r := d.translate (d.engineCtx t spec) k a
    (r.dev, match r.out with
      | .ok p => .ok (p.loc, leafGran p.leaf)
      | .error .hedge => .error 3
      | .error (.fault _ _) => .error 2)
  | 1 => (d, .ok ({ sp := .smem, own := task, a := a }, 2))
  | 2 => (d, .ok ({ sp := .cmem, own := t.gang, a := a }, 2))
  | _ => (d, if d.hedgeK a (d.queue t.queue).world then .ok ({ sp := .kmem, own := 0, a := a }, 2) else .error 3)

/-- The place of an address of a space of R242, or the failure code of R252. -/
def Dev.copyPlace (d : Dev) (task : Nat) (t : Task) (k : AccKind) (spec : Bool) (sp a : Nat) : Dev × Except Nat Loc :=
  let r := d.copyXlate task t k spec sp a
  (r.1, r.2.map Prod.fst)

/-- The extents of a task's S and C allotments. -/
def Dev.extents (d : Dev) (t : Task) : Nat × Nat :=
  match d.grid? t.grid with
  | some g => (g.sBytes, g.cBytes)
  | none => (0, 0)

/-- An accepted entry's fields and the steps of its program: the words kept are the four and the program's eight. -/
def CopyEntry.rec_ (e : CopyEntry) : CopyRec := CopyRec.of (e.words.getD [])
def CopyEntry.steps (e : CopyEntry) : Option (List LStep) :=
  if e.rec_.lp then (if ((e.words.getD []).drop 4).isEmpty then none else layoutSteps ((e.words.getD []).drop 4)) else some []

/-- Changing an entry of a task. -/
def Dev.modCopy (d : Dev) (task n : Nat) (f : CopyEntry → CopyEntry) : Dev :=
  d.modTask task (fun t => { t with cq := { t.cq with entries := t.cq.entries.map (fun e => if e.n = n then f e else e) } })

/-- The entry that a channel carries. -/
def Dev.carried (d : Dev) (cluster chan : Nat) : Option (Nat × Task × CopyEntry) :=
  match Tab.find (d.cluster cluster).chans chan with
  | none => none
  | some (task, n) =>
    match d.task? task with
    | none => none
    | some t => (t.cq.entries.find? (fun e => decide (e.n = n))).map (fun e => (task, t, e))

/-- An entry ends on its channel: its count ends, with the trap of a failure due (R250, R252). -/
def Dev.endCopy (d : Dev) (cluster chan task : Nat) (e : CopyEntry) (code : Nat) : Dev :=
  let d1 := (d.modCluster cluster (fun k => { k with chans := Tab.erase k.chans chan, held := Tab.erase k.held chan })).modCopy task e.n
    (fun e => { e with stop := some code, chan := none })
  let d2 := d1.modTask task (fun t => { t with cq := ({ t.cq with err := if code = 0 then t.cq.err else code }).prune })
  let bad := match d2.op? e.opId with
    | some o => if code = 0 then none else some (o.failure 0x0E 0 (code * 2 ^ 56 + e.n % 2 ^ 56))
    | none => none
  (d2.endOp e.opId bad).wakeStalls

/-- Sending one remote part of a copy: lane 0 reads a source line, the others write (R253). -/
def Dev.sendCopyPart (d : Dev) (n i : Nat) : Dev :=
  match d.op? n with
  | none => d
  | some o =>
    let p := o.parts.getD i default
    let world := (d.queue (match d.task? o.task with
      | some t => t.queue
      | none => 0)).world
    let die := match d.task? o.task with
      | some t => dieOf t.core
      | none => 0
    match p.loc.sp with
    | .remote peer win =>
      d.sendPart die world n i peer win p.loc.a p.n 0 o.scope (if p.lane = 0 then .read else .write)
        (if p.lane = 0 then [] else Bytes.ofNat p.n p.data.toNat)
    | _ => d

/-- Sending the remote parts of a copy that are not done, from part i on; at a replay all of them (R253, R287). -/
def Dev.sendCopy (d : Dev) (n i : Nat) : Dev :=
  match d.op? n with
  | none => d
  | some o => ((List.range o.parts.length).filter (fun j => decide (i ≤ j) && !(o.parts.getD j default).done)).foldl (fun d j => d.sendCopyPart n j) d

/-- New parts of a copy's operation; the remote ones among them are sent. -/
def Dev.addParts (d : Dev) (n : Nat) (ps : List LanePart) : Dev :=
  match d.op? n with
  | none => d
  | some o => (d.modOp n (fun o => { o with parts := o.parts ++ ps })).sendCopy n o.parts.length

/-- The value of the stamp: the entry's number, or its failure form (R250, R252). -/
def CopyEntry.stampValue (e : CopyEntry) (code : Nat) : Nat := if code = 0 then e.n else 2 ^ 63 + code * 2 ^ 56 + e.n % 2 ^ 56

/-- An operation leaves the ticket table and its requests are forgotten. -/
def Dev.forget (d : Dev) (n : Nat) : Dev :=
  { d with
    requests := Tab.keep d.requests (fun _ r => decide (r.op ≠ n))
    dies := Tab.mapV d.dies (fun _ k =>
      { k with tickets := Tab.keep (Tab.mapV k.tickets (fun _ e => { e with ops := e.ops.filter (fun o => decide (o ≠ n)) })) (fun _ e => !e.ops.isEmpty) }) }

/-- A channel writes no more of its entry's lines: those it holds are let go, and what it has under way is dropped (R158, R252). -/
def Dev.stopCopy (d : Dev) (cluster chan n : Nat) : Dev :=
  ((((d.forget n).modOp n (fun o => { o with st := .going, parts := o.parts.filter (fun p => p.done) })).modCluster cluster
    (fun k => { k with held := Tab.erase k.held chan }))).wakeStalls

/-- Whether a copy's write of a line at a scope awaits the host or a completer (R177). -/
def CopyRec.awaits (c : CopyRec) (d : Dev) (l : Loc) : Bool := decide (c.scope = 5) && d.hostSees l

/-- A line written by an engine, with what follows a write; its home has it (R155, R158). -/
def Dev.engineWrite (d : Dev) (l : Loc) (bs : List Byte) : Dev := (d.perform l bs).homeLine l

/-- An entry's writing is over, with a code of R252 or 0: its stamp is written where its address passed its checks, and the entry ends; a
stamp that a peer, the host or a completer acknowledges ends it with the acknowledgement. -/
def Dev.stampCopy (d0 : Dev) (cluster chan task : Nat) (t : Task) (e : CopyEntry) (code : Nat) : Dev :=
  let d := d0.stopCopy cluster chan e.opId
  let c := e.rec_
  let ranges := match e.steps.bind (fun st => c.shape st false c.rows c.cols) with
    | some (r, k) => c.dstRanges r k
    | none => []
  let x := d.extents t
  if !c.stampOk ranges x.1 x.2 then d.endCopy cluster chan task e code
  else match d.copyPlace task t .write false c.dspace c.stampAt.toNat with
    | (d1, .error f) => d1.endCopy cluster chan task e (if code = 0 then f else code)
    | (d1, .ok l) =>
      let bs := Bytes.ofNat 8 (e.stampValue code)
      let p : LanePart := { lane := 1, loc := l, addr := c.stampAt.toNat, n := 8, data := BitVec.ofNat 128 (Bytes.toNat bs), done := false }
      let d2 := d1.modCopy task e.n (fun e => { e with stop := some code })
      if l.isRemote then d2.addParts e.opId [p]
      else if c.awaits d1 l then
        (d2.engineWrite l bs).modOp e.opId (fun o => { o with st := .awaiting 0, parts := o.parts ++ [{ p with done := true, wrote := true }] })
      else (d1.engineWrite l bs).endCopy cluster chan task e code

/-- Reading one source line, once, shared with the L1s that hold it: what is stored there is decoded, and its sixteen-byte pieces join the operation's parts,
with a mark (lane 2) for each eight bytes that are poisoned (R158, R324, R396, R399). -/
def Dev.sample (d : Dev) (task : Nat) (t : Task) (e : CopyEntry) (line : Nat) : Dev × Option Nat :=
  match d.op? e.opId with
  | none => (d, none)
  | some o =>
    if o.parts.any (fun p => decide (p.lane = 0 ∧ p.addr = 128 * line)) then (d, none)
    else match d.copyXlate task t .read false e.rec_.sspace (128 * line) with
      | (d1, .error f) => (d1, some f)
      | (d1, .ok (l, gran)) =>
        let mark := ((List.range 16).filter (fun i => d1.poisoned (l.plus (8 * i)) 8)).map (fun i =>
          ({ lane := 2, loc := l.plus (8 * i), addr := 128 * line + 8 * i, n := 8, data := 0, done := true } : LanePart))
        let d1 := d1.reportRaw l 128
        let d2 := if l.cached then (((d1.combineRange l 128).shareOthers 256 l.line).countFill (dieOf t.core) l).l2Fill gran l.line true else d1
        let ps := (chunks l (128 * line) 128).map (fun p =>
          if l.isRemote then { p with lane := 0 }
          else { p with lane := 0, data := BitVec.ofNat 128 (d2.readNat p.loc 16), done := true })
        (d2.addParts e.opId (ps ++ mark), none)

/-- Reading several source lines; the first that fails ends the entry. -/
def Dev.sampleAll (d : Dev) (task : Nat) (t : Task) (e : CopyEntry) : List Nat → Dev × Option Nat
  | [] => (d, none)
  | l :: r =>
    match d.sample task t e l with
    | (d1, some f) => (d1, some f)
    | (d1, none) => d1.sampleAll task t e r

/-- A source byte as an operation has read it. -/
def Op.sampled (o : Op) (a : Nat) : Nat :=
  match o.parts.find? (fun p => decide (p.lane = 0 ∧ p.addr ≤ a ∧ a < p.addr + 16)) with
  | some p => p.data.toNat / 256 ^ (a - p.addr) % 256
  | none => 0

/-- Whether a queue has copy bandwidth left in this period (R377); 0 means no limit. -/
def Queue.copyLeft (q : Queue) : Bool := decide (q.cbud = 0 ∨ q.copied < 4096 * q.cbud)

/-- The engine takes E ownership of a destination line: no L1 holds it, its update-only copies are combined, and the channel holds the line (R158). -/
def Dev.engineOwn (d : Dev) (cluster chan : Nat) (l : Loc) : Dev :=
  (if l.cached then d.recallAll l.line else d).modCluster cluster (fun k =>
    { k with held := Tab.insert k.held chan (Tab.get [] k.held chan ++ [l.block]) })

/-- A channel lets a line go, and what waits for it goes on (R158). -/
def Dev.engineFree (d : Dev) (cluster chan : Nat) (l : Loc) : Dev :=
  (d.modCluster cluster (fun k =>
    let left := (Tab.get [] k.held chan).filter (fun x => decide (x ≠ l.block))
    { k with held := if left.isEmpty then Tab.erase k.held chan else Tab.insert k.held chan left })).wakeStalls

/-- Progress of an entry after n more bytes were performed, charged to its queue (R260, R377). -/
def Dev.wrote (d : Dev) (task : Nat) (t : Task) (e : CopyEntry) (n : Nat) : Dev :=
  (d.modCopy task e.n (fun e => { e with written := e.written + n })).modQueue t.queue (fun q => { q with copied := q.copied + n })

/-- The part of an entry at its offset is performed: progress goes on past it, and its line is let go when the entry targets no more of it. -/
def Dev.passPart (d : Dev) (cluster chan task : Nat) (t : Task) (e : CopyEntry) (r k n : Nat) (l : Loc) : Dev :=
  (if e.rec_.targetsLater r k e.written then d else d.engineFree cluster chan l).wrote task t e n

/-- The part of an entry at its offset, of n bytes at a place, is written: to a peer by a request, in which no poison travels (R295; log entry 120); here at once, with its poison, where the host or a
completer has nothing to acknowledge (R177, R250, R253, R399). -/
def Dev.writePart (d : Dev) (cluster chan task : Nat) (t : Task) (e : CopyEntry) (o : Op) (r k a n : Nat) (bs : List Byte) (bad : Bool) (l : Loc) : Dev :=
  let ps := (chunks l a n).map (fun p =>
    { p with lane := 16 + e.written, data := BitVec.ofNat 128 (Bytes.toNat ((bs.drop (p.addr - a)).take p.n)) })
  let mine := o.parts.filter (fun p => decide (p.lane = 16 + e.written))
  if !mine.isEmpty then (if mine.all (fun p => p.done) then d.passPart cluster chan task t e r k n l else d)
  else if l.isRemote then d.addParts e.opId ps
  else
    let d1 := d.engineWrite l bs
    let d2 := if bad then d1.addPoison l n else d1
    if e.rec_.awaits d l then
      d2.modOp e.opId (fun o => { o with st := .awaiting 0, parts := o.parts ++ ps.map (fun p => { p with done := true, wrote := true }) })
    else d2.passPart cluster chan task t e r k n l

/-- One step of a channel (R158, R250 to R253, R377): the next destination line is issued to the engine, which holds it, once its source
lines are read, its queue has budget and no other channel holds it; a line it holds is written, with poison where it takes a poisoned byte (R399); after the
last line comes the stamp. -/
def Dev.copyStep (d : Dev) (cluster chan : Nat) : Dev :=
  match d.carried cluster chan with
  | none => d
  | some (task, t, e) =>
    match d.op? e.opId, e.steps, e.stop with
    | none, _, _ => d.endCopy cluster chan task e 0
    | some o, _, some code =>
      if o.st = .going ∧ o.parts.all (fun p => p.done) then d.endCopy cluster chan task e code else d
    | some _, none, none => d.stampCopy cluster chan task t e 7
    | some o, some st, none =>
      let c := e.rec_
      match c.shape st false c.rows c.cols with
      | none => d.stampCopy cluster chan task t e 7
      | some (r, k) =>
        if o.st ≠ .going then d
        else if c.total r k ≤ e.written then d.stampCopy cluster chan task t e 0
        else
          let (a, n) := c.chunk r k e.written
          let rows := if e.written < c.payload r k then [e.written / (k * elemBytes c.dfmt)] else List.range r
          let lines := (rows.flatMap (c.linesFor st)).eraseDups
          match d.sampleAll task t e lines with
          | (d1, some f) => d1.stampCopy cluster chan task t e f
          | (d1, none) =>
            match d1.op? e.opId with
            | none => d1
            | some o1 =>
              if o1.st ≠ .going ∨ !(o1.parts.all (fun p => p.done || decide (p.lane ≠ 0))) then d1
              else match d1.copyPlace task t .write false c.dspace a with
                | (d2, .error f) => d2.stampCopy cluster chan task t e f
                | (d2, .ok l) =>
                  if !l.isRemote ∧ !(Tab.get [] (d2.cluster cluster).held chan).contains l.block then
                    (if d2.engineHolds l n then d2 else if (d2.queue t.queue).copyLeft then d2.engineOwn cluster chan l else d2)
                  else if l.isRemote ∧ !(d2.queue t.queue).copyLeft ∧ !o1.parts.any (fun p => decide (p.lane = 16 + e.written)) then d2
                  else
                    let bs := c.chunkBytes (fun i => c.row st o1.sampled k i) r k e.written n
                    let bad := (c.chunkTakes st r k e.written n).any (fun x => o1.parts.any (fun p => decide (p.lane = 2) && overlap x.1 x.2 p.addr p.n))
                    d2.writePart cluster chan task t e o1 r k a n bs bad l

/-- Whether a thread waits for a line of some: an access under way, or a word stalled at issue. -/
def Dev.threadWaits (d : Dev) (hs : List Loc) : Bool :=
  d.ops.any (fun o => o.2.parts.any (fun p => !p.done && hs.any (fun h => decide (p.loc.sp = h.sp ∧ p.loc.own = h.own) && overlap h.a 128 p.loc.a p.n)))
    || d.groups.any (fun g => g.2.splits.any (fun x => match x with
      | some y => y.park.isStall
      | none => false))

/-- ENGINE_RECALL (R158): a thread access waits for a line that a channel holds; the engine writes on until it lets the line go. -/
def execEngineRecall (cluster chan : Nat) (s : State) : Out :=
  match Tab.find (s.dev.cluster cluster).held chan with
  | none => .next s
  | some hs => .next (if s.dev.threadWaits hs then s.modDev (fun d => d.copyStep cluster chan) else s)

/-- COPY_COMPLETE (R250): a channel writes on: its next line, or, when every byte is performed, the stamp, with which the entry ends. -/
def execCopyComplete (cluster chan : Nat) (s : State) : Out := .next (s.modDev (fun d => d.copyStep cluster chan))

/-- Whether an entry of a task may be accepted (R248, R249, R254). -/
def Dev.acceptable (d : Dev) (t : Task) (e : CopyEntry) : Bool :=
  e.unaccepted && !e.deferred && t.resident && (d.queue t.queue).copyLeft

/-- The remaining slack of an entry (R249). -/
def remaining (q : CopyQueue) (e : CopyEntry) : Int := (BitVec.ofNat 64 e.deadline - BitVec.ofNat 64 q.stage).toInt

/-- The better of two candidates: least remaining slack, then the one published first. -/
def firstCopy : List (Nat × Task × CopyEntry) → Option (Nat × Task × CopyEntry)
  | [] => none
  | x :: l =>
    match firstCopy l with
    | none => some x
    | some y =>
      let a := remaining x.2.1.cq x.2.2
      let b := remaining y.2.1.cq y.2.2
      if a < b ∨ (a = b ∧ x.2.2.order ≤ y.2.2.order) then some x else some y

/-- The hedgerow check of every page an entry touches in G, and of every frame in K (R244); it leaves nothing behind. -/
def Dev.copyHedge (d : Dev) (task : Nat) (t : Task) (sp : Nat) (k : AccKind) (l : List (Nat × Nat)) : Bool :=
  let pages := (l.flatMap (fun r => if r.2 = 0 then [] else
    (List.range ((r.1 + r.2 - 1) / 65536 - r.1 / 65536 + 1)).map (fun i => r.1 / 65536 + i))).eraseDups
  pages.all (fun p => match (d.copyPlace task t k false sp (65536 * p)).2 with
    | .error 3 => false
    | _ => true)

/-- The entries that a cluster's channels may accept. -/
def Dev.waitingCopies (d : Dev) (cluster : Nat) : List (Nat × Task × CopyEntry) :=
  (d.tasks.filter (fun t => decide (clusterOf t.2.core = cluster))).flatMap (fun t =>
    (t.2.cq.entries.filter (d.acceptable t.2)).map (fun e => (t.1, t.2, e)))

/-- An entry as a channel accepts it: with its four words and its program, and the bytes it will write (R244, R248). A slot that nothing has loaded is an
empty program of world 0's (DESIGN CHOICE, log entry 119). -/
def Dev.acceptedEntry (d : Dev) (cluster chan task : Nat) (t : Task) (e : CopyEntry) : CopyEntry :=
  let ws := d.slotWords task t.cq e.n
  let c := CopyRec.of ws
  let p := Tab.get (0, List.replicate 8 0) (d.cluster cluster).layouts c.lpi
  let prog := if c.lp ∧ p.1 = (d.queue t.queue).world then p.2 else []
  let e1 := { e with words := some (ws ++ prog), chan := some (cluster, chan) }
  { e1 with total := match e1.steps.bind (fun st => c.shape st false c.rows c.cols) with
    | some (r, k) => c.total r k
    | none => 0 }

/-- A channel takes an entry: it carries it, and the entry's checks are made; one that fails ends with its code (R243, R244, R248). -/
def Dev.acceptCopy (d : Dev) (cluster chan task : Nat) (t : Task) (e : CopyEntry) : Dev :=
  let e2 := d.acceptedEntry cluster chan task t e
  let c := e2.rec_
  let x := d.extents t
  let d1 := (d.modCluster cluster (fun k => { k with chans := Tab.insert k.chans chan (task, e.n) })).modCopy task e.n (fun _ => e2)
  let dst := match e2.steps.bind (fun st => c.shape st false c.rows c.cols) with
    | some (r, k) => c.dstRanges r k ++ [(c.stampAt.toNat, 8)]
    | none => []
  match c.failCode e2.steps x.1 x.2 with
  | some f => d1.stampCopy cluster chan task t e2 f
  | none =>
    if d1.copyHedge task t c.sspace .read c.srcRanges && d1.copyHedge task t c.dspace .write dst then d1.wakeStalls
    else d1.stampCopy cluster chan task t e2 3

/-- COPY_ACCEPT (R243, R244, R248, R249): a free channel takes the entry with the least remaining slack, reads its four words and its program,
and checks it; an entry that fails a check ends with its code. -/
def execCopyAccept (cluster : Nat) (s : State) : Out :=
  match firstBelow (fun i => (Tab.find (s.dev.cluster cluster).chans i).isNone) 8, firstCopy (s.dev.waitingCopies cluster) with
  | some chan, some (task, t, e) => .next (s.modDev (fun d => d.acceptCopy cluster chan task t e))
  | _, _ => .next s

end Sys2Proof.Machine
end

