-- ==== Sys2Proof/Machine/Matrix.lean ====
section
/-! DEFINITION. The matrix words and what the matrix queue, the pair arbiter and the current ramps do (R47 to R49, R214 to R240). -/

namespace Sys2Proof.Machine

/-! ## Reservations and handles (R215 to R217) -/

/-- Fields of a reservation record (R215). -/
def Binding.fmt (b : Binding) : Nat := bits b.w0.toNat 61 58
def Binding.bl (b : Binding) : Nat := blockLen (bits b.w0.toNat 57 56)
def Binding.sparse (b : Binding) : Bool := decide (bits b.w0.toNat 55 54 = 1)
def Binding.va (b : Binding) : Nat := bits b.w0.toNat 53 0
def Binding.sofs (b : Binding) : Nat := bits b.w1.toNat 53 36
def Binding.rs (b : Binding) : Nat := bits b.w1.toNat 35 18
def Binding.cs (b : Binding) : Nat := bits b.w1.toNat 17 0
/-- Bytes of the reservation. -/
def Binding.size (b : Binding) : Nat := 256 * b.units
/-- Element size. -/
def Binding.es (b : Binding) : Nat := elemBytes b.fmt

/-- A malformed reservation record (R215); a len above the 1,024 units of its range is malformed too (DESIGN CHOICE, log entry 114). -/
def Binding.bad (b : Binding) : Bool :=
  let w0 := b.w0.toNat
  let blk := bits w0 57 56
  let cmp := bits w0 55 54
  decide (b.buf = 3) || decide (cmp ≥ 2) || decide (bits b.w1.toNat 63 54 ≠ 0)
    || (decide (b.buf ≠ 2) && (decide (bits w0 42 0 ≠ 0) || decide (b.units = 0) || decide (b.units > 1024)))
    || decide (b.fmt = 0 ∨ 5 < b.fmt) || (decide (b.fmt = 5) && decide (blk = 0)) || (decide (b.fmt ≤ 2) && decide (blk ≠ 0))
    || (decide (cmp ≠ 0) && decide (b.buf ≠ 1)) || (decide (cmp = 1) && decide (blk ≠ 0))
    || (decide (cmp = 1) && decide (b.rs % (2 * b.es) ≠ 0))

/-- A task's handle. -/
def Task.handle (t : Task) (h : Nat) : Option Binding := Tab.find t.handles h

/-- The task that issues, if there is one. -/
def State.task? (s : State) : Option Task := s.dev.task? s.taskId

/-- Shape record fields (R220). -/
structure Shape where
  m : Nat
  n : Nat
  k : Nat
  ai : Nat
  ak : Nat
  ab : Nat
  ars : Nat
  acs : Nat
  bj : Nat
  bk : Nat
  bb : Nat
  brs : Nat
  bcs : Nat
  deriving DecidableEq, Repr

/-- A shape record's four words as a shape. -/
def shapeOf (ws : List W64) : Shape :=
  let w0 := (ws.getD 0 0).toNat
  let w1 := (ws.getD 1 0).toNat
  let w2 := (ws.getD 2 0).toNat
  { m := 8 * (bits w0 2 0 + 1), n := 8 * (bits w0 6 3 + 1), k := 8 * (bits w0 9 7 + 1), ai := bits w1 63 52, ak := bits w1 51 40,
    ab := bits w1 39 36, ars := bits w1 35 18, acs := bits w1 17 0, bj := bits w2 63 52, bk := bits w2 51 40, bb := bits w2 39 36,
    brs := bits w2 35 18, bcs := bits w2 17 0 }

/-- Where a word finds its operand's element (o, q) in a reservation, from the base, with overrides (R218). -/
def elemAt (b : Binding) (ors ocs adj o q : Nat) : Nat :=
  o * (if ors = 0 then b.rs else ors) + q * (if ocs = 0 then b.cs else ocs) + adj

/-- The scale byte of element (o, q) (R218), always by the reservation's own strides. -/
def scaleAt (b : Binding) (o q : Nat) : Nat := b.sofs + o * b.rs / b.bl + q / b.bl

/-- The value slot s and the metadata byte of group g in a 2:4 reservation (R219). -/
def slotAt (b : Binding) (o g s : Nat) : Nat := o * b.rs + (2 * g + s) * b.es
def metaAt (b : Binding) (o g : Nat) : Nat := b.sofs + o * b.rs / (2 * b.es) + g

/-! ## Names of entries (R222) -/

/-- Tiles an entry names. -/
def MxKind.tiles (k : MxKind) (shape : Nat → Option Shape) : List Nat :=
  match k with
  | .mma t _ _ _ _ _ sh _ => match shape sh with
    | some x => if 64 < x.n then [t, t + 1] else [t]
    | none => [t]
  | .mzero t => [t]
  | .mtld t _ _ _ => [t]
  | .mtst t _ _ _ => [t]
  | .mtrv _ t _ _ => [t]
  | .mtwv t _ _ _ => [t]
  | _ => []

/-- Handles an entry names. -/
def MxKind.handles : MxKind → List Nat
  | .mma _ a b _ _ _ _ r => if r = 0 then [a, b] else [a, b, r]
  | .mlda h _ _ _ => [h]
  | .mldb h _ _ _ _ _ => [h]
  | _ => []

/-- Shape records an entry names. -/
def MxKind.shapes : MxKind → List Nat
  | .mma _ _ _ _ _ _ sh _ => [sh]
  | _ => []

/-- Whether an entry is an MMA. -/
def MxKind.isMma : MxKind → Bool
  | .mma _ _ _ _ _ _ _ _ => true
  | _ => false

/-- A task's shape record, if it is set. -/
def Dev.shape (d : Dev) (task sh : Nat) : Option Shape :=
  match d.task? task with
  | some t => (Tab.find t.shapes sh).map shapeOf
  | none => none

/-- Tiles an entry names. -/
def Dev.entryTiles (d : Dev) (e : MxEntry) : List Nat := e.kind.tiles (d.shape e.task)

/-- Whether two lists of numbers share one. -/
def share (a b : List Nat) : Bool := a.any (fun x => b.contains x)

/-- Whether an entry must wait for an older one: same task, a tile or handle in common. -/
def Dev.mxConflict (d : Dev) (old e : MxEntry) : Bool :=
  decide (old.task = e.task) && (share (d.entryTiles old) (d.entryTiles e) || share old.kind.handles e.kind.handles)

/-- Whether an MMA has ended its occupancy and waits to retire: what it made stands in its entry (R225). -/
def MxEntry.made (e : MxEntry) : Bool := e.kind.isMma && e.occEnd.isSome && !e.result.isEmpty

/-- Whether an entry may start (R222): no older entry of its workgroup that names one of its tiles or handles is left. One that chains on the MMA that has just
ended its occupancy does not wait for MMAs on the same tiles that wait only to retire (R226). -/
def Dev.mayStart (d : Dev) (core : Nat) (e : MxEntry) (chain : Option MxEntry) : Bool :=
  let tiles := d.entryTiles e
  let chains := match chain with
    | some c => decide (c.task = e.task ∧ d.entryTiles c = tiles)
    | none => false
  e.started.isNone && e.parked.isNone &&
    (d.core core).mq.all (fun o => decide (e.id ≤ o.id) || (chains && o.made && decide (d.entryTiles o = tiles)) || !d.mxConflict o e)

/-- The MMA a core presents to its arbiter: the earliest that may start (R222). -/
def Dev.mmaRequest (d : Dev) (core : Nat) (chain : Option MxEntry) : Option MxEntry :=
  (d.core core).mq.find? (fun e => e.kind.isMma && d.mayStart core e chain)

/-- Changing an entry. -/
def Dev.modEntry (d : Dev) (core id : Nat) (f : MxEntry → MxEntry) : Dev :=
  d.modCore core (fun k => { k with mq := k.mq.map (fun e => if e.id = id then f e else e) })

/-- An entry. -/
def Dev.entry? (d : Dev) (core id : Nat) : Option MxEntry := (d.core core).mq.find? (fun e => decide (e.id = id))

/-- The requests of a pair's two cores marked with the cycle at which each was first raised. -/
def Dev.markRequests (d : Dev) (pair : Nat) : Dev :=
  [2 * pair, 2 * pair + 1].foldl (fun d c =>
    match d.mmaRequest c none with
    | some e => if e.reqAt.isNone then d.modEntry c e.id (fun e => { e with reqAt := some (d.now (clusterOf c)), probed := false }) else d
    | none => d) d

/-! ## Ramps (R233 to R236) -/

/-- The first 4-cycle window at or after a cycle that a cluster has not given to a ramp (R235); windows count from the cycle base (R372). -/
def firstWindow (taken : List Nat) (base c : Nat) : Nat :=
  let w := base + (c - base + 3) / 4 * 4
  match firstBelow (fun i => !taken.contains (w + 4 * i)) (taken.length + 1) with
  | some i => w + 4 * i
  | none => w

/-- Whether a pair awaits a ramp grant. -/
def Pair.awaits (x : Pair) : Bool := decide (x.st = .awaitUp ∨ x.st = .awaitDown)

/-- A ramp request raised by a pair in a cycle: the requests of that cycle take the free windows in ascending pair number (R235). -/
def Dev.requestRamp (d : Dev) (p c : Nat) (st : ArrayState) : Dev :=
  let cl := clusterOfPair p
  let d1 := d.modPair p (fun x => { x with st := st, since := c, window := none })
  let same := (pairsOf cl).filter (fun q => (d1.pair q).awaits && decide ((d1.pair q).since = c))
  let mine := same.filterMap (fun q => (d1.pair q).window)
  let taken := (d1.cluster cl).windows.filter (fun w => !mine.contains w)
  let r := same.foldl (fun (a : Dev × List Nat) q =>
    let w := firstWindow a.2 (d.cluster cl).base c
    (a.1.modPair q (fun x => { x with window := some w }), w :: a.2)) (d1, taken)
  r.1.modCluster cl (fun k => { k with windows := r.2 })

/-- A pair gives back a window it no longer needs (R235). -/
def Dev.releaseWindow (d : Dev) (p : Nat) : Dev :=
  match (d.pair p).window with
  | some w => (d.modPair p (fun x => { x with window := none })).modCluster (clusterOfPair p) (fun k =>
      { k with windows := k.windows.filter (fun v => decide (v ≠ w)) })
  | none => d

/-- Cycles an MMA occupies the array (R225). -/
def occupancy (fmt k : Nat) : Nat :=
  match fmt with
  | 1 => k
  | 2 => k
  | 5 => k / 4
  | _ => k / 2

/-! ## Fetching source bytes -/

/-- Pieces of a byte range of a generic address, none across a 16-byte boundary; lane is a group number. -/
def rangePieces (group addr n : Nat) : List (Nat × Nat × Nat) :=
  if n = 0 then []
  else (List.range ((addr + n - 1) / 16 - addr / 16 + 1)).map (fun i =>
    let a := max addr ((addr / 16 + i) * 16)
    (group, a, min (addr + n) ((addr / 16 + i + 1) * 16) - a))

/-- The place of a generic address for a task on a core, with its walk; level failures were raised at issue. -/
def Dev.placeOf (d : Dev) (core task : Nat) (k : AccKind) (addr : Nat) : Dev × Except XFault Loc :=
  let gang := match d.task? task with
    | some t => t.gang
    | none => 0
  let q := match d.task? task with
    | some t => t.queue
    | none => 0
  match genericDecode addr with
  | some (.s, off) => (d, .ok { sp := .smem, own := task, a := off })
  | some (.c, off) => (d, .ok { sp := .cmem, own := gang, a := off })
  | some (.k, off) => if d.hedgeK off (d.core core).world then (d, .ok { sp := .kmem, own := 0, a := off }) else (d, .error .hedge)
  | some (.g, off) =>
    let r := d.translate (d.xctx core q false false) k off
    (r.dev, r.out.map (fun p => p.loc))
  | _ => (d, .error .hedge)

/-- Parts for pieces of a source or a destination, in order; or the first failure with its address. -/
def Dev.partsFor (d : Dev) (core task : Nat) (k : AccKind) : List (Nat × Nat × Nat) → Dev × Except (XFault × Nat) (List LanePart)
  | [] => (d, .ok [])
  | (g, a, n) :: l =>
    match d.placeOf core task k a with
    | (d1, .error f) => (d1, .error (f, a))
    | (d1, .ok loc) =>
      let p : LanePart := { lane := g, loc := loc, addr := a, n := n, data := 0, done := !loc.isRemote }
      match d1.partsFor core task k l with
      | (d2, .error f) => (d2, .error f)
      | (d2, .ok ps) => (d2, .ok (p :: ps))

/-- A byte that an operation's parts cover, at a source address: the reply's for a remote part, else as the entry's group sees it. -/
def Dev.partByte (d : Dev) (n : Nat) (o : Op) (addr : Nat) : Byte :=
  match o.parts.find? (fun p => decide (p.addr ≤ addr ∧ addr < p.addr + p.n)) with
  | some p =>
    if p.loc.isRemote then BitVec.ofNat 8 (p.data.toNat / 256 ^ (addr - p.addr))
    else d.seenByte o.core o.slot o.task n (p.loc.plus (addr - p.addr))
  | none => 0

/-- The number in some bytes of an operation's source. -/
def Dev.partNat (d : Dev) (n : Nat) (o : Op) (addr len : Nat) : Nat :=
  Bytes.toNat ((List.range len).map (fun i => d.partByte n o (addr + i)))

/-- Sending the remote parts of an operation that are not done, of one group at least. -/
def Dev.fetchParts (d : Dev) (n : Nat) : Dev :=
  match d.op? n with
  | some o => d.sendParts n 0 o.parts
  | none => d

/-! ## Ending entries -/

/-- Exception counters with flags added for some elements: NV, OF, UF, NX of 16 bits and PRUNE of 32 bits, all saturating (R214, R232). -/
def addCounts (mxc : List Nat) (nv of_ uf nx prune : Nat) : List Nat :=
  [min (mxc.getD 0 0 + nv) 65535, min (mxc.getD 1 0 + of_) 65535, min (mxc.getD 2 0 + uf) 65535, min (mxc.getD 3 0 + nx) 65535,
   min (mxc.getD 4 0 + prune) (2 ^ 32 - 1)]

/-- Counting elements by the flags each raised (R49). -/
def countMarks (mxc : List Nat) (marks : List Flags) (prune : Nat) : List Nat :=
  let n (f : Flags) : Nat := (marks.filter (fun m => decide (m &&& f ≠ 0))).length
  addCounts mxc (n flagNV) (n flagOF) (n flagUF) (n flagNX) prune

/-- An entry leaves the queue and its CT count ends; what waited for it may go on (R222). -/
def Dev.dropEntry (d : Dev) (core id op : Nat) (bad : Option TrapRec) : Dev :=
  (((d.modCore core (fun k => { k with mq := k.mq.filter (fun e => decide (e.id ≠ id)) })).endOp op bad).markRequests (core / 2)).wakeStalls

/-- A failed translation of an entry's operand: the entry ends and a covering WAITC traps (R229, R230). -/
def XFault.record (f : XFault) (o : Op) (k : AccKind) (addr : Nat) : TrapRec :=
  let i := f.info k addr 0
  { o.failure i.cause addr 0 with sub := i.sub, kind := i.kind }

/-- Elements written into a task's tiles. -/
def Dev.writeTiles (d : Dev) (task : Nat) (l : Tab W32) : Dev :=
  d.modTask task (fun t => { t with tiles := l.foldl (fun ts x => Tab.set 0 ts x.1 x.2) t.tiles })

/-- What an MMA has accumulated is written to its tiles; older ones on them that wait to retire write the same there (R226). -/
def Dev.writeResult (d : Dev) (core : Nat) (e : MxEntry) : Dev :=
  (d.writeTiles e.task e.result).modCore core (fun k => { k with mq := k.mq.map (fun o =>
    if o.task = e.task ∧ o.id < e.id then { o with result := Tab.mapV o.result (fun k v => (Tab.find e.result k).getD v) } else o) })

/-- An array that stays at full activity with nothing to do holds, for 256 cycles after a hint and else for 16 (R234, R236). -/
def Pair.holds (p : Pair) (now : Nat) : Pair :=
  { p with st := .holding, since := now, holdLimit := if p.hinted then 256 else 16, hinted := false }

/-- An array that the MMA it was given to leaves before it is through (R228, R229). -/
def Pair.released (p : Pair) (now : Nat) : Pair :=
  let x := { p with owner := none }
  if p.st = .hot then x.holds now else x

/-- An entry that ends without its effect: the groups it had completed stand in its tiles and count (R229). -/
def Dev.failEntry (d0 : Dev) (core : Nat) (e : MxEntry) (r : TrapRec) : Dev :=
  let d := d0.writeResult core e
  let d1 := d.modTask e.task (fun t => { t with mxc := countMarks t.mxc (e.marks.map (fun m => BitVec.ofNat 5 m.2)) 0 })
  let d2 := if (d1.pair (core / 2)).owner = some (core, e.id) then
      d1.modPair (core / 2) (fun p => p.released (d.now (clusterOf core)))
    else d1
  d2.dropEntry core e.id e.op (some r)

/-! ## The arithmetic of MMA (R47 to R49, R218, R219, R224) -/

/-- A byte of a reservation: the operand buffer for A, the weight buffer for B. -/
def Core.bufByte (k : Core) (b : Binding) (off : Nat) : Nat :=
  (Memory.read (if b.buf = 0 then k.opBuf else k.wBuf) (b.base + off)).toNat
/-- An element's code in a reservation. -/
def Core.bufElem (k : Core) (b : Binding) (off : Nat) : Nat :=
  if b.es = 2 then k.bufByte b off + 256 * k.bufByte b (off + 1) else k.bufByte b off

/-- An operand element: its code, its block's scale, and whether its metadata is invalid (R218, R219). -/
structure Elem where
  code : Nat
  scale : Nat
  bad : Bool
  zero : Bool
  deriving DecidableEq, Repr

/-- Element (o, q) of an operand. -/
def Core.elem (k : Core) (b : Binding) (ors ocs adj o q : Nat) : Elem :=
  if b.sparse then
    let g := q / 4
    let m := k.bufByte b (metaAt b o g)
    let p0 := bits m 1 0
    let p1 := bits m 3 2
    if p1 ≤ p0 ∨ bits m 7 4 ≠ 0 then { code := 0, scale := 127, bad := true, zero := true }
    else if q % 4 = p0 then { code := k.bufElem b (slotAt b o g 0), scale := 127, bad := false, zero := false }
    else if q % 4 = p1 then { code := k.bufElem b (slotAt b o g 1), scale := 127, bad := false, zero := false }
    else { code := 0, scale := 127, bad := false, zero := true }
  else
    { code := k.bufElem b (elemAt b ors ocs adj o q), scale := if b.bl = 0 then 127 else k.bufByte b (scaleAt b o q), bad := false,
      zero := false }

/-- The value of an element with its scale (R45). -/
def Elem.value (e : Elem) (f : Nat) : XReal :=
  if e.zero then .fin false 0 0 false else rescale e.scale (elemValue f e.code)

/-- The group size of R47. -/
def groupSize (f bl : Nat) : Nat := match f with | 1 => 8 | 2 => 8 | 5 => bl | _ => 16

/-- One group's sum rounded to F32, with its flags (R44, R47, R48). -/
def groupSum (fa fb : Nat) (neg : Bool) (l : List (Elem × Elem)) : Nat × Flags :=
  if fa = 5 then
    let acc := (l.map (fun p => l6Term p.1.code p.2.code)).foldl (· + ·) 0
    let sA := match l with | p :: _ => p.1.scale | [] => 127
    let sB := match l with | p :: _ => p.2.scale | [] => 127
    let r := roundF32 (l6Sum sA sB (if neg then -acc else acc))
    (r.code, r.flags)
  else
    let prods := l.map (fun p =>
      let m := xmul (p.1.value fa) (p.2.value fb)
      (if neg then m.1.neg else m.1, m.2))
    let sm := xsum .rne (prods.map Prod.fst)
    let r := roundF32 sm.1
    (r.code, r.flags ||| Flags.when (sm.2 || prods.any Prod.snd) flagNV)

/-- Groups added to an accumulator in ascending k (R47). -/
def addGroups (acc : Nat) (fl : Flags) : List (Nat × Flags) → Nat × Flags
  | [] => (acc, fl)
  | g :: l =>
    let sm := xsum .rne [Fmt.f32.decode acc, Fmt.f32.decode g.1]
    let r := roundF32 sm.1
    addGroups r.code (fl ||| g.2 ||| r.flags ||| Flags.when sm.2 flagNV) l

/-- An MMA's operands as bound. -/
structure MmaOps where
  t : Nat
  a : Binding
  b : Binding
  neg : Bool
  nacc : Bool
  sh : Shape
  r : Option Binding
  deriving DecidableEq, Repr

/-- The operands an MMA entry names, if they are still bound. -/
def Dev.mmaOps (d : Dev) (task : Nat) (k : MxKind) : Option MmaOps :=
  match k, d.task? task with
  | .mma t a b na nb nacc sh r, some x =>
    match x.handle a, x.handle b, Tab.find x.shapes sh with
    | some ba, some bb, some ws =>
      some { t := t, a := ba, b := bb, neg := na != nb, nacc := nacc, sh := shapeOf ws, r := if r = 0 then none else x.handle r }
    | _, _, _ => none
  | _, _ => none

/-- The number of groups of an MMA. -/
def MmaOps.groups (m : MmaOps) : Nat := let g := groupSize m.b.fmt m.b.bl; (m.sh.k + g - 1) / g

/-- The tile and element number of an output element. -/
def MmaOps.out (m : MmaOps) (i j : Nat) : Nat := 4096 * (if j < 64 then m.t else m.t + 1) + 64 * i + j % 64

/-- What a tile element holds for an entry: what it made of it before it parked, or what the latest earlier entry it chains on has made of it, else the tile
(R226, R228). -/
def Dev.tileSees (d : Dev) (core : Nat) (e : MxEntry) (k : Nat) : W32 :=
  let earlier := ((d.core core).mq.filter (fun o => decide (o.task = e.task ∧ o.id < e.id))).reverse
  match (e :: earlier).findSome? (fun o => Tab.find o.result k) with
  | some x => x
  | none => match d.task? e.task with
    | some t => Tab.get 0 t.tiles k
    | none => 0

/-- One output element after groups g0 up to g1: its value and flags. -/
def Dev.mmaElem (d : Dev) (core : Nat) (e : MxEntry) (m : MmaOps) (g0 g1 i j : Nat) : W32 × Flags :=
  let gs := groupSize m.b.fmt m.b.bl
  let k := d.core core
  let one (g : Nat) : Nat × Flags :=
    let qs := (List.range (min m.sh.k ((g + 1) * gs) - g * gs)).map (fun x => g * gs + x)
    let l := qs.map (fun q =>
      (k.elem m.a m.sh.ars m.sh.acs m.sh.ab (m.sh.ai + i) (m.sh.ak + q), k.elem m.b m.sh.brs m.sh.bcs m.sh.bb (m.sh.bj + j) (m.sh.bk + q)))
    let r := groupSum m.a.fmt m.b.fmt m.neg l
    (r.1, r.2 ||| Flags.when (l.any (fun p => p.2.bad)) flagNV)
  let start : Nat := if m.nacc ∧ g0 = 0 then 0x80000000 else (d.tileSees core e (m.out i j)).toNat
  let r := addGroups start 0 ((List.range (g1 - g0)).map (fun x => one (g0 + x)))
  (BitVec.ofNat 32 r.1, r.2)

/-- All output elements after groups g0 up to g1, by tile element, with their flags joined to those of groups done before. -/
def Dev.mmaRun (d : Dev) (core : Nat) (e : MxEntry) (m : MmaOps) (g0 g1 : Nat) : Tab W32 × Tab Nat :=
  let cells := (List.range m.sh.m).flatMap (fun i => (List.range m.sh.n).map (fun j => (i, j)))
  let rs := cells.map (fun c => (m.out c.1 c.2, d.mmaElem core e m g0 g1 c.1 c.2))
  (rs.foldl (fun t r => Tab.insert t r.1 r.2.1) [],
   rs.foldl (fun t r =>
     let old := Tab.get 0 e.marks r.1
     Tab.set 0 t r.1 ((BitVec.ofNat 5 old ||| r.2.2).toNat)) [])

/-! ## Remote B (R228) -/

/-- The pieces of B that group g of an MMA fetches: from the peer address, which wraps at 2^54 (DESIGN CHOICE, log entry 115), to the offset in the local
reservation. -/
def MmaOps.remotePieces (m : MmaOps) (r : Binding) (g : Nat) : List (Nat × Nat × Nat) :=
  let gs := groupSize m.b.fmt m.b.bl
  let qs := (List.range (min m.sh.k ((g + 1) * gs) - g * gs)).map (fun x => m.sh.bk + g * gs + x)
  let js := (List.range m.sh.n).map (fun j => m.sh.bj + j)
  let elems := js.flatMap (fun j => qs.map (fun q => (elemAt r 0 0 m.sh.bb j q, elemAt m.b m.sh.brs m.sh.bcs m.sh.bb j q, m.b.es)))
  let scales := if m.b.bl = 0 then []
    else js.flatMap (fun j => ((qs.map (fun q => (scaleAt r j q, scaleAt m.b j q, 1))).eraseDups))
  (elems ++ scales).map (fun x => ((r.va + x.1) % 2 ^ 54, x.2.1, x.2.2))

/-- The parts of an MMA's remote fetch, from a group on; addr is the offset in the local reservation, lane the group. -/
def Dev.remoteParts (d : Dev) (core task : Nat) (g : Nat) : List (Nat × Nat × Nat) → Dev × Except (XFault × Nat) (List LanePart)
  | [] => (d, .ok [])
  | (va, off, n) :: l =>
    match d.placeOf core task .read va with
    | (d1, .error f) => (d1, .error (f, va))
    | (d1, .ok loc) =>
      let data := if loc.isRemote then 0 else BitVec.ofNat 128 (((d1.reportRaw loc n).serveLines core loc n).readNat loc n)
      let p : LanePart := { lane := g, loc := loc, addr := off, n := n, data := data, done := !loc.isRemote }
      match d1.remoteParts core task g l with
      | (d2, .error f) => (d2, .error f)
      | (d2, .ok ps) => (d2, .ok (p :: ps))

/-- The parts of every group of an MMA from g on, n groups. -/
def Dev.remoteAll (d : Dev) (core task : Nat) (m : MmaOps) (r : Binding) (g : Nat) : Nat → Dev × Except (XFault × Nat) (List LanePart)
  | 0 => (d, .ok [])
  | n + 1 =>
    match d.remoteParts core task g (m.remotePieces r g) with
    | (d1, .error f) => (d1, .error f)
    | (d1, .ok ps) =>
      match d1.remoteAll core task m r (g + 1) n with
      | (d2, .error f) => (d2, .error f)
      | (d2, .ok qs) => (d2, .ok (ps ++ qs))

/-- The fetched bytes of some groups written into the weight buffer (R228). -/
def Dev.fillB (d : Dev) (core : Nat) (b : Binding) (ps : List LanePart) : Dev :=
  d.modCore core (fun k => { k with wBuf := ps.foldl (fun m p => Memory.writeL m (b.base + p.addr) (Bytes.ofNat p.n p.data.toNat)) k.wBuf })

/-! ## Starting, ending and retiring MMAs (R225 to R229) -/

/-- An MMA whose fetch has been ticketed parks (R228): the groups whose bytes are there are added, the array is released, and what it had still asked for is
asked for again after the park. -/
def Dev.parkMma (d : Dev) (core : Nat) (e : MxEntry) (tkt : BitVec 32) : Dev :=
  match d.mmaOps e.task e.kind, d.op? e.op with
  | some m, some o =>
    let open_ := (o.parts.filter (fun p => !p.done)).map (fun p => p.lane)
    let g1 := open_.foldl min m.groups
    let d0 := { d with requests := Tab.keep d.requests (fun _ r => decide (r.op ≠ e.op)) }
    let d1 := d0.fillB core m.b (o.parts.filter (fun p => decide (p.lane < g1)))
    let r := d1.mmaRun core e m e.kGroup g1
    let d2 := d1.modEntry core e.id (fun e =>
      { e with
        started := none, occEnd := none, reqAt := none, kGroup := g1, parked := some tkt
        result := if g1 = e.kGroup then e.result else r.1, marks := if g1 = e.kGroup then e.marks else r.2 })
    if (d2.pair (core / 2)).owner = some (core, e.id) then
      (d2.modPair (core / 2) (fun p => p.released (d.now (clusterOf core)))).markRequests (core / 2)
    else d2.markRequests (core / 2)
  | _, _ => d

/-- The fetches of an MMA go out; one that finds its page's ticket open parks at once (R228, R286). -/
def Dev.fetchMma (d : Dev) (core id : Nat) : Dev :=
  match d.entry? core id with
  | none => d
  | some e =>
    let d1 := d.fetchParts e.op
    match d1.op? e.op with
    | some { st := .ticketed tkt, .. } => d1.parkMma core e tkt
    | _ => d1

/-- An MMA starts to occupy the array at a cycle (R225); with a remote B its fetches go out (R228). -/
def Dev.startMma (d : Dev) (core id cycle : Nat) : Dev :=
  match d.entry? core id with
  | none => d
  | some e =>
    match d.mmaOps e.task e.kind with
    | none => d
    | some m =>
      let left := (m.sh.k - e.kGroup * groupSize m.b.fmt m.b.bl)
      let d1 := d.modEntry core id (fun e => { e with started := some cycle, occEnd := some (cycle + occupancy m.b.fmt left) })
      match m.r with
      | none => d1
      | some r =>
        match d1.remoteAll core e.task m r e.kGroup (m.groups - e.kGroup) with
        | (d2, .error (f, a)) =>
          match d2.op? e.op with
          | some o => d2.failEntry core e (f.record o .read a)
          | none => d2
        | (d2, .ok ps) => (d2.modOp e.op (fun o => { o with parts := ps, scope := 4 })).fetchMma core id

/-- The array given to an MMA at a cycle: what its state makes of it (R234). -/
def Dev.giveArray (d : Dev) (pair core id cycle : Nat) : Dev :=
  let p := d.pair pair
  let d1 := d.modPair pair (fun p => { p with owner := some (core, id), lastCore := some (core % 2) })
  match p.st with
  | .cold => d1.requestRamp pair cycle .awaitUp
  | .holding => (d1.modPair pair (fun p => { p with st := .hot })).startMma core id (cycle + 1)
  | .awaitDown => ((d1.releaseWindow pair).modPair pair (fun p => { p with st := .hot })).startMma core id (cycle + 1)
  | _ => d1

/-- Which of a pair's waiting requests the arbiter grants: the one that came first; of two of one cycle, the core not granted last (R227). -/
def Dev.arbitrate (d : Dev) (pair : Nat) : Option (Nat × MxEntry) :=
  let rq (c : Nat) : Option (Nat × MxEntry) := (d.mmaRequest c none).map (fun e => (c, e))
  match rq (2 * pair), rq (2 * pair + 1) with
  | some a, some b =>
    let ta := a.2.reqAt.getD (d.now (clusterOfPair pair))
    let tb := b.2.reqAt.getD (d.now (clusterOfPair pair))
    if ta < tb then some a else if tb < ta then some b else if (d.pair pair).lastCore = some 0 then some b else some a
  | some a, none => some a
  | none, b => b

/-- PAIR_ARBITER_GRANT (R227, R234): a free array is granted to a waiting MMA. -/
def execPairArbiterGrant (pair : Nat) (s : State) : Out :=
  let d := s.dev
  let p := d.pair pair
  if p.owner.isSome then .next s
  else match d.arbitrate pair with
    | none => .next s
    | some (c, e) => .next { s with dev := d.giveArray pair c e.id (d.now (clusterOf c)) }

/-- Which MMA a pair's array goes to as an occupancy ends (R226, R227): the arbiter's choice; a core's chain goes on only if the other core has no request
waiting. -/
def Dev.nextMma (d : Dev) (pair core : Nat) (last : MxEntry) : Option (Nat × MxEntry) :=
  let other := if core % 2 = 0 then core + 1 else core - 1
  match d.mmaRequest core (some last) with
  | none => (d.mmaRequest other none).map (fun x => (other, x))
  | some x =>
    if d.mayStart core x none then d.arbitrate pair
    else match d.mmaRequest other none with
      | some y => some (other, y)
      | none => some (core, x)

/-- MMA_OCCUPANCY_END (R225 to R228): the elements are made, and the array goes to the next MMA, or holds. -/
def execMmaOccupancyEnd (pair : Nat) (s : State) : Out :=
  let d := s.dev
  match (d.pair pair).owner with
  | none => .next s
  | some (c, id) =>
    match d.entry? c id with
    | none => .next s
    | some e =>
      match d.mmaOps e.task e.kind, e.occEnd, d.op? e.op with
      | some m, some z, some o =>
        if d.now (clusterOf c) < z ∨ !o.parts.all (fun p => p.done) ∨ o.st ≠ .going then .next s
        else
          let d1 := ((d.fillB c m.b o.parts).meetBuf c false m.a.base m.a.size).meetBuf c true m.b.base m.b.size
          let r := d1.mmaRun c e m e.kGroup m.groups
          let e1 : MxEntry := { e with result := r.1, marks := r.2, kGroup := m.groups }
          let d2 := (d1.modEntry c id (fun _ => e1)).modPair pair (fun p => { p with owner := none })
          match d2.nextMma pair c e1 with
          | some (c2, x) =>
            .next { s with dev := (d2.modPair pair (fun p => { p with owner := some (c2, x.id), lastCore := some (c2 % 2) })).startMma c2 x.id z }
          | none => .next { s with dev := d2.modPair pair (fun p => p.holds z) }
      | _, _, _ => .next s

/-- MMA_RETIRE (R225): 12 cycles after its last occupied one an MMA's elements are written and counted, and its CT count ends. -/
def execMmaRetire (core entry : Nat) (s : State) : Out :=
  match s.dev.entry? core entry with
  | none => .next s
  | some e =>
    match s.dev.mmaOps e.task e.kind, e.occEnd with
    | some m, some z =>
      if !e.made ∨ e.kGroup < m.groups ∨ s.dev.now (clusterOf core) < z + 11 then .next s
      else
        let d1 := (s.dev.writeResult core e).modTask e.task (fun t =>
          { t with mxc := countMarks t.mxc (e.marks.map (fun x => BitVec.ofNat 5 x.2)) 0 })
        .next { s with dev := d1.dropEntry core entry e.op none }
    | _, _ => .next s

/-- HINT_REQUEST_TIME (R236): a hint's time has come; on a cold array it raises a ramp-up request. -/
def execHintRequestTime (pair : Nat) (s : State) : Out :=
  let p := s.dev.pair pair
  match p.hint with
  | none => .next s
  | some c =>
    if s.dev.now (clusterOfPair pair) < c then .next s
    else
      let d1 := s.dev.modPair pair (fun p => { p with hint := none })
      .next { s with dev := if p.st = .cold then (d1.modPair pair (fun p => { p with hinted := true })).requestRamp pair c .awaitUp else d1 }

/-- SLEW_WINDOW_BEGIN (R233, R235, R372): a pair of the cluster whose window has come begins its ramp, but none in a drain window. -/
def execSlewWindowBegin (cluster : Nat) (s : State) : Out :=
  let d := s.dev
  let due := (pairsOf cluster).find? (fun q => match (d.pair q).window with
    | some w => (d.pair q).awaits && decide (w ≤ d.now cluster)
    | none => false)
  match due with
  | none => .next s
  | some q =>
    if (d.cluster cluster).drain.isSome ∨ (d.cluster cluster).settling.isSome then .next s else
    let up := decide ((d.pair q).st = .awaitUp)
    .next { s with dev := d.modPair q (fun p => { p with
      st := if up then .rampUp else .rampDown
      since := p.window.getD 0
      window := none
      level := if up then min 8 (p.level + 1) else p.level - 1
      ramps := (p.ramps + 1) % 2 ^ 32 }) }

/-- RAMP_STEP_END (R233, R234): a step of 4 cycles ends; the last one of a ramp up starts the granted MMA or holds, the last of a ramp down leaves
the array cold, and a grant during a ramp down turns it into a new request. -/
def execRampStepEnd (pair : Nat) (s : State) : Out :=
  let d := s.dev
  let p := d.pair pair
  let z := p.since + 4
  if d.now (clusterOfPair pair) < z then .next s
  else match p.st with
    | .rampUp =>
      if p.level < 8 then .next { s with dev := d.modPair pair (fun p => { p with level := p.level + 1, since := z }) }
      else match p.owner with
        | some (c, id) => .next { s with dev := (d.modPair pair (fun p => { p with st := .hot, since := z, hinted := false })).startMma c id z }
        | none => .next { s with dev := d.modPair pair (fun p => p.holds z) }
    | .rampDown =>
      if p.owner.isSome then .next { s with dev := d.requestRamp pair z .awaitUp }
      else if 0 < p.level then .next { s with dev := d.modPair pair (fun p => { p with level := p.level - 1, since := z }) }
      else .next { s with dev := d.modPair pair (fun p => { p with st := .cold, since := z }) }
    | _ => .next s

/-- HOLD_EXPIRY (R234): a hold that has lasted its cycles asks for a ramp down. -/
def execHoldExpiry (pair : Nat) (s : State) : Out :=
  let p := s.dev.pair pair
  let z := p.since + p.holdLimit
  if p.st ≠ .holding ∨ s.dev.now (clusterOfPair pair) < z then .next s
  else .next { s with dev := s.dev.requestRamp pair z .awaitDown }

/-! ## Issuing queue entries (R222, R223, R230, R231) -/

/-- Whether some queued or parked entry of the issuing task names a handle or a shape record (R216, R217, R221). -/
def State.mxNames (s : State) (p : MxKind → Bool) : Bool :=
  (s.dev.core s.iss.core).mq.any (fun e => decide (e.task = s.taskId) && p e.kind)

/-- A matrix-operand trap (R223). -/
def State.mxTrap (s : State) : State := s.takeTrap (TrapInfo.plain 0x0C)

/-- A checked entry joins the queue: sets its ranges of G touch are settled, a full queue or counter stalls (R202, R222). -/
def State.enqueue (s : State) (k : MxKind) (ranges : List (Nat × Nat)) (irr : Bool) (regs : List RegName) : State :=
  match s.settleSets ranges irr with
  | .inr s1 => s1
  | .inl s1 =>
    let c := s.iss.core
    if (s1.dev.core c).mxFull ∨ s1.mustStall .ct false then s1.stall .stallEngine id
    else
      let id := s1.dev.nextEntry
      let op := s1.dev.nextOp
      let e : MxEntry :=
        { id := id, task := s.taskId, slot := s.iss.slot, kind := k, op := op, reqAt := none, probed := false, started := none, kGroup := 0, parked := none,
          occEnd := none, result := [], marks := [] }
      (s1.newOp .ct (.tile c id) [] 3 regs .going).modDev (fun d =>
        ({ (d.modCore c (fun x => { x with mq := x.mq ++ [e] })) with nextEntry := id + 1 }).markRequests (c / 2))

/-- Window, bounds, frames and alignment of rows of bytes, each its offset from a generic address and its length; G, S, C and K only (R148, R230, R231).
The extent of an MTLD or MTST must lie within K too (whole); of another word's, a row past it has left the window. -/
def State.spanCheck (s : State) (k : AccKind) (a : Nat) (rows : List (Nat × Nat)) (align : Nat) (whole : Bool) : Option TrapInfo :=
  let lane := lowLane s.iss.mask
  let c := s.iss.core
  let n := (rows.map (fun r => r.1 + r.2)).foldl max 0
  let al (off : Nat) : Option TrapInfo := if off % align = 0 then none else some (checkInfo 0x08 k a lane)
  match genericDecode a with
  | none => some (checkInfo 0x05 k a lane)
  | some (lv, off) =>
    match lv with
    | .p => some (checkInfo 0x05 k a lane)
    | .s => if off + n > s.dev.extent c s.iss.slot .s then some (checkInfo 0x06 k a lane) else al off
    | .c => if off + n > s.dev.extent c s.iss.slot .c then some (checkInfo 0x06 k a lane) else al off
    | .k =>
      if off + n > 2 ^ 27 then some (checkInfo (if whole then 0x06 else 0x05) k a lane)
      else if rows.any (fun r => decide (0 < r.2) && (List.range ((off + r.1 + r.2 - 1) / 65536 - (off + r.1) / 65536 + 1)).any (fun i =>
          !s.dev.hedgeK ((off + r.1) / 65536 * 65536 + 65536 * i) (s.dev.core c).world)) then
        some (checkInfo 0x07 k a lane)
      else al off
    | .g => if off + n > 2 ^ 54 then some (checkInfo 0x06 k a lane) else al off

/-- The range of G an extent covers, for atomic sets. -/
def gSpan (a n : Nat) : List (Nat × Nat) := if a / 2 ^ 54 = 0 then [(a, n)] else []

/-- MMA's checks (R223); the fourth asks the strides of Ha and Hb, not of Hr (DESIGN CHOICE, log entry 116). -/
def Task.mmaOk (t : Task) (tiles tt a b sh r : Nat) : Bool :=
  match t.handle a, t.handle b, Tab.find t.shapes sh with
  | some x, some y, some ws =>
    let z := shapeOf ws
    let f8 (f : Nat) : Bool := decide (f = 3 ∨ f = 4)
    let last (o n : Nat) : Nat := o + n - 1
    let within (v : Binding) (ors ocs adj o m q n : Nat) : Bool :=
      if v.sparse then
        decide (slotAt v (last o m) (last q n / 4) 1 + v.es ≤ v.size) && decide (metaAt v (last o m) (last q n / 4) + 1 ≤ v.size)
      else
        decide (elemAt v ors ocs adj (last o m) (last q n) + v.es ≤ v.size)
          && (decide (v.bl = 0) || decide (scaleAt v (last o m) (last q n) + 1 ≤ v.size))
    let remoteOk : Bool :=
      if r = 0 then true
      else match t.handle r with
        | some v => decide (v.buf = 2) && !y.sparse && decide (v.fmt = y.fmt ∧ v.bl = y.bl)
        | none => false
    decide (x.buf = 0) && decide (y.buf = 1) && remoteOk
      && (decide (x.fmt = y.fmt) || (f8 x.fmt && f8 y.fmt))
      && (decide (z.n ≤ 64) || (decide (tt % 2 = 0) && decide (tt + 1 < tiles)))
      && (decide (x.bl = 0) || (decide (x.rs % x.bl = 0) && decide (z.ak % x.bl = 0)))
      && (decide (y.bl = 0) || (decide (y.rs % y.bl = 0) && decide (z.bk % y.bl = 0)))
      && (decide (x.fmt ≠ 5) || (decide (z.k % x.bl = 0) && decide (z.k % y.bl = 0) && decide (x.bl = y.bl)))
      && (!y.sparse || (decide (z.brs = 0 ∧ z.bcs = 0) && decide (z.bk % 4 = 0)))
      && within x z.ars z.acs z.ab z.ai z.m z.ak z.k && within y z.brs z.bcs z.bb z.bj z.n z.bk z.k
  | _, _, _ => false

/-- Tiles of the issuing task's grid. -/
def State.tileCount (s : State) : Nat :=
  match s.dev.gridOf s.taskId with
  | some g => g.tiles
  | none => 0

/-- MMA (R223). -/
def execMma (t : BitVec 2) (a b : BitVec 4) (n m e : BitVec 1) (sh r : BitVec 4) (s : State) : Out :=
  match s.task? with
  | none => .next s.mxTrap
  | some x =>
    if !x.mmaOk s.tileCount t.toNat a.toNat b.toNat sh.toNat r.toNat then .next s.mxTrap
    else .next (s.enqueue (.mma t.toNat a.toNat b.toNat (decide (n = 1)) (decide (m = 1)) (decide (e = 1)) sh.toNat r.toNat) [] false [])

/-- MRES (R216). -/
def execMres (d a : SReg) (h : BitVec 4) (s : State) : Out :=
  if s.mxNames (fun k => k.handles.contains h.toNat) then .next (s.stall .stallEngine id)
  else
    .next (s.withRecord (s.rdS a).toNat 16 (fun s ws =>
      let b : Binding := { w0 := ws.getD 0 0, w1 := ws.getD 1 0, base := 0 }
      let t := s.taskId
      let k := s.dev.core s.iss.core
      let bind (s : State) (b : Binding) : State :=
        s.modDev (fun d => d.modTask t (fun x => { x with handles := Tab.insert x.handles h.toNat b }))
      if (match s.task? with | some x => (x.handle h.toNat).isSome | none => false) then s.wrS d 3
      else if b.bad then s.wrS d 2
      else if b.buf = 2 then (bind s b).wrS d 0
      else match freeRun (if b.buf = 0 then k.opUsed else k.wUsed) b.units with
        | none => s.wrS d 1
        | some u =>
          let s1 := s.modDev (fun d => d.modCore s.iss.core (fun k =>
            if b.buf = 0 then { k with opUsed := reserve k.opUsed u b.units t, opBuf := Memory.clear k.opBuf (256 * u) b.size }
            else { k with wUsed := reserve k.wUsed u b.units t, wBuf := Memory.clear k.wBuf (256 * u) b.size }))
          (bind s1 { b with base := 256 * u }).wrS d 0))

/-- Units of a reservation go to clearing. -/
def clearing (used : Tab Nat) (base n : Nat) : Tab Nat := (List.range n).foldl (fun u i => Tab.insert u (base / 256 + i) 0) used

/-- MREL (R217). -/
def execMrel (h : BitVec 4) (s : State) : Out :=
  if s.mxNames (fun k => k.handles.contains h.toNat) then .next (s.stall .stallEngine id)
  else match s.task?.bind (fun t => t.handle h.toNat) with
    | none => .next s
    | some b =>
      let s1 := s.modDev (fun d => d.modTask s.taskId (fun x => { x with handles := Tab.erase x.handles h.toNat }))
      .next (if b.buf = 2 then s1
        else s1.modDev (fun d => d.modCore s.iss.core (fun k =>
          if b.buf = 0 then { k with opUsed := clearing k.opUsed b.base b.units } else { k with wUsed := clearing k.wUsed b.base b.units })))

/-- RESERVATION_CLEAR_DONE (R216): units being cleared read zero and are free again. -/
def execReservationClearDone (core : Nat) (s : State) : Out :=
  let freed (u : Tab Nat) : List Nat := (u.filter (fun p => decide (p.2 = 0))).map Prod.fst
  let wipe (m : List Host.Cell) (u : Tab Nat) : List Host.Cell := (freed u).foldl (fun m i => Memory.clear m (256 * i) 256) m
  .next (s.modDev (fun d => (d.modCore core (fun k =>
    { k with
      opBuf := wipe k.opBuf k.opUsed, wBuf := wipe k.wBuf k.wUsed, opUsed := k.opUsed.filter (fun p => decide (p.2 ≠ 0)),
      wUsed := k.wUsed.filter (fun p => decide (p.2 ≠ 0)) })).wakeStalls))

/-- MSHAPE (R220, R221): a record whose reserved bits are not zero leaves SHs unset. -/
def execMshape (sh : BitVec 4) (a : SReg) (s : State) : Out :=
  if s.mxNames (fun k => k.shapes.contains sh.toNat) then .next (s.stall .stallEngine id)
  else
    .next (s.withRecord (s.rdS a).toNat 32 (fun s ws =>
      let bad := decide (bits (ws.getD 0 0).toNat 63 10 ≠ 0) || decide (ws.getD 3 0 ≠ 0)
      s.modDev (fun d => d.modTask s.taskId (fun t =>
        { t with shapes := if bad then Tab.erase t.shapes sh.toNat else Tab.insert t.shapes sh.toNat ws }))))

/-- MLDA (R230). -/
def execMlda (h : BitVec 4) (a b : SReg) (s : State) : Out :=
  let src := (s.rdS a).toNat
  let ofs := bits (s.rdS b).toNat 17 0
  let len := bits (s.rdS b).toNat 35 18
  match s.task?.bind (fun t => t.handle h.toNat) with
  | none => .next s.mxTrap
  | some v =>
    if v.buf = 2 ∨ ofs + len > v.size ∨ ofs % 16 ≠ 0 ∨ len % 16 ≠ 0 ∨ len < 16 then .next s.mxTrap
    else match s.spanCheck .read src [(0, len)] 16 false with
      | some t => .next (s.takeTrap t)
      | none => .next (s.enqueue (.mlda h.toNat src ofs len) (gSpan src len) false [])

/-- The destination extent of MLDB in a reservation (R218, R219). -/
def mldbFits (v : Binding) (kn jn : Nat) : Bool :=
  let j := jn
  let q := kn - 1
  if v.sparse then decide (slotAt v j (q / 4) 1 + v.es ≤ v.size) && decide (metaAt v j (q / 4) + 1 ≤ v.size)
  else decide (elemAt v 0 0 0 j q + v.es ≤ v.size) && (decide (v.bl = 0) || decide (scaleAt v j q + 1 ≤ v.size))

/-- MLDB (R230). A number of k values of 0 converts nothing. -/
def execMldb (h : BitVec 4) (a b : SReg) (s : State) : Out :=
  let src := (s.rdS a).toNat
  let w := (s.rdS b).toNat
  let pitch := bits w 47 24
  let kn := bits w 23 12
  let jn := bits w 11 4
  let f := bits w 3 0
  match s.task?.bind (fun t => t.handle h.toNat) with
  | none => .next s.mxTrap
  | some v =>
    let es := elemBytes f
    let rows := if kn = 0 then [] else (List.range (jn + 1)).map (fun j => (j * pitch, kn * es))
    if v.buf ≠ 1 ∨ 2 < f ∨ (v.sparse ∧ kn % 4 ≠ 0) ∨ (v.bl ≠ 0 ∧ kn % v.bl ≠ 0) ∨ (kn ≠ 0 ∧ !mldbFits v kn jn) then .next s.mxTrap
    else match s.spanCheck .read src rows es false with
      | some t => .next (s.takeTrap t)
      | none =>
        if pitch % es ≠ 0 ∧ jn ≠ 0 ∧ kn ≠ 0 then .next (s.takeTrap (checkInfo 0x08 .read src (lowLane s.iss.mask)))
        else .next (s.enqueue (.mldb h.toNat src pitch kn jn f)
          ((List.range (jn + 1)).flatMap (fun j => gSpan (src + j * pitch) (kn * es))) false [])

/-- MZERO (R231). -/
def execMzero (t : BitVec 2) (s : State) : Out := .next (s.enqueue (.mzero t.toNat) [] false [])

/-- The checks of MTLD and MTST on format, pitch and extent (R231). -/
def State.tileMove (s : State) (k : AccKind) (a b : SReg) (go : Nat → Nat → Nat → State) : State :=
  let src := (s.rdS a).toNat
  let pitch := bits (s.rdS b).toNat 23 0
  let f := bits (s.rdS b).toNat 27 24
  if 2 < f then s.mxTrap
  else
    let es := elemBytes f
    match s.spanCheck k src ((List.range 64).map (fun i => (i * pitch, 64 * es))) es true with
    | some t => s.takeTrap t
    | none => if pitch % es ≠ 0 then s.takeTrap (checkInfo 0x08 k src (lowLane s.iss.mask)) else go src pitch f

/-- The rows of a tile in memory that lie in G. -/
def tileRows (src pitch f : Nat) : List (Nat × Nat) := (List.range 64).flatMap (fun i => gSpan (src + i * pitch) (64 * elemBytes f))

/-- MTLD (R231). -/
def execMtld (t : BitVec 2) (a b : SReg) (s : State) : Out :=
  .next (s.tileMove .read a b (fun src pitch f => s.enqueue (.mtld t.toNat src pitch f) (tileRows src pitch f) false []))

/-- Where an address of G would lie by translation alone, nothing changed: for the question whether a store there can be undone (R206). -/
def State.peekPlace (s : State) (a : Nat) : Option Loc :=
  if a / 2 ^ 54 ≠ 0 then none
  else match (s.dev.translate (s.dev.slotCtx s.iss.core s.iss.slot) .write a).out with
    | .ok p => some p.loc
    | .error _ => none

/-- MTST (R206, R231). -/
def execMtst (t : BitVec 2) (a b : SReg) (s : State) : Out :=
  .next (s.tileMove .write a b (fun dst pitch f =>
    let locs := ((List.range 64).flatMap (fun i => rangePieces i (dst + i * pitch) (64 * elemBytes f))).filterMap (fun x => s.peekPlace x.2.1)
    let rows := tileRows dst pitch f
    let will := match s.task? with
      | some t => !(t.touched rows).isEmpty
      | none => false
    let irr := locs.any (fun l => l.isRemote || decide (l.sp = .cxl)) || s.dev.tentFull s.iss.core s.taskId will locs
    s.enqueue (.mtst t.toNat dst pitch f) rows irr []))

/-- MTRV (R231): its destination is awaited as a load's is. -/
def execMtrv (d : VReg) (t : BitVec 2) (b : SReg) (s : State) : Out :=
  .next (s.enqueue (.mtrv d.toNat t.toNat (bits (s.rdS b).toNat 7 0) s.iss.mask) [] false (if d = 127 then [] else [.v d.toNat]))

/-- MTWV (R231): the source is read at issue. -/
def execMtwv (t : BitVec 2) (a : VReg) (b : SReg) (s : State) : Out :=
  .next (s.enqueue (.mtwv t.toNat (bits (s.rdS b).toNat 7 0) s.iss.mask ((List.range 32).map (s.rdV a))) [] false [])

/-- MHINT (R236). On a cold array for which an earlier hint stands whose time has not come it does nothing, as with a ramp pending (DESIGN CHOICE, log entry
85). -/
def execMhint (a : SReg) (s : State) : Out :=
  let p := pairOf s.iss.core
  let x := s.dev.pair p
  let now := s.dev.now (clusterOf s.iss.core)
  let l := bits (s.rdS a).toNat 15 0
  .next (s.modDev (fun d => match x.st with
    | .cold => if x.hint.isSome ∨ x.owner.isSome then d else d.modPair p (fun y => { y with hint := some (now + (l - 32)) })
    | .holding => d.modPair p (fun y => { y with since := now, holdLimit := 256 })
    | .hot => d.modPair p (fun y => { y with hinted := true })
    | _ => d))

/-- MXCNT (R232). -/
def State.mxcnt (s : State) (d : SReg) (prune clr : Bool) : State :=
  let c := match s.task? with
    | some t => t.mxc
    | none => []
  let n (i : Nat) : Nat := c.getD i 0
  let v := if prune then n 4 else n 0 * 2 ^ 48 + n 1 * 2 ^ 32 + n 2 * 2 ^ 16 + n 3
  let s1 := if clr then s.modDev (fun x => x.modTask s.taskId (fun t =>
    { t with mxc := if prune then [n 0, n 1, n 2, n 3, 0] else [0, 0, 0, 0, n 4] })) else s
  s1.wrS d (BitVec.ofNat 64 v)

/-- MXCNT with selector 0 (R232). -/
def execMxcntExceptions (d : SReg) (r : BitVec 1) (s : State) : Out := .next (s.mxcnt d false (decide (r = 1)))
/-- MXCNT with selector 1 (R232). -/
def execMxcntPrune (d : SReg) (r : BitVec 1) (s : State) : Out := .next (s.mxcnt d true (decide (r = 1)))

/-- The code MPAIR gives a state (R237). -/
def ArrayState.code : ArrayState → Nat
  | .cold => 0 | .awaitUp => 1 | .rampUp => 2 | .hot => 3 | .holding => 4 | .awaitDown => 5 | .rampDown => 6

/-- Entries parked in a pair (R222). -/
def Dev.parkedIn (d : Dev) (pair : Nat) : Nat :=
  (((d.core (2 * pair)).mq ++ (d.core (2 * pair + 1)).mq).filter (fun e => e.parked.isSome)).length

/-- MPAIR (R237). -/
def execMpair (d : SReg) (s : State) : Out :=
  let p := pairOf s.iss.core
  let x := s.dev.pair p
  .next (s.wrS d (BitVec.ofNat 64 (x.ramps * 2 ^ 16 + min ((s.dev.core s.iss.core).queued.length) 15 * 2 ^ 12
    + min (s.dev.parkedIn p) 15 * 2 ^ 8 + x.st.code * 2 ^ 4 + x.level)))

/-! ## The tile port (R230, R231) -/

/-- The source or destination pieces of an entry. -/
def MxKind.spans : MxKind → List (Nat × Nat × Nat)
  | .mlda _ src _ len => rangePieces 0 src len
  | .mldb _ src pitch kn jn f => (List.range (jn + 1)).flatMap (fun j => rangePieces j (src + j * pitch) (kn * elemBytes f))
  | .mtld _ src pitch f => (List.range 64).flatMap (fun i => rangePieces i (src + i * pitch) (64 * elemBytes f))
  | .mtst _ dst pitch f => (List.range 64).flatMap (fun i => rangePieces i (dst + i * pitch) (64 * elemBytes f))
  | _ => []

/-- Whether an entry stores a tile. -/
def MxKind.stores : MxKind → Bool
  | .mtst _ _ _ _ => true
  | _ => false

/-- A tile element of a task. -/
def Task.tile (t : Task) (tt i j : Nat) : W32 := Tab.get 0 t.tiles (4096 * tt + 64 * i + j)

/-- A tile element narrowed for MTST (R231). -/
def narrow (f : Nat) (x : W32) : Nat × Flags := if f = 0 then (x.toNat, 0) else toElem f false 127 (Fmt.f32.decode x.toNat)

/-- A memory element widened for MTLD (R231). -/
def widen (f x : Nat) : W32 := if f = 0 then BitVec.ofNat 32 x else BitVec.ofNat 32 (roundF32 (elemValue f x)).code

/-- The data of a part of an MTST: the bytes of row i from the part's address on. -/
def storeData (t : Task) (tt dst pitch f : Nat) (p : LanePart) : BitVec 128 :=
  let row := p.lane
  let es := elemBytes f
  let byte (a : Nat) : Nat :=
    let off := a - (dst + row * pitch)
    (narrow f (t.tile tt row (off / es))).1 / 256 ^ (off % es) % 256
  BitVec.ofNat 128 ((List.range p.n).foldl (fun x i => x + 256 ^ i * byte (p.addr + i)) 0)

/-- The first part of a store that is not done. -/
def nextPart (o : Op) : Option (Nat × LanePart) :=
  ((List.range o.parts.length).zip o.parts).find? (fun p => !p.2.done)

/-- The parts of an MTST performed in order, n of them at most: local ones at once, where no engine holds the block, at device scope or on the tentative copy;
a remote one sent and waited for (R158, R204, R231). -/
def Dev.pushStore (d : Dev) (n : Nat) : Nat → Dev
  | 0 => d
  | k + 1 =>
    match d.op? n with
    | none => d
    | some o =>
      match nextPart o with
      | none => d
      | some (i, p) =>
        match p.loc.sp with
        | .remote peer win =>
          if d.asked n i then d
          else d.sendPart (dieOf o.core) (d.core o.core).world n i peer win p.loc.a p.n 0 o.scope .write (Bytes.ofNat p.n p.data.toNat)
        | _ =>
          if d.engineHolds p.loc p.n then d
          else
            let bs := Bytes.ofNat p.n p.data.toNat
            let d1 := if o.tentAt p then d.tentWrite o.core o.task p.loc.a bs else (d.perform p.loc bs).homeLine p.loc
            (d1.modOp n (fun q => q.finish i 0 false)).pushStore n k

/-- Going on with an MTST. -/
def Dev.pushAll (d : Dev) (n : Nat) : Dev :=
  match d.op? n with
  | some o => d.pushStore n o.parts.length
  | none => d

/-- The parts of a destination's pieces in order, as far as their addresses translate, and the failure that ends them. -/
def Dev.partsUntil (d : Dev) (core task : Nat) : List (Nat × Nat × Nat) → Dev × List LanePart × Option (XFault × Nat)
  | [] => (d, [], none)
  | (g, a, n) :: l =>
    match d.placeOf core task .write a with
    | (d1, .error f) => (d1, [], some (f, a))
    | (d1, .ok loc) =>
      let (d2, ps, f) := d1.partsUntil core task l
      (d2, { lane := g, loc := loc, addr := a, n := n, data := 0, done := false } :: ps, f)

/-- An MTST goes on with the pieces from a number on: those before the first that fails to translate join its parts, and are stored in order; with none before
it the entry ends, its earlier rows performed (R231). -/
def Dev.storeFrom (d : Dev) (core : Nat) (e : MxEntry) (o : Op) (tt dst pitch f : Nat) : Dev :=
  match d.task? e.task with
  | none => d
  | some t =>
    let (d1, ps, bad) := d.partsUntil core e.task (e.kind.spans.drop o.parts.length)
    match ps, bad with
    | [], some (x, a) => d1.failEntry core e (x.record o .write a)
    | _, _ =>
      (d1.modOp e.op (fun o => { o with parts := o.parts ++ ps.map (fun (p : LanePart) => { p with data := storeData t tt dst pitch f p }) })).pushAll e.op

/-- MATRIX_ENTRY_START (R222, R230, R231): the earliest entry other than an MMA that may start begins on the tile port: its addresses are
translated and what lies on a peer is asked for, or its first rows are stored. -/
def execMatrixEntryStart (core entry : Nat) (s : State) : Out :=
  let d := s.dev
  match d.entry? core entry with
  | none => .next s
  | some e =>
    let first := (d.core core).mq.find? (fun x => !x.kind.isMma && d.mayStart core x none)
    if (first.map (fun x => x.id)) ≠ some entry then .next s
    else
      let d1 := d.modEntry core entry (fun e => { e with started := some (d.now (clusterOf core)) })
      match e.kind, d1.op? e.op with
      | .mtst tt dst pitch f, some o =>
        .next { s with dev := (d1.modOp e.op (fun o => { o with tent := d1.tentative e.task })).storeFrom core e { o with parts := [] } tt dst pitch f }
      | _, some o => match d1.partsFor core e.task .read e.kind.spans with
        | (d2, .error (f, a)) => .next { s with dev := d2.failEntry core e (f.record o .read a) }
        | (d2, .ok ps) => .next { s with dev := (d2.modOp e.op (fun o => { o with parts := ps, scope := 4 })).fetchParts e.op }
      | _, none => .next { s with dev := d1 }

/-- A buffer of a core with bytes written. -/
def Dev.writeBuf (d : Dev) (core : Nat) (b : Binding) (l : List (Nat × List Byte)) : Dev :=
  let put (m : List Host.Cell) : List Host.Cell := l.foldl (fun m x => Memory.writeL m (b.base + x.1) x.2) m
  d.modCore core (fun k => if b.buf = 0 then { k with opBuf := put k.opBuf } else { k with wBuf := put k.wBuf })

/-- Whether a narrowed code comes before another by magnitude: NaN largest (R230). -/
def magLess (f x y : Nat) : Bool :=
  match elemValue f x, elemValue f y with
  | .nan, _ => false
  | _, .nan => true
  | a, b => decide (xcmp a.abs b.abs < 0)

/-- The two kept positions of a group of four: largest magnitudes, ties to the lower index; in ascending order (R230). -/
def keepTwo (f : Nat) (l : List Nat) : Nat × Nat :=
  let best (skip : Option Nat) : Nat :=
    (List.range 4).foldl (fun b i => if skip = some i then b else if skip = some b then i else if magLess f (l.getD b 0) (l.getD i 0) then i else b) 0
  let p := best none
  let q := best (some p)
  (min p q, max p q)

/-- One column of MLDB: bytes to write by offset, flags of its elements, and pruned non-zero values (R230). -/
def mldbColumn (v : Binding) (j : Nat) (xs : List XReal) : List (Nat × List Byte) × List Flags × Nat :=
  let r := convertRow v.fmt v.bl xs
  let codes := r.1.map Prod.fst
  let es := v.es
  if v.sparse then
    let gs := (pieces 4 codes.length codes).zipIdx
    let one (g : List Nat × Nat) : List (Nat × List Byte) × Nat :=
      let k := keepTwo v.fmt g.1
      let dropped := (List.range 4).filter (fun i => decide (i ≠ k.1 ∧ i ≠ k.2) && !(elemValue v.fmt (g.1.getD i 0)).isZero)
      ([(slotAt v j g.2 0, Bytes.ofNat es (g.1.getD k.1 0)), (slotAt v j g.2 1, Bytes.ofNat es (g.1.getD k.2 0)),
        (metaAt v j g.2, Bytes.ofNat 1 (k.1 + 4 * k.2))], dropped.length)
    let all := gs.map one
    (all.flatMap Prod.fst, r.1.map Prod.snd, (all.map Prod.snd).foldl (· + ·) 0)
  else
    let es1 := (codes.zipIdx).map (fun c => (elemAt v 0 0 0 j c.2, Bytes.ofNat es c.1))
    let sc := (r.2.zipIdx).map (fun c => (scaleAt v j (c.2 * v.bl), Bytes.ofNat 1 c.1))
    (es1 ++ sc, r.1.map Prod.snd, 0)

/-- An element of a line of MTRV and MTWV: its row and column for lane l (R231). -/
def lineElem (c l : Nat) : Nat × Nat :=
  let x := c % 64
  let h := c / 64 % 2
  if c / 128 % 2 = 0 then (x, 32 * h + l) else (32 * h + l, x)

/-- The bytes of an entry's parts are decoded, and their lines served to a core, each once (R158, R194, R324, R396). -/
def Dev.serveParts (d : Dev) (core : Nat) (l : List LanePart) : Dev :=
  let ps := l.filter (fun p => !p.loc.isRemote)
  (ps.foldl (fun d p => d.reportRaw p.loc p.n) d).serveAll core (ps.map (fun p => p.loc.entryLine))
/-- No copy engine holds any of them (R158). -/
def Dev.enginesDone (d : Dev) (l : List LanePart) : Bool := l.all (fun p => !d.engineHolds p.loc p.n)

/-- The flags that conversions count (R230, R231): OF, UF and NX. -/
def converted (l : List Flags) : List Flags := l.map (fun m => m &&& ~~~flagNV)

/-- TILE_OP_RETIRE (R230, R231): an entry other than an MMA has all it waits for; its effect comes about whole, its exceptions count, and its CT
count ends. An MTST with pieces left goes on with them, but one of a wounded task stops at them (R238). One that reads poisoned
bytes ends without its effect, as a load does (R400, DEDUCED, log entry 117). -/
def execTileOpRetire (core entry : Nat) (s : State) : Out :=
  let d0 := s.dev
  match d0.entry? core entry with
  | none => .next s
  | some e =>
    match d0.op? e.op, d0.task? e.task with
    | some o, some t =>
      if e.kind.isMma ∨ e.started.isNone ∨ o.st ≠ .going then .next s
      else if e.kind.stores ∧ !o.parts.all (fun p => p.done) then .next (s.modDev (fun d => d.pushAll e.op))
      else if !o.parts.all (fun p => p.done) ∨ (!e.kind.stores ∧ !d0.enginesDone o.parts) then .next s
      else
        if let some p := if e.kind.stores then none else o.parts.find? (fun p => !p.loc.isRemote && d0.poisoned p.loc p.n) then
          .next { s with dev := (d0.serveParts core o.parts).failEntry core e (o.failure 0x14 p.addr 0) }
        else
        let d := if e.kind.stores then d0 else d0.serveParts core o.parts
        let fin (d : Dev) (marks : List Flags) (prune : Nat) : Out :=
          .next { s with dev := (d.modTask e.task (fun t => { t with mxc := countMarks t.mxc marks prune })).dropEntry core entry e.op none }
        match e.kind with
        | .mlda h src ofs len =>
          match t.handle h with
          | some v => fin (d.writeBuf core v [(ofs, (List.range len).map (fun i => d.partByte e.op o (src + i)))]) [] 0
          | none => fin d [] 0
        | .mldb h src pitch kn jn f =>
          match t.handle h with
          | some v =>
            let col (j : Nat) : List (Nat × List Byte) × List Flags × Nat :=
              mldbColumn v j ((List.range kn).map (fun q => elemValue f (d.partNat e.op o (src + j * pitch + q * elemBytes f) (elemBytes f))))
            let cs := (List.range (jn + 1)).map col
            fin (d.writeBuf core v (cs.flatMap Prod.fst)) (converted (cs.flatMap (fun c => c.2.1))) ((cs.map (fun c => c.2.2)).foldl (· + ·) 0)
          | none => fin d [] 0
        | .mzero tt => fin (d.modTask e.task (fun t => { t with tiles := t.tiles.filter (fun x => decide (x.1 / 4096 ≠ tt)) })) [] 0
        | .mtld tt src pitch f =>
          let cells := (List.range 4096).map (fun k => (4096 * tt + k, widen f (d.partNat e.op o (src + k / 64 * pitch + k % 64 * elemBytes f) (elemBytes f))))
          fin (d.writeTiles e.task cells) [] 0
        | .mtst tt dst pitch f =>
          if o.parts.length < e.kind.spans.length ∧ !t.restart then .next { s with dev := d.storeFrom core e o tt dst pitch f }
          else fin d (converted ((List.range 4096).map (fun k => (narrow f (t.tile tt (k / 64) (k % 64))).2))) 0
        | .mtrv dv tt c mask =>
          let give (g : Group) : Group :=
            if g.awaits (.v dv) e.op then
              { g with regs := g.regs.writeVLanes dv (lanesOf mask) (fun l => t.tile tt (lineElem c l).1 (lineElem c l).2) }
            else g
          fin (d.modGroup o.core o.slot give) [] 0
        | .mtwv tt c mask vals =>
          fin (d.writeTiles e.task ((lanesOf mask).map (fun l => (4096 * tt + 64 * (lineElem c l).1 + (lineElem c l).2, vals.getD l 0)))) [] 0
        | .mma .. => .next s
    | _, _ => .next s

end Sys2Proof.Machine
end

