-- ==== Sys2Proof/Machine/Queues.lean ====
section
/-! DEFINITION. Launch records and the LAUNCH words, dependences and done words of grids, mailboxes, and page migration (R306, R310, R311, R314,
R315, R317 to R322, R324). -/

namespace Sys2Proof.Machine

/-! ## Launch records (R310, R311) -/

/-- A word of a record as a number. -/
def wordN (ws : List W64) (i : Nat) : Nat := (ws.getD i 0).toNat

/-- The grid that a record describes, as it is accepted. -/
def gridOfRecord (ws : List W64) (sets : List (Nat × Nat)) (world : Nat) : Grid :=
  { words := ws, sets := sets, queue := bits (wordN ws 3) 5 0, world := world, next := 0, retired := 0,
    dep0 := decide (bits (wordN ws 4) 53 0 = 0), dep1 := decide (bits (wordN ws 6) 53 0 = 0), fail := 0, mailbox := none,
    snapshot := [] }

/-- Whether some cluster holds so many in-service cores of a queue's mask. -/
def Dev.clusterHolds (d : Dev) (q n : Nat) : Bool :=
  (List.range 32).any (fun cl => decide (n ≤ ((coresOf cl).filter (fun c => (d.queue q).mask.getLsbD c && d.inService c)).length))

/-- A malformed launch record, its table apart (R311). -/
def Dev.badRecord (d : Dev) (ws : List W64) : Bool :=
  let g := gridOfRecord ws [] 0
  let w (i : Nat) : Nat := wordN ws i
  decide (bits (w 0) 63 54 ≠ 0) || decide (bits (w 2) 63 60 ≠ 0) || decide (bits (w 3) 63 6 ≠ 0) || decide (bits (w 4) 63 54 ≠ 0)
    || decide (bits (w 6) 63 54 ≠ 0) || decide (bits (w 8) 63 59 ≠ 0) || decide (bits (w 9) 63 54 ≠ 0)
    || decide (g.vregs = 0) || decide (bits (w 2) 17 9 > 256) || decide (bits (w 2) 26 18 > 256) || decide (bits (w 2) 37 27 > 1024)
    || decide (g.tiles > 4) || decide (g.handles > 16) || decide (g.shapes > 16) || decide (g.streams > 16)
    || decide (bits (w 8) 58 54 > 16) || decide (g.size > 2 ^ 32) || decide (g.size % (g.gangLess + 1) ≠ 0)
    || (decide (g.cBytes > 0) && !d.clusterHolds g.queue (g.gangLess + 1))
    || decide (g.code % 768 ≠ 0) || decide (w 4 % 8 ≠ 0) || decide (w 6 % 8 ≠ 0) || decide (bits (w 8) 53 0 % 16 ≠ 0)
    || decide (w 9 % 8 ≠ 0)

/-- The addresses of a record's table entries. -/
def tableAddrs (ws : List W64) : List Nat :=
  (List.range (bits (wordN ws 8) 58 54)).map (fun i => (bits (wordN ws 8) 53 0 + 16 * i) % 2 ^ 54)

/-- A table's entries from its words. -/
def tableOf : List W64 → List (Nat × Nat)
  | b :: l :: r => (b.toNat, l.toNat) :: tableOf r
  | _ => []

/-- Whether every entry meets the operand conditions of R200. -/
def tableOk (l : List (Nat × Nat)) : Bool :=
  l.all (fun e => decide (e.1 % 128 = 0 ∧ e.2 % 128 = 0 ∧ 128 ≤ e.2 ∧ e.2 ≤ 2 ^ 34 ∧ e.1 + e.2 ≤ 2 ^ 54))

/-- Accepting a grid: its launch id, and the device that holds it (R317). -/
def Dev.accept (d : Dev) (g : Grid) : Nat × Dev :=
  let id := d.nextLaunch
  (id, { d with nextLaunch := (id + 1) % 2 ^ 56, grids := Tab.insert d.grids id g })

/-- The status LNCH gives a well-formed record (R317). -/
def Dev.launchStatus (d : Dev) (g : Grid) (coreWorld : Nat) : Nat :=
  let q := d.queue g.queue
  if !g.need.fits then 2
  else if !q.en ∨ (q.world ≠ coreWorld ∧ coreWorld ≠ 0) then 3
  else if g.coRes ∧ !d.fitsEmpty g then 4
  else if 4096 ≤ d.grids.length then 5
  else 0

/-- LNCH's result: a status and an id. -/
def statusWord (st id : Nat) : W64 := BitVec.ofNat 64 (st * 2 ^ 56 + id)

/-- LNCH (R317). -/
def execLnch (d a : SReg) (s : State) : Out :=
  .next (s.irrevocably (fun s => s.afterStores 3 (fun s =>
    s.withRecord (s.rdS a).toNat 128 (fun s ws =>
      if s.dev.badRecord ws then s.wrS d (statusWord 1 0)
      else
        match s.loadRecords 16 (tableAddrs ws) with
        | .stop s1 => s1
        | .got s1 ts =>
          let table := tableOf ts
          if !tableOk table then s1.wrS d (statusWord 1 0)
          else
            let g := gridOfRecord ws table (s1.dev.queue (bits (wordN ws 3) 5 0)).world
            let st := s1.dev.launchStatus g (s1.dev.core s.iss.core).world
            if st ≠ 0 then s1.wrS d (statusWord st 0)
            else
              let r := s1.dev.accept g
              ({ s1 with dev := r.2 }).wrS d (statusWord 0 r.1)))))

/-! ## Queue records (R306, R318) -/

/-- A queue's fields from its record, with the deficit and counts it keeps. -/
def Queue.ofRecord (old : Queue) (ws : List W64) : Queue :=
  let w4 := wordN ws 4
  { old with
    mask := BitVec.ofNat 256 (wordN ws 0 + wordN ws 1 * 2 ^ 64 + wordN ws 2 * 2 ^ 128 + wordN ws 3 * 2 ^ 192)
    en := bit w4 63
    cls := bits w4 62 61
    world := bits w4 60 53
    asn := bits w4 52 41
    quantum := bits w4 31 0
    root := bits (wordN ws 5) 51 13 * 8192
    deadline := bits (wordN ws 6) 63 32
    equota := bits (wordN ws 6) 31 0
    cbud := bits (wordN ws 7) 31 0
    deficit := if !old.en ∧ bit w4 63 then 0 else old.deficit }

/-- A malformed queue record (R306). -/
def badQueue (ws : List W64) : Bool :=
  let w4 := wordN ws 4
  decide (bits w4 40 32 ≠ 0) || decide (bits (wordN ws 5) 63 52 ≠ 0) || decide (bits (wordN ws 5) 12 0 ≠ 0)
    || decide (bits (wordN ws 7) 63 32 ≠ 0) || decide (bits w4 31 0 = 0)
    || (bit w4 63 && decide (wordN ws 0 = 0 ∧ wordN ws 1 = 0 ∧ wordN ws 2 = 0 ∧ wordN ws 3 = 0))

/-- Resident workgroups of a queue. -/
def Dev.residentOf (d : Dev) (q : Nat) : Nat := (d.tasks.filter (fun t => decide (t.2.queue = q) && t.2.resident)).length

/-- Whether a queue has accepted grids or resident workgroups (R318). -/
def Dev.queueBusy (d : Dev) (q : Nat) : Bool :=
  d.grids.any (fun g => decide (g.2.queue = q)) || d.tasks.any (fun t => decide (t.2.queue = q))

/-- Installing a queue record: the status and the device (R318). -/
def Dev.installQueue (d : Dev) (q : Nat) (ws : List W64) : Nat × Dev :=
  let new := (d.queue q).ofRecord ws
  let old := d.queue q
  if badQueue ws then (2, d)
  else if (new.world ≠ old.world ∨ new.asn ≠ old.asn ∨ new.root ≠ old.root) ∧ d.queueBusy q then (1, d)
  else (0, d.modQueue q (fun _ => new))

/-- The value QCFG reads (R318). -/
def Dev.queueWord (d : Dev) (q : Nat) : Nat :=
  let x := d.queue q
  let pend := (d.grids.filter (fun g => decide (g.2.queue = q) && g.2.pending)).length
  (if x.en then 2 ^ 63 else 0) + x.cls * 2 ^ 61 + x.world * 2 ^ 53 + min pend 65535 * 2 ^ 32 + d.residentOf q

/-- QCFG, by the operation in S[Sb] (R318). -/
def State.qcfg (s : State) (d a b : SReg) : State :=
  s.irrevocably (fun s =>
    let q := bits (s.rdS b).toNat 5 0
    match bits (s.rdS b).toNat 9 8 with
    | 0 => s.withRecord (s.rdS a).toNat 64 (fun s ws =>
        let r := s.dev.installQueue q ws
        ({ s with dev := r.2 }).wrS d (BitVec.ofNat 64 r.1))
    | 1 => (s.modDev (fun x => x.modQueue q (fun k => { k with en := false }))).wrS d 0
    | 2 => s.withRecord (s.rdS a).toNat 32 (fun s ws =>
        (s.modDev (fun x => x.modQueue q (fun k => { k with
          mask := BitVec.ofNat 256 (wordN ws 0 + wordN ws 1 * 2 ^ 64 + wordN ws 2 * 2 ^ 128 + wordN ws 3 * 2 ^ 192) }))).wrS d 0)
    | _ => s.wrS d (BitVec.ofNat 64 (s.dev.queueWord q)))

/-- QCFG with operation 0, configure (R318). -/
def execQcfgConfigure (d a b : SReg) (s : State) : Out := .next (s.qcfg d a b)
/-- QCFG with operation 1, disable (R318). -/
def execQcfgDisable (d a b : SReg) (s : State) : Out := .next (s.qcfg d a b)
/-- QCFG with operation 2, mask (R318). -/
def execQcfgMask (d a b : SReg) (s : State) : Out := .next (s.qcfg d a b)
/-- QCFG with operation 3, read (R318). -/
def execQcfgRead (d a b : SReg) (s : State) : Out := .next (s.qcfg d a b)

/-! ## Mailbox bindings (R319, R320) -/

/-- A handler's launch record: its entry from the binding, one workgroup, no gang, no co-residency, no dependences, the binding's queue
(R319). The fields that R319 says are ignored are replaced whole, the reserved bits of the dependence words with them, so that those bits do not make
the record malformed (DESIGN CHOICE, log entry 86). -/
def handlerRecord (ws : List W64) (handler queue : Nat) : List W64 :=
  let w2 := wordN ws 2 % 2 ^ 56 + wordN ws 2 / 2 ^ 60 * 2 ^ 60
  setAt (setAt (setAt (setAt (setAt (setAt (setAt (setAt ws 0 (BitVec.ofNat 64 (handler + wordN ws 0 / 2 ^ 54 * 2 ^ 54))) 1 0) 2 (BitVec.ofNat 64 w2)) 3
    (BitVec.ofNat 64 (queue + wordN ws 3 / 64 * 64))) 4 0) 5 0) 6 0) 7 0

/-- A malformed binding image (R319); an address outside its memory counts as one (log entry 13). -/
def badImage (ws : List W64) : Bool :=
  let w0 := wordN ws 0
  let trig := bits w0 51 0
  decide (bits w0 62 52 ≠ 0) || decide (trig % 64 ≠ 56) || decide (bits (wordN ws 1) 63 54 ≠ 0) || decide (bits (wordN ws 1) 53 0 % 768 ≠ 0)
    || decide (bits (wordN ws 2) 63 54 ≠ 0) || decide (bits (wordN ws 3) 63 10 ≠ 0)
    || (if bit w0 63 then decide (2 ^ 27 ≤ trig) else decide (2 ^ 39 ≤ trig))

/-- The binding that an image and a record make. -/
def Mailbox.ofImage (old : Mailbox) (im ws : List W64) (sets : List (Nat × Nat)) : Mailbox :=
  let q := bits (wordN im 3) 5 0
  { old with
    bound := true
    kind := if bit (wordN im 0) 63 then 1 else 0
    trig := bits (wordN im 0) 51 0
    handler := bits (wordN im 1) 53 0
    lim := bits (wordN im 3) 9 6
    queue := q
    words := handlerRecord ws (bits (wordN im 1) 53 0) q
    sets := sets
    pend := []
    arrived := []
    ovf := 0 }

/-- The world of the frame a trigger lies in. -/
def Dev.trigWorld (d : Dev) (m : Mailbox) : Option Nat :=
  if m.kind = 0 then (d.frame (m.trig / 65536)).world else Tab.find d.kframes (m.trig / 65536)

/-- Whether a group may touch the binding of an index: in world 0 or the handler slot, else its queue and its trigger's frame are of its world (R319); the boot
binding, index 0, in world 0 only (R414). -/
def State.bindAllowed (s : State) (i : Nat) (m : Mailbox) : Bool :=
  let w := (s.dev.core s.iss.core).world
  decide (w = 0 ∨ (s.iss.slot = handlerSlot ∧ i ≠ 0)) || decide (i ≠ 0) && decide ((s.dev.queue m.queue).world = w ∧ s.dev.trigWorld m = some w)

/-- Whether a trigger word is bound already. -/
def Dev.trigTaken (d : Dev) (m : Mailbox) : Bool :=
  d.boxes.any (fun b => b.2.bound && decide (b.2.kind = m.kind ∧ b.2.trig = m.trig))

/-- MBIND, by the operation in S[Sb] (R319). Copies of the trigger's line that L1s hold are given up as it is bound: from then on no L1 holds it in E, M or U
(R321). -/
def State.mbind (s : State) (d a b : SReg) : State :=
  s.irrevocably (fun s =>
    let i := bits (s.rdS b).toNat 11 0
    if bit (s.rdS b).toNat 12 then
      let m := s.dev.box i
      if !m.bound then s.wrS d 1
      else if !s.bindAllowed i m then s.wrS d 3
      else (s.modDev (fun x => x.modBox i (fun m => { m with
        bound := false, ovf := min (m.ovf + m.pend.length + m.arrived.length) (2 ^ 32 - 1), pend := [], arrived := [] }))).wrS d 0
    else s.withRecord (s.rdS a).toNat 32 (fun s im =>
      s.withRecord (bits (wordN im 2) 53 0) 128 (fun s ws =>
        let old := s.dev.box i
        let rec_ := handlerRecord ws (bits (wordN im 1) 53 0) (bits (wordN im 3) 5 0)
        if old.bound then s.wrS d 1
        else if badImage im || s.dev.badRecord rec_ then s.wrS d 2
        else match s.loadRecords 16 (tableAddrs rec_) with
          | .stop s1 => s1
          | .got s1 ts =>
            let m := old.ofImage im ws (tableOf ts)
            if !tableOk (tableOf ts) || s1.dev.trigTaken m then s1.wrS d 2
            else if !s1.bindAllowed i m then s1.wrS d 3
            else (s1.modDev (fun x => (if m.kind = 0 then x.recallAll (m.trig / 128) else x).modBox i (fun _ => m))).wrS d 0)))

/-- MBIND, bind (R319). -/
def execMbindBind (d a b : SReg) (s : State) : Out := .next (s.mbind d a b)
/-- MBIND, unbind (R319). -/
def execMbindUnbind (d a b : SReg) (s : State) : Out := .next (s.mbind d a b)

/-- The value MBOXQ reads (R320). -/
def Mailbox.status (m : Mailbox) : Nat :=
  (if m.bound then 2 ^ 63 else 0) + m.queue * 2 ^ 50 + min m.pend.length 16 * 2 ^ 45 + min m.run 16 * 2 ^ 40 + min m.ovf (2 ^ 32 - 1)

/-- MBOXQ, by the operation in S[Sa] (R320). -/
def State.mboxq (s : State) (d a : SReg) : State :=
  let i := bits (s.rdS a).toNat 11 0
  let op := bits (s.rdS a).toNat 13 12
  let act (s : State) : State :=
    let m := s.dev.box i
    let w := (s.dev.core s.iss.core).world
    if w ≠ 0 ∧ s.iss.slot ≠ handlerSlot ∧ (s.dev.queue m.queue).world ≠ w then s.wrS d 0
    else (s.modDev (fun x => x.modBox i (fun m =>
      if op = 1 then { m with ovf := 0 } else if op = 2 then { m with pend := [] } else m))).wrS d (BitVec.ofNat 64 m.status)
  if op = 1 ∨ op = 2 then s.irrevocably act else act s

/-- MBOXQ, read (R320). -/
def execMboxqRead (d a : SReg) (s : State) : Out := .next (s.mboxq d a)
/-- MBOXQ, read and clear overflow (R320). -/
def execMboxqClearOverflow (d a : SReg) (s : State) : Out := .next (s.mboxq d a)
/-- MBOXQ, read and discard the pending snapshots (R320). -/
def execMboxqDiscardPending (d a : SReg) (s : State) : Out := .next (s.mboxq d a)

/-! ## Arrivals and handlers (R321, R322) -/

/-- MAILBOX_ARRIVAL (R322): the oldest arrival's snapshot joins the binding's queue of 16, or is lost and counted. -/
def execMailboxArrival (binding : Nat) (s : State) : Out :=
  let m := s.dev.box binding
  match m.arrived with
  | [] => .next s
  | x :: l =>
    .next (s.modDev (fun d => d.modBox binding (fun m =>
      if m.pend.length < 16 then { m with arrived := l, pend := m.pend ++ [x] }
      else { m with arrived := l, ovf := min (m.ovf + 1) (2 ^ 32 - 1) })))

/-- HANDLER_ACCEPT (R322): the oldest snapshot is accepted as a one-workgroup grid while fewer than lim + 1 handlers run and fewer than
4,096 grids are in flight. -/
def execHandlerAccept (binding : Nat) (s : State) : Out :=
  let m := s.dev.box binding
  match m.pend with
  | [] => .next s
  | x :: l =>
    if !m.bound ∨ m.lim + 1 ≤ m.run ∨ 4096 ≤ s.dev.grids.length then .next s
    else
      let g := { gridOfRecord m.words m.sets (s.dev.queue m.queue).world with mailbox := some binding, snapshot := x }
      .next { s with dev := ((s.dev.accept g).2).modBox binding (fun m => { m with pend := l, run := m.run + 1 }) }

/-! ## Dependences and done words (R314, R315) -/

/-- The context of a grid's own accesses (R314, R315). -/
def Dev.gridCtx (d : Dev) (g : Grid) : XCtx :=
  { core := none, die := 0, world := g.world, asn := (d.queue g.queue).asn, root := (d.queue g.queue).root, priv := false, spec := false }

/-- A value found in a dependence word: failure form, satisfied, or not yet (R314). -/
def Grid.found (g : Grid) (which v : Nat) : Grid :=
  let want := g.word (if which = 0 then 5 else 7)
  if bit v 63 then { g with fail := if g.fail = 0 then 1 else g.fail }
  else if want ≤ v then (if which = 0 then { g with dep0 := true } else { g with dep1 := true })
  else g

/-- An operation of a grid itself, with no group: the read of a dependence word or the done word on a remote page. -/
def Dev.gridOp (d : Dev) (g : Grid) (kind : OpKind) (l : Loc) (addr : Nat) (data : BitVec 128) : Dev :=
  let n := d.nextOp
  let p : LanePart := { lane := 0, loc := l, addr := addr, n := 8, data := data, done := false }
  let o : Op :=
    { core := 65535, slot := 0, task := 0, ctr := .cl, kind := kind, parts := [p], scope := 3, tent := false,
      pos := { pc := 0, word := 0 }, st := .going, waits := [], held := [] }
  let d1 := { d with ops := Tab.insert d.ops n o, nextOp := n + 1 }
  match l.sp with
  | .remote peer win =>
    let wr := match kind with
      | .doneWord _ => true
      | _ => false
    d1.sendPart 0 g.world n 0 peer win l.a 8 0 3 (if wr then .write else .read) (if wr then Bytes.ofNat 8 data.toNat else [])
  | _ => d1

/-- Whether a grid's read of a dependence, or its done word, is under way. -/
def Dev.gridOpOut (d : Dev) (kind : OpKind) : Bool := d.ops.any (fun o => decide (o.2.kind = kind))

/-- One dependence of a grid examined. -/
def Dev.checkDep (d : Dev) (id which : Nat) : Dev :=
  match d.grid? id with
  | none => d
  | some g =>
    let a := bits (g.word (if which = 0 then 4 else 6)) 53 0
    let met := if which = 0 then g.dep0 else g.dep1
    if met ∨ g.fail ≠ 0 then d
    else
      let r := d.translate (d.gridCtx g) .read a
      match r.out with
      | .error _ => r.dev.modGrid id (fun g => { g with fail := 1 })
      | .ok p =>
        if p.loc.isRemote then
          if r.dev.gridOpOut (.depend id which) then r.dev else r.dev.gridOp g (.depend id which) p.loc a 0
        else
          let d1 := r.dev.combineRange p.loc 8
          d1.modGrid id (fun g => g.found which (d1.readNat p.loc 8))

/-- DEPENDENCE_CHECK (R314). -/
def execDependenceCheck (grid : Nat) (s : State) : Out :=
  .next (s.modDev (fun d => (d.checkDep grid 0).checkDep grid 1))

/-- The done word (R315). -/
def Grid.doneWord (g : Grid) (id : Nat) : Nat := (if g.fail ≠ 0 then 2 ^ 63 else 0) + g.fail * 2 ^ 56 + id

/-- Whether a grid has come to its end (R315). -/
def Grid.over (g : Grid) : Bool := decide (g.fail = 1 ∨ g.fail = 3) || decide (g.retired = g.size)

/-- A grid leaves the device. -/
def Dev.endGrid (d : Dev) (id : Nat) : Dev := { d with grids := Tab.erase d.grids id }

/-- A done word that cannot be written is logged, and its grid ends all the same (R315). -/
def Dev.lostDone (d : Dev) (id addr world : Nat) : Dev := (d.logError 7 0 0 addr world).endGrid id

/-- GRID_DONE_WRITE (R315): the done word of a grid that is over is written once, through its queue's root and world. -/
def execGridDoneWrite (grid : Nat) (s : State) : Out :=
  match s.dev.grid? grid with
  | none => .next s
  | some g =>
    if !g.over ∨ s.dev.gridOpOut (.doneWord grid) then .next s
    else
      let a := bits (g.word 9) 53 0
      if a = 0 then .next (s.modDev (fun d => d.endGrid grid))
      else
        let r := s.dev.translate (s.dev.gridCtx g) .write a
        match r.out with
        | .error _ => .next { s with dev := r.dev.lostDone grid a g.world }
        | .ok p =>
          let w := g.doneWord grid
          if p.loc.isRemote then .next { s with dev := r.dev.gridOp g (.doneWord grid) p.loc a (BitVec.ofNat 128 w) }
          else .next { s with dev := (r.dev.perform p.loc (Bytes.ofNat 8 w)).endGrid grid }

/-! ## Migration (R324) -/

/-- The frames that are to move and the die each moves to: fills from one other die above 1,024 and above four times the home die's. -/
def Dev.candidate (d : Dev) (f : Nat) (x : Frame) : Option (Nat × Nat) :=
  let home := d.homeDie (f * 65536)
  let n (k : Nat) : Nat := x.fills.getD k 0
  let others := (List.range 4).filter (fun k => decide (k ≠ home ∧ n k > 1024 ∧ n k > 4 * n home))
  match others with
  | [] => none
  | k :: l => let best := l.foldl (fun b j => if n b < n j then j else b) k; some (best, n best - 4 * n home)

/-- A candidate put among others, the largest excess first, the lower frame first among equals. -/
def insertMove (x : Nat × Nat × Nat) : List (Nat × Nat × Nat) → List (Nat × Nat × Nat)
  | [] => [x]
  | y :: l => if y.2.2 < x.2.2 ∨ (y.2.2 = x.2.2 ∧ x.1 < y.1) then x :: y :: l else y :: insertMove x l

/-- The candidates of a period: frame, target die and excess. -/
def Dev.movers (d : Dev) : List (Nat × Nat × Nat) :=
  (d.frames.filterMap (fun p => if p.2.pinned ∨ p.2.moving.isSome then none else (d.candidate p.1 p.2).map (fun c => (p.1, c.1, c.2)))).foldl
    (fun l x => insertMove x l) []

/-- The least-used frame of a die that may be moved, the lowest number among equals: one that nothing has used, or the listed one with the fewest fills. -/
def Dev.leastUsed (d : Dev) (die : Nat) : Option Nat :=
  let use (f : Nat) : Nat := (d.frame f).fills.foldl (· + ·) 0
  let ok (f : Nat) : Bool := decide (d.homeDie (f * 65536) = die) && !(d.frame f).pinned && (d.frame f).moving.isNone
  let fresh := (firstBelow (fun i => (Tab.find d.frames (die * 2 ^ 21 + i)).isNone) (d.frames.length + 1)).map (fun i => die * 2 ^ 21 + i)
  let l := ((Tab.keys d.frames) ++ fresh.toList).filter ok
  (keepLeast id (keepLeast use l)).head?

/-- A frame begins to move: into the target's reserve, or in exchange with the least-used frame there (R324, log entry 94). -/
def Dev.beginMove (d : Dev) (x : Nat × Nat × Nat) : Dev :=
  let home := d.homeDie (x.1 * 65536)
  let go (d : Dev) (f die : Nat) (p : Option Nat) : Dev := d.modFrame f (fun y => { y with moving := some (die, 0), swap := p })
  let d0 : Dev := { d with fresh := d.fresh + 1, moves := d.moves ++ [x.1] }
  if (d.frame x.1).moving.isSome then d
  else match (if Config.reserveFree d.fresh then none else d.leastUsed x.2.1) with
    | some p => go (go d0 x.1 x.2.1 (some p)) p home (some x.1)
    | none => go d0 x.1 x.2.1 none

/-- MIGRATION_PERIOD_END (R324): candidates begin to move, the largest excess first; counts start again. -/
def execMigrationPeriodEnd (s : State) : Out :=
  let d := s.dev.movers.foldl Dev.beginMove s.dev
  .next { s with dev := { d with frames := Tab.mapV d.frames (fun _ x => { x with fills := [0, 0, 0, 0] }) } }

/-- One line of a frame moved: its U copies are combined first, and its home is the new die from then on. -/
def Dev.moveLine (d : Dev) (f : Nat) : Dev :=
  match (d.frame f).moving with
  | none => d
  | some (die, n) =>
    ((d.combine (f * 512 + n)).l2Drop (f * 512 + n)).modFrame f (fun x =>
      if n + 1 = 512 then { x with home := some die, moving := none, swap := none } else { x with moving := some (die, n + 1) })

/-- The die that the next line of a moving frame leaves. -/
def Dev.leaving (d : Dev) (f : Nat) : Nat :=
  match (d.frame f).moving with
  | some (_, n) => d.homeDie (f * 65536 + 128 * n)
  | none => d.homeDie (f * 65536)

/-- The frame of a die that moves first. -/
def Dev.firstMove (d : Dev) (die : Nat) : Option Nat := d.moves.find? (fun f => (d.frame f).moving.isSome && decide (d.leaving f = die))

/-- LINE_MIGRATE (R324, R377): the next 128-byte line of the frame that moves first from its die moves, and that of the frame it is exchanged with, within
their dies' budgets. Physical addresses and contents stay. -/
def execLineMigrate (frame : Nat) (s : State) : Out :=
  let d := s.dev
  let x := d.frame frame
  let from_ := d.leaving frame
  let room := d.budgetLeft 4 from_ 1 && (match x.swap with
    | some p => d.budgetLeft 4 (d.leaving p) 1
    | none => true)
  if x.moving.isNone ∨ d.firstMove from_ ≠ some frame ∨ !room then .next s
  else
    let d1 := (d.moveLine frame).spend 4 from_ 1
    let d2 := match x.swap with
      | some p => (d1.moveLine p).spend 4 (d.leaving p) 1
      | none => d1
    .next { s with dev := { d2 with moves := d2.moves.filter (fun f => (d2.frame f).moving.isSome) } }

end Sys2Proof.Machine
end

