-- ==== Sys2Proof/Machine/Fabric.lean ====
section
/-! DEFINITION. Remote accesses and fault tickets: the owner's handling of an arriving access, replies and tickets at the requester, notices,
posts and their timeouts (R196, R228, R229, R252, R253, R267, R281 to R289, R301 to R303). -/

namespace Sys2Proof.Machine

/-! ## Ticket words (R284) -/

/-- A ticket word. -/
def mkTicket (cls owner id : Nat) : BitVec 32 := BitVec.ofNat 32 (cls * 2 ^ 29 + owner % 2048 * 2 ^ 16 + id % 65536)
/-- Its class; 7 is received as 6. -/
def ticketClass (t : BitVec 32) : Nat := if bits t.toNat 31 29 = 7 then 6 else bits t.toNat 31 29
/-- Owner and id. -/
def ticketName (t : BitVec 32) : Nat := bits t.toNat 26 0
/-- A ticket word with another class. -/
def withClass (t : BitVec 32) (c : Nat) : BitVec 32 := BitVec.ofNat 32 (c * 2 ^ 29 + ticketName t)

/-- A time in microseconds as TIME units (R374). -/
def micros (n : Nat) : Nat := 16000 * n

/-! ## The requester's requests -/

/-- The request that carries a tag: tags are 16 bits wide on the wire (R295). -/
def Dev.request? (d : Dev) (tag : Nat) : Option (Nat × Request) := d.requests.find? (fun r => decide (r.1 % 65536 = tag % 65536))

/-- A request that is over. -/
def Dev.dropRequest (d : Dev) (k : Nat) : Dev := { d with requests := Tab.erase d.requests k }

/-- The die an operation belongs to: its core's; a grid's own operation uses die 0, a saved one the die of the core it left. -/
def Dev.opDie (d : Dev) (o : Op) : Nat :=
  if o.core < 256 then dieOf o.core
  else if o.core = 65535 then 0
  else match d.task? o.task with
    | some t => dieOf t.core
    | none => 0

/-- Whether an operation belongs to a saved group (R289). -/
def Op.saved (o : Op) : Bool := decide (65536 ≤ o.core)

/-- The world an operation's requests travel under. -/
def Dev.opWorld (d : Dev) (o : Op) : Nat :=
  match o.kind with
  | .depend g _ => ((d.grid? g).map (fun g => g.world)).getD 0
  | .doneWord g => ((d.grid? g).map (fun g => g.world)).getD 0
  | _ => d.worldOf o.task

/-- Whether a part of an operation is a write of its kind. -/
def Op.partWrites (o : Op) (p : LanePart) : Bool :=
  match o.kind with
  | .copy _ _ => decide (p.lane ≠ 0)
  | .doneWord _ => true
  | k => k.writes

/-- Sending a request again (R285, R286), which it now awaits a reply to anew (R301): the message of its operation's parts. -/
def Dev.resend (d : Dev) (k : Nat) (r : Request) : Dev :=
  match d.op? r.op with
  | none => d.dropRequest k
  | some o =>
    let ps := o.together r.part
    let n := partLen r.kind ps
    let m : Msg :=
      { kind := msgKind r.kind, win := r.win, va := r.va, tag := k % 65536, len := (n + 15) / 16 - 1, op := if r.kind = .write then n % 16 else o.atomCode,
        scope := o.scope, tkt := 0, data := partData r.kind ps, peer := r.peer, world := r.world }
    ({ d with requests := Tab.insert d.requests k { r with resend := none, full := false, sent := d.time } }).sendMsg 0 m

/-! ## Reissue and fatal ends (R229, R252, R267, R287) -/

/-- Sending a grid's own operation again. -/
def Dev.sendGridOp (d : Dev) (n : Nat) (o : Op) : Dev :=
  let p := o.parts.getD 0 default
  match p.loc.sp with
  | .remote peer win =>
    let wr := o.partWrites p
    d.sendPart 0 (d.opWorld o) n 0 peer win p.loc.a 8 0 3 (if wr then .write else .read) (if wr then Bytes.ofNat 8 p.data.toNat else [])
  | _ => d

/-- A waiting operation reissued (R228, R253, R287). One that an older operation holds back is sent when that one is done. -/
def Dev.reissue (d : Dev) (n : Nat) : Dev :=
  match d.op? n with
  | none => d
  | some o =>
    let d1 := d.modOp n (fun o => { o with st := .going, again := true })
    match o.kind with
    | .tile core entry =>
      match d1.entry? core entry with
      | some e =>
        if e.parked.isSome then
          ((d1.modEntry core entry (fun e => { e with parked := none })).modOp n (fun o => { o with parts := [] })).markRequests (core / 2)
        else if e.kind.stores then d1.pushAll n
        else if e.kind.isMma then d1.fetchMma core entry
        else d1.fetchParts n
      | none => d1
    | .copy _ _ => d1.sendCopy n 0
    | .depend _ _ => d1.sendGridOp n o
    | .doneWord _ => d1.sendGridOp n o
    | _ => d1.sendParts n 0 o.parts

/-- A matrix entry whose fetch is fatally ticketed ends with its completed groups (R229); one of a saved task leaves its save. -/
def Dev.failTile (d : Dev) (n : Nat) (o : Op) (core entry : Nat) (r : TrapRec) : Dev :=
  if o.saved then
    (d.modTask o.task (fun t => { t with savedMx := t.savedMx.filter (fun e => decide (e.id ≠ entry)) })).endOp n (some r)
  else match d.entry? core entry with
    | none => d.endOp n (some r)
    | some e =>
      let d1 := if e.kind.isMma ∧ e.started.isSome then d.parkMma core e 0 else d
      match d1.entry? core entry with
      | some e1 => d1.failEntry core e1 r
      | none => d1

/-- A copy whose ticket turns fatal (R252): its writing stops with code 6; one whose stamp was what waited ends without it. -/
def Dev.failCopy (d : Dev) (task m : Nat) : Dev :=
  match d.task? task with
  | none => d
  | some t =>
    match t.cq.entries.find? (fun e => decide (e.n = m)) with
    | some e => match e.chan, e.stop with
      | some c, none => d.stampCopy c.1 c.2 task t e 6
      | some c, some code => d.endCopy c.1 c.2 task e (if code = 0 then 6 else code)
      | none, _ => d
    | none => d

/-- A waiting operation ends without being performed, by a fatal ticket; the fault is reported by the operation's own rule (R287). -/
def Dev.failOp (d : Dev) (n addr : Nat) (tkt : BitVec 32) : Dev :=
  match d.op? n with
  | none => d
  | some o =>
    let d0 := (d.forget n).modOp n (fun o => { o with st := .going })
    let r := o.failure 0x10 addr tkt.toNat
    match o.kind with
    | .tile core entry => d0.failTile n o core entry r
    | .copy task m => d0.failCopy task m
    | .depend g _ => ({ d0 with ops := Tab.erase d0.ops n }).modGrid g (fun g => { g with fail := if g.fail = 0 then 1 else g.fail })
    | .doneWord g => ({ d0 with ops := Tab.erase d0.ops n }).lostDone g addr (d.opWorld o)
    | .monitor split =>
      match d0.split? o.core o.slot split with
      | some x => ({ d0 with ops := Tab.erase d0.ops n }).trapWait o.core o.slot split x { ctr := 9, seq := 0, op := n, tr := r }
      | none => { d0 with ops := Tab.erase d0.ops n }
    | .record => ((d0.modOp n (fun o => { o with st := .ended })).modHome o (fun g =>
        { g with failed := g.failed ++ [{ ctr := 9, seq := 0, op := n, tr := r }] })).wakeStalls
    | .stream _ => ((d0.modOp n (fun o => { o with st := .ended })).modHome o (fun g =>
        { g with failed := g.failed ++ [{ ctr := 9, seq := 0, op := n, tr := r }] })).wakeStalls
    | _ => (d0.endOp n (some r)).sendHeldBack

/-- The address by which a trap names an operation: its first part that is not done. -/
def Op.faultAddr (o : Op) : Nat := ((o.parts.find? (fun p => !p.done)).getD default).addr

/-- The end of a ticket for some operations, in issue order: reissued with class 0, ended with a fatal class (R287). -/
def Dev.settleTicket (d : Dev) (ops : List Nat) (tkt : BitVec 32) : Dev :=
  ((Tab.keys d.ops).filter (fun n => ops.contains n)).foldl (fun d n =>
    if ticketClass tkt = 0 then d.reissue n
    else d.failOp n ((d.op? n).map Op.faultAddr |>.getD 0) (withClass tkt (ticketClass tkt))) d

/-- The operations of an entry that are saved with their tasks, and the others (R289). -/
def Dev.savedOps (d : Dev) (l : List Nat) : List Nat := l.filter (fun n => match d.op? n with
  | some o => o.saved
  | none => false)

/-- An entry of a die meets a notice, or its timeout: operations of saved tasks wait on with it, an accepted copy's among them (DESIGN CHOICE, log entry 121),
the rest go on, and an entry with none left is freed (R286, R287, R289). -/
def Dev.noticeEntry (d : Dev) (die key : Nat) (tkt : BitVec 32) : Dev :=
  match Tab.find (d.die die).tickets key with
  | none => d
  | some e =>
    let kept := d.savedOps e.ops
    let d1 := d.modDie die (fun x => { x with
      tickets :=
      if kept.isEmpty then Tab.erase x.tickets key else Tab.insert x.tickets key { e with ops := kept, notice := some tkt } })
    d1.settleTicket (e.ops.filter (fun n => !kept.contains n)) tkt

/-! ## Replies (R281, R286, R301) -/

/-- A remote part's data as they came. -/
def Dev.partCame (d : Dev) (n i : Nat) (x : Nat) : Dev :=
  d.modOp n (fun o => { o with parts := setAt o.parts i { (o.parts.getD i default) with data := BitVec.ofNat 128 x, done := true } })

/-- The lanes that a request serves are done, lane by lane, each with its unit of 16 bytes of what came (log entry 90). -/
def Op.finishTogether (o : Op) (i : Nat) (data : List Byte) : Op :=
  let ls := (o.parts.zipIdx).filter (fun x => if o.kind.acc = .rmw then !x.1.done && decide (x.1.loc = (o.parts.getD i default).loc) else decide (x.2 = i))
  (ls.zipIdx).foldl (fun q x => q.finish x.1.2 (Bytes.toNat ((data.drop (16 * x.2)).take 4)) false) o

/-- A load's bytes come from its owner, under the group's own older stores (R149, R172): they bind, and replace the core's copy, or are no copy with
cache code 11 or when a store of the core has outdated them meanwhile (R153, R177). -/
def Dev.loadCame (d : Dev) (r : Request) (o : Op) (p : LanePart) (bs : List Byte) : Dev :=
  let mine := (bs.zipIdx).map (fun b => d.overlay o.core o.slot r.op (p.loc.plus b.2) b.1)
  let d1 := if o.saved ∨ p.cache = 3 ∨ !r.keep then d.dropCopy o.core p.loc p.n else d.keepCopy o.core p.loc bs
  ((d1.modOp r.op (fun q => q.finish r.part (Bytes.toNat mine) false)).endIfDone r.op).sendHeldBack

/-- The bytes of a reply as the core's copy of a place: they replace an older one, or none is left (R177). -/
def Dev.keptCopy (d : Dev) (r : Request) (o : Op) (p : LanePart) (bs : List Byte) : Dev :=
  if o.saved then d else if r.keep then d.keepCopy o.core p.loc bs else d.dropCopy o.core p.loc p.n

/-- A fetch for a monitor has its block, and is over (R167). -/
def Dev.fetchCame (d : Dev) (n : Nat) : Dev :=
  match d.op? n with
  | some o => if o.parts.all (fun p => p.done) then Dev.wakeStalls { d with ops := Tab.erase d.ops n } else d
  | none => d

/-- Read data come for a request: the waiting operation binds them. -/
def Dev.replied (d : Dev) (k : Nat) (r : Request) (data : List Byte) : Dev :=
  let d0 := d.dropRequest k
  match d0.op? r.op with
  | none => d0
  | some o =>
    let p := o.parts.getD r.part default
    let bs := data.take p.n
    let x := Bytes.toNat bs
    match o.kind with
    | .load _ _ => d0.loadCame r o p bs
    | .loadU _ => d0.loadCame r o p bs
    | .atom _ _ => (((d0.outdate o.core p.loc p.n).modOp r.op (fun q => q.finishTogether r.part data)).endIfDone r.op).sendHeldBack
    | .pref _ => (((d0.keptCopy r o p bs).partCame r.op r.part x).fetchCame r.op)
    | .monitor split => ({ d0.keptCopy r o p bs with ops := Tab.erase d0.ops r.op }).mwaitSees o.core o.slot split (BitVec.ofNat 64 x)
    | .depend g w => ({ d0 with ops := Tab.erase d0.ops r.op }).modGrid g (fun g => g.found w x)
    | .store => d0
    | .red _ _ => d0
    | .doneWord _ => d0
    | _ => (d0.partCame r.op r.part x).wakeStalls

/-- READ_DATA (R301): read data for a tag. One that no request awaits is ignored. -/
def execReadData (tag : Nat) (data : List (BitVec 8)) (s : State) : Out :=
  match s.dev.request? tag with
  | some (k, r) => .next (s.modDev (fun d => d.replied k r data))
  | none => .next s

/-- An owner's acknowledgement come for a request: the remote part is performed (R177). -/
def Dev.acked (d : Dev) (k : Nat) (r : Request) : Dev :=
  let d0 := d.dropRequest k
  match d0.op? r.op with
  | none => d0
  | some o =>
    let p := o.parts.getD r.part default
    let d1 := (d0.outdate o.core p.loc p.n).modOp r.op (fun q => q.finishTogether r.part [])
    match o.kind with
    | .store => (d1.endIfDone r.op).sendHeldBack
    | .red _ _ => (d1.endIfDone r.op).sendHeldBack
    | .tile _ _ => d1.pushAll r.op
    | .copy _ _ => d1
    | .doneWord g => ({ d1 with ops := Tab.erase d1.ops r.op }).endGrid g
    | _ => d0

/-- WRITE_ACK (R177). -/
def execWriteAck (tag : Nat) (s : State) : Out :=
  match s.dev.request? tag with
  | some (k, r) => .next (s.modDev (fun d => d.acked k r))
  | none => .next s

/-- An operation waits on a ticket: it is in an entry of its die; an MMA on the array parks (R228, R286). -/
def Dev.awaitTicket (d : Dev) (n : Nat) (o : Op) (tkt : BitVec 32) : Dev :=
  let d1 := d.modOp n (fun o => { o with st := .ticketed tkt })
  match o.kind with
  | .tile core entry =>
    match d1.entry? core entry with
    | some e => if e.kind.isMma ∧ e.started.isSome then d1.parkMma core e tkt else d1
    | none => d1
  | _ => d1

/-- TIME units of 1,024 and of 4,096 cycles of the 2.5 GHz reference (R285, R286), to the next whole unit. -/
def busyWait : Nat := 6554
def fullWait : Nat := 26215

/-- A pending ticket for a request (R286, R303): a kept notice settles it at once; else its operation joins the page's entry, or a new one; with the
table full it is sent again later. -/
def Dev.pendTicket (d : Dev) (k : Nat) (r : Request) (o : Op) (tkt : BitVec 32) : Dev :=
  let die := d.opDie o
  let x := d.die die
  match x.kept.find? (fun e => decide (ticketName e.1 = ticketName tkt)) with
  | some e => ((d.dropRequest k).modOp r.op (fun o => { o with st := .ticketed tkt })).settleTicket [r.op] e.1
  | none =>
    match d.ticketFor die r.peer r.win (r.va / 65536) r.world with
    | some (j, e) =>
      let d1 := (d.dropRequest k).modDie die (fun x => { x with
      tickets :=
        Tab.insert x.tickets j { e with tkt := tkt, ops := if e.ops.contains r.op then e.ops else e.ops ++ [r.op] } })
      d1.awaitTicket r.op o tkt
    | none =>
      if 1024 ≤ x.tickets.length then
        { d with requests := Tab.insert d.requests k { r with resend := some (d.time + fullWait), full := true } }
      else
        let e : TicketEntry :=
          { owner := r.peer, win := r.win, page := r.va / 65536, world := r.world, tkt := tkt, ops := [r.op], since := d.time, notice := none }
        let d1 := (d.dropRequest k).modDie die (fun x => { x with tickets := Tab.insert x.tickets d.nextTicket e })
        ({ d1 with nextTicket := d1.nextTicket + 1 }).awaitTicket r.op o tkt

/-- TICKET_REPLY (R284, R286). -/
def execTicketReply (tag : Nat) (word : BitVec 32) (s : State) : Out :=
  let tkt := withClass word (ticketClass word)
  match s.dev.request? tag with
  | none => .next s
  | some (k, r) =>
    match s.dev.op? r.op with
    | none => .next (s.modDev (fun d => d.dropRequest k))
    | some o =>
      if ticketClass tkt ≠ 0 then .next (s.modDev (fun d => (d.dropRequest k).failOp r.op (o.parts.getD r.part default).addr tkt))
      else .next (s.modDev (fun d => d.pendTicket k r o tkt))

/-- BUSY (R285). -/
def execBusy (tag : Nat) (s : State) : Out :=
  match s.dev.request? tag with
  | none => .next s
  | some (k, r) =>
    .next (s.modDev (fun d => { d with requests := Tab.insert d.requests k { r with resend := some (d.time + busyWait), full := false } }))

/-- A resend that has come due. -/
def State.resendDue (s : State) (tag : Nat) (full : Bool) : State :=
  match s.dev.request? tag with
  | some (k, r) => match r.resend with
    | some t => if t ≤ s.dev.time ∧ r.full = full then s.modDev (fun d => d.resend k r) else s
    | none => s
  | none => s

/-- BUSY_RESEND (R285). -/
def execBusyResend (tag : Nat) (s : State) : Out := .next (s.resendDue tag false)
/-- TICKET_TABLE_FULL_RESEND (R286). -/
def execTicketTableFullResend (tag : Nat) (s : State) : Out := .next (s.resendDue tag true)

/-! ## Notices and timeouts (R286, R287, R301, R303) -/

/-- A notice at one die: counted, kept for 1 ms, and given to the entries it names. -/
def Dev.noticeDie (d : Dev) (die : Nat) (tkt : BitVec 32) : Dev :=
  let hits := ((d.die die).tickets.filter (fun e => decide (ticketName e.2.tkt = ticketName tkt))).map Prod.fst
  let d1 := d.modDie die (fun x => { x with notices := x.notices + 1, kept := x.kept ++ [(tkt, d.time)] })
  hits.foldl (fun d k => d.noticeEntry die k tkt) d1

/-- REPLAY_NOTICE (R287, R303). -/
def execReplayNotice (tkt : BitVec 32) (s : State) : Out :=
  .next (s.modDev (fun d => (List.range 4).foldl (fun d i => d.noticeDie i (withClass tkt (ticketClass tkt))) d))

/-- REQUESTER_TICKET_TIMEOUT (R286). -/
def execRequesterTicketTimeout (die entry : Nat) (s : State) : Out :=
  match Tab.find (s.dev.die die).tickets entry with
  | none => .next s
  | some e =>
    if e.notice.isSome ∨ s.dev.time < e.since + micros (s.dev.param 1) then .next s
    else .next (s.modDev (fun d => d.noticeEntry die entry (withClass e.tkt 6)))

/-- A request's message that has not gone out yet is withdrawn. -/
def Dev.unsend (d : Dev) (tag peer : Nat) : Dev :=
  let other (m : Msg) : Bool := !decide (m.kind ≤ 2 ∧ m.tag = tag % 65536 ∧ m.peer = peer)
  { d with
    stranded := d.stranded.filter other
    links := Tab.mapV d.links (fun _ l => { l with queued := Tab.mapV l.queued (fun _ q => q.filter other) }) }

/-- REMOTE_RESPONSE_TIMEOUT (R301). -/
def execRemoteResponseTimeout (tag : Nat) (s : State) : Out :=
  match s.dev.request? tag with
  | none => .next s
  | some (k, r) =>
    if r.resend.isSome ∨ s.dev.time < r.sent + micros (s.dev.param 2) then .next s
    else .next (s.modDev (fun d =>
      ((d.dropRequest k).unsend k r.peer).failOp r.op (((d.op? r.op).map (fun o => (o.parts.getD r.part default).addr)).getD 0) (mkTicket 6 r.peer 0)))

/-- NOTICE_RETENTION_EXPIRY (R303). -/
def execNoticeRetentionExpiry (tkt : BitVec 32) (s : State) : Out :=
  .next (s.modDev (fun d => { d with dies := Tab.mapV d.dies (fun _ x =>
    { x with kept := x.kept.filter (fun e => !decide (e.1 = tkt ∧ e.2 + micros 1000 ≤ d.time)) }) }))

/-! ## The owner (R282, R283, R285, R302) -/

/-- The answer to a request. -/
def answerTo (m : RemoteMsg) (kind : Nat) (tkt : BitVec 32) (data : List Byte) : Msg :=
  { kind := kind, win := m.win, va := m.va, tag := m.tag, len := if kind = 3 then (data.length + 15) / 16 - 1 else 0, op := 0, scope := 0,
    tkt := tkt, data := data, peer := m.peer, world := m.world }

/-- Answering: data, acknowledgements and busy replies on channel 1, tickets on channel 2 (R294). -/
def Dev.answer (d : Dev) (m : Msg) : Dev := d.sendMsg (if m.kind = 5 then 2 else 1) m

/-- What an access at system scope of a peer awaits of the host or a completer has come at once (R177, R195, R197; log entry 97). -/
def Dev.peerGives (d : Dev) (m : RemoteMsg) (l : Loc) : Dev := if m.scope = 5 then d.hostGives [l.line] else d

/-- An arriving atomic's operation (R295). -/
def remoteKind (m : RemoteMsg) : OpKind := if m.op / 2 ≤ 10 then .atom (m.op / 2) 127 else .red (m.op / 2) (decide (m.op % 2 = 1))

/-- The lanes of an arriving atomic one after another on its word (R191, R197): each unit of 16 bytes a lane, its old value given back. -/
def Dev.serveUnits (d : Dev) (m : RemoteMsg) (l : Loc) (swa : Bool) : Nat → List Byte → Dev × List Byte
  | 0, _ => (d, [])
  | n + 1, bs =>
    let mixes := !(swa && decide (m.scope = 5))
    let d0 := d.countMixed l (if mixes then [1, 4] else [1])
    let old : W32 := BitVec.ofNat 32 (d0.readNat l 4)
    let d1 := match atomNew (remoteKind m) old (BitVec.ofNat 128 (Bytes.toNat (bs.take 16))) with
      | none => d0
      | some w => (d0.perform l (Bytes.ofNat 4 w.toNat)).markWriter l 4 (if mixes then 2 else 3)
    let r := d1.serveUnits m l swa n (bs.drop 16)
    (r.1, Bytes.ofNat 16 old.toNat ++ r.2)

/-- The bytes that an arriving access touches. -/
def remoteSpan (m : RemoteMsg) : Nat :=
  match m.kind with
  | .write => m.data.length
  | .rmw => 4
  | _ => min (16 * (m.len + 1)) (65536 - m.va % 65536)

/-- The effect of an arriving access at its place in the home slice, and the answer. A read gives whole 16-byte units, but none past the page; an atomic
of the reduction forms is acknowledged, the others give the old values (R155, R191, R283). -/
def Dev.serveRemote (d : Dev) (m : RemoteMsg) (l : Loc) (swa : Bool) : Dev × Msg :=
  match m.kind with
  | .write => (((d.perform l m.data).homeLine l).peerGives m l, answerTo m 4 0 [])
  | .rmw =>
    let r := (((d.combineRange l 4).reportRaw l 4).peerGives m l).serveUnits m l swa ((m.data.length + 15) / 16) m.data
    (r.1.homeLine l, if m.op / 2 ≤ 10 then answerTo m 3 0 (if m.data.length ≤ 16 then r.2.take 4 else r.2) else answerTo m 4 0 [])
  | _ =>
    let n := (remoteSpan m)
    let d1 := (linesOf l.a n).foldl (fun d i => if l.cached then d.shareOthers 256 ({ l with a := 128 * i } : Loc).line else d) ((d.combineRange l n).reportRaw l n)
    (d1, answerTo m 3 0 (d1.readBytes l n))

/-- The service message of a ticket in the last 32 bytes of the mailbox's slot, so that it is an arrival (R285). -/
def Dev.serviceMessage (d : Dev) (w : Window) (m : RemoteMsg) (tkt : BitVec 32) : Dev :=
  let b := d.box w.mbox
  let bs := Bytes.ofNat 8 (m.va / 65536 * 65536) ++ Bytes.ofNat 4 tkt.toNat ++ [BitVec.ofNat 8 m.win, BitVec.ofNat 8 (kindCode m.kind)] ++
    List.replicate 18 0
  d.perform { b.trigAt with a := b.trig - 24 } bs

/-- The open ticket of a page. -/
def Dev.openTicket (d : Dev) (win page : Nat) : Option (Nat × OwnerTicket) :=
  d.owned.find? (fun t => decide (t.2.win = win ∧ t.2.page = page))

/-- A new ticket's id: the first that no open ticket has after the last one given, in 1 to 65,535 (R285). -/
def Dev.freeTicket (d : Dev) : Nat :=
  let at_ (i : Nat) : Nat := (d.lastTicket + i) % 65535 + 1
  at_ ((firstBelow (fun i => (Tab.find d.owned (at_ i)).isNone) 4097).getD 0)

/-- Opening a ticket for a page, or the busy answer where 4,096 are open (R283, R285). -/
def Dev.newTicket (d : Dev) (w : Window) (m : RemoteMsg) : Dev :=
  if !(d.box w.mbox).bound then d.answer (answerTo m 5 (mkTicket 1 d.peerId 0) [])
  else if 4096 ≤ d.owned.length then d.answer (answerTo m 7 0 [])
  else
    let id := d.freeTicket
    let t := mkTicket 0 d.peerId id
    let d1 := { d with lastTicket := id, owned := Tab.insert d.owned id { win := m.win, page := m.va / 65536, peers := [m.peer], since := d.time } }
    (d1.serviceMessage w m t).answer (answerTo m 5 t [])

/-- The owner's translation of an arriving access (R283): without privilege, in the session's world. Its entries stand apart from every die's, under the number
4 (R290). -/
def Dev.windowCtx (w : Window) (m : RemoteMsg) : XCtx :=
  { core := none, die := 4, world := m.world, asn := w.asn, root := w.root, priv := false, spec := false }

/-- Whether an arriving access is for a line that a copy engine holds, so that it waits for the recall (R158). -/
def Dev.arrivalWaits (d : Dev) (m : RemoteMsg) : Bool :=
  match (d.translate (Dev.windowCtx (d.window m.win) m) m.kind m.va).out with
  | .ok p => !p.loc.isRemote && d.engineHolds p.loc (remoteSpan m)
  | .error _ => false

/-- REMOTE_ACCESS_ARRIVAL (R158, R283, R302): a request whose tag is kept is answered as before and not performed again; one for a line that a copy engine
holds waits for the recall. -/
def execRemoteAccessArrival (m : RemoteMsg) (s : State) : Out :=
  let d := s.dev
  let w := d.window m.win
  let refuse (d : Dev) (c : Nat) : Dev := d.answer (answerTo m 5 (mkTicket c d.peerId 0) [])
  match d.performedTags.find? (fun t => decide (t.1 = m.peer ∧ t.2.1 = m.tag)) with
  | some t => .next { s with dev := d.answer t.2.2.1 }
  | none =>
    if !w.v ∨ m.peer < w.plo ∨ w.phi < m.peer then .next { s with dev := refuse d 4 }
    else if m.world ≠ w.world then .next { s with dev := refuse d 3 }
    else if kindWrites m.kind ∧ !w.wr then .next { s with dev := refuse d 2 }
    else match d.openTicket m.win (m.va / 65536) with
      | some (id, t) =>
        let d1 := { d with owned := Tab.insert d.owned id { t with peers := if t.peers.contains m.peer then t.peers else t.peers ++ [m.peer] } }
        .next { s with dev := d1.answer (answerTo m 5 (mkTicket 0 d.peerId id) []) }
      | none =>
        let r := d.translate (Dev.windowCtx w m) m.kind m.va
        match r.out with
        | .error .hedge => .next { s with dev := refuse r.dev 3 }
        | .error (.fault _ c) => .next { s with dev := if c = 1 ∨ c = 7 then r.dev.newTicket w m else refuse r.dev 2 }
        | .ok p =>
          if p.loc.isRemote then .next { s with dev := refuse r.dev 2 }
          else if r.dev.engineHolds p.loc (remoteSpan m) then .next s
          else
            let (d1, a) := r.dev.serveRemote m p.loc (leafSwa p.leaf)
            .next { s with dev := ({ d1 with performedTags := d1.performedTags ++ [(m.peer, m.tag, a, d1.time)] }).answer a }

/-- TAG_RETENTION_EXPIRY (R302). -/
def execTagRetentionExpiry (peer tag : Nat) (s : State) : Out :=
  .next (s.modDev (fun d => { d with
      performedTags :=
    d.performedTags.filter (fun t => !decide (t.1 = peer ∧ t.2.1 = tag ∧ t.2.2.2 + micros 1000 ≤ d.time)) }))

/-- A ticket closes with an outcome: a notice goes to every peer that holds it (R285). -/
def Dev.closeTicket (d : Dev) (id cls : Nat) : Dev :=
  match Tab.find d.owned id with
  | none => d
  | some t =>
    let n (peer : Nat) : Msg :=
      { kind := 6, win := t.win, va := t.page * 65536, tag := 0, len := 0, op := 0, scope := 0, tkt := mkTicket cls d.peerId id, data := [],
        peer := peer, world := (d.window t.win).world }
    let d1 := { d with owned := Tab.erase d.owned id }
    t.peers.foldl (fun d p => d.sendMsg 2 (n p)) d1

/-- Posts with one of them taken away. -/
def dropPost (win : Nat) (word : W64) : List (Nat × W64) → List (Nat × W64)
  | [] => []
  | p :: l => if p = (win, word) then l else p :: dropPost win word l

/-- TICKET_POST (R285): a performed write of a window's post word names a ticket opened through the window; the hedgerow checks the word's frame. Bits [60:16]
of the word are ignored (DESIGN CHOICE, log entry 98). -/
def execTicketPost (win : Nat) (word : BitVec 64) (s : State) : Out :=
  if !s.dev.posted.contains (win, word) then .next s
  else
    let d := { s.dev with posted := dropPost win word s.dev.posted }
    let w := d.window win
    let id := bits word.toNat 15 0
    let mine := match Tab.find d.owned id with
      | some t => decide (t.win = win)
      | none => false
    .next { s with dev := if mine && d.hedge w.post w.world then d.closeTicket id (bits word.toNat 63 61) else d }

/-- OWNER_TICKET_TIMEOUT (R285): closed with no notice. -/
def execOwnerTicketTimeout (id : Nat) (s : State) : Out :=
  match Tab.find s.dev.owned id with
  | none => .next s
  | some t =>
    .next (if s.dev.time < t.since + micros (s.dev.param 1) then s else s.modDev (fun d => { d with owned := Tab.erase d.owned id }))

end Sys2Proof.Machine
end

