-- ==== Sys2Proof/Machine/Links.lean ====
section
/-! DEFINITION. Abjan links: messages in flits, striping, compression, retry, retraining, credits, ciphering and counters (R293 to R305, R388,
R392). -/

namespace Sys2Proof.Machine

/-! ## Widths and windows (R293, R296, R297) -/

/-- Lanes of a link at full width. -/
def Dev.fullWidth (d : Dev) : Nat := if d.gangMode then 16 else 4
/-- Number of links. -/
def Dev.linkCount (d : Dev) : Nat := if d.gangMode then 18 else 72
/-- The link of a port. -/
def Dev.linkOfPort (d : Dev) (p : Nat) : Nat := if d.gangMode then p / 4 else p
/-- The working lanes of a mask. -/
def lanesIn (m : BitVec 16) : List Nat := (List.range 16).filter (fun i => m.getLsbD i)
/-- The width of a link (R296). -/
def Link.width (k : Link) : Nat := (lanesIn k.lanes).length
/-- The most unacknowledged flits (R297). -/
def Dev.window_ (d : Dev) (k : Link) : Nat := (256 * k.width + d.fullWidth - 1) / d.fullWidth
/-- The replay timeout in TIME units (R297). -/
def Dev.replayTime (d : Dev) (k : Link) : Nat := if k.width = 0 then 0 else (micros 1 * d.fullWidth + k.width - 1) / k.width
/-- The lane that byte i of a flit goes to (R296). -/
def Link.laneOf (k : Link) (i : Nat) : Nat := (lanesIn k.lanes).getD (i % k.width) 0
/-- The bytes of a flit that each working lane sends, in ascending i (R296). -/
def Link.stripe (k : Link) (bs : List Byte) : List (Nat × List Byte) :=
  (lanesIn k.lanes).map (fun l => (l, ((bs.zipIdx).filter (fun b => decide (k.laneOf b.2 = l))).map Prod.fst))
/-- The lanes of a mask that a link has at all (R293). -/
def Dev.ownLanes (d : Dev) (m : BitVec 16) : BitVec 16 := m &&& BitVec.ofNat 16 (2 ^ d.fullWidth - 1)
/-- The lanes that a link keeps of those that trained: any number in gang mode, 4, 2 or 1 in plane mode (R296). -/
def Dev.keepLanes (d : Dev) (trained : BitVec 16) : BitVec 16 :=
  let l := lanesIn (d.ownLanes trained)
  let n := if d.gangMode then l.length else if l.length = 3 then 2 else min l.length 4
  (l.take n).foldl (fun m i => m ||| BitVec.ofNat 16 (2 ^ i)) 0

/-- The lanes of a link whose macros have not been retired for wear (R363): four to a macro. -/
def Dev.goodLanes (d : Dev) (l : Nat) : BitVec 16 :=
  ((d.portsOf l).zipIdx).foldl (fun m p => if (d.wearOf (912 + p.1)).st = 5 then m &&& ~~~(BitVec.ofNat 16 (15 * 16 ^ p.2)) else m)
    (d.ownLanes (BitVec.allOnes 16))

/-! ## Compression (R299) -/

/-- The 8-byte elements of a sub-block. -/
def elements (bs : List Byte) : List W64 := wordsOf bs 8
/-- The delta of an element from the first, as a byte, where it fits (R156). -/
def deltaByte (base x : W64) : Option Byte := let z := (x - base).toInt; if -128 ≤ z ∧ z ≤ 127 then some (BitVec.ofInt 8 z) else none
/-- The deltas of a sub-block where all fit. -/
def deltas (l : List W64) : Option (List Byte) := l.mapM (deltaByte (l.headD 0))

/-- A 64-byte sub-block's code and stored bytes. -/
def packSub (bs : List Byte) : Nat × List Byte :=
  let l := elements bs
  if bs.all (fun b => decide (b = 0)) then (0, [])
  else if l.all (fun x => decide (x = l.headD 0)) then (1, bs.take 8)
  else match deltas l with
    | some ds => (2, bs.take 8 ++ ds)
    | none => (3, bs)

/-- A 256-byte chunk: its header, and the encodings of its four sub-blocks. -/
def packChunk (bs : List Byte) : List Byte :=
  let subs := (List.range 4).map (fun s => packSub ((bs.drop (64 * s)).take 64))
  let header := (subs.zipIdx).foldl (fun h s => h + s.1.1 * 4 ^ s.2) 0
  BitVec.ofNat 8 header :: subs.flatMap Prod.snd

/-- Bytes with zeros to a multiple. -/
def padTo (n : Nat) (bs : List Byte) : List Byte := bs ++ List.replicate ((n - bs.length % n) % n) 0

/-- Data in compressed chunks; the next message begins at a multiple of 16 bytes (log entry 17). -/
def pack (bs : List Byte) : List Byte :=
  let x := padTo 256 bs
  padTo 16 ((List.range (x.length / 256)).flatMap (fun i => packChunk ((x.drop (256 * i)).take 256)))

/-- Bytes that a sub-block of a code is stored in. -/
def storedSize (code : Nat) : Nat := match code with | 0 => 0 | 1 => 8 | 2 => 16 | _ => 64

/-- A sub-block from its code and stored bytes. -/
def unpackSub (code : Nat) (bs : List Byte) : List Byte :=
  match code with
  | 0 => List.replicate 64 0
  | 1 => (List.replicate 8 (bs.take 8)).flatten
  | 2 => (bs.drop 8).flatMap (fun x => Bytes.ofNat 8 (BitVec.ofNat 64 (Bytes.toNat (bs.take 8)) + x.signExtend 64).toNat)
  | _ => bs

/-- A chunk and what follows it; none while bytes of it are missing. -/
def unpackChunk : List Byte → Option (List Byte × List Byte)
  | [] => none
  | h :: l =>
    let codes := (List.range 4).map (fun s => bits h.toNat (2 * s + 1) (2 * s))
    let total := (codes.map storedSize).foldl (· + ·) 0
    if l.length < total then none
    else
      let r := codes.foldl (fun (a : List Byte × List Byte) c => (a.1 ++ unpackSub c (a.2.take (storedSize c)), a.2.drop (storedSize c))) ([], l)
      some r

/-- So many chunks from some bytes: the data, and the bytes used. -/
def unpack : Nat → List Byte → Option (List Byte × List Byte)
  | 0, bs => some ([], bs)
  | n + 1, bs =>
    match unpackChunk bs with
    | none => none
    | some (x, rest) => match unpack n rest with
      | some (y, r) => some (x ++ y, r)
      | none => none

/-! ## Messages (R295) -/

/-- The channel of a kind of message (R294, R300). -/
def msgVc (kind : Nat) : Nat := match kind with | 0 => 0 | 1 => 0 | 2 => 0 | 3 => 1 | 4 => 1 | 7 => 1 | 5 => 2 | 6 => 2 | _ => 3
/-- Kinds that carry data. -/
def carriesData (kind : Nat) : Bool := decide (1 ≤ kind ∧ kind ≤ 3)

/-- A message's two header words. -/
def Msg.header (m : Msg) : List Byte :=
  Bytes.ofNat 8 (m.kind * 2 ^ 60 + m.win % 32 * 2 ^ 55 + m.va % 2 ^ 54) ++
    Bytes.ofNat 8 (m.tag % 65536 * 2 ^ 48 + m.len % 256 * 2 ^ 40 + m.op % 32 * 2 ^ 35 + m.scope % 8 * 2 ^ 32 + m.tkt.toNat)

/-- A message's bytes on the wire. -/
def Msg.bytes (m : Msg) (compress : Bool) : List Byte :=
  if carriesData m.kind then
    let x := (m.data ++ List.replicate (16 * (m.len + 1) - m.data.length) 0).take (16 * (m.len + 1))
    m.header ++ (if compress then pack x else x)
  else m.header

/-- A message from its header words. -/
def msgOf (w0 w1 peer world : Nat) (data : List Byte) : Msg :=
  { kind := bits w0 63 60, win := bits w0 59 55, va := bits w0 53 0, tag := bits w1 63 48, len := bits w1 47 40, op := bits w1 39 35,
    scope := bits w1 34 32, tkt := BitVec.ofNat 32 (bits w1 31 0), data := data, peer := peer, world := world }

/-- A protocol error: a reserved kind, or a reserved field that is not zero, those of the ticket word among them (R284, R295). The op field is reserved
for no kind (DESIGN CHOICE, log entry 90). -/
def Msg.bad (m : Msg) (w0 : Nat) : Bool :=
  decide (10 ≤ m.kind) || bit w0 54 || (if m.kind = 5 ∨ m.kind = 6 then decide (bits m.tkt.toNat 28 27 ≠ 0) else decide (m.tkt ≠ 0))

/-- Messages read from a stream of bytes: whole ones, those discarded, and the bytes of one that is not whole yet. -/
def parseMsgs (cmp : Bool) (peer world : Nat) : Nat → List Byte → List Msg × Nat × List Byte
  | 0, bs => ([], 0, bs)
  | n + 1, bs =>
    if bs.length < 16 then ([], 0, bs)
    else
      let w0 := Bytes.toNat (bs.take 8)
      let w1 := Bytes.toNat ((bs.drop 8).take 8)
      let m := msgOf w0 w1 peer world []
      let body := bs.drop 16
      let size := 16 * (m.len + 1)
      let got : Option (List Byte × List Byte) :=
        if !carriesData m.kind then some ([], body)
        else if cmp then (unpack ((size + 255) / 256) body).map (fun x =>
          (x.1.take size, body.drop ((body.length - x.2.length + 15) / 16 * 16)))
        else if body.length < size then none
        else some (body.take size, body.drop size)
      match got with
      | none => ([], 0, bs)
      | some (data, rest) =>
        let r := parseMsgs cmp peer world n rest
        if m.bad w0 then (r.1, r.2.1 + 1, r.2.2) else ({ m with data := data } :: r.1, r.2.1, r.2.2)

/-! ## Flits (R294, R304, R388) -/

/-- A flit's eight header bytes. -/
def flitHeader (f : Flit) : List Byte :=
  Bytes.ofNat 8 (f.vc * 2 ^ 62 + f.world * 2 ^ 54 + (if f.ks then 2 ^ 53 else 0) + (if f.cmp then 2 ^ 52 else 0)
    + f.zero.toNat * 2 ^ 50 + f.src * 2 ^ 39 + f.dst * 2 ^ 28
    + f.ack * 2 ^ 16 + f.seq)

/-- One bit of CRC-64 with the ECMA-182 polynomial, the most significant bit first. -/
def crcBit (c : BitVec 64) : BitVec 64 := if c.getLsbD 63 then (c <<< 1) ^^^ 0x42F0E1EBA9EA3693 else c <<< 1
/-- CRC-64 of some bytes, from zero (R294; log entry 18). -/
def crc64 (bs : List Byte) : BitVec 64 :=
  bs.foldl (fun (c : BitVec 64) (b : Byte) => (List.range 8).foldl (fun c _ => crcBit c) (c ^^^ (BitVec.zeroExtend 64 b) <<< (56 : Nat))) 0

/-- Whether a direction runs from the higher peer id (R304). -/
def fromHigher (src dst : Nat) : Bool := decide (dst < src)

/-- The initialisation vector of a flit (R304). -/
def flitIv (ctr src link dst : Nat) : BitVec 96 :=
  BitVec.ofNat 96 (ctr % 2 ^ 48 * 2 ^ 48 + src % 2048 * 2 ^ 37 + link % 128 * 2 ^ 30 + (if fromHigher src dst then 2 ^ 29 else 0))

/-- The key of a flit (R388): the world's slot that ks selects, 0 where it holds nothing (DESIGN CHOICE, log entry 122), under the link's secret. -/
def Dev.flitKey (d : Dev) (link world : Nat) (ks : Bool) (src dst : Nat) : BitVec 256 :=
  Config.hkdf (Tab.get 0 d.keys (2 * world + (if ks then 1 else 0))) (d.link link).secret link (fromHigher src dst)

/-- Bytes under a key stream: ciphering and deciphering are the same. -/
def cipher (key : BitVec 256) (iv : BitVec 96) (bs : List Byte) : List Byte := (bs.zipIdx).map (fun b => b.1 ^^^ Config.keyStream key iv b.2)

/-- The tag over a flit's bytes 0..263, and the CRC over bytes 0..279. -/
def sealFlit (f : Flit) (key : BitVec 256) (iv : BitVec 96) : Flit :=
  let body := flitHeader f ++ f.payload
  let t := Config.gcmTag key iv body
  { f with gcmTag := t, crc := crc64 (body ++ Bytes.ofNat 16 t.toNat) }

/-- The 288 bytes of a flit (R294). -/
def flitBytes (f : Flit) : List Byte := flitHeader f ++ f.payload ++ Bytes.ofNat 16 f.gcmTag.toNat ++ Bytes.ofNat 8 f.crc.toNat
/-- A flit put on the wire: each working lane sends its bytes (R296), for as many byte times as the first one has bytes. -/
def Link.onWire (k : Link) (f : Flit) : Link :=
  let lanes := k.stripe (flitBytes f)
  { k with wire := k.wire ++ [(f, lanes)], sent := k.sent + (lanes.map (fun x => x.2.length)).foldl max 0 }

/-- Whether a flit's CRC holds. -/
def flitCrcOk (f : Flit) : Bool := decide (f.crc = crc64 (flitHeader f ++ f.payload ++ Bytes.ofNat 16 f.gcmTag.toNat))

/-! ## Sending (R296, R299, R300) -/

/-- The world session with a peer (R390). -/
def Dev.worldSession (d : Dev) (peer world : Nat) : Option (Nat × Session) :=
  d.sessions.find? (fun s => decide (s.2.port = none ∧ s.2.peer = peer ∧ s.2.world = world))

/-- Whether traffic for a peer under a world is dropped, management too: its world session is in error (R390). -/
def Dev.drops (d : Dev) (peer world : Nat) : Bool :=
  match d.worldSession peer world with
  | some s => decide (s.2.st = .error)
  | none => false

/-- Whether traffic of a channel may pass a link for a world and a peer (R390): none of a session in error; management else, and the rest while its sessions
are in run. -/
def Dev.passes (d : Dev) (link vc peer world : Nat) : Bool :=
  d.linkSound link && !d.drops peer world && (decide (vc = 3) ||
    ((d.linkSessions link).any (fun s => decide (s.st = .run)) && (match d.worldSession peer world with
      | some s => decide (s.2.st = .run)
      | none => false)))

/-- The bytes of a payload area gathered from the messages that wait for one peer under one world: bytes, messages carried, the one begun, the
messages left. -/
def gatherFlit (compress : Bool) (peer world : Nat) : Nat → List Byte → List Msg → Option (Msg × List Byte) → List Msg →
    List Byte × List Msg × Option (Msg × List Byte) × List Msg
  | 0, acc, car, st, q => (acc, car, st, q)
  | n + 1, acc, car, st, q =>
    if 256 ≤ acc.length then (acc, car, st, q)
    else match st with
      | some (m, rest) =>
        let k := 256 - acc.length
        gatherFlit compress peer world n (acc ++ rest.take k) (car ++ [m]) (if rest.length ≤ k then none else some (m, rest.drop k)) q
      | none => match q with
        | m :: l => if m.peer = peer ∧ m.world = world then gatherFlit compress peer world n acc car (some (m, m.bytes compress)) l else (acc, car, none, q)
        | [] => (acc, car, none, [])

/-- Whether what a flit took carries compressed data: of every message but one whose header alone went out (R299). -/
def compressedIn (compress : Bool) (car : List Msg) (started : Option (Msg × List Byte)) : Bool :=
  let headOnly := match started with
    | some (m, rest) => decide (rest.length + 16 = (m.bytes compress).length)
    | none => false
  compress && ((if headOnly then car.dropLast else car).any (fun m => carriesData m.kind))

/-- Whether a link's sending direction compresses: every port of it is set to and its receiver decodes (R299, log entry 99). -/
def Dev.compresses (d : Dev) (link : Nat) : Bool :=
  ((d.portsOf link).zipIdx).all (fun p => (d.link link).compress.getLsbD p.2) && (d.link link).peerDecodes

/-- The header of a filler message (R295). -/
def fillerBytes : List Byte := Bytes.ofNat 8 (9 * 2 ^ 60) ++ Bytes.ofNat 8 0

/-- What is left of a payload area is filled with filler messages. -/
def fillUp (bs : List Byte) : List Byte := bs ++ (List.replicate ((256 - bs.length) / 16) fillerBytes).flatten

/-- Whether a link may send a flit on a channel now (R297, R300, R392). -/
def Dev.maySend (d : Dev) (link vc : Nat) : Bool :=
  let k := d.link link
  d.linkUp link && decide (0 < Tab.get 0 k.credits vc) && decide (k.unacked.length < d.window_ k) && k.exhausted.isNone
    && decide (k.sendCtr < 2 ^ 48 - 2)

/-- A flit put on the wire: it is kept until acknowledged, takes a credit and a counter (R297, R300, R304). Its ack field is 4095 while none has been
received (DESIGN CHOICE, log entry 100). -/
def Dev.emit (d : Dev) (link vc peer world : Nat) (cmp : Bool) (payload : List Byte) (car : List Msg) : Dev :=
  let k := d.link link
  let ks := (Tab.find d.keys (2 * world + 1)).isSome
  let key := d.flitKey link world ks d.peerId peer
  let iv := flitIv k.sendCtr d.peerId link peer
  let f : Flit :=
    { vc := vc, world := world, ks := ks, cmp := cmp, src := d.peerId, dst := peer, ack := (k.recvCtr + 4095) % 4096, seq := k.sendCtr % 65536,
      payload := cipher key iv payload, gcmTag := 0, crc := 0 }
  let g := sealFlit f key iv
  d.modLink link (fun k => ({ k with
    sendCtr := k.sendCtr + 1
    credits := Tab.insert k.credits vc (Tab.get 0 k.credits vc - 1)
    acked := if k.unacked.isEmpty then d.time else k.acked
    unacked := k.unacked ++ [(g, car)] } : Link).onWire g)

/-- FLIT_TRANSMIT (R294 to R300): the head of a channel's messages goes out, with those behind it for the same peer and world. A flit that would name a
reserved peer id is dropped and counted (R293); traffic of a world session in error is dropped (R390). -/
def execFlitTransmit (link vc : Nat) (s : State) : Out :=
  let d := s.dev
  let k := d.link link
  let st := Tab.find k.started vc
  let q := Tab.get [] k.queued vc
  match st.map Prod.fst |>.or q.head? with
  | none => .next s
  | some m =>
    let compress := d.compresses link
    let r := gatherFlit compress m.peer m.world 64 [] [] st q
    let d1 := d.modLink link (fun k => { k with
      queued := Tab.insert k.queued vc r.2.2.2
      started := match r.2.2.1 with
        | some x => Tab.insert k.started vc x
        | none => Tab.erase k.started vc })
    if 1536 ≤ m.peer then .next { s with dev := d1.modLink link (fun k => { k with proto := min (k.proto + 1) 255 }) }
    else if d.drops m.peer m.world then .next { s with dev := d1 }
    else if !d.maySend link vc || !d.passes link vc m.peer m.world then .next s
    else .next { s with dev := d1.emit link vc m.peer m.world (compressedIn compress r.2.1 r.2.2.1) (fillUp r.1) r.2.1 }

/-- Whether a link has nothing to send. -/
def Link.idle (k : Link) : Bool := k.started.isEmpty && k.queued.all (fun q => q.2.isEmpty)

/-- The peer at the far end of a link, as its link session names it. -/
def Dev.farPeer (d : Dev) (link : Nat) : Nat := match d.linkSessions link with
  | s :: _ => s.peer
  | [] => 0

/-- FILLER (R300): an idle link sends a flit of filler, on the management channel, under world 0 and to the peer of its link session, to peer 0 where it has
none (DESIGN CHOICE, log entry 123). -/
def execFiller (link : Nat) (s : State) : Out :=
  .next (if (s.dev.link link).idle && s.dev.maySend link 3 then s.modDev (fun d => d.emit link 3 (d.farPeer link) 0 false (fillUp []) []) else s)

/-- CREDIT_RETURN (R300). -/
def execCreditReturn (link vc n : Nat) (s : State) : Out :=
  .next (s.modDev (fun d => d.modLink link (fun k => { k with credits := Tab.insert k.credits vc (Tab.get 0 k.credits vc + n) })))

/-- FLIT_COUNTER_EXHAUSTION (R392). -/
def execFlitCounterExhaustion (link : Nat) (s : State) : Out :=
  .next (s.modDev (fun d => d.modLink link (fun k =>
    if 2 ^ 48 - 2 ≤ k.sendCtr ∧ k.exhausted.isNone then { k with exhausted := some d.time } else k)))

/-! ## Receiving (R294, R295, R297) -/

/-- Flits that an acknowledgement covers leave the retry buffer (R297). -/
def dropAcked (ack : Nat) (l : List (Flit × List Msg)) : List (Flit × List Msg) :=
  match l.findIdx? (fun f => decide (f.1.seq % 4096 = ack)) with
  | some i => l.drop (i + 1)
  | none => l

/-- A session goes to error (R390). -/
def Dev.errorSession (d : Dev) (n : Nat) : Dev := { d with sessions := Tab.modify d.sessions n (fun s => { s with st := .error }) }

/-- A flit that failed its CRC or its tag is discarded and counted (R294, R305). -/
def Dev.discardFlit (d : Dev) (link : Nat) : Dev :=
  d.modLink link (fun k => { k with crcFails := (k.crcFails ++ [d.time]).filter (fun t => decide (d.time < t + micros 1000)) })

/-- Credits returned for the flits of each channel none of whose messages is still to be handled (R300). -/
def Link.freeBuffers (k : Link) : Link :=
  (List.range 4).foldl (fun k vc =>
    if k.inbox.any (fun m => decide (msgVc m.kind = vc)) then k
    else { k with returned := Tab.set 0 k.returned vc (Tab.get 0 k.returned vc + Tab.get 0 k.taken vc), taken := Tab.set 0 k.taken vc 0 }) k

/-- A flit accepted takes a credit of its channel until what it brought is handled (R300). -/
def Link.take (k : Link) (vc : Nat) : Link := ({ k with taken := Tab.set 0 k.taken vc (Tab.get 0 k.taken vc + 1) } : Link).freeBuffers

/-- A flit's payload read: its messages join those to be handled, discarded ones are counted, and filler goes no further; it takes a credit of its channel
until they are handled (R295, R300). A flit with a reserved header bit set is counted and gives nothing but its credit (log entry 101). -/
def Dev.readFlit (d : Dev) (link : Nat) (f : Flit) (clear : List Byte) : Dev :=
  if f.zero ≠ 0 then d.modLink link (fun k => ({ k with proto := min (k.proto + 1) 255 } : Link).take f.vc) else
  let k := d.link link
  let key := 4 * f.src + f.vc
  let r := parseMsgs f.cmp f.src f.world 64 (Tab.get [] k.rx key ++ clear)
  d.modLink link (fun k => ({ k with
    inbox := k.inbox ++ r.1.filter (fun m => decide (m.kind ≠ 9))
    proto := min (k.proto + r.2.1) 255
    rx := Tab.set [] k.rx key r.2.2 } : Link).take f.vc)

/-- FLIT_RECEIVE (R294, R297, R390): checked by CRC and tag, accepted once and in order; traffic that its session does not carry is dropped, and
its buffer is free again (R300). -/
def execFlitReceive (link : Nat) (f : Flit) (s : State) : Out :=
  let d := s.dev
  let k := d.link link
  if k.st ≠ 2 ∧ k.st ≠ 3 then .next s
  else if !flitCrcOk f then .next { s with dev := d.discardFlit link }
  else if f.seq ≠ k.recvCtr % 65536 then .next s
  else
    let key := d.flitKey link f.world f.ks f.src d.peerId
    let iv := flitIv k.recvCtr f.src link d.peerId
    if f.gcmTag ≠ Config.gcmTag key iv (flitHeader f ++ f.payload) then
      let d1 := d.discardFlit link
      .next { s with dev := match d.worldSession f.src f.world with
        | some n => if n.2.st = .run then d1.errorSession n.1 else d1
        | none => d1 }
    else
      let left := dropAcked f.ack k.unacked
      let d1 := d.modLink link (fun k => { k with
        recvCtr := k.recvCtr + 1
        unacked := left
        acked := if left.length < k.unacked.length then d.time else k.acked })
      .next { s with dev := if d.passes link f.vc f.src f.world then d1.readFlit link f (cipher key iv f.payload) else d1.modLink link (fun k => k.take f.vc) }

/-! ## Retry and retraining (R297, R298, R302) -/

/-- Every unacknowledged flit on the wire again, in counter order. -/
def Link.replay (k : Link) : Link := k.unacked.foldl (fun k f => k.onWire f.1) k

/-- Whether the replay timeout of a link has passed without an acknowledgement (R297). -/
def Dev.replayDue (d : Dev) (link : Nat) : Bool :=
  let k := d.link link
  d.linkUp link && !k.unacked.isEmpty && decide (k.acked + d.replayTime k ≤ d.time)

/-- RETRY_REPLAY_TIMEOUT (R297). -/
def execRetryReplayTimeout (link : Nat) (s : State) : Out :=
  .next (if s.dev.replayDue link then s.modDev (fun d => d.modLink link (fun k => ({ k with acked := d.time } : Link).replay)) else s)

/-- A link stops sending and retrains (R298); a step that starts again counts as a retraining more (DESIGN CHOICE, log entry 124). -/
def Dev.retrain (d : Dev) (link : Nat) (lanes : BitVec 16) : Dev :=
  d.modLink link (fun k => { k with st := 3, lanes := lanes, retrains := min (k.retrains + 1) 255 })

/-- LANE_LOCK_LOSS (R298): a lane loses lock; one that fails during a retraining step makes the step start again. -/
def execLaneLockLoss (link lane : Nat) (s : State) : Out :=
  let k := s.dev.link link
  if !k.lanes.getLsbD lane ∨ (k.st ≠ 2 ∧ k.st ≠ 3) then .next s
  else .next (s.modDev (fun d => d.retrain link (k.lanes &&& ~~~(BitVec.ofNat 16 (2 ^ lane)))))

/-- CORRECTED_SYMBOL_THRESHOLD (R298): a lane's rate of corrected symbols exceeds parameter 5. -/
def execCorrectedSymbolThreshold (link lane rate : Nat) (s : State) : Out :=
  let k := s.dev.link link
  if !k.lanes.getLsbD lane ∨ k.st ≠ 2 ∨ rate ≤ s.dev.param 5 then .next s
  else .next (s.modDev (fun d => d.retrain link k.lanes))

/-- The messages a link had taken and its peer has not acknowledged, each once: those of unacknowledged flits, the one begun, those waiting. -/
def Link.unsent (k : Link) : List Msg :=
  (k.unacked.flatMap Prod.snd ++ k.started.map (fun x => x.2.1) ++ k.queued.flatMap Prod.snd).eraseDups

/-- Messages sent again on the links that R301 now selects. -/
def Dev.resendAll (d : Dev) (l : List Msg) : Dev := l.foldl (fun d m => d.sendMsg (msgVc m.kind) m) d

/-- A link goes down: what it had not delivered goes out on other links (R302). -/
def Dev.linkDown (d : Dev) (link : Nat) : Dev :=
  let k := d.link link
  (d.modLink link (fun k => { k with st := 0, lanes := 0, unacked := [], started := [], queued := [], rx := [] })).resendAll k.unsent

/-- A link whose session has come into error reads as down: what it had not delivered goes out on other links, and its counters stand (R302, R305). -/
def Dev.linkLost (d : Dev) (link : Nat) : Dev :=
  let k := d.link link
  (d.modLink link (fun k => { k with unacked := [], started := [], queued := [] })).resendAll k.unsent

/-- RETRAIN_STEP_COMPLETE (R298): the link runs on the lanes that trained, never wider than before, and replays; with none it is down. -/
def execRetrainStepComplete (link : Nat) (trained : BitVec 16) (s : State) : Out :=
  let k := s.dev.link link
  if k.st ≠ 1 ∧ k.st ≠ 3 then .next s
  else
    let lanes := s.dev.keepLanes (trained &&& (if k.st = 1 then s.dev.goodLanes link else k.lanes))
    if lanes = 0 then .next (s.modDev (fun d => d.linkDown link))
    else
      let d1 := s.dev.modLink link (fun k => ({ k with st := 2, lanes := lanes, acked := s.dev.time } : Link).replay)
      .next { s with dev := d1.flushStranded }

/-! ## Link secrets (R392) -/

/-- KEY_UPDATE (R392, R304): a new link secret is installed and the direction's counter starts again; flits not yet acknowledged stand with the counters they
had (DESIGN CHOICE, log entry 125). -/
def execKeyUpdate (link : Nat) (secret : BitVec 384) (s : State) : Out :=
  .next (s.modDev (fun d => d.modLink link (fun k => { k with secret := secret, sendCtr := 0, recvCtr := 0, exhausted := none })))

/-- The requests whose messages a link has sent without acknowledgement. -/
def Dev.unackedRequests (d : Dev) (link : Nat) : List (Nat × Request) :=
  let tags := ((d.link link).unacked.flatMap Prod.snd).filterMap (fun m => if m.kind ≤ 2 then some (m.tag, m.peer) else none)
  d.requests.filter (fun r => tags.contains (r.1 % 65536, r.2.peer))

/-- LINK_SECRET_TIMEOUT (R392): 100 ms without a new secret: the link session is torn down, and operations with unacknowledged messages, whole or in part, end with fatal
tickets of class 5. -/
def execLinkSecretTimeout (link : Nat) (s : State) : Out :=
  match (s.dev.link link).exhausted with
  | none => .next s
  | some t =>
    if s.dev.time < t + micros 100000 then .next s
    else
      let lost := s.dev.unackedRequests link
      let tags := lost.map (fun r => (r.1 % 65536, r.2.peer))
      let gone (m : Msg) : Bool := decide (m.kind ≤ 2) && tags.contains (m.tag, m.peer)
      let ports := s.dev.portsOf link
      let torn : Dev := { s.dev with sessions := Tab.mapV s.dev.sessions (fun _ x => match x.port with
        | some p => if ports.contains p then { x with st := .error } else x
        | none => x) }
      let d1 := torn.modLink link (fun k => { k with
        unacked := k.unacked.map (fun f => (f.1, f.2.filter (fun m => !gone m)))
        started := k.started.filter (fun x => !gone x.2.1) })
      let d2 := lost.foldl (fun d r => (d.dropRequest r.1).failOp r.2.op (((d.op? r.2.op).map (fun o => (o.parts.getD r.2.part default).addr)).getD 0)
        (mkTicket 5 r.2.peer 0)) d1
      .next { s with dev := d2.linkDown link }

/-! ## Status (R305) -/

/-- The status word of a port: the ports of a gang report one state, and a link whose macros have been retired for wear reads as down. -/
def Dev.abjstat (d : Dev) (port : Nat) : Nat :=
  let l := d.linkOfPort port
  let k := d.link l
  let down := (d.portsOf l).all (fun p => decide ((d.wearOf (912 + p)).st = 5)) || (d.linkSessions l).any (fun s => decide (s.st = .error))
  (if d.gangMode then 0 else 2 ^ 56) + l * 2 ^ 48 + (if down then 0 else k.st) * 2 ^ 45 + k.width * 2 ^ 40 + k.lanes.toNat * 2 ^ 24
    + min k.retrains 255 * 2 ^ 16 + min k.proto 255 * 2 ^ 8 + min (k.crcFails.filter (fun t => decide (d.time < t + micros 1000))).length 255

end Sys2Proof.Machine
end

