-- ==== Sys2Proof/Machine/System.lean ====
section
/-! DEFINITION. The SYS and RDN words and the steps around the trap handler: inspection and repair of groups, translation invalidation, ticket
state, world latches, diagnostic storage, redundant pairs (R290, R291, R329 to R336, R383, R384, R402, R405). -/

namespace Sys2Proof.Machine

/-! ## The handler's activation (R329 to R331) -/

/-- The handler's group at the start of an activation: its registers as they were left, one split of all lanes at the entry (R329). -/
def handlerGroup (old : Group) (entry now : Nat) : Group :=
  let x := Split.start (BitVec.allOnes 32) { pc := entry, word := 0 } now
  { Group.empty with regs := old.regs, splits := [some x, none, none, none], exitPos := { pc := entry, word := 0 } }

/-- Whether words of a group are still in flight (R326): an operation of its own, held neither by a pair nor by a ticket, has a part on this
device that is not bound or performed; a store with lanes on a peer's page, for which its others wait, is treated as a ticketed one. A RELST's store that
still waits is in flight too, unless what it waits for is ticketed or with a peer. -/
def Dev.inFlight (d : Dev) (core slot : Nat) : Bool :=
  let mine (o : Op) : Bool := decide (o.core = core ∧ o.slot = slot ∧ o.ctr ≠ .cc ∧ o.ctr ≠ .ct)
  let blocked := d.ops.any (fun o => mine o.2 && decide (o.2.ctr = .cs) && (o.2.ticketed || o.2.remoteLeft || decide (o.2.st = .awaiting 0)))
  d.ops.any (fun o => mine o.2 && !(o.2.kind.writes && o.2.remoteLeft) && o.2.parts.any (fun p => !p.done && !p.loc.isRemote)
    && (decide (o.2.st = .going) || (decide (o.2.st = .held ∧ (d.group core slot).role = .none) && !blocked)))

/-- HANDLER_ACTIVATION (R326, R330, R331): the oldest waiting trap of a core is served; every group of its workgroup there is held. A bad entry is a
handler fault. -/
def execHandlerActivation (core : Nat) (s : State) : Out :=
  let k := s.dev.core core
  match k.serving, k.waiting with
  | none, r :: l =>
    let t := (s.dev.group core r.slot).task
    let entry := Tab.get 0 s.dev.handlers k.world
    if s.dev.inFlight core r.slot then .next s else
    let d1 := s.dev.modCore core (fun k => { k with waiting := l, serving := some (t, r) })
    let d2 : Dev := { d1 with groups := Tab.mapV d1.groups (fun g x =>
      if g / 64 = core ∧ g % 64 ≠ handlerSlot ∧ x.task = t then
        (if x.held then x else { x with held := true, heldAt := d1.now (clusterOf core), probed := false }) else x) }
    let d3 := d2.setGroup core handlerSlot (handlerGroup (d2.group core handlerSlot) entry (d2.now (clusterOf core)))
    .next { s with dev := if entry = 0 ∨ entry % 12 ≠ 0 then d3.handlerFault core else d3 }
  | _, _ => .next s

/-! ## Group inspection and repair (R332 to R336) -/

/-- The task a core's handler serves. -/
def State.served (s : State) : Nat := s.dev.taskAt s.iss.core handlerSlot

/-- Whether a slot holds a group of the served workgroup. -/
def State.names (s : State) (slot : Nat) : Bool :=
  s.dev.hasGroup s.iss.core slot && decide ((s.dev.group s.iss.core slot).task = s.served)

/-- HERR (R332). -/
def State.herr (s : State) (bad : Bool) : State := s.modDev (fun d => d.modCore s.iss.core (fun k => { k with herr := bad }))

/-- A selector of GRD and GWR (R333). -/
structure Selector where
  slot : Nat
  zero : Nat
  kind : Nat
  index : Nat
  lane : Nat

def Selector.of (x : W64) : Selector :=
  let n := x.toNat
  { slot := bits n 4 0, zero := bits n 7 5, kind := bits n 15 8, index := bits n 23 16, lane := bits n 28 24 }

/-- A position in the layout of R89: word index and packet offset. -/
def posField (word : Nat) (packet : Int) : Nat := word * 2 ^ 30 + (packet % 2 ^ 30).toNat
/-- The offset of a position's packet from the group's code. -/
def Dev.packetOf (d : Dev) (core slot pc : Nat) : Int := ((pc : Int) - (d.codeOf core slot : Int)) / 12
/-- The signed packet offset in a position field. -/
def packetField (x : Nat) : Int := (BitVec.ofNat 30 (bits x 29 0)).toInt

/-- The value of GRD, none where the selector names nothing (R333). -/
def State.readGroup (s : State) (x : Selector) : Option Nat :=
  let g := s.dev.group s.iss.core x.slot
  if x.zero ≠ 0 ∨ !s.names x.slot then none
  else match x.kind with
    | 0 => if x.index < s.dev.vregsAt s.iss.core x.slot then some (g.regs.readV x.index x.lane).toNat else none
    | 1 => if 1 ≤ x.index ∧ x.index ≤ 63 then some (g.regs.readS x.index).toNat else none
    | 2 => if 1 ≤ x.index ∧ x.index ≤ 7 then some (g.regs.readP x.index).toNat else none
    | 3 => if x.index = 0 then some ((List.range 7).foldl (fun v i => if g.regs.readF (i + 1) then v + 2 ^ (i + 1) else v) 0) else none
    | 4 =>
      if x.index ≤ 3 then
        match g.splits.getD x.index none with
        | some y => some (y.mask.toNat * 2 ^ 32 + posField y.pos.word (s.dev.packetOf s.iss.core x.slot y.pos.pc))
        | none => some 0
      else none
    | 5 =>
      if x.index = 0 then
        some ((List.range 4).foldl (fun v i => match g.splits.getD i none with
          | some y => v + 2 ^ i + (if y.park = .join then 2 ^ (4 + i) else 0)
          | none => v) 0)
      else none
    | 6 => (g.stack[x.index]?).map (fun e => e.mask.toNat * 2 ^ 32 + posField e.word e.packet.toInt)
    | 7 => if x.index = 0 then some g.stack.length else none
    | 8 =>
      if x.index = 0 then some (g.ct.length * 2 ^ 24 + g.cc.length * 2 ^ 16 + g.cs.length * 2 ^ 8 + g.cl.length) else none
    | 9 => if x.index = 0 then some g.regs.flags.toNat else none
    | 10 => if x.index = 0 then some g.regs.sig.toNat else none
    | _ => none

/-- GRD (R333). -/
def execGrd (d a : SReg) (s : State) : Out :=
  match s.readGroup (Selector.of (s.rdS a)) with
  | some v => .next ((s.herr false).wrS d (BitVec.ofNat 64 v))
  | none => .next ((s.herr true).wrS d 0)

/-- A register that a handler has written is ready; a value that arrives for it later is discarded (R333). -/
def Group.setReady (g : Group) (r : RegName) : Group := { g with notReady := g.notReady.filter (fun p => decide (p.1 ≠ r)) }

/-- A split moved to a position; a stall at the issue group it leaves ends. -/
def Split.moveTo (x : Split) (p : Pos) : Split := { x with pos := p, park := if x.park.atIssue then .running else x.park }

/-- A group as GWR leaves it, none where the selector names nothing that can be written (R333). -/
def State.writeGroup (s : State) (x : Selector) (v : W64) : Option Group :=
  let g := s.dev.group s.iss.core x.slot
  let n := v.toNat
  let w : W32 := v.truncate 32
  if x.zero ≠ 0 ∨ !s.names x.slot then none
  else match x.kind with
    | 0 => if x.index < s.dev.vregsAt s.iss.core x.slot then some ({ g with regs := g.regs.writeV x.index x.lane w }.setReady (.v x.index)) else none
    | 1 => if 1 ≤ x.index ∧ x.index ≤ 63 then some ({ g with regs := g.regs.writeS x.index v }.setReady (.s x.index)) else none
    | 2 => if 1 ≤ x.index ∧ x.index ≤ 7 then some ({ g with regs := g.regs.writeP x.index w }.setReady (.p x.index)) else none
    | 3 => if x.index = 0 then some { g with regs := (List.range 7).foldl (fun r i => r.writeF (i + 1) (bit n (i + 1))) g.regs } else none
    | 4 =>
      match g.splits.getD x.index none with
      | some y =>
        let p : Pos := { pc := packetAt (s.dev.codeOf s.iss.core x.slot) (packetField n), word := bits n 31 30 }
        if x.index ≤ 3 then some { g with splits := setAt g.splits x.index (some (y.moveTo p)) } else none
      | none => none
    | 6 =>
      match g.stack[x.index]? with
      | some e => some { g with stack := setAt g.stack x.index { e with word := bits n 31 30, packet := BitVec.ofNat 30 (bits n 29 0) } }
      | none => none
    | 9 => if x.index = 0 then some { g with regs := { g.regs with flags := BitVec.ofNat 5 n } } else none
    | 10 => if x.index = 0 then some { g with regs := { g.regs with sig := w } } else none
    | _ => none

/-- GWR (R333). -/
def execGwr (a b : SReg) (s : State) : Out :=
  let x := Selector.of (s.rdS a)
  match s.writeGroup x (s.rdS b) with
  | some g => .next ((s.herr false).modDev (fun d => d.setGroup s.iss.core x.slot g))
  | none => .next (s.herr true)

/-- Lanes of a group that have not exited (R334). -/
def Group.alive (g : Group) : W32 :=
  g.stack.foldl (fun m e => m ||| e.mask) (((g.splits.filterMap id).filter (fun x => !x.exiting)).foldl (fun m x => m ||| x.mask) 0)

/-- GSTAT (R334). -/
def execGstat (d a : SReg) (s : State) : Out :=
  let slot := bits (s.rdS a).toNat 4 0
  if !s.names slot then .next ((s.herr true).wrS d 0)
  else
    let g := s.dev.group s.iss.core slot
    let cause := match g.trap with
      | some t => t.cause
      | none => 0
    let ytd := (g.splits.filterMap id).any (fun x => decide (x.park = .yld))
    .next ((s.herr false).wrS d (BitVec.ofNat 64 (cause * 2 ^ 56 + (if g.held then 2 ^ 55 else 0) + (if ytd then 2 ^ 54 else 0)
      + g.stack.length * 2 ^ 32 + g.alive.toNat)))

/-- GRESUME (R335): the trap is cleared; the group stays held until TRET. -/
def execGresume (a b : SReg) (s : State) : Out :=
  let slot := bits (s.rdS a).toNat 4 0
  let skip := bit (s.rdS b).toNat 0
  match s.names slot, (s.dev.group s.iss.core slot).trap with
  | true, some r =>
    .next ((s.herr false).modDev (fun d =>
      (d.modGroup s.iss.core slot (fun g => { g with trap := none, splits := modSplit g.splits r.split (fun x => { x with skip := skip }) })).modCore
        s.iss.core (fun k => { k with waiting := k.waiting.filter (fun w => decide (w.slot ≠ slot)) })))
  | _, _ => .next (s.herr true)

/-- GKILL (R336). -/
def execGkill (a : SReg) (s : State) : Out :=
  let x := (s.rdS a).toNat
  let slot := bits x 4 0
  if !s.names slot then .next (s.herr true)
  else
    let t := s.served
    .next ((s.herr false).modDev (fun d =>
      if bit x 8 then d.killTask t else (d.killGroup s.iss.core slot).markKilled t))

/-! ## TLBI and TKSTAT (R290, R291) -/

/-- Whether an entry of a world and ASN, for a range of addresses, matches a TLBI (R290). -/
def tlbiHits (a c : W64) (asn world va size : Nat) : Bool :=
  let n := c.toNat
  match bits n 63 62 with
  | 0 => decide (asn = bits n 55 44 ∧ va ≤ a.toNat ∧ a.toNat < va + size)
  | 1 => decide (asn = bits n 55 44)
  | 2 => decide (world = bits n 43 36)
  | _ => true

/-- The dies and cores in a TLBI's scope: 0 core, 1 cluster, 2 die, 3 device. The translations of the owner windows, number 4, are in every scope. -/
def tlbiCores (core sc : Nat) : List Nat :=
  match sc with
  | 0 => [core]
  | 1 => coresOf (clusterOf core)
  | 2 => (List.range 64).map (fun i => 64 * dieOf core + i)
  | _ => List.range 256
def tlbiDies (core sc : Nat) : List Nat := (if sc ≤ 2 then [dieOf core] else List.range 4) ++ [4]

/-- Removing matching entries from the TLBs and walk caches in a scope: the L2 TLB and the walk cache of a die too, so that later accesses of
the scope walk anew (R290). Answers the entries removed. -/
def Dev.tlbi (d : Dev) (core : Nat) (a c : W64) : Dev × List TlbEntry :=
  let sc := bits c.toNat 61 59
  let hit (e : TlbEntry) : Bool := tlbiHits a c e.asn e.world e.va e.size
  let onPath (e : WalkEntry) : Bool :=
    tlbiHits a c (e.1 / 256) (e.1 % 256) (e.2.2.1 * 2 ^ (match e.2.1 with | 1 => 44 | 2 => 34 | 3 => 25 | _ => 16))
      (2 ^ (match e.2.1 with | 1 => 44 | 2 => 34 | 3 => 25 | _ => 16))
  let cs := tlbiCores core sc
  let ds := tlbiDies core sc
  let gone := cs.flatMap (fun x => (d.core x).tlb.filter hit) ++ ds.flatMap (fun x => (d.die x).tlb.filter hit)
  let d1 := cs.foldl (fun d x => d.modCore x (fun k => { k with tlb := k.tlb.filter (fun e => !hit e) })) d
  let d2 := ds.foldl (fun d x => d.modDie x (fun k => { k with
    tlb := k.tlb.filter (fun e => !hit e)
    walkCache := k.walkCache.filter (fun e => !onPath e) })) d1
  (d2, gone)

/-- The core whose translations an operation uses, and its queue: its own, that of a saved group's task, and core 0 for a grid's own operation. -/
def Dev.opHome (d : Dev) (o : Op) : Option (Nat × Nat) :=
  let ofGrid (g : Nat) : Option (Nat × Nat) := (d.grid? g).map (fun g => (0, g.queue))
  match o.kind with
  | .depend g _ => ofGrid g
  | .doneWord g => ofGrid g
  | _ => (d.task? o.task).map (fun t => (if o.core < 256 then o.core else t.core, t.queue))

/-- The outstanding accesses in a scope that used a removed entry (R290). -/
def Dev.usersOf (d : Dev) (core : Nat) (c : W64) (gone : List TlbEntry) : List Nat :=
  let cs := tlbiCores core (bits c.toNat 61 59)
  Tab.keys (Tab.keep d.ops (fun _ o =>
    match d.opHome o with
    | none => false
    | some (k, qn) =>
      let q := d.queue qn
      cs.contains k && o.parts.any (fun p => !p.done && gone.any (fun e =>
        decide (e.asn = q.asn ∧ e.world = q.world ∧ e.va ≤ p.addr ∧ p.addr < e.va + e.size)))))

/-- TLBI, by the kind in S[Sb] (R290). -/
def State.tlbi (s : State) (ra rb : SReg) : State :=
  let a := s.rdS ra
  let c := s.rdS rb
  s.irrevocably (fun s => s.afterStores 3 (fun s =>
    let r := s.dev.tlbi s.iss.core a c
    let users := r.1.usersOf s.iss.core c r.2
    let s1 := { s with dev := r.1 }
    if users.isEmpty then s1 else s1.park (.tlbi a c (some users))))

/-- TLBI of a page (R290). -/
def execTlbiPage (a b : SReg) (s : State) : Out := .next (s.tlbi a b)
/-- TLBI of an ASN (R290). -/
def execTlbiAsn (a b : SReg) (s : State) : Out := .next (s.tlbi a b)
/-- TLBI of a world (R290). -/
def execTlbiWorld (a b : SReg) (s : State) : Out := .next (s.tlbi a b)
/-- TLBI of all entries (R290). -/
def execTlbiAll (a b : SReg) (s : State) : Out := .next (s.tlbi a b)

/-- The ticket word an operation waits on. -/
def Op.ticket? (o : Op) : Option (BitVec 32) :=
  match o.st with
  | .ticketed t => some t
  | _ => none

/-- TKSTAT (R291). -/
def execTkstat (d a : SReg) (s : State) : Out :=
  let x := (s.rdS a).toNat
  let c := s.iss.core
  let die := s.dev.die (dieOf c)
  let world := (s.dev.core c).world
  let sees (e : TicketEntry) : Bool := decide (world = 0 ∨ s.iss.slot = handlerSlot ∨ e.world = world)
  .next (s.wrS d (BitVec.ofNat 64 (match bits x 63 62 with
    | 0 =>
      let mine := (s.dev.ops.filter (fun o => decide (o.2.core = c ∧ o.2.slot = s.iss.slot))).filterMap (fun o => o.2.ticket?)
      mine.length % 2 ^ 16 * 2 ^ 32 + (match mine with
        | t :: _ => t.toNat
        | [] => 0)
    | 1 => (die.tickets.filter (fun e => sees e.2)).length * 2 ^ 32 + die.notices % 2 ^ 32
    | 2 =>
      match die.tickets.find? (fun e => sees e.2 && decide (e.2.owner = bits x 26 16 ∧ e.2.tkt.toNat % 2 ^ 16 = bits x 15 0)) with
      | some (_, e) => 2 ^ 63 + e.ops.length % 2 ^ 16 * 2 ^ 32 + e.tkt.toNat
      | none => 0
    | _ => 0)))

/-! ## World latches (R383, R384) -/

/-- WLATCH, by the operation in S[Sa] (R384). -/
def State.wlatch (s : State) (d a : SReg) : State :=
  s.irrevocably (fun s =>
    let x := (s.rdS a).toNat
    let core := bits x 7 0
    let world := bits x 15 8
    let op := bits x 17 16
    let answer (st w : Nat) : W64 := BitVec.ofNat 64 (st * 2 ^ 56 + w * 2 ^ 8 + core)
    let now := (s.dev.core core).world
    if 1 < op then s.wrS d (answer 4 now)
    else if !s.dev.inService core then s.wrS d (answer 2 now)
    else if op = 0 then s.wrS d (answer 0 now)
    else if !s.dev.emptyCore core then s.wrS d (answer 1 now)
    else ((s.modDev (fun e => e.relatch core world)).wrS d (answer 0 world)).park (.latch core))

/-- WLATCH, read (R384). -/
def execWlatchRead (d a : SReg) (s : State) : Out := .next (s.wlatch d a)
/-- WLATCH, set (R384). -/
def execWlatchSet (d a : SReg) (s : State) : Out := .next (s.wlatch d a)

/-- WORLD_LATCH_CLEAR_DONE (R383, R391): the core is clear, its update-only copies combined, and the new world shows; one whose heartbeat was lost
meanwhile it leaves again. -/
def execWorldLatchClearDone (core : Nat) (s : State) : Out :=
  match (s.dev.core core).clearing with
  | none => .next s
  | some w =>
    let d1 := ((s.dev.core core).l1.map Prod.fst).foldl (fun d l => d.l1Drop core l) s.dev
    let d2 := d1.modCore core (fun k => { Core.reset with world := w, preq := k.preq, herr := k.herr })
    let d3 : Dev := { d2 with groups := Tab.keep d2.groups (fun g _ => decide (g / 64 ≠ core)) }
    .next { s with dev := (d3.wakeTask (fun _ => true) (fun p => decide (p = .latch core))).expelCores }

/-! ## Diagnostic stores and loads (R402) -/

/-- The selector of DIAGST and DIAGLD. -/
structure Diag where
  array : Nat
  check : Bool
  addr : Nat
  ok : Bool

/-- The bytes of an array (R14, R20, R23). -/
def arrayBytes (n : Nat) : Nat :=
  match n with
  | 0 => 262144
  | 1 => 524288
  | 2 => 262144
  | 3 => 131072
  | 4 => 262144
  | 5 => 262144
  | 6 => 64 * 1572864
  | 7 => 33554432
  | _ => 2 ^ 39

/-- A selector, and whether its array, its reserved bits, its alignment and its address are in order. -/
def Diag.of (x : W64) : Diag :=
  let n := x.toNat
  let array := bits n 63 59
  let addr := bits n 51 0
  { array := array, check := bit n 58, addr := addr,
    ok := decide (array ≤ 9 ∧ bits n 57 52 = 0 ∧ addr % (if array = 0 then 4 else 8) = 0 ∧ addr < arrayBytes array)
      && !(decide (8 ≤ array) && bit n 58) }

/-- Where a location stands: a V register of a slot, or a place of bytes. -/
inductive DiagAt where
  | reg (slot n lane : Nat)
  | mem (l : Loc)
  | buf (weight : Bool) (a : Nat)
  | stack (slot entry : Nat)

/-- The location of a selector for a core. The top 4,096 bytes of the private store hold the reconvergence stacks, 128 bytes a slot (R15), the oldest entry
lowest (DESIGN CHOICE, log entry 103). -/
def Diag.at_ (x : Diag) (core : Nat) : DiagAt :=
  let p := Config.diagPlace x.array (if x.array = 6 then dieOf core else core) x.addr
  match x.array with
  | 0 => .reg p.1 p.2.1 p.2.2
  | 1 => .mem (hbmAt p.1)
  | 2 => .mem { sp := .smem, own := p.1, a := p.2.1 }
  | 3 =>
    let o := x.addr - 126976
    if 126976 ≤ x.addr then .stack (o / 128) (o % 128 / 8) else .mem { sp := .pmem, own := p.1, a := p.2.1 }
  | 4 => .buf false x.addr
  | 5 => .buf true x.addr
  | 6 => .mem (hbmAt p.1)
  | 7 => .mem { sp := .kmem, own := 0, a := 33554432 * dieOf core + x.addr }
  | _ => .mem (hbmAt x.addr)

/-- An entry of a reconvergence stack in its 64 bits (R89). -/
def StackEntry.code (e : StackEntry) : Nat := e.mask.toNat * 2 ^ 32 + e.word % 4 * 2 ^ 30 + e.packet.toNat
def StackEntry.of (x : Nat) : StackEntry := { mask := BitVec.ofNat 32 (x / 2 ^ 32), word := bits x 31 30, packet := BitVec.ofNat 30 (bits x 29 0) }

/-- The data a location holds for ordinary accesses. A stack entry that holds nothing reads as zero (log entry 103). -/
def Dev.diagData (d : Dev) (core : Nat) : DiagAt → Nat
  | .stack sl e => (((d.group core sl).stack.reverse[e]?).map StackEntry.code).getD 0
  | .reg sl n i => ((d.group core sl).regs.readV n i).toNat
  | .mem l => d.readNat l 8
  | .buf w a => Bytes.toNat (Memory.readN (if w then (d.core core).wBuf else (d.core core).opBuf) a 8)

/-- Writing a location as ordinary accesses see it, with none of the consequences of a performed write. -/
def Dev.diagPut (d : Dev) (core : Nat) (x : Nat) : DiagAt → Dev
  | .stack sl e => if d.hasGroup core sl then
      d.modGroup core sl (fun g => if e < g.stack.length then { g with stack := (setAt g.stack.reverse e (StackEntry.of x)).reverse } else g)
    else d
  | .reg sl n i => d.modGroup core sl (fun g => { g with regs := g.regs.writeV n i (BitVec.ofNat 32 x) })
  | .mem l => d.writeBytes l (Bytes.ofNat 8 x)
  | .buf w a => d.modCore core (fun k =>
      if w then { k with wBuf := Memory.writeL k.wBuf a (Bytes.ofNat 8 x) } else { k with opBuf := Memory.writeL k.opBuf a (Bytes.ofNat 8 x) })

/-- The groups of a workgroup on a core reached by an uncorrectable error at their next issue group. -/
def Dev.poisonTask (d : Dev) (core t : Nat) : Dev :=
  match d.task? t with
  | some k => if k.core = core then k.slots.foldl (fun d sl => d.modGroup core sl (fun g => { g with poisoned := true })) d else d
  | none => d

/-- What a word that its code can make nothing of does beside what is kept of it: in a register or a stack it reaches its group at its next issue group, in a
reserved unit of a buffer every group of the unit's workgroup (R400; DESIGN CHOICE, log entry 126). -/
def Dev.diagPoison (d : Dev) (core : Nat) (bad : Bool) : DiagAt → Dev
  | .reg sl _ _ => if bad then d.modGroup core sl (fun g => { g with poisoned := true }) else d
  | .stack sl _ => if bad && d.hasGroup core sl then d.modGroup core sl (fun g => { g with poisoned := true }) else d
  | .mem _ => d
  | .buf w a =>
    match Tab.find (if w then (d.core core).wUsed else (d.core core).opUsed) (a / 256) with
    | some t => if bad && decide (t ≠ 0) then d.poisonTask core t else d
    | none => d

/-- The array, instance and address that name a location among the raw words. -/
def Diag.key (x : Diag) (core : Nat) : Nat × Nat × Nat :=
  (x.array, if x.array ≤ 5 then core else if x.array ≤ 7 then dieOf core else 0, x.addr)

/-- What is stored at a location as DIAGST left it, if nothing has written it since. -/
def Dev.rawAt (d : Dev) (k : Nat × Nat × Nat) (seen : List Nat) : Option (List Nat) :=
  (d.raw.find? (fun r => decide (r.array = k.1 ∧ r.inst = k.2.1 ∧ r.addr = k.2.2 ∧ r.seen = seen))).map (fun r => r.stored)

/-- Keeping what is stored at a location of some place: whether its code can make nothing of it, and whether it errs at all, which no access has met yet. -/
def Dev.keepRaw (d : Dev) (k : Nat × Nat × Nat) (stored seen : List Nat) (loc : Option Loc) (bad errs : Bool) : Dev :=
  { d with raw := { array := k.1, inst := k.2.1, addr := k.2.2, stored := stored, seen := seen, loc := loc, bad := bad, pending := bad || errs }
      :: d.raw.filter (fun r => !decide (r.array = k.1 ∧ r.inst = k.2.1 ∧ r.addr = k.2.2)) }

/-- The check bits of a word of an array (R396). -/
def sramCheck (array now : Nat) : Nat := if array = 0 then (Config.secded39 (BitVec.ofNat 32 now)).toNat else (Config.secded72 (BitVec.ofNat 64 now)).toNat

/-- The place of memory whose bytes a location holds. -/
def DiagAt.place : DiagAt → Option Loc
  | .mem l => some l
  | _ => none

/-- An SRAM word stored with its check bits and no encoding: ordinary accesses see what its code makes of it (R396, R402). -/
def Dev.storeSram (d : Dev) (core : Nat) (x : Diag) (data check : Nat) : Dev :=
  let (seen, bad) :=
    if x.array = 0 then let r := Config.secdedRead39 (BitVec.ofNat 32 data) (BitVec.ofNat 7 check); (r.1.toNat, r.2)
    else let r := Config.secdedRead72 (BitVec.ofNat 64 data) (BitVec.ofNat 8 check); (r.1.toNat, r.2)
  ((d.diagPut core seen (x.at_ core)).diagPoison core bad (x.at_ core)).keepRaw (x.key core) [data, check] [seen] (x.at_ core).place bad
    (decide ((data, check) ≠ (seen, sramCheck x.array seen)))

/-- An SRAM word's stored data and check bits (R402). -/
def Dev.loadSram (d : Dev) (core : Nat) (x : Diag) : Nat × Nat :=
  let now := d.diagData core (x.at_ core)
  match d.rawAt (x.key core) [now] with
  | some [a, b] => (a, b)
  | _ => (now, sramCheck x.array now)

/-- The name of a codeword among the raw words: its first byte's address. -/
def wordKey (bytes : List Nat) : Nat × Nat × Nat := (8, 0, bytes.headD 0)

/-- A codeword as it is stored: its data bytes, then its check symbols. -/
def Dev.symbols (d : Dev) (pa : Nat) : List Nat :=
  let (g, bytes) := d.codeword pa
  let now := bytes.map (fun a => (Memory.read d.hbm a).toNat)
  (d.rawAt (wordKey bytes) now).getD (now ++ rsCheck (granCheck g) now)

/-- Whether the codeword of HBM that holds an address is one its code can make nothing of. -/
def Dev.wordBad (d : Dev) (pa : Nat) : Bool := (rsDecode (granCheck (d.codeword pa).1) (d.symbols pa)).isNone

/-- Poison of the lines of a codeword as it is stored anew: set where its code can make nothing of it; cleared where it was this codeword that could not
be read, or it takes up the whole line, and every other codeword of the line can be read (R279, R399). -/
def Dev.wordPoison (d : Dev) (pa : Nat) (was bad : Bool) : Dev :=
  let (g, bytes) := d.codeword pa
  let lines := (bytes.map (fun a => a / 128)).eraseDups
  let others (l : Nat) : Bool := ((List.range 8).map (fun i => 128 * l + 16 * i)).any (fun a => !bytes.contains a && d.wordBad a)
  lines.foldl (fun d l =>
    if bad then d.addPoison (hbmAt (128 * l)) 1
    else if (was || decide (g = 2)) && !others l then { d with poison := d.poison.filter (fun x => decide (x ≠ hbmAt (128 * l))) }
    else d) d

/-- A codeword stored symbol by symbol: ordinary accesses see what its code makes of it, poison where it can make nothing of it (R279, R399). -/
def Dev.storeSymbols (d : Dev) (pa : Nat) (w : List Nat) : Dev :=
  let (g, bytes) := d.codeword pa
  let (seen, bad) := match rsDecode (granCheck g) w with
    | some v => (v.take bytes.length, false)
    | none => (w.take bytes.length, true)
  let d1 := (bytes.zip seen).foldl (fun d p => d.writeByte (hbmAt p.1) (BitVec.ofNat 8 p.2)) d
  (d1.keepRaw (wordKey bytes) w seen none bad (decide (w ≠ seen ++ rsCheck (granCheck g) seen))).wordPoison pa (d.wordBad pa) bad

/-- Replacing symbols of a codeword from a place on. -/
def putSymbols (w : List Nat) (i : Nat) : List Nat → List Nat
  | [] => w
  | x :: l => putSymbols (setAt w i x) (i + 1) l

/-- DIAGST's effect (R402). -/
def Dev.diagStore (d : Dev) (core : Nat) (x : Diag) (c b : W64) : Dev :=
  if !x.ok then d
  else if x.array ≤ 7 then
    d.storeSram core x (if x.array = 0 then b.toNat % 2 ^ 32 else b.toNat) (if x.array = 0 then c.toNat % 128 else c.toNat % 256)
  else
    let (g, bytes) := d.codeword x.addr
    let w := d.symbols x.addr
    let new := (Bytes.ofNat 8 b.toNat).map (fun y => y.toNat)
    if x.array = 8 then d.storeSymbols x.addr (putSymbols w (bytes.idxOf x.addr) new)
    else
      let k := bits c.toNat 4 0
      if granCheck g ≤ k + 7 then d else d.storeSymbols x.addr (putSymbols w (bytes.length + k) new)

/-- DIAGLD's result (R402). -/
def Dev.diagLoad (d : Dev) (core : Nat) (x : Diag) (old : W64) : W64 :=
  if !x.ok then BitVec.allOnes 64
  else if x.array ≤ 7 then
    let r := d.loadSram core x
    BitVec.ofNat 64 (if x.check then r.2 else r.1)
  else
    let (g, bytes) := d.codeword x.addr
    let w := d.symbols x.addr
    let at_ (i : Nat) : W64 := BitVec.ofNat 64 (((w.drop i).take 8).foldr (fun y n => y + 256 * n) 0)
    if x.array = 8 then at_ (bytes.idxOf x.addr)
    else
      let k := bits old.toNat 4 0
      if granCheck g ≤ k + 7 then BitVec.allOnes 64 else at_ (bytes.length + k)

/-- What waits as WAITC CL=0, CS=0 waits before a word; a pair that holds stores comes to a checkpoint (R173, R175, R402, R405). -/
def State.afterMemory (s : State) (k : State → State) : State :=
  let g := s.old
  if s.paired ∧ 0 < s.pairHeld then s.stopAtCheckpoint
  else if g.countsAt 0 0 63 63 then
    match g.coveredFailure (g.covers [0, 0, 63, 63]) with
    | some f => s.takeFailure f
    | none => k s
  else s.stall .stallStores id

/-- DIAGST (R402). -/
def execDiagst (k a b : SReg) (s : State) : Out :=
  .next (s.irrevocably (fun s => s.afterMemory (fun s =>
    s.modDev (fun d => d.diagStore s.iss.core (Diag.of (s.rdS a)) (s.rdS k) (s.rdS b)))))

/-- DIAGLD (R402). -/
def execDiagld (d a : SReg) (s : State) : Out :=
  .next (s.afterMemory (fun s => s.wrS d (s.dev.diagLoad s.iss.core (Diag.of (s.rdS a)) (s.rdS d))))

/-! ## Redundant pairs (R405) -/

/-- Pairs on a die (R407). -/
def Dev.pairsOn (d : Dev) (die : Nat) : Nat := (d.groups.filter (fun g => decide (dieOf (g.1 / 64) = die ∧ g.2.role = .leader))).length

/-- RDN.BEGIN (R405): the trailer starts as the issue group closes. It waits until the group's loads and stores have ended, so that its registers can
be copied. The trailer's cluster is not gated meanwhile (R382). -/
def execRdnBegin (d : SReg) (s : State) : Out :=
  if s.iss.slot = handlerSlot then .next (s.wrS d 1)
  else if s.old.role ≠ .none then .next (s.wrS d 3)
  else .next (s.afterMemory (fun s =>
    if 64 ≤ s.dev.pairsOn (dieOf s.iss.core) then s.wrS d 2
    else match s.dev.trailerCore s.iss.core s.taskId with
      | none => s.wrS d 1
      | some c =>
        let sl := (s.dev.freeSlots c 1).headD 0
        let g0 : Group := { Group.empty with task := s.taskId, index := s.grp.index, role := .trailer, partner := (s.iss.core, s.iss.slot) }
        ((s.modDev (fun e => (e.wakeFor [c]).setGroup c sl g0)).modGrp (fun g => { g with role := .leader, partner := (c, sl) })).wrS d 0))

/-- RDN.CKPT (R405, R407). -/
def execRdnCkpt (s : State) : Out :=
  .next (if s.old.role = .none then s else s.modDev (fun d => d.setCheckpoint s.iss.core s.iss.slot 0))

/-- RDN.END (R405, R407). -/
def execRdnEnd (s : State) : Out :=
  .next (if s.old.role = .none then s else s.modDev (fun d => d.setCheckpoint s.iss.core s.iss.slot 1))

/-- SIGRD (R405). -/
def execSigrd (d a : SReg) (s : State) : Out :=
  let g := s.old
  let l := s.dev.entries s.iss.core s.iss.slot
  if bit (s.rdS a).toNat 0 then .next (s.wrS d (g.lastSig.zeroExtend 64))
  else
    let role := match g.role with
      | .none => 0
      | .leader => 1
      | .trailer => 2
    let open_ := (l.filter (fun e => !e.matched)).length
    let done := (l.filter (fun e => e.matched)).length
    .next (s.wrS d (BitVec.ofNat 64 (role * 2 ^ 62 + open_ % 64 * 2 ^ 56 + done % 256 * 2 ^ 48 + (if g.role = .none then 0 else g.partner.1 % 256) * 2 ^ 40 + g.rollbacks % 2 ^ 32)))

end Sys2Proof.Machine
end

