-- ==== Sys2Proof/Machine/Saves.lean ====
section
/-! DEFINITION. Contexts saved and restored, deadlines, shadow-store places, and the probes that find wait cycles (R22, R238, R254, R268, R289,
R338 to R347, R391, R407). -/

namespace Sys2Proof.Machine

/-! ## What a save waits for (R238, R254, R339, R340) -/

/-- Whether an operation keeps a save waiting: a load, store or atomic under way that waits on no ticket (R339). -/
def Op.holdsSave (o : Op) : Bool :=
  (o.kind.loads || o.kind.writes) && (match o.st with
    | .going => true
    | .awaiting _ => true
    | _ => false)

/-- Whether a matrix entry keeps a save waiting: it has started and is not parked. -/
def MxEntry.holdsSave (e : MxEntry) : Bool := e.started.isSome && e.parked.isNone

/-- Whether an accepted copy keeps a save waiting: it reads or writes S or C (R254). -/
def CopyEntry.holdsSave (e : CopyEntry) : Bool :=
  e.running && (decide (e.rec_.sspace = 1 ∨ e.rec_.sspace = 2) || decide (e.rec_.dspace = 1 ∨ e.rec_.dspace = 2))

/-- Whether nothing of a task keeps its save waiting. The array and the tile port go on starting the entries that are queued until then (R238; DESIGN
CHOICE, log entry 127). -/
def Dev.quietTask (d : Dev) (t : Nat) (k : Task) : Bool :=
  !(d.ops.any (fun o => decide (o.2.task = t ∧ o.2.slot ≠ handlerSlot) && o.2.holdsSave))
    && !((d.core k.core).mq.any (fun e => decide (e.task = t) && e.holdsSave))
    && !(k.cq.entries.any CopyEntry.holdsSave)

/-! ## Writing a context (R342) -/

/-- The groups of a task in slot order, and the places of its trailers. -/
def Dev.trailersOf (d : Dev) (t : Nat) : List Nat := (d.groups.filter (fun g => decide (g.2.task = t ∧ g.2.role = .trailer))).map Prod.fst

/-- A group as a context holds it: stalls at issue try again after the restore, its pair is named by place in the context, and TIME is not to fall below
what it has read (R117). -/
def Group.toContext (g : Group) (partner time : Nat) : Group :=
  { g with
    timeFloor := max g.timeFloor time
    splits := g.splits.map (fun o => o.map (fun x => if x.park.atIssue then x.retry else x))
    held := false
    partner := (65536, partner) }

/-- Reads that a restored group makes anew are dropped, unless they wait on a ticket (R289): of a monitor or a record; and prefetches are. A stream's are
dropped in any case: every entry popped after a restore is read anew (R268). -/
def Op.readsAnew (o : Op) : Bool :=
  match o.kind with
  | .monitor _ => !o.ticketed
  | .record => !o.ticketed
  | .pref _ => !o.ticketed
  | .stream _ => true
  | _ => false

/-- The bytes of a task's local reservations, by handle (R238). -/
def Dev.reservedBytes (d : Dev) (k : Task) : Tab (List Byte) :=
  let c := d.core k.core
  (k.handles.filter (fun h => decide (h.2.buf ≠ 2))).map (fun h =>
    (h.1, Memory.readN (if h.2.buf = 0 then c.opBuf else c.wBuf) h.2.base (256 * h.2.units)))

/-- A task's context leaves its core for a shadow place, or for the context region (R342): groups with their trailers, unstarted and parked
matrix entries with their buffer bytes, streams emptied (R268), waiting operations kept with their tickets (R289). Groups and operations are
named by their place in the context. -/
def Dev.saveTask (d : Dev) (t : Nat) (place : Option (Nat × Nat)) : Dev :=
  match d.task? t with
  | none => d
  | some k =>
    let own := k.slots.filter (fun sl => !k.left.contains sl)
    let trail := d.trailersOf t
    let time (c : Nat) : Nat := d.regionTime (clusterOf c) / 2 ^ 24
    let leads := own.map (fun sl =>
      (d.group k.core sl).toContext (own.length + (trail.idxOf (gkey (d.group k.core sl).partner.1 (d.group k.core sl).partner.2))) (time k.core))
    let tails := trail.map (fun g => let x := d.group (g / 64) (g % 64); x.toContext (own.idxOf x.partner.2) (time (g / 64)))
    let mine := (d.core k.core).mq.filter (fun e => decide (e.task = t))
    let back (e : MxEntry) : MxEntry := { e with slot := own.idxOf e.slot, reqAt := none }
    let bytes := d.reservedBytes k
    let gone := Tab.keys (Tab.keep d.ops (fun _ o => decide (o.task = t ∧ o.core = k.core ∧ o.slot ≠ handlerSlot) && o.readsAnew))
    let d1 := gone.foldl Dev.forget d
    let d2 : Dev := { d1 with
      ops := Tab.mapV (Tab.keep d1.ops (fun n _ => !gone.contains n)) (fun _ o =>
        if o.task = t ∧ o.core = k.core ∧ o.slot ≠ handlerSlot then { o with core := 65536 + t, slot := own.idxOf o.slot } else o)
      groups := Tab.keep d1.groups (fun g x => !(decide (g / 64 = k.core ∧ own.contains (g % 64)) || (decide (x.task = t) && trail.contains g))) }
    let d3 := d2.modCore k.core (fun c => ({ c with
      mq := c.mq.filter (fun e => decide (e.task ≠ t)), waiting := c.waiting.filter (fun r => !own.contains r.slot) }).freeUnits t)
    let d4 := d3.modPair (k.core / 2) (fun p => match p.owner with
      | some (c, e) => if c = k.core ∧ mine.any (fun x => decide (x.id = e)) then { p with owner := none } else p
      | none => p)
    let d5 := d4.modTask t (fun k => { k with
      phase := .saved place, slots := [], left := [], saved := leads ++ tails, savedMx := mine.map back, savedBuf := bytes, ran := k.ran + (d.now (clusterOf k.core) - k.since),
      floor := max k.floor (time k.core)
      cq := { k.cq with entries := k.cq.entries.map (fun e => { e with slot := own.idxOf e.slot }) }
      streams := Tab.mapV k.streams (fun _ x => { x with queue := [] }), deadlineFrom := none })
    let last := d5.tasks.all (fun x => decide (x.2.gang ≠ k.gang) || x.2.isSaved)
    let d6 := if last then { d5 with gangs := Tab.modify d5.gangs k.gang (fun g => { g with share := [] }) } else d5
    ((d6.modCluster (clusterOf k.core) (fun c => { c with idleSince := d.time })).markRequests (k.core / 2)).wakeStalls

/-- Bytes of a context (R341, R342): the workgroup's allotments, its tiles, its reservations, and registers; the gang's C allotment is written once, with
its first member. -/
def Dev.contextBytes (d : Dev) (t : Nat) : Nat :=
  match d.task? t, d.gridOf t with
  | some k, some g =>
    let first := (d.tasks.find? (fun x => decide (x.2.gang = k.gang))).map Prod.fst = some t
    4 * g.need.vregs + g.need.priv + g.need.scr + 16384 * g.tiles + (if first then g.cBytes else 0) + 1024 * g.groups
      + ((k.handles.filter (fun h => decide (h.2.buf ≠ 2))).map (fun h => 256 * h.2.units)).foldl (· + ·) 0
  | _, _ => 0

/-- Bytes of some contexts, and those of them that a place of the shadow store has no room for (R341). -/
def Dev.contextsBytes (d : Dev) (ts : List Nat) : Nat := (ts.map d.contextBytes).foldl (· + ·) 0
def Dev.overflowBytes (d : Dev) (ts : List Nat) : Nat := d.contextsBytes ts - 12 * 2 ^ 20

/-- The resident tasks of a cluster. -/
def Dev.clusterTasks (d : Dev) (cluster : Nat) : List Nat := (d.tasks.filter (fun t => t.2.resident && decide (clusterOf t.2.core = cluster))).map Prod.fst

/-- Bytes of the context region that a place of a die's shadow store takes: what it has no room for, or will have none for once the save begun for it ends. -/
def Dev.placeOverflow (d : Dev) : Option (List Nat) → Nat
  | some (0 :: c :: _) => d.overflowBytes (d.clusterTasks c)
  | some l => d.overflowBytes l
  | none => 0

/-- Bytes of a die's context region in use: the contexts written to it, and what its places have no room for (R339, R341). -/
def Dev.regionUsed (d : Dev) (die : Nat) : Nat :=
  d.contextsBytes (d.die die).region + ((d.die die).shadow.map d.placeOverflow).foldl (· + ·) 0

/-- Whether a die's context region has room for some more tasks (R339, R341). -/
def Dev.regionRoom (d : Dev) (die : Nat) (ts : List Nat) : Bool := decide (d.regionUsed die + d.contextsBytes ts ≤ Config.regionBytes)

/-- Tasks written to a die's context region. -/
def Dev.saveToRegion (d : Dev) (t : Nat) : Dev :=
  match d.task? t with
  | some k => (d.saveTask t none).modDie (dieOf k.core) (fun x => { x with region := x.region ++ [t] })
  | none => d

/-! ## Cooperative saves (R338, R339, R391) -/

/-- Whether every group of a task that has not exited has a split parked at YLD that holds all of the group's live lanes (R338). -/
def Dev.yielded (d : Dev) (t : Nat) : Bool :=
  let gs := d.groups.filter (fun g => decide (g.2.task = t ∧ g.1 % 64 ≠ handlerSlot) && decide (g.2.alive ≠ 0))
  !gs.isEmpty && gs.all (fun g => g.2.trap.isNone && !g.2.held &&
    g.2.splits.any (fun o => match o with
      | some x => decide (x.park = .yld ∧ x.mask = g.2.alive)
      | none => false))

/-- Whether a group of a task stands at a YLD. -/
def Dev.atYield (d : Dev) (t : Nat) : Bool :=
  d.groups.any (fun g => decide (g.2.task = t) && g.2.splits.any (fun o => match o with
    | some x => decide (x.park = .yld)
    | none => false))

/-- A world fault ends a workgroup (R327, R391): each of its groups takes cause 0x12 with no activation, and the workgroup is killed. -/
def Dev.worldFault (d : Dev) (t : Nat) : Dev :=
  match d.task? t with
  | none => d
  | some k =>
    let hurt (sl : Nat) (g : Group) : Group := { g with trap := some {
      slot := sl, split := 0, mask := g.alive, pos := g.exitPos, cause := 0x12, sub := 0, tcode := 0, kind := 0, orig := 0, addr := 0, tkt := 0, lane := 0,
      launch := k.grid, queue := k.queue, raised := d.now (clusterOf k.core) } }
    ((k.slots.filter (fun sl => !k.left.contains sl)).foldl (fun d sl => d.modGroup k.core sl (hurt sl)) d).killTask t

/-- COOPERATIVE_SAVE (R338, R339, R391): a workgroup, gang or co-resident grid that is ready is saved once nothing keeps it waiting and the region has
room. In a world whose heartbeat was lost the first YLD ends the workgroup, with no activation. -/
def execCooperativeSave (task : Nat) (s : State) : Out :=
  match s.dev.task? task with
  | none => .next s
  | some t =>
    let d := s.dev
    if d.expelled.contains (d.worldOf task) ∧ d.atYield task then .next (s.modDev (fun d => d.worldFault task))
    else
      let unit := d.unitOf t
      let ready := unit.all (fun u => decide (u.2.phase = .running) && u.2.deadlineFrom.isSome && d.yielded u.1 && d.quietTask u.1 u.2)
      let room := (List.range 4).all (fun i => d.regionRoom i ((unit.filter (fun u => decide (dieOf u.2.core = i))).map Prod.fst))
      if unit.isEmpty ∨ !ready ∨ !room then .next s
      else .next (s.modDev (fun d => unit.foldl (fun d u => d.saveToRegion u.1) d))

/-! ## Forced saves (R22, R340, R341) -/

/-- Clusters that a forced save of some clusters extends to, until no more are added: those of the rest of a gang or grid, and those of the other group
of a redundant pair (R338, R407). -/
def Dev.saveClosure (d : Dev) : Nat → List Nat → List Nat
  | 0, l => l
  | n + 1, l =>
    let held := d.tasks.filter (fun t => t.2.resident && l.contains (clusterOf t.2.core))
    let more := (held.flatMap (fun t => (d.unitOf t.2).filter (fun u => u.2.resident))).map (fun u => clusterOf u.2.core)
    let pairs := d.groups.filter (fun g => decide (g.2.role ≠ .none) && l.contains (clusterOf (g.1 / 64)))
    d.saveClosure n (l ++ more ++ pairs.map (fun g => clusterOf g.2.partner.1)).eraseDups

/-- Free shadow places of a die. -/
def Dev.freePlaces (d : Dev) (die : Nat) : Nat := ((d.die die).shadow.filter (fun p => p.isNone)).length

/-- A place of a die taken for the save of a cluster that begins: it holds the mark 0 and the cluster's number until the save ends. -/
def takePlace (cluster : Nat) : List (Option (List Nat)) → List (Option (List Nat))
  | [] => []
  | none :: l => some [0, cluster] :: l
  | p :: l => p :: takePlace cluster l

/-- Whether the context region of a die has room for what the contexts of some clusters have beyond their places (R341). -/
def Dev.overflowRoom (d : Dev) (die : Nat) (cs : List Nat) : Bool :=
  let extra (c : Nat) : Nat := d.overflowBytes (d.clusterTasks c)
  decide (d.regionUsed die + ((cs.filter (fun c => decide (dieOfCluster c = die))).map extra).foldl (· + ·) 0 ≤ Config.regionBytes)

/-- A queue's deadline in cycles (R306). -/
def Queue.cycles (q : Queue) : Nat := if q.deadline = 0 then 25000 else q.deadline

/-- Whether a task's deadline has passed (R338). -/
def Dev.expired (d : Dev) (t : Task) : Bool :=
  match t.deadlineFrom with
  | some f => decide ((d.queue t.queue).cycles ≤ d.now (clusterOf t.core) - f)
  | none => false

/-- A forced save of some clusters begins: their cores stop issuing, and each takes a place of its die. -/
def Dev.beginSave (d : Dev) (cs : List Nat) : Dev :=
  cs.foldl (fun d c => (d.modCluster c (fun k => { k with clearing := true })).modDie (dieOfCluster c) (fun x => { x with shadow := takePlace c x.shadow })) d

/-- PREEMPTION_DEADLINE (R22, R340, R391): a deadline that passes before a cooperative save has begun forces the save of the whole cluster, and of those it
extends to; without a free place and room for the overflow on every die concerned the clusters run on. In a world whose heartbeat was lost it ends the workgroup. -/
def execPreemptionDeadline (task : Nat) (s : State) : Out :=
  match s.dev.task? task with
  | none => .next s
  | some t =>
    let d := s.dev
    if !t.resident ∨ !d.expired t then .next s
    else if d.expelled.contains (d.worldOf task) then .next (s.modDev (fun d => d.worldFault task))
    else
      let cs := d.saveClosure 32 [clusterOf t.core]
      let fits := (List.range 4).all (fun i => decide ((cs.filter (fun c => decide (dieOfCluster c = i))).length ≤ d.freePlaces i) && d.overflowRoom i cs)
      if cs.any (fun c => (d.cluster c).clearing) ∨ !fits then .next s
      else .next (s.modDev (fun d => d.beginSave cs))

/-- Whether the stores of a core's handler have completed, but for what waits on tickets (R340, step 4). -/
def Dev.quietHandler (d : Dev) (core : Nat) : Bool :=
  !d.ops.any (fun o => decide (o.2.core = core ∧ o.2.slot = handlerSlot) && o.2.kind.writes && o.2.holdsSave)

/-- An active handler activation is abandoned (R340, step 4): its stores have completed, its registers are kept, and its trap waits again, first in turn. -/
def Dev.abandonHandler (d : Dev) (core : Nat) : Dev :=
  match (d.core core).serving with
  | none => d
  | some (t, r) =>
    let d1 := d.endActivation core false
    let g := d1.group core r.slot
    if g.task = t ∧ !g.killed ∧ d1.hasGroup core r.slot then
      (d1.modGroup core r.slot (fun g => { g with trap := some r })).modCore core (fun k => { k with waiting := r :: k.waiting.filter (fun w => decide (w.slot ≠ r.slot)) })
    else d1

/-- The place a cluster's save goes to: the one taken for it, none where it goes to the context region. -/
def Dev.takenPlace (d : Dev) (die cluster : Nat) : Option Nat := (d.die die).shadow.findIdx? (fun p => decide (p = some [0, cluster]))

/-- Whether a cluster is saved for a spare pair to take its slot: its workgroups resume on the same cores (R12). -/
def Dev.savedForSpare (d : Dev) (cluster : Nat) : Bool :=
  match (d.die (dieOfCluster cluster)).callup with
  | some (_, slot, 3) => (slotClusters (dieOfCluster cluster) slot).contains cluster
  | _ => false

/-- FORCED_SAVE_COMPLETE (R12, R22, R340, R341): once the cluster is quiet, activations are abandoned and every resident workgroup is written out whole, to the
place taken for it, else, for a call-up, to the context region. -/
def execForcedSaveComplete (cluster : Nat) (s : State) : Out :=
  let d := s.dev
  let ts := d.tasks.filter (fun t => t.2.resident && decide (clusterOf t.2.core = cluster))
  let die := dieOfCluster cluster
  if !(d.cluster cluster).clearing ∨ !ts.all (fun t => d.quietTask t.1 t.2) ∨ !(coresOf cluster).all d.quietHandler then .next s
  else
    let d1 := (coresOf cluster).foldl Dev.abandonHandler d
    let fixed (d : Dev) : Dev := if d.savedForSpare cluster then ts.foldl (fun d t => d.modTask t.1 (fun k => { k with fixed := some t.2.core })) d else d
    let d2 := match d1.takenPlace die cluster with
      | some p =>
        let l := ts.map Prod.fst
        (l.foldl (fun (d : Dev) t => d.saveTask t (some (die, p))) d1).modDie die (fun x => { x with shadow := setAt x.shadow p (if l.isEmpty then none else some l) })
      | none => (ts.map Prod.fst).foldl Dev.saveToRegion d1
    .next { s with dev := (fixed d2).modCluster cluster (fun k => { k with clearing := false }) }

/-- Whether a task's context still lies in a place. -/
def Dev.liesIn (d : Dev) (die place t : Nat) : Bool :=
  match d.task? t with
  | some k => decide (k.phase = .saved (some (die, place)))
  | none => false

/-- SHADOW_PLACE_RELEASE (R341): a place all of whose workgroups have been restored is free; while a save waits, what it still holds moves to the context
region. -/
def execShadowPlaceRelease (die place : Nat) (s : State) : Out :=
  let d := s.dev
  match (d.die die).shadow.getD place none with
  | none => .next s
  | some l =>
    let left := l.filter (d.liesIn die place)
    let waits := d.tasks.any (fun t => t.2.resident && decide (dieOf t.2.core = die) && d.expired t.2 && !(d.cluster (clusterOf t.2.core)).clearing)
    let free (d : Dev) : Dev := d.modDie die (fun x => { x with shadow := setAt x.shadow place none })
    if l.headD 0 = 0 then .next s
    else if left.isEmpty then .next (s.modDev free)
    else if waits ∧ d.regionUsed die - d.overflowBytes l + d.contextsBytes left ≤ Config.regionBytes then
      let d1 := left.foldl (fun d t => d.modTask t (fun k => { k with phase := .saved none })) d
      .next { s with dev := (free d1).modDie die (fun x => { x with region := x.region ++ left }) }
    else .next s

/-! ## Restores (R289, R341, R342, R407) -/

/-- The die and entry in which an operation waits. -/
def Dev.entryOf (d : Dev) (n : Nat) : Option (Nat × Nat × TicketEntry) :=
  d.dies.findSome? (fun x => (x.2.tickets.find? (fun e => e.2.ops.contains n)).map (fun e => (x.1, e.1, e.2)))

/-- An operation joins the entry of its page on a die, which is created where there is none (R289); with the table full its access is sent again (R286). -/
def Dev.joinOn (d : Dev) (die n : Nat) (e : TicketEntry) : Dev :=
  match d.ticketFor die e.owner e.win e.page e.world with
  | some (j, x) => d.modDie die (fun k => { k with tickets := Tab.insert k.tickets j (x.join n) })
  | none => if 1024 ≤ (d.die die).tickets.length then d.reissue n else ({ d with nextTicket := d.nextTicket + 1 }).modDie die (fun k => { k with tickets := Tab.insert k.tickets d.nextTicket { e with ops := [n] } })

/-- A restored operation on a ticket (R289): with its notice there it goes on, else it waits in an entry of the die it is now on. -/
def Dev.rejoin (d : Dev) (die n : Nat) : Dev :=
  match d.entryOf n with
  | none => d
  | some (was, _, e) =>
    match e.notice with
    | some w => (d.forget n).settleTicket [n] w
    | none => if was = die then d else (d.forget n).joinOn die n e

/-- A task's restore is complete: it runs, or restarts if it was wounded; splits parked at YLD run on, traps wait again, operations rejoin their
tickets, and the monitors look again. -/
def Dev.restored (d : Dev) (t : Nat) : Dev :=
  match d.task? t with
  | none => d
  | some k =>
    let now := d.now (clusterOf k.core)
    let runOn (x : Split) : Split := { (if x.park = .yld ∧ k.deadlineFrom.isNone then x.unpark else x) with since := now, probed := false }
    let d2 := k.slots.foldl (fun d sl =>
      let d3 := d.modGroup k.core sl (fun g => { g with splits := g.splits.map (fun o => o.map runOn), probed := false })
      match (d3.group k.core sl).trap with
      | some r =>
        let r1 := { r with slot := sl, raised := now }
        (d3.modGroup k.core sl (fun g => { g with trap := some r1 })).modCore k.core (fun c => { c with waiting := queueTrap r1 c.waiting })
      | none => d3) d
    let waits := Tab.keys (Tab.keep d2.ops (fun _ o => decide (o.task = t) && o.ticketed))
    let d4 := waits.foldl (fun d n => d.rejoin (dieOf k.core) n) d2
    ((d4.modTask t (fun k => { k with phase := if k.restart then .wounded else .running, })).modDie (dieOf k.core) (fun x =>
      { x with region := x.region.filter (fun n => decide (n ≠ t)) })).markRequests (k.core / 2)

/-- CONTEXT_RESTORE_COMPLETE (R341, R342): the contexts restored into a cluster are there, and their workgroups may issue. -/
def execContextRestoreComplete (cluster : Nat) (s : State) : Out :=
  let ts := s.dev.tasks.filter (fun t => decide (t.2.phase = .restoring ∧ clusterOf t.2.core = cluster))
  let all (d : Dev) : Dev := { d with dies := Tab.mapV d.dies (fun _ x => { x with region := x.region.filter (fun n => !(ts.map Prod.fst).contains n) }) }
  .next (if ts.isEmpty then s else s.modDev (fun d => all (ts.foldl (fun d t => d.restored t.1) d)))

/-! ## Wait cycles (R343 to R347) -/

/-- Whether a split runs: one at a JOIN waits for the others of its group only, and a warp that drains goes on by itself. -/
def Park.runs : Park → Bool
  | .running => true
  | .drain _ => true
  | _ => false

/-- Whether a split runs and is not just woken from a stall. -/
def Split.runs (x : Split) : Bool := x.park.runs && decide (x.waitKind = 0)

/-- The kind of wait of a group that waits beyond the threshold: none of its live splits runs, no trap holds it (a trap hold goes nowhere, R344), and
one split has waited for that long; 0 otherwise. -/
def Dev.groupWaits (d : Dev) (core slot : Nat) : Nat :=
  let g := d.group core slot
  let live := g.splits.filterMap id
  if live.any Split.runs ∨ g.held ∨ g.trap.isSome then 0
  else match live.find? (fun x => decide (x.waitKind ≠ 0) && decide (d.param 0 ≤ d.lasted core x.since)) with
    | some x => x.waitKind
    | none => 0

/-- The groups of a task, as core and slot. -/
def Dev.groupsOf (d : Dev) (p : Nat → Task → Bool) : List (Nat × Nat) :=
  (d.groups.filter (fun g => decide (g.1 % 64 ≠ handlerSlot ∧ g.2.role ≠ .trailer) && (match d.task? g.2.task with
    | some k => p g.2.task k
    | none => false))).map (fun g => (g.1 / 64, g.1 % 64))

/-- Whether a group is parked on a barrier word. -/
def Dev.parkedOn (d : Dev) (g : Nat × Nat) (w : Loc) : Bool :=
  (d.group g.1 g.2).splits.any (fun o => match o with
    | some { park := .barrier v _, .. } => decide (v = w)
    | _ => false)

/-- The tasks that hold a set a split waits for (R203). -/
def Dev.setHolders (d : Dev) (t : Nat) (ids : List Nat) : List Nat :=
  match d.task? t with
  | some k => ids.flatMap (fun i =>
      let r := Tab.get { base := 0, len := 0, acquired := false } k.sets i
      d.holders t r.base r.len)
  | none => []

/-- The groups that a probe goes on to along the wait of a parked split (R344). -/
def Dev.parkEdges (d : Dev) (task : Nat) (p : Park) : List (Nat × Nat) :=
  match p with
  | .barrier w _ =>
    let me := (d.task? task).getD default
    (d.groupsOf (fun t k => if w.sp = .smem then decide (t = task) else decide (k.gang = me.gang))).filter (fun x => !d.parkedOn x w)
  | .stallSet ids => let hs := d.setHolders task ids; d.groupsOf (fun t _ => hs.contains t)
  | .stallToken => match Tab.find d.tokens (d.worldOf task) with
    | some h => d.groupsOf (fun t _ => decide (t = h))
    | none => []
  | _ => []

/-- The MMA of a group that waits at its pair's arbiter. -/
def Dev.arbiterWait (d : Dev) (core slot : Nat) : Option MxEntry :=
  (d.core core).mq.find? (fun e => decide (e.task = (d.group core slot).task ∧ e.slot = slot) && e.reqAt.isSome && e.started.isNone)

/-- The group that a probe goes on to along a wait at the pair arbiter: that of the MMA that holds the array (R344). -/
def Dev.arbiterEdges (d : Dev) (core slot : Nat) : List (Nat × Nat) :=
  match d.arbiterWait core slot, (d.pair (core / 2)).owner with
  | some _, some (c, e) => match d.entry? c e with
    | some x => [(c, x.slot)]
    | none => []
  | _, _ => []

/-- The groups that a probe goes on to from a group it has reached (R344). -/
def Dev.probeEdges (d : Dev) (core slot : Nat) : List (Nat × Nat) :=
  let g := d.group core slot
  ((g.splits.filterMap id).flatMap (fun x => d.parkEdges g.task x.park) ++ d.arbiterEdges core slot).eraseDups

/-- The groups that a probe goes to from its sender: along the wait that sent it (R343, R344). -/
def Dev.waitEdges (d : Dev) (core slot wait : Nat) : List (Nat × Nat) :=
  if wait = 4 then d.arbiterEdges core slot
  else match d.split? core slot wait with
    | some x => (d.parkEdges (d.group core slot).task x.park).eraseDups
    | none => []

/-- The kind of a wait that sends probes (R343): of a split, of an MMA at its pair's arbiter (5), of a trap hold (10), or of an operation on a ticket (8). -/
def Dev.kindOfWait (d : Dev) (core slot wait : Nat) : Nat :=
  if wait = 4 then (if (d.arbiterWait core slot).isSome then 5 else 0)
  else if wait = 5 then (if (d.group core slot).holdSince.isSome then 10 else 0)
  else if 6 ≤ wait then (if (d.op? (wait - 6)).any Op.ticketed then 8 else 0)
  else ((d.split? core slot wait).map Split.waitKind).getD 0

/-- A probe of a group's wait is sent: it stands at its sender. -/
def Dev.sendProbe (d : Dev) (core slot wait : Nat) : Dev :=
  { d with
    probes := Tab.insert d.probes d.nextProbe { sender := (core, slot), wait := wait, at_ := (core, slot), path := [] }
    nextProbe := d.nextProbe + 1 }

/-- Whether a wait since a cycle, marked or not as having sent its probe, sends it now: it has lasted the threshold, and the group has no probe under
way (R343; log entry 78). -/
def Dev.probeDue (d : Dev) (core slot since : Nat) (probed : Bool) : Bool :=
  !probed && decide (d.param 0 ≤ d.lasted core since) && d.probes.all (fun p => decide (p.2.sender ≠ (core, slot)))

/-- The cycles that an operation has waited on its ticket, by its core's clock. -/
def Dev.ticketWait (d : Dev) (core n : Nat) : Nat :=
  ((d.dies.flatMap (fun x => x.2.tickets.filter (fun e => e.2.ops.contains n))).map (fun e => d.cyclesIn (clusterOf core) (d.time - e.2.since))).headD 0

/-- WAIT_PROBE (R343): a wait that has lasted the threshold sends its probe, one for a group at a time; wait 4 is the group's MMA at the pair arbiter, 5 its
trap hold, and 6 and more the operation of that number, less 6, on its ticket (log entry 78). -/
def execWaitProbe (core slot split : Nat) (s : State) : Out :=
  if split = 4 then
    match s.dev.arbiterWait core slot with
    | none => .next s
    | some e =>
      if s.dev.probeDue core slot (e.reqAt.getD 0) e.probed then
        .next (s.modDev (fun d => (d.modEntry core e.id (fun x => { x with probed := true })).sendProbe core slot 4))
      else .next s
  else if split = 5 then
    match (s.dev.group core slot).holdSince with
    | none => .next s
    | some c =>
      if s.dev.probeDue core slot c (s.dev.group core slot).probed then
        .next (s.modDev (fun d => (d.modGroup core slot (fun g => { g with probed := true })).sendProbe core slot 5))
      else .next s
  else if 6 ≤ split then
    match s.dev.op? (split - 6) with
    | none => .next s
    | some o =>
      let d := s.dev
      if o.core = core ∧ o.slot = slot ∧ o.ticketed = true ∧ !o.probed ∧ d.param 0 ≤ d.ticketWait core (split - 6)
          ∧ d.probes.all (fun p => decide (p.2.sender ≠ (core, slot))) = true then
        .next (s.modDev (fun d => (d.modOp (split - 6) (fun o => { o with probed := true })).sendProbe core slot split))
      else .next s
  else match s.dev.split? core slot split with
    | none => .next s
    | some x =>
      if x.waitKind ≠ 0 ∧ s.dev.probeDue core slot x.since x.probed = true then
        .next (s.modDev (fun d =>
          (d.modGroup core slot (fun g => { g with splits := modSplit g.splits split (fun y => { y with probed := true }) })).sendProbe core slot split))
      else .next s

/-- A found cycle: an event of kind 2 for the supervisor, and PROBE's flag in every workgroup of it (R345, R346). The first member is the sender, with
the wait that sent the probe. -/
def Dev.foundCycle (d : Dev) (wait : Nat) (members : List (Nat × Nat)) : Dev :=
  let ts := (members.map (fun m => (d.group m.1 m.2).task)).eraseDups
  let d1 := ts.foldl (fun d t => d.modTask t (fun k => { k with cyc := true })) d
  let launch := match members with
    | m :: _ => ((d.task? (d.group m.1 m.2).task).map (fun k => k.grid)).getD 0
    | [] => 0
  d1.supervisor 2 launch (members.zipIdx.map (fun m =>
    (m.1.1, m.1.2, if m.2 = 0 then d.kindOfWait m.1.1 m.1.2 wait else d.groupWaits m.1.1 m.1.2)))

/-- Whether the group a probe stands at drops it: the wait that sent it has ended, or the group it has reached does not wait beyond the threshold (R344). -/
def Dev.dropsProbe (d : Dev) (p : Probe) : Bool :=
  if p.path.isEmpty then decide (d.kindOfWait p.sender.1 p.sender.2 p.wait = 0) else decide (d.groupWaits p.at_.1 p.at_.2 = 0)

/-- The groups a probe goes on to: along the edges of R344, to its sender or to a group it has not gone through. -/
def Dev.probeNext (d : Dev) (p : Probe) : List (Nat × Nat) :=
  (if p.path.isEmpty then d.waitEdges p.sender.1 p.sender.2 p.wait else d.probeEdges p.at_.1 p.at_.2).filter
    (fun x => decide (x = p.sender) || !p.path.contains x)

/-- How many of some units a die's budget for an activity still has (R377). -/
def Dev.unitsLeft (d : Dev) (act die : Nat) : Nat → Nat
  | 0 => 0
  | n + 1 => if d.budgetLeft act die (n + 1) then n + 1 else d.unitsLeft act die n

/-- PROBE_FORWARD (R344, R346, R376, R377): a probe at a waiting group goes on along its edges, one unit of the die's budget each; with fewer units left it goes
along the first of them, and stays for the others, which go in a later period. At a running group it is dropped; back at its sender it has found a cycle. -/
def execProbeForward (probe : Nat) (s : State) : Out :=
  match Tab.find s.dev.probes probe with
  | none => .next s
  | some p =>
    let d := { s.dev with probes := Tab.erase s.dev.probes probe }
    if d.dropsProbe p then .next { s with dev := d }
    else
      let due := (d.probeNext p).filter (fun x => !p.sent.contains x)
      let die := dieOf p.at_.1
      let next := due.take (d.unitsLeft 6 die due.length)
      if next.isEmpty ∧ !due.isEmpty then .next s
      else
        let d1 := d.spend 6 die next.length
        let path := p.path ++ [p.at_]
        if next.contains p.sender then .next { s with dev := d1.foundCycle p.wait path }
        else
          let d2 := next.foldl (fun d x =>
            { d with probes := Tab.insert d.probes d.nextProbe { p with at_ := x, path := path, sent := [] }, nextProbe := d.nextProbe + 1 }) d1
          .next { s with dev := if next.length < due.length then { d2 with probes := Tab.insert d2.probes probe { p with sent := p.sent ++ next } } else d2 }

end Sys2Proof.Machine
end

