-- ==== Sys2Proof/Machine/Life.lean ====
section
/-! DEFINITION. The life budget at work: stress and recovery, grants of boost and the changes of level they bring, the LIFE words, commits of records,
fallow, retirement and call-ups (R12, R13, R350 to R368, R372, R382). -/

namespace Sys2Proof.Machine

/-! ## Changes of level (R372) -/

/-- The change count of a change decided now: the first multiple of 16,000 at least 160,000 units on. -/
def Dev.changeCount (d : Dev) : Nat := (d.time + 160000 + 15999) / 16000 * 16000

/-- A change of level decided for some clusters: of two changes for a cluster with one count, the later applies. Answers the count. -/
def Dev.scheduleChange (d : Dev) (cs : List Nat) (level : Nat) : Dev × Nat :=
  let c := d.changeCount
  let older : Tab Change := Tab.mapV d.changes (fun _ (x : Change) =>
    if x.count = c ∧ !x.switched then { x with clusters := x.clusters.filter (fun k => !cs.contains k) } else x)
  let x : Change := { clusters := cs, level := level, count := c, switched := false }
  ({ d with changes := Tab.insert older d.nextChange x, nextChange := d.nextChange + 1 }, c)

/-- Splits that a drain window of a change has parked on some clusters run on (R372); a cluster that another change drains takes that one next. -/
def Dev.endDrain (d : Dev) (cs : List Nat) (n : Nat) : Dev :=
  let free (x : Split) : Split :=
    x.waitFor (x.waits.filter (fun p => decide (p.1 ≠ .drain n)))
  let d1 : Dev := { d with groups := Tab.mapV d.groups (fun k g =>
    if cs.contains (clusterOf (k / 64)) then { g with splits := g.splits.map (fun o => o.map free) } else g) }
  let next (c : Nat) : Option Nat := (d.changes.find? (fun x =>
    decide (x.1 ≠ n ∧ !x.2.switched ∧ x.2.count ≤ d.time + 32000) && x.2.clusters.contains c)).map Prod.fst
  cs.foldl (fun d c => d.modCluster c (fun k => { k with drain := if k.drain = some n then next c else k.drain })) d1

/-- Clusters leave the changes that have not yet switched them (R373). -/
def Dev.leaveChanges (d : Dev) (cs : List Nat) : Dev :=
  let d1 := (d.changes.filter (fun x => !x.2.switched)).foldl (fun d x => d.endDrain cs x.1) d
  { d1 with changes := Tab.mapV d1.changes (fun _ (x : Change) =>
    if x.switched then x else { x with clusters := x.clusters.filter (fun c => !cs.contains c) }) }

/-! ## Records (R352, R355) -/

/-- A word of a record (R352). -/
def Wear.word (w : Wear) (u i : Nat) : W64 :=
  match i with
  | 0 => BitVec.ofNat 64 w.bti
  | 1 => BitVec.ofNat 64 w.hci
  | 2 => BitVec.ofNat 64 w.em
  | 3 => BitVec.ofNat 64 w.pool
  | 4 => BitVec.ofNat 64 w.cbti
  | 5 => BitVec.ofNat 64 w.chci
  | 6 => BitVec.ofNat 64 w.cem
  | 7 => BitVec.ofNat 64 (unitClass u * 2 ^ 62 + unitIndex u * 2 ^ 48 + w.st * 2 ^ 40 + w.core * 2 ^ 32 + (if w.disc then 1 else 0))
  | 8 => BitVec.ofInt 32 w.drift ++ BitVec.ofNat 32 w.fcount
  | 9 => BitVec.ofNat 64 w.ctime
  | 10 => BitVec.ofNat 64 w.fms
  | _ => BitVec.ofNat 64 w.cseq

/-- Records whose units had an event are due to be committed from now on, those due already since when they were. -/
def Dev.markDue (d : Dev) (us : List Nat) : Dev :=
  { d with commitDue := us.foldl (fun t u => if (Tab.find t u).isSome then t else Tab.insert t u d.time) d.commitDue }

/-- A record committed: the live record takes the time and the next sequence number, and the older stored copy is written over. -/
def Dev.commitUnit (d : Dev) (u : Nat) : Dev :=
  let w := { d.wearOf u with ctime := d.time, cseq := (d.wearOf u).cseq + 1 }
  let newer := ((Tab.find d.wearMram u).map Prod.snd).getD (wearInit u)
  { d.modWear u (fun _ => w) with wearMram := Tab.insert d.wearMram u (newer, w), commitDue := Tab.erase d.commitDue u }

/-- The TIME since when a record has been due to be committed: its unit's event, or 10 s after its last commit (R355). -/
def Dev.dueSince (d : Dev) (u : Nat) : Option Nat :=
  let old := (d.wearOf u).ctime + 10000000 * usTime
  match Tab.find d.commitDue u with
  | some t => some t
  | none => if old ≤ d.time then some old else none

/-- RECORD_COMMIT (R355): a record whose unit had an event, or that was committed 10 s ago, within the commit budget; one that has been due for 10 s
without regard to it. -/
def execRecordCommit (unit : Nat) (s : State) : Out :=
  let d := s.dev
  .next (match d.dueSince unit with
    | some t => if unit < unitCount ∧ (d.budgetLeft 3 0 1 = true ∨ t + 10000000 * usTime ≤ d.time) then { s with dev := (d.commitUnit unit).spend 3 0 1 } else s
    | none => s)

/-! ## Grants (R358 to R362) -/

/-- The physical cores and arrays of a logical cluster in service. -/
def Dev.unitsOfCluster (d : Dev) (cl : Nat) : List Nat :=
  if d.inService (8 * cl) then (coresOf cl).flatMap (fun c => [d.physCore c, 320 + d.physCore c]) else []

/-- A mechanism's member of a triple. -/
def mechOf (x : Nat × Nat × Nat) (m : Nat) : Nat := match m with | 0 => x.1 | 1 => x.2.1 | _ => x.2.2

/-- What a cost still commits after some samples of a grant's duration: it falls by cost / d with each. -/
def leftOf (cost drawn ms : Nat) : Nat := cost - cost * min drawn ms / ms

/-- What a grant still commits in a mechanism. -/
def Grant.left (g : Grant) (m : Nat) : Nat := leftOf (mechOf g.cost m) g.drawn g.ms

/-- Commitments of a record changed. -/
def Wear.mapCommit (w : Wear) (f : Nat → Nat → Nat) : Wear := { w with cbti := f 0 w.cbti, chci := f 1 w.chci, cem := f 2 w.cem }

/-- Commitments of some units changed. -/
def Dev.mapCommits (d : Dev) (us : List Nat) (f : Nat → Nat → Nat) : Dev := us.foldl (fun d u => d.modWear u (fun w => w.mapCommit f)) d

/-- The cores and arrays of a physical pair. -/
def pairUnits (die pair : Nat) : List Nat := (List.range 16).flatMap (fun i => [die * 80 + pair * 16 + i, 320 + die * 80 + pair * 16 + i])

/-- The granary pair of a die, if it has one. -/
def Dev.granary (d : Dev) (die : Nat) : Option Nat :=
  (List.range 5).find? (fun p => !(d.die die).slotMap.contains p && decide ((d.wearOf (die * 80 + p * 16)).st = 3))

/-- Cores and arrays of clusters that had an event, with those of the granary pairs of their dies, whose records are committed at the same events (R427). -/
def Dev.withSpares (d : Dev) (cs us : List Nat) : List Nat :=
  us ++ ((cs.map dieOfCluster).eraseDups).flatMap (fun x => match d.granary x with
    | some p => pairUnits x p
    | none => [])

/-- Grants end on some clusters: what they still commit there is released (R359). -/
def Dev.endGrants (d : Dev) (cs : List Nat) : Dev :=
  let hit := d.grants.filter (fun g => g.2.clusters.any (fun c => cs.contains c))
  hit.foldl (fun d g =>
    let mine := g.2.clusters.filter (fun c => cs.contains c)
    let rest := g.2.clusters.filter (fun c => !cs.contains c)
    let us := mine.flatMap d.unitsOfCluster
    let d1 := (d.mapCommits us (fun m x => x - g.2.left m)).markDue (d.withSpares mine us)
    { d1 with grants := if rest.isEmpty then Tab.erase d1.grants g.1 else Tab.insert d1.grants g.1 { g.2 with clusters := rest } }) d

/-- The cost table (R358), in 2^-8 sh for each hour. -/
def boostRate (level m : Nat) : Nat :=
  match level, m with
  | 1, 0 => 768
  | 1, 1 => 1366
  | 1, _ => 110
  | _, 0 => 5149
  | _, 1 => 14110
  | _, _ => 262

/-- The cost of a grant in a mechanism, in 2^-24 sh. -/
def boostCost (level m ms : Nat) : Nat := (boostRate level m * 2 ^ 16 * ms + 3599999) / 3600000

/-- The clusters of a mask in service, widened to whole stacked pairs. -/
def Dev.boostSet (d : Dev) (mask : Nat) : List Nat :=
  (List.range 32).filter (fun c => let p := c / 2 * 2; (bit mask p && d.inService (8 * p)) || (bit mask (p + 1) && d.inService (8 * (p + 1))))

/-- A mask of clusters. -/
def clusterMask (cs : List Nat) : Nat := (cs.map (fun c => 2 ^ c)).foldl (· + ·) 0

/-- Surplus of a unit as a grant that supersedes another sees it. -/
def Dev.surplusFor (d : Dev) (cl u m : Nat) : Int :=
  d.surplus u m + (match d.grants.find? (fun g => g.2.clusters.contains cl) with
    | some g => (g.2.left m : Int)
    | none => 0)

/-- The checks of a grant in their order: 0 none failed, or the status and the mechanism (R360, R366). -/
def Dev.boostCheck (d : Dev) (cs : List Nat) (level ms : Nat) : Nat × Nat :=
  let us := cs.flatMap (fun c => (d.unitsOfCluster c).map (fun u => (c, u)))
  let short (m : Nat) : Bool :=
    us.any (fun x => decide ((d.wearOf x.2).st = 0) && decide (d.surplusFor x.1 x.2 m < (boostCost level m ms : Int)))
  let limit : Int := (d.param 6 : Int) - (if level = 1 then 5 else 12)
  if d.target.isNone then (1, 0)
  else if short 0 then (1, 1)
  else if short 1 then (1, 2)
  else if short 2 then (1, 3)
  else if cs.any (fun c => decide (limit < (d.cluster c).celsius)) then (2, 0)
  else if 3200 < d.powerW + (if level = 1 then 8 else 19) * cs.length then (3, 0)
  else (0, 0)

/-- The next grant number: 1 to 65,535 in rotation, past those still running. -/
def Dev.nextGrant (d : Dev) : Nat :=
  let at_ (i : Nat) : Nat := (d.lastGrant + i) % 65535 + 1
  at_ ((firstBelow (fun i => (Tab.find d.grants (at_ i)).isNone) 65535).getD 0)

/-- A grant made: superseded grants end, the set is debited, and the change of level is decided. -/
def Dev.makeGrant (d : Dev) (cs : List Nat) (level ms : Nat) : Dev × Nat :=
  let cost := (boostCost level 0 ms, boostCost level 1 ms, boostCost level 2 ms)
  let d1 := d.endGrants cs
  let us := cs.flatMap d1.unitsOfCluster
  let d2 := (d1.mapCommits us (fun m x => x + mechOf cost m)).markDue (d1.withSpares cs us)
  let r := d2.scheduleChange cs level
  let n := d2.nextGrant
  let g : Grant := { level := level, clusters := cs, ms := ms, drawn := 0, cost := cost, start := some r.2 }
  ({ r.1 with grants := Tab.insert r.1.grants n g, lastGrant := n }, n)

/-- BOOST's result and effect (R360). -/
def Dev.boost (d : Dev) (a b : W64) : W64 × Dev :=
  let x := a.toNat
  let level := bits x 33 32
  let ms := b.toNat
  let cs := d.boostSet (bits x 31 0)
  let answer (st mech g : Nat) : W64 := BitVec.ofNat 64 (st * 2 ^ 56 + mech * 2 ^ 52 + g * 2 ^ 32 + clusterMask cs)
  if bits x 63 34 ≠ 0 ∨ level = 3 ∨ (level ≠ 0 ∧ (ms = 0 ∨ 3600000 < ms)) ∨ cs.isEmpty then (BitVec.ofNat 64 (4 * 2 ^ 56), d)
  else if level = 0 then
    let mine := cs.filter (fun c => d.grants.any (fun g => g.2.clusters.contains c))
    (answer 0 0 0, if mine.isEmpty then d else ((d.endGrants mine).scheduleChange mine 0).1)
  else
    let r := d.boostCheck cs level ms
    if r.1 ≠ 0 then (answer r.1 r.2 0, d)
    else let g := d.makeGrant cs level ms; (answer 0 0 g.2, g.1)

/-- BOOST, by the level in S[Sa] (R206, R360). -/
def State.boost (s : State) (d a b : SReg) : State :=
  s.irrevocably (fun s => let r := s.dev.boost (s.rdS a) (s.rdS b); ({ s with dev := r.2 }).wrS d r.1)

/-- BOOST to a level above B0 (R360). -/
def execBoostGrant (d a b : SReg) (s : State) : Out := .next (s.boost d a b)
/-- BOOST to B0 (R360). -/
def execBoostEnd (d a b : SReg) (s : State) : Out := .next (s.boost d a b)

/-- BOOST_GRANT_END (R362): a grant has run its d ms from its effective time; its clusters return to B0. -/
def execBoostGrantEnd (grant : Nat) (s : State) : Out :=
  match Tab.find s.dev.grants grant with
  | none => .next s
  | some g =>
    match g.start with
    | some c => .next (if s.dev.time < c + g.ms * 1000 * usTime then s else { s with dev := ((s.dev.endGrants g.clusters).scheduleChange g.clusters 0).1 })
    | none => .next s

/-! ## LBRD, WRECRD, LIFESET, EQRD (R364 to R366) -/

/-- The binding unit of the lowest mechanism with the smallest surplus. -/
def Dev.bindingUnit (d : Dev) : Option Nat :=
  match minSurplus d 0 d.serving, minSurplus d 1 d.serving, minSurplus d 2 d.serving with
  | some a, some b, some c => some (if a.1 ≤ b.1 ∧ a.1 ≤ c.1 then a.2 else if b.1 ≤ c.1 then b.2 else c.2)
  | _, _, _ => none

/-- LBRD (R364). -/
def execLbrd (d a : SReg) (s : State) : Out :=
  let k := bits (s.rdS a).toNat 1 0
  .next (s.wrS d (if k < 3 then BitVec.ofInt 64 (s.dev.binding k)
    else match s.dev.bindingUnit with
      | some u => (s.dev.wearOf u).word u 7
      | none => BitVec.ofInt 64 Config.emptyMin))

/-- WRECRD (R364). -/
def execWrecrd (d a : SReg) (s : State) : Out :=
  let x := (s.rdS a).toNat
  .next (s.wrS d (match unitOf (bits x 15 14) (bits x 9 0) with
    | some u => if bits x 19 16 < 12 then (s.dev.wearOf u).word u (bits x 19 16) else BitVec.allOnes 64
    | none => BitVec.allOnes 64))

/-- A malformed target record (R365, R366). -/
def badTarget (ws : List W64) : Bool :=
  let w (i : Nat) : Nat := (ws.getD i 0).toNat
  decide (bits (w 0) 31 4 ≠ 0 ∨ bits (w 0) 63 32 = 0 ∨ bits (w 5) 63 32 ≠ 0 ∨ w 6 ≠ 0 ∨ w 7 ≠ 0)
    || [1, 2, 3, 4].any (fun i => decide (bits (w i) 63 42 = 0 ∨ bits (w i) 41 21 = 0 ∨ bits (w i) 20 0 = 0))

/-- LIFESET (R206, R365, R366). -/
def execLifeset (d a : SReg) (s : State) : Out :=
  .next (s.irrevocably (fun s => s.afterStores 3 (fun s => s.withRecord (s.rdS a).toNat 64 (fun s ws =>
    if badTarget ws then s.wrS d 1
    else (s.modDev (fun e => { e.markDue (List.range unitCount) with target := some { words := ws.take 6 } })).wrS d 0))))

/-- EQRD (R364). -/
def execEqrd (d a : SReg) (s : State) : Out :=
  let q := s.dev.queue (bits (s.rdS a).toNat 5 0)
  let world := (s.dev.core s.iss.core).world
  .next (s.wrS d (if world = 0 ∨ q.world = world then BitVec.ofNat 64 (min q.used (2 ^ 32 - 1) * 2 ^ 32 + min q.debt (2 ^ 32 - 1)) else 0))

/-! ## Stress and recovery (R350, R351, R353) -/

/-- x · c / 2^64, n times. -/
def timesPow (c : Nat) : Nat → Nat → Nat
  | 0, x => x
  | n + 1, x => timesPow c n (x * c / 2 ^ 64)

/-- 2^(q / 200) in units of 2^-64: the fraction by the 200th root of two, the whole part by shifting. -/
def pow2 (q : Int) : Nat :=
  let m := timesPow 18510786529952632121 (q % 200).toNat (2 ^ 64)
  if 0 ≤ q / 200 then m * 2 ^ (q / 200).toNat else m / 2 ^ (-(q / 200)).toNat

/-- The number of a slice of a die: its own, or that of the retired one whose number it took (R155). -/
def Dev.sliceNumber (d : Dev) (die slice : Nat) : Option Nat :=
  match (d.die die).spareUsed.find? (fun p => decide (p.2 = slice)) with
  | some p => some p.1
  | none => if slice < 64 ∧ (Tab.find (d.die die).spareUsed slice).isNone then some slice else none

/-- A part of a whole, in 2^-16, at most all of it. -/
def part16 (n all : Nat) : Nat := if all = 0 then 0 else min (2 ^ 16) (n * 2 ^ 16 / all)

/-- The switching fraction of a unit since the latest sample, in 2^-16, and its mean clock in MHz (R350): of a core its cycles in which it issued, of an array its
mean activity, of a slice its cycles with a service, at the base clock, of a link macro the time in which its link sent flits, each byte of a lane taking 4/7 of
a TIME unit (R296). -/
def Dev.switching (d : Dev) (x : UnitSample) : Nat × Nat :=
  let dt := d.time - d.sampledAt
  let ix := unitIndex x.unit
  let c := (d.wearOf x.unit).core
  let cycles := d.now (c / 8) - d.sampled.getD (c / 8) 0
  let mean := if dt = 0 then 0 else 16000 * cycles / dt
  let count (k : Nat) : Nat := Tab.get 0 d.busy k
  match unitClass x.unit with
  | 0 => (part16 (count c) cycles, mean)
  | 1 => (part16 (count (256 + c / 2)) (8 * cycles), mean)
  | 2 => (match d.sliceNumber (ix / 68) (ix % 68) with
    | some n => part16 (count (384 + 64 * (ix / 68) + n)) (dt * 10 / 64)
    | none => 0, x.megaHertz)
  | _ => (part16 (4 * (d.link (d.linkOfPort ix)).sent) (7 * dt), x.megaHertz)

/-- The supply of a unit in mV: of a core or an array that of its cluster's level with the difference its sensor finds (R350, R369). -/
def Dev.voltage (d : Dev) (x : UnitSample) : Int :=
  if unitClass x.unit ≤ 1 then coreSupply (d.cluster ((d.wearOf x.unit).core / 8)).level + x.milliVolt else x.milliVolt

/-- The rate of a mechanism over a sample, in units of 2^-64 sh for each hour, with the unit's switching fraction and clock, and its supply (R350). -/
def stressRate (x : UnitSample) (a : Nat × Nat) (v : Int) (m : Nat) : Nat :=
  match m with
  | 0 => x.powered * pow2 (8 * (v - 750) + 20 * (x.celsius - 85)) / 2 ^ 16
  | 1 => a.1 * a.2 * pow2 (10 * (v - 750)) / (2500 * 2 ^ 16)
  | _ => x.current * x.current * pow2 (25 * (x.celsius - 85)) / 2 ^ 32

/-- The rate as the monitor evaluates it: some value within 2^-13 of the above (log entry 20). -/
def measured (rate : Nat) (free : W64) : Nat := rate * (2 ^ 32 - 2 ^ 19 + free.toNat % 2 ^ 20) / 2 ^ 32

/-- An accumulator and its residue after a sample: rate · 2^24 / 3,600,000 is added, the part below one carried in 16 bits (R351). -/
def accrue (acc resid rate : Nat) : Nat × Nat :=
  let x := rate / (3600000 * 2 ^ 24) + resid
  (acc + x / 2 ^ 16, x % 2 ^ 16)

/-- The drift expected of a unit is exceeded by more than half (R352). -/
def discord (w : Wear) (drift : Int) : Bool := decide (3 * Config.expectedDrift w.bti w.hci < 2 * drift)

/-- One sample of a powered unit. -/
def Wear.stress (w : Wear) (x : UnitSample) (a : Nat × Nat) (v : Int) (f0 f1 f2 : W64) : Wear :=
  let b := accrue w.bti w.resid.1 (measured (stressRate x a v 0) f0)
  let h := accrue w.hci w.resid.2.1 (measured (stressRate x a v 1) f1)
  let e := accrue w.em w.resid.2.2 (measured (stressRate x a v 2) f2)
  let w1 := { w with bti := b.1, hci := h.1, em := e.1, pool := w.pool + (b.1 - w.bti) * 3 / 10, resid := (b.2, h.2, e.2), drift := x.drift }
  { w1 with disc := discord w1 x.drift }

/-- Pool recovered by the k-th millisecond in fallow, in 2^-24 sh: 0.2 sh for each hour powered down, 0.6 reverse-biased (R353). -/
def recovery (st k : Nat) : Nat :=
  let n := if st = 2 then 6 else 2
  n * 2 ^ 24 * (k + 1) / 36000000 - n * 2 ^ 24 * k / 36000000

/-- One whole sample of a unit in fallow. -/
def Wear.recover (w : Wear) : Wear :=
  let r := min w.pool (recovery w.st w.fms)
  { w with pool := w.pool - r, bti := w.bti - r, fms := w.fms + 1 }

/-- One unit's sample taken in: a unit in service or retiring accrues, any other nothing. -/
def Dev.stressUnit (d : Dev) (x : UnitSample) : Dev :=
  let w := d.wearOf x.unit
  if unitCount ≤ x.unit ∨ (w.st ≠ 0 ∧ w.st ≠ 4) then d
  else
    let n := d.fresh
    { d.modWear x.unit (fun w => w.stress x (d.switching x) (d.voltage x) (Config.freeWord n) (Config.freeWord (n + 1)) (Config.freeWord (n + 2))) with fresh := n + 3 }

/-- The logical cluster of a core or array in fallow, by its record. -/
def Dev.fallowWhole (d : Dev) (u : Nat) : Bool :=
  let w := d.wearOf u
  decide ((w.st = 1 ∨ w.st = 2) ∧ (d.cluster (w.core / 8)).idleSince + 1000 * usTime ≤ d.time)

/-- Units in fallow for the whole of a sample recover. -/
def Dev.recoverAll (d : Dev) : Dev := ((List.range 640).filter d.fallowWhole).foldl (fun d u => d.modWear u Wear.recover) d

/-- A sample of a grant: commitments fall by cost / d (R359). -/
def Dev.drawGrant (d : Dev) (n : Nat) (g : Grant) : Dev :=
  match g.start with
  | none => d
  | some c =>
    if d.time ≤ c ∨ g.ms ≤ g.drawn then d
    else
      let g1 := { g with drawn := g.drawn + 1 }
      let us := g.clusters.flatMap d.unitsOfCluster
      { d.mapCommits us (fun m x => x - (g.left m - g1.left m)) with grants := Tab.insert d.grants n g1 }

/-- The logical cluster of a core or array: of one in service, in fallow or retiring (R352, R353). -/
def Dev.clusterOfUnit (d : Dev) (u : Nat) : Option Nat :=
  let w := d.wearOf u
  if u < 640 ∧ (w.st ≤ 2 ∨ w.st = 4) then some (w.core / 8) else none

/-- The temperature of a cluster in a sample: the highest of its units'. -/
def Dev.heat (d : Dev) (inputs : List UnitSample) : Dev :=
  let put (f : Int → Int → Int) (d : Dev) (x : UnitSample) : Dev :=
    match d.clusterOfUnit x.unit with
    | some c => d.modCluster c (fun k => { k with celsius := f k.celsius x.celsius })
    | none => d
  inputs.foldl (put max) (inputs.foldl (put (fun _ t => t)) d)

/-- Whether a cause of fast throttle stands by the latest sample: a die at 105 degrees or above, or module power above 3,300 W (R381). -/
def Dev.alarmCause (d : Dev) : Bool := decide (3300 < d.powerW) || d.clusters.any (fun c => decide (105 ≤ c.2.celsius))

/-- A sample is over: switching is counted anew from here. -/
def Dev.sampleOver (d : Dev) : Dev :=
  { d with
    busy := [], sampledAt := d.time, sampled := (List.range 32).map d.now, alarmAt := if d.alarmCause then d.time else d.alarmAt
    links := Tab.mapV d.links (fun _ l => { l with sent := 0 }) }

/-! ## Retirement (R12, R13, R363) -/

/-- The target's threshold in 2^-24 sh, and its policy bits. -/
def Target.threshold (t : Target) : Nat := bits (t.words.getD 5 0).toNat 31 0 * 2 ^ 16
/-- Whether the policy lets a class retire. -/
def Target.allows (t : Target) (cls : Nat) : Bool := bit (t.words.getD 0 0).toNat (match cls with | 2 => 1 | 3 => 2 | _ => 0)

/-- Whether a unit is due to retire: the latest sample found it beyond the threshold of the target that stood then (R363, R366). -/
def Dev.retireDue (d : Dev) (u : Nat) : Bool :=
  match d.target, d.lifeNow with
  | some t, some x => decide ((d.wearOf u).st = 0) && t.allows (unitClass u) && [0, 1, 2].any (fun m => decide (d.surplus u m < -(x.threshold : Int)))
  | _, _ => false

/-- A state for some units; their records are due. -/
def Dev.setStates (d : Dev) (us : List Nat) (st : Nat) : Dev := (us.foldl (fun d u => d.modWear u (fun w => { w with st := st })) d).markDue us

/-- A pair's retirement is decided: its state, the end of its grants with the ordered return to B0 (R372), of a gating or a wake under way, and the call-up;
one at a time on a die, the others wait in order. -/
def Dev.retirePair (d : Dev) (die pair : Nat) : Dev :=
  let x := d.die die
  if !x.slotMap.contains pair then d
  else if x.callup.isSome then d.modDie die (fun y => { y with retiring := if y.retiring.contains pair then y.retiring else y.retiring ++ [pair] })
  else
    let slot := x.slotMap.idxOf pair
    let cs := slotClusters die slot
    let d0 := ((d.endGrants cs).leaveChanges cs).setStates (pairUnits die pair) 4
    let d1 := if cs.any (fun c => decide ((d.cluster c).level ≠ 0)) then (d0.scheduleChange cs 0).1 else d0
    let d2 := cs.foldl (fun (e : Dev) c => e.modCluster c (fun k => { k with gating := none, fallow := 0, waking := false })) (d1.markDue (d1.withSpares cs []))
    d2.modDie die (fun y => { y with callup := some (pair, slot, if (d.granary die).isSome then 0 else 4) })

/-- A slice's retirement: a spare slice of the die takes its number; with none it stays in service. -/
def Dev.retireSlice (d : Dev) (u : Nat) : Dev :=
  let ix := unitIndex u
  let die := ix / 68
  match ((List.range 4).map (fun i => 640 + die * 68 + 64 + i)).find? (fun v => decide ((d.wearOf v).st = 3)) with
  | none => d
  | some v =>
    let number := ((d.die die).spareUsed.find? (fun p => decide (p.2 = ix % 68))).map Prod.fst |>.getD (ix % 68)
    ((d.setStates [u] 5).setStates [v] 0).modDie die (fun y => { y with spareUsed := Tab.insert y.spareUsed number (unitIndex v % 68) })

/-- A link macro's retirement: its lanes are gone for good (R302, R305). -/
def Dev.retireLink (d : Dev) (u : Nat) : Dev :=
  let l := d.linkOfPort (unitIndex u)
  let d1 := d.setStates [u] 5
  let lanes := (d1.link l).lanes &&& d1.goodLanes l
  if lanes = 0 then d1.linkDown l else if (d1.link l).st = 2 ∨ (d1.link l).st = 3 then d1.retrain l lanes else d1

/-- A unit retires by its class. -/
def Dev.retireUnit (d : Dev) (u : Nat) : Dev :=
  if !d.retireDue u then d
  else match unitClass u with
    | 2 => d.retireSlice u
    | 3 => d.retireLink u
    | _ => d.retirePair (unitIndex u / 80) (unitIndex u % 80 / 16)

/-- The retirement of a die that has waited longest, when none is in progress (R363). -/
def Dev.nextRetirement (d : Dev) (die : Nat) : Dev :=
  match (d.die die).callup, (d.die die).retiring with
  | none, p :: l => (d.modDie die (fun y => { y with retiring := l })).retirePair die p
  | _, _ => d

/-- Records not committed for 10 s are due (R355). -/
def Dev.markOld (d : Dev) : Dev :=
  d.markDue ((List.range unitCount).filter (fun u => decide ((d.wearOf u).ctime + 10000000 * usTime ≤ d.time)))

/-- WEAR_SAMPLE (R350, R351, R353, R356, R359, R363), 1 ms after the one before: retirements that wait, then units found beyond the threshold at the sample before, go on; then every unit accrues or recovers, grants
are drawn down, the service time counts on, and allowed stress follows the target that stands (R366). -/
def execWearSample (inputs : List UnitSample) (watts : Nat) (s : State) : Out :=
  let d1 := (List.range unitCount).foldl Dev.retireUnit ((List.range 4).foldl Dev.nextRetirement s.dev)
  let d2 := (inputs.foldl Dev.stressUnit d1).recoverAll
  let d3 := d2.grants.foldl (fun d g => d.drawGrant g.1 g.2) d2
  if s.dev.time < s.dev.sampledAt + 1000 * usTime then .next s
  else .next { s with dev := { (d3.heat inputs).markOld with serviceMs := d3.serviceMs + 1, powerW := watts, lifeNow := d3.target }.sampleOver }

/-! ## Call-ups (R12, R363) -/

/-- A stage of a call-up: 0 powering up, 1 under test, 2 calibrated, 3 saving; 4 with no pair to call up, 5 saving so. The records of both pairs are committed
(R427). -/
def Dev.callStage (d : Dev) (die n : Nat) : Dev :=
  let us := match (d.die die).callup with
    | some (old, slot, _) => d.withSpares (slotClusters die slot) (pairUnits die old)
    | none => []
  (d.markDue us).modDie die (fun x => { x with callup := x.callup.map (fun (c : Nat × Nat × Nat) => (c.1, c.2.1, n)) })

/-- CALLUP_POWERUP_DONE (R363). -/
def execCallupPowerupDone (die : Nat) (s : State) : Out :=
  match (s.dev.die die).callup with
  | some (_, _, 0) => .next (s.modDev (fun d => d.callStage die 1))
  | _ => .next s

/-- CALLUP_SELFTEST_DONE (R363): a pair that fails takes state 6, and the old one retires with none to call up. -/
def execCallupSelftestDone (die : Nat) (pass : Bool) (s : State) : Out :=
  match (s.dev.die die).callup, s.dev.granary die with
  | some (_, _, 1), some p =>
    .next (s.modDev (fun d => if pass then d.callStage die 2 else (d.setStates (pairUnits die p) 6).callStage die 4))
  | _, _ => .next s

/-- Whether a cluster holds a resident workgroup or a trailer. -/
def Dev.holdsWork (d : Dev) (cl : Nat) : Bool :=
  (coresOf cl).any (fun k => !(d.residents k).isEmpty) || d.groups.any (fun g => decide (clusterOf (g.1 / 64) = cl ∧ g.2.role = .trailer))

/-- CALLUP_SAVE (R12, R363): dispatch to the slot pauses and its workgroups are saved, with no deadline. -/
def execCallupSave (die : Nat) (s : State) : Out :=
  let go (slot n : Nat) : Out :=
    .next (s.modDev (fun d =>
      let held := (slotClusters die slot).filter (fun c => d.holdsWork c)
      let cs := (d.saveClosure 32 held).filter (fun c => !(d.cluster c).clearing)
      (d.callStage die n).beginSave cs))
  match (s.dev.die die).callup with
  | some (_, slot, 2) => go slot 3
  | some (_, slot, 4) => go slot 5
  | _ => .next s

/-- The logical cores of a slot. -/
def slotCores (die slot : Nat) : List Nat := (slotClusters die slot).flatMap coresOf

/-- Whether a slot's cores hold nothing any more. -/
def Dev.slotEmpty (d : Dev) (die slot : Nat) : Bool :=
  (slotClusters die slot).all (fun c => !(d.cluster c).clearing && !d.holdsWork c)

/-- A core of a slot as the call-up leaves it: cleared, latched to the world it had (R12, R383). -/
def Dev.clearCore (d : Dev) (core : Nat) : Dev :=
  let d1 := ((d.core core).l1.map Prod.fst).foldl (fun d l => d.l1Drop core l) d
  let d2 := d1.modCore core (fun k => { Core.reset with world := k.clearing.getD k.world, preq := k.preq })
  { d2 with groups := Tab.keep d2.groups (fun g _ => decide (g / 64 ≠ core)) }

/-- A pair of a die in service at a slot: its units take the slot's core numbers (R12). -/
def Dev.namePair (d : Dev) (die slot p : Nat) : Dev :=
  (List.range 16).foldl (fun (d : Dev) i =>
    let f (w : Wear) : Wear := { w with core := die * 64 + slot * 16 + i }
    (d.modWear (die * 80 + p * 16 + i) f).modWear (320 + die * 80 + p * 16 + i) f) (d.setStates (pairUnits die p) 0)

/-- CALLUP_MAP_UPDATE (R12, R13, R363): the new pair takes the slot at B0; with none the slot leaves service. -/
def execCallupMapUpdate (die : Nat) (s : State) : Out :=
  let d := s.dev
  match (d.die die).callup with
  | none => .next s
  | some (old, slot, stage) =>
    if (stage ≠ 3 ∧ stage ≠ 5) ∨ !d.slotEmpty die slot then .next s
    else
      let d1 := (slotCores die slot).foldl Dev.clearCore (d.leaveChanges (slotClusters die slot))
      let gone := (pairUnits die old).foldl (fun d u => d.modWear u (fun w => { w with core := 255 })) (d1.setStates (pairUnits die old) 5)
      let new := if stage = 3 then gone.granary die else none
      let d2 := match new with
        | none => gone.modDie die (fun x => { x with slotMap := setAt x.slotMap slot 255, callup := none })
        | some p =>
          let named := gone.namePair die slot p
          (slotClusters die slot).foldl (fun d c => (d.markClock c).modCluster c (fun k => { k with level := 0, fallow := 0, gating := none }))
            (named.modDie die (fun x => { x with slotMap := setAt x.slotMap slot p, callup := none }))
      .next { s with dev := d2.reportCores.failLost }

/-! ## Fallow (R354, R382) -/

/-- Whether a cluster has been idle for the threshold. -/
def Dev.idleCluster (d : Dev) (cl : Nat) : Bool :=
  let k := d.cluster cl
  d.inService (8 * cl) && decide (k.fallow = 0) && k.gating.isNone && !k.waking && !k.clearing && !d.paused (8 * cl)
    && decide (k.idleSince + d.param 4 * usTime ≤ d.time)
    && (coresOf cl).all (fun c => (d.core c).clearing.isNone && decide ((d.wearOf (d.physCore c)).st = 0)) && !d.holdsWork cl

/-- The largest pool of a cluster. -/
def Dev.largestPool (d : Dev) (cl : Nat) : Nat := ((d.unitsOfCluster cl).map (fun u => (d.wearOf u).pool)).foldl max 0

/-- FALLOW_ENTRY (R354, R382): the idle cluster of a die with the largest pool begins the commit window of its gating. -/
def execFallowEntry (cluster : Nat) (s : State) : Out :=
  let d := s.dev
  let die := dieOfCluster cluster
  let rivals := ((List.range 8).map (fun i => 8 * die + i)).filter d.idleCluster
  if !d.idleCluster cluster ∨ !d.budgetLeft 5 die 1 ∨ rivals.any (fun c => decide (d.largestPool cluster < d.largestPool c)) then .next s
  else .next { s with dev := (d.modCluster cluster (fun k => { k with gating := some (d.time + usTime) })).spend 5 die 1 }

/-- The other cluster of a stacked pair (R370). -/
def stackedWith (cl : Nat) : Nat := if cl % 2 = 0 then cl + 1 else cl - 1

/-- GATING_COMMIT_WINDOW_END (R371, R382): 1 µs on, with no dispatch meanwhile, the switches open: the cluster is in fallow, and no balance filler or
throttle of its pair goes on. -/
def execGatingCommitWindowEnd (cluster : Nat) (s : State) : Out :=
  let d := s.dev
  match (d.cluster cluster).gating with
  | none => .next s
  | some t =>
    if d.time < t then .next s
    else
      let st := match d.target with
        | some x => if bit (x.words.getD 0 0).toNat 3 then 2 else 1
        | none => 1
      let us := d.unitsOfCluster cluster
      let d1 := (d.setStates us st)
      let d2 := us.foldl (fun d u => d.modWear u (fun w => { w with fcount := min (w.fcount + 1) (2 ^ 32 - 1) })) d1
      .next { s with dev := (d2.modCluster (stackedWith cluster) (fun k => { k with filler := 0, halfRate := false })).modCluster cluster (fun k =>
        { k with gating := none, fallow := st, idleSince := d.time, filler := 0, halfRate := false }) }

/-- FALLOW_WAKE (R354, R371): the woken cluster is in service, its arrays at one eighth of filler. -/
def execFallowWake (cluster : Nat) (s : State) : Out :=
  let d := s.dev
  if !(d.cluster cluster).waking ∨ (d.cluster cluster).fallow = 0 then .next s
  else
    .next { s with dev := (d.setStates (d.unitsOfCluster cluster) 0).modCluster cluster (fun k => { k with
      fallow := 0, waking := false, woke := some d.time, idleSince := d.time, filler := 1 }) }

end Sys2Proof.Machine
end

