-- ==== Sys2Proof/Machine/Clocks.lean ====
section
/-! DEFINITION. Balance of stacked pairs, changes of frequency, pulses of the time base, time budgets, energy quotas, fast throttle and the loss of
supply (R369 to R381). -/

namespace Sys2Proof.Machine

/-! ## Stacked pairs (R370, R371) -/

/-- Whether a cluster's filler is at its most: full activity, or no idle array (R370). -/
def Dev.fillerFull (d : Dev) (cl : Nat) : Bool :=
  decide ((d.cluster cl).filler = 8) || (pairsOf cl).all (fun p => decide ((d.pair p).st ≠ .cold))

/-- One step of filler up or down. -/
def Dev.stepFiller (d : Dev) (cl : Nat) (up : Bool) : Dev :=
  d.modCluster cl (fun k => { k with filler := if up then min 8 (k.filler + 1) else k.filler - 1 })

/-- The means that keep the imbalance down, after the placement: filler on the lighter cluster, then the throttle of the heavier. -/
def Dev.balance (d : Dev) (light heavy ia ib : Nat) : Dev :=
  let hi := max ia ib
  let diff := hi - min ia ib
  let full := d.fillerFull light
  let d1 :=
    if 8 * hi < 100 * diff then (if full then d else d.stepFiller light true)
    else if 100 * diff < 4 * hi then (d.stepFiller light false).stepFiller heavy false
    else d
  let d2 := if 10 * hi < 100 * diff ∧ full then d1.modCluster heavy (fun k => { k with halfRate := true }) else d1
  if 100 * diff ≤ 8 * hi then (d2.modCluster light (fun k => { k with halfRate := false })).modCluster heavy (fun k => { k with halfRate := false }) else d2

/-- Whether a cluster has been in service for a whole window that ends now (R371). -/
def Cluster.wholeWindow (k : Cluster) (now : Nat) : Bool :=
  decide (k.fallow = 0) && (match k.woke with
    | some t => decide (t + usTime ≤ now)
    | none => true)

/-- CURRENT_WINDOW (R370, R371): the mean currents of a pair's two clusters over a window, in mA. -/
def execCurrentWindow (pair ia ib : Nat) (s : State) : Out :=
  let a := 2 * pair
  let b := 2 * pair + 1
  let d := (s.dev.modCluster a (fun k => { k with current := ia })).modCluster b (fun k => { k with current := ib })
  let serving := (d.cluster a).wholeWindow d.time && (d.cluster b).wholeWindow d.time
  .next (if 16 ≤ pair then s else { s with dev := if !serving then d else if ia ≤ ib then d.balance a b ia ib else d.balance b a ia ib })

/-! ## Changes of frequency (R372, R373) -/

/-- DRAIN_WINDOW_OPEN (R372). -/
def execDrainWindowOpen (change : Nat) (s : State) : Out :=
  match Tab.find s.dev.changes change with
  | none => .next s
  | some x =>
    if x.switched ∨ s.dev.time + 32000 < x.count then .next s
    else .next (s.modDev (fun d => x.clusters.foldl (fun d c =>
      d.modCluster c (fun k => { k with drain := if k.drain.isSome then k.drain else some change })) d))

/-- FREQUENCY_SWITCH (R372, R381): at C the clocks of the affected clusters switch, and settle. -/
def execFrequencySwitch (change : Nat) (s : State) : Out :=
  match Tab.find s.dev.changes change with
  | none => .next s
  | some x =>
    if x.switched ∨ s.dev.time < x.count then .next s
    else
      let marked := s.dev.markClocks
      let restore := decide (marked.throttleClear = some x.count)
      let d1 : Dev := { marked with
        throttled := marked.throttled && !restore
        changes := Tab.insert marked.changes change { x with switched := true } }
      .next { s with dev := x.clusters.foldl (fun d c => d.modCluster c (fun k => { k with level := x.level, settling := some change })) d1 }

/-- Pairs that await a ramp take windows anew, those that asked first before the others (R235, R372). -/
def Dev.regrant (d : Dev) (cl : Nat) : Dev :=
  let later (p q : Nat) : Bool := decide ((d.pair p).since < (d.pair q).since ∨ ((d.pair p).since = (d.pair q).since ∧ p < q))
  let rec put (p : Nat) : List Nat → List Nat
    | [] => [p]
    | q :: l => if later p q then p :: q :: l else q :: put p l
  let ps := ((pairsOf cl).filter (fun p => (d.pair p).awaits)).foldl (fun l p => put p l) []
  let now := d.now cl
  let r := ps.foldl (fun (a : Dev × List Nat) q =>
    let w := firstWindow a.2 (d.cluster cl).base now
    (a.1.modPair q (fun x => { x with window := some w }), w :: a.2)) (d, [])
  r.1.modCluster cl (fun k => { k with windows := r.2 })

/-- A cluster's clock has settled: its count goes on, its slew windows begin anew. -/
def Dev.settled (d : Dev) (c : Nat) : Dev :=
  let d1 := (d.markClock c).modCluster c (fun k => { k with settling := none, base := k.cycle })
  d1.regrant c

/-- FREQUENCY_RESUME (R372): at C + 8,000 issue goes on, and the splits that parked run on. -/
def execFrequencyResume (change : Nat) (s : State) : Out :=
  match Tab.find s.dev.changes change with
  | none => .next s
  | some x =>
    if !x.switched ∨ s.dev.time < x.count + 8000 then .next s
    else
      let cs := x.clusters.filter (fun c => decide ((s.dev.cluster c).settling = some change))
      let d1 := (cs.foldl Dev.settled s.dev).endDrain x.clusters change
      .next { s with dev := { d1 with changes := Tab.erase d1.changes change } }

/-! ## Fast throttle (R381) -/

/-- FAST_THROTTLE_ALARM (R381): every cluster clock is divided by four: by the module pin, at any time, or for a cause that the monitors find. -/
def execFastThrottleAlarm (s : State) : Out :=
  .next { s with dev := { s.dev.markClocks with throttled := true, throttleClear := none, alarmAt := s.dev.time } }

/-- FAST_THROTTLE_CLEAR (R381): the cause has been clear for 100 µs, the pin's by this step; the clocks return to their levels by a change under R372. -/
def execFastThrottleClear (s : State) : Out :=
  let d := s.dev
  if !d.throttled ∨ d.throttleClear.isSome ∨ d.alarmCause ∨ d.time < d.alarmAt + 100 * usTime then .next s
  else
    let c := d.changeCount
    let level (cl : Nat) : Nat :=
      ((d.changes.find? (fun (x : Nat × Change) => decide (x.2.count = c ∧ x.2.switched = false) && x.2.clusters.contains cl)).map (fun x => x.2.level)).getD
        (d.cluster cl).level
    let at_ (l : Nat) : List Nat := (List.range 32).filter (fun (cl : Nat) => level cl == l)
    let d1 := [0, 1, 2].foldl (fun (e : Dev) l => if (at_ l).isEmpty then e else (e.scheduleChange (at_ l) l).1) d
    .next { s with dev := { d1 with throttleClear := some c } }

/-! ## The time base (R375) -/

/-- TIME_SYNC_PULSE (R375): a copy behind the reference is set to it. -/
def execTimeSyncPulse (s : State) : Out :=
  let d := s.dev
  .next (if d.time % 16000 ≠ 0 then s else { s with dev := (List.range 32).foldl (fun d c =>
    (d.markClock c).modCluster c (fun k => if k.timeInt < d.time then { k with timeInt := d.time, timeFrac := 0 } else k)) d })

/-! ## Time budgets and energy (R376 to R379) -/

/-- The mark of a pre-emption request that a queue's energy quota raised. -/
def quotaMark (q : Nat) : Nat := 100 + q

/-- A queue at its allowance: ineligible for the rest of the period, and its cores are asked (R379). -/
def Dev.exhaust (d : Dev) (q : Nat) : Dev :=
  let x := d.queue q
  if x.equota = 0 ∨ x.spent ∨ x.used < x.equota - x.debt then d
  else
    let cs := ((d.tasks.filter (fun t => decide (t.2.queue = q) && t.2.resident)).map (fun t => t.2.core)).eraseDups
    cs.foldl (fun (d : Dev) c => d.requestPreempt c x.cls (quotaMark q)) (d.modQueue q (fun k => { k with spent := true }))

/-- A queue charged with energy. -/
def Dev.charge (d : Dev) (q uj : Nat) : Dev := (d.modQueue q (fun k => { k with used := k.used + uj })).exhaust q

/-- Engine work charged to the queues of the workgroups that published or issued it, saved ones among them (R378). -/
def Dev.chargeEngines (d : Dev) (engine : List (Nat × Nat)) : Dev :=
  (engine.filterMap (fun e => (d.task? e.1).map (fun t => (t.queue, e.2)))).foldl (fun d e => d.charge e.1 e.2) d

/-- The energy of a cluster's balance filler over 1 µs in µJ (R370, R378): its level over the two arrays of each idle pair, for the cycles of the clock, with the
array's calibrated energy per filler cycle in millionths of a µJ. -/
def Dev.fillerEnergy (d : Dev) (cluster perCycle : Nat) : Nat :=
  let idle := ((pairsOf cluster).filter (fun p => decide ((d.pair p).st = .cold))).length
  2 * idle * (d.cluster cluster).filler * d.cyclesIn cluster usTime * perCycle / (8 * 1000000)

/-- ENERGY_MEASURE (R378, R379): engine work goes to the queues of its workgroups; what is left of a cluster's energy less its balance filler, computed from the
array's energy per filler cycle that the step brings, is divided among its resident workgroups by their fractions, each share rounded down (log entry 24). -/
def execEnergyMeasure (cluster : Nat) (uj : EnergyUse) (fillerUj : Nat) (s : State) : Out :=
  let d := s.dev
  let d1 := d.chargeEngines uj.engines
  let rest := uj.total - d.fillerEnergy cluster fillerUj - (uj.engines.map Prod.snd).foldl (· + ·) 0
  let ts := (d.tasks.filter (fun t => t.2.resident && decide (clusterOf t.2.core = cluster))).map (fun t =>
    (t.2.queue, match d.grid? t.2.grid with
      | some g => g.fraction
      | none => 0))
  let all := (ts.map Prod.snd).foldl (· + ·) 0
  .next { s with dev := if all = 0 then d1 else ts.foldl (fun (d : Dev) t => d.charge t.1 (rest * t.2 / all)) d1 }

/-- A queue at the start of a period: the energy above the allowance is the new debt (R379). -/
def Queue.nextPeriod (q : Queue) : Queue :=
  let debt := if q.equota = 0 then 0 else q.used + q.debt - q.equota
  { q with used := 0, copied := 0, debt := debt, spent := decide (q.equota ≠ 0 ∧ q.equota ≤ debt) }

/-- TIME_BUDGET_PERIOD (R376, R377, R379): fresh budgets; what a quota asked for is withdrawn where its queue may go on (log entry 24). -/
def execTimeBudgetPeriod (s : State) : Out :=
  let d := s.dev
  if d.time / 1600000 ≤ d.period then .next s
  else
    let d1 : Dev := { d with period := d.time / 1600000, spent := [], queues := Tab.mapV d.queues (fun _ q => q.nextPeriod) }
    .next { s with dev := ((List.range 64).filter (fun q => !(d1.queue q).spent)).foldl (fun (d : Dev) q => d.withdrawAll (quotaMark q)) d1 }

/-! ## Loss of supply (R380) -/

/-- An operation in flight as the sequencer finishes it: its lanes on peers' pages are abandoned, and it waits for no entry. -/
def Op.localOnly (o : Op) : Op := { o with waits := [], parts := o.parts.filter (fun p => p.done || !p.loc.isRemote) }

/-- One store, atomic or tile store in flight performed at its local places. -/
def Dev.finishStore (d : Dev) (n : Nat) : Dev :=
  let d1 := d.modOp n Op.localOnly
  match d1.op? n with
  | some o => match o.kind with
    | .tile c e => match d1.entry? c e with
      | some { kind := .mtst _ _ _ _, .. } => d1.pushAll n
      | _ => d1
    | _ => let d2 := d1.performOp n; if (d2.op? n).any (fun q => q.st = .awaiting 1) then d2.hostAnswers n else d2
  | none => d1

/-- Stores, atomics and tile stores in flight at local places are performed; the engines have let their blocks go. -/
def Dev.finishStores (d : Dev) : Dev :=
  let due (o : Op) : Bool := decide (o.st = .going ∨ o.st = .awaiting 1) && (o.kind.writes || (match o.kind with
    | .tile _ _ => true
    | _ => false))
  let d1 : Dev := { d with clusters := Tab.mapV d.clusters (fun _ (c : Cluster) => { c with held := [] }) }
  (Tab.keys (Tab.keep d1.ops (fun _ o => due o))).foldl Dev.finishStore d1

/-- Every gathered partial is combined at its home. -/
def Dev.combineEvery (d : Dev) : Dev := d.cores.foldl (fun d c => ((c.2.upart.map (fun p => p.1 / 32)).eraseDups).foldl Dev.combine d) d

/-- SUPPLY_LOSS_WARNING (R355, R380): the sequencer from the stop to the sealed marker. -/
def execSupplyLossWarning (s : State) : Out :=
  let d := s.dev
  if d.stopped then .next s
  else
    let d1 := d.finishStores.combineEvery
    let d2 : Dev := { d1 with
      stopped := true, ops := [], requests := []
      dies := Tab.mapV d1.dies (fun _ (x : Die) => { x with tickets := [] })
      cores := Tab.mapV d1.cores (fun _ (c : Core) => { c with l1 := [], copies := [] })
      tasks := Tab.mapV d1.tasks (fun _ (t : Task) => { t with tent := [] }) }
    let d3 := (List.range unitCount).foldl Dev.commitUnit d2
    let words : List W64 := [BitVec.ofNat 64 d.time, BitVec.ofNat 64 d.nextLaunch]
    .next { s with dev := { d3 with marker := some (d.time, d.nextLaunch, Config.digest words) }, iss := Issue.closed }

end Sys2Proof.Machine
end

