-- ==== Sys2Proof/Machine/Errors.lean ====
section
/-! DEFINITION. Errors of storage: corrected ones and the tests they queue, uncorrectable ones, deferred records and scrubbing (R396 to R401). -/

namespace Sys2Proof.Machine

/-- Lines of the instruction cache are fetched again, and nothing is reported (R396). -/
def Dev.dropFetched (d : Dev) (core : Nat) : Dev := d.modCore core (fun k => { k with icache := [] })

/-- CORRECTED_ERROR (R396, R397): counted, logged, and a test queued while the die's queue has room. -/
def execCorrectedError (site : ErrSite) (s : State) : Out :=
  match site.kind with
  | .icache c => .next (s.modDev (fun d => d.dropFetched c))
  | _ => .next (s.modDev (fun d => d.corrected site))

/-- The HBM stack of an address: two to a die (log entry 26). -/
def Dev.stackOf (d : Dev) (pa : Nat) : Nat := 2 * d.homeDie pa + bits pa 36 36

/-- A row joins the pending-repair list, which holds 64 rows of a stack (R398). -/
def Dev.pendRepair (d : Dev) (pa : Nat) : Dev :=
  if d.repairs.contains pa ∨ 64 ≤ (d.repairs.filter (fun r => decide (d.stackOf r = d.stackOf pa))).length then d
  else { d with repairs := d.repairs ++ [pa] }

/-- What a test that failed some of its passes brings about (R397). -/
def Dev.repairSite (d : Dev) (x : ErrSite) (failed : Nat) : Dev :=
  if failed = 0 then d
  else match x.kind with
    | .lane _ => let l := d.linkOfPort x.unit; if (d.link l).st = 2 then d.retrain l (d.link l).lanes else d
    | .hbm =>
      let d1 : Dev := if Config.spareRow x.pa then { d with remapped := d.remapped ++ [(984 + d.stackOf x.pa, x.pa)] } else d
      if 16 ≤ failed then d1.pendRepair x.pa else d1
    | _ => { d with remapped := d.remapped ++ [(siteCount x, x.pa)] }

/-- TARGETED_SELF_TEST (R376, R397): the first test of a die's queue, within its budget; its class goes to the log. -/
def execTargetedSelfTest (die failed : Nat) (s : State) : Out :=
  let d := s.dev
  match (d.die die).tests with
  | [] => .next s
  | x :: l =>
    if 16 < failed ∨ !d.budgetLeft 2 die 1 then .next s
    else
      let d1 := (d.modDie die (fun y => { y with tests := l })).spend 2 die 1
      .next { s with dev := (d1.logError 4 x.cls x.unit x.pa (d1.errWorld x)).repairSite x failed }

/-- An uncorrectable error of a group's own storage (R400, R406): a handler fault, a rollback of its pair, or a trap at its next issue group. -/
def Dev.groupError (d : Dev) (core slot : Nat) : Dev :=
  if slot = handlerSlot then (if (d.core core).serving.isSome then d.handlerFault core else d)
  else if !d.hasGroup core slot then d
  else if (d.group core slot).role ≠ .none then d.rollPair core slot
  else d.modGroup core slot (fun g => { g with poisoned := true })

/-- Data that cannot be corrected is poisoned; one that a movement met is charged to the line's owner (R399, R401). -/
def Dev.poisonAt (d : Dev) (x : ErrSite) : Dev :=
  (d.addPoison (hbmAt x.pa) 1).reported x

/-- UNCORRECTABLE_ERROR (R396, R399 to R401). -/
def execUncorrectableError (site : ErrSite) (s : State) : Out :=
  let hit (d : Dev) : Dev := match site.kind with
    | .icache c => d.dropFetched c
    | .lane _ => d
    | _ => match site.group with
      | some (c, sl) => (d.logError 2 site.cls site.unit site.pa (d.errWorld site)).groupError c sl
      | none => d.poisonAt site
  .next (s.modDev hit)

/-! ## Scrubbing (R376, R399, R401) -/

/-- The raw words of HBM whose codeword begins in a line. -/
def Dev.rawIn (d : Dev) (line : Nat) : List Raw := d.raw.filter (fun r => decide (r.array = 8 ∧ r.addr / 128 = line))

/-- One raw codeword as a scrub finds it: repaired where its code can, else its line is poisoned and its owner has a deferred record. -/
def Dev.scrubWord (d : Dev) (r : Raw) : Dev :=
  let (g, bytes) := d.codeword r.addr
  let data := r.stored.take bytes.length
  let site : ErrSite := { cls := 0, unit := 0, kind := .hbm, pa := r.addr, group := none, moved := true }
  if r.stored = data ++ rsCheck (granCheck g) data then d
  else match rsDecode (granCheck g) r.stored with
    | some _ =>
      ({ d with raw := d.raw.filter (fun x => decide (x ≠ r)) } : Dev).corrected site
    | none => { d with raw := d.raw.filter (fun x => decide (x ≠ r)) }.poisonAt site

/-- SCRUB (R376, R377): the next line of a stack is read and checked. -/
def execScrub (stack : Nat) (s : State) : Out :=
  let d := s.dev
  if 8 ≤ stack ∨ !d.budgetLeft 0 stack 128 then .next s
  else
    let k := Tab.get 0 d.scrubAt stack
    let d1 := ({ d with scrubAt := Tab.insert d.scrubAt stack ((k + 1) % 2 ^ 29) }).spend 0 stack 128
    .next { s with dev := (d1.rawIn (stack * 2 ^ 29 + k)).foldl Dev.scrubWord d1 }

end Sys2Proof.Machine
end

