-- ==== Sys2Proof/Machine/LaneFloat.lean ====
section
/-! DEFINITION. The floating, packed, dot-product and conversion words of the V pipe (R134 to R142). -/

namespace Sys2Proof.Machine

/-- Absolute value and negation of a code by its sign bit. -/
def signEdit (absolute negate : Bool) (sb x : Nat) : Nat :=
  let y := if absolute && bit x sb then x - 2 ^ sb else x
  if negate then (if bit y sb then y - 2 ^ sb else y + 2 ^ sb) else y

/-- The total of a two-element floating dot product (R138), finished to F32. -/
def State.dot2 (s : State) (fm : Fmt) (d a b : VReg) (i : Nat) : Nat × Flags :=
  let el (r : VReg) (e : Nat) : Nat := bits (s.rdV r i).toNat (16 * e + 15) (16 * e)
  let p (e : Nat) : XReal × Bool := xmul (s.amod.realA fm (el a e)) (s.amod.realB fm (el b e))
  let t := xsum s.amod.mode [Fmt.f32.decode (s.rdV d i).toNat, (p 0).1, (p 1).1]
  finF .f32 s.amod (t.1, t.2 || (p 0).2 || (p 1).2)

/-- The signed table terms of four L6 code pairs, the modifiers on the codes' sign bits (R139). -/
def State.l6Dot (s : State) (a b : VReg) (i : Nat) : Int :=
  ((List.range 4).map (fun e =>
    l6Term (signEdit s.amod.absA s.amod.negA 5 (bits (s.rdV a i).toNat (8 * e + 5) (8 * e)))
      (signEdit s.amod.absB s.amod.negB 5 (bits (s.rdV b i).toNat (8 * e + 5) (8 * e))))).foldl (· + ·) 0

/-- The scale of a CVTS (R142). -/
def State.scaleOf (s : State) (b : SReg) : Nat := (s.rdS b).toNat % 256

/-- FADD (R134). -/
def execFadd (d a b : VReg) (s : State) : Out :=
  .next (s.fop2 d a b opAdd)

/-- FSUB (R134). -/
def execFsub (d a b : VReg) (s : State) : Out :=
  .next (s.fop2 d a b opSub)

/-- FMUL (R134). -/
def execFmul (d a b : VReg) (s : State) : Out :=
  .next (s.fop2 d a b opMul)

/-- FFMA: D unmodified, one rounding (R134). -/
def execFfma (d a b : VReg) (s : State) : Out :=
  .next (s.lanewiseF d (fun i =>
    finF .f32 s.amod (opFma s.amod (Fmt.f32.decode (s.rdV d i).toNat) (s.amod.realA .f32 (s.rdV a i).toNat)
      (s.amod.realB .f32 (s.rdV b i).toNat))))

/-- FMIN: −0 below +0; NaN ignored (R134). -/
def execFmin (d a b : VReg) (s : State) : Out :=
  .next (s.fop2 d a b (fun _ x y => (xpick false false x y, false)))

/-- FMAX: −0 below +0; NaN ignored (R134). -/
def execFmax (d a b : VReg) (s : State) : Out :=
  .next (s.fop2 d a b (fun _ x y => (xpick true false x y, false)))

/-- FMINM: −0 below +0; NaN propagated (R134). -/
def execFminm (d a b : VReg) (s : State) : Out :=
  .next (s.fop2 d a b (fun _ x y => (xpick false true x y, false)))

/-- FMAXM: −0 below +0; NaN propagated (R134). -/
def execFmaxm (d a b : VReg) (s : State) : Out :=
  .next (s.fop2 d a b (fun _ x y => (xpick true true x y, false)))

/-- FCLASS of A after absA and negA; the other fields have no effect (R135). -/
def execFclass (d a : VReg) (s : State) : Out :=
  .next (s.lanewise d (fun i => BitVec.ofNat 32 (fclass (signEdit s.amod.absA s.amod.negA 31 (s.rdV a i).toNat))))

/-- FRCP: correctly rounded (R136). -/
def execFrcp (d a : VReg) (s : State) : Out :=
  .next (s.fop1 d a opRcp)

/-- FSQRT: correctly rounded (R136). -/
def execFsqrt (d a : VReg) (s : State) : Out :=
  .next (s.fop1 d a opSqrt)

/-- FRSQ: correctly rounded (R136). -/
def execFrsq (d a : VReg) (s : State) : Out :=
  .next (s.fop1 d a opRsq)

/-- FEXP2: correctly rounded (R136). -/
def execFexp2 (d a : VReg) (s : State) : Out :=
  .next (s.fop1 d a opExp2)

/-- FLOG2: correctly rounded (R136). -/
def execFlog2 (d a : VReg) (s : State) : Out :=
  .next (s.fop1 d a opLog2)

/-- FCMP: no flag (R131). -/
def execFcmp (n : BitVec 3) (p : PReg) (a b : VReg) (s : State) : Out :=
  .next (s.wrP p s.acting (maskOf (fun i =>
    fcond n.toNat (Fmt.f32.decode (s.rdV a i).toNat) (Fmt.f32.decode (s.rdV b i).toNat))))

/-- FADD.f16x2 (R137). -/
def execFaddF16x2 (d a b : VReg) (s : State) : Out :=
  .next (s.packed .f16 d a b (fun md _ x y => opAdd md x y))

/-- FSUB.f16x2 (R137). -/
def execFsubF16x2 (d a b : VReg) (s : State) : Out :=
  .next (s.packed .f16 d a b (fun md _ x y => opSub md x y))

/-- FMUL.f16x2 (R137). -/
def execFmulF16x2 (d a b : VReg) (s : State) : Out :=
  .next (s.packed .f16 d a b (fun md _ x y => opMul md x y))

/-- FFMA.f16x2 (R137). -/
def execFfmaF16x2 (d a b : VReg) (s : State) : Out :=
  .next (s.packed .f16 d a b opFma)

/-- FMIN.f16x2 (R137). -/
def execFminF16x2 (d a b : VReg) (s : State) : Out :=
  .next (s.packed .f16 d a b (fun _ _ x y => (xpick false false x y, false)))

/-- FMAX.f16x2 (R137). -/
def execFmaxF16x2 (d a b : VReg) (s : State) : Out :=
  .next (s.packed .f16 d a b (fun _ _ x y => (xpick true false x y, false)))

/-- FADD.bf16x2 (R137). -/
def execFaddBf16x2 (d a b : VReg) (s : State) : Out :=
  .next (s.packed .bf16 d a b (fun md _ x y => opAdd md x y))

/-- FSUB.bf16x2 (R137). -/
def execFsubBf16x2 (d a b : VReg) (s : State) : Out :=
  .next (s.packed .bf16 d a b (fun md _ x y => opSub md x y))

/-- FMUL.bf16x2 (R137). -/
def execFmulBf16x2 (d a b : VReg) (s : State) : Out :=
  .next (s.packed .bf16 d a b (fun md _ x y => opMul md x y))

/-- FFMA.bf16x2 (R137). -/
def execFfmaBf16x2 (d a b : VReg) (s : State) : Out :=
  .next (s.packed .bf16 d a b opFma)

/-- FMIN.bf16x2 (R137). -/
def execFminBf16x2 (d a b : VReg) (s : State) : Out :=
  .next (s.packed .bf16 d a b (fun _ _ x y => (xpick false false x y, false)))

/-- FMAX.bf16x2 (R137). -/
def execFmaxBf16x2 (d a b : VReg) (s : State) : Out :=
  .next (s.packed .bf16 d a b (fun _ _ x y => (xpick true false x y, false)))

/-- FDOT2F16: one rounding of the exact total (R138). -/
def execFdot2F16 (d a b : VReg) (s : State) : Out :=
  .next (s.lanewiseF d (fun i => s.dot2 .f16 d a b i))

/-- FDOT2BF16: one rounding of the exact total (R138). -/
def execFdot2Bf16 (d a b : VReg) (s : State) : Out :=
  .next (s.lanewiseF d (fun i => s.dot2 .bf16 d a b i))

/-- LDOT4.l6: table terms of four code pairs, exact, added to D (R139). -/
def execLdot4L6 (d a b : VReg) (s : State) : Out :=
  .next (s.lanewiseF d (fun i =>
    finF .f32 s.amod (xsum s.amod.mode [Fmt.f32.decode (s.rdV d i).toNat,
      (XReal.ofInt (s.l6Dot a b i)).scale (-23)])))

/-- CVT (R140, R141): x is the destination code, c the source code. -/
def execCvt (x : BitVec 4) (d a : VReg) (c : BitVec 4) (s : State) : Out :=
  .next (s.lanewiseF d (fun i => cvtLane x.toNat c.toNat s.amod (s.rdV a i).toNat))

/-- CVTS of F32 into F8A under a scale, always saturating (R45, R142). -/
def execCvtsF32F8a (d a : VReg) (b : SReg) (s : State) : Out :=
  .next (s.lanewiseF d (fun i =>
    finishReal .f8a .rne { s.amod with sat := true } (unscale (s.scaleOf b) (s.amod.realA .f32 (s.rdV a i).toNat))))

/-- CVTS of F32 into F8B under a scale, always saturating (R45, R142). -/
def execCvtsF32F8b (d a : VReg) (b : SReg) (s : State) : Out :=
  .next (s.lanewiseF d (fun i =>
    finishReal .f8b .rne { s.amod with sat := true } (unscale (s.scaleOf b) (s.amod.realA .f32 (s.rdV a i).toNat))))

/-- CVTS of F32 into L6 under a scale (R43, R142). -/
def execCvtsF32L6 (d a : VReg) (b : SReg) (s : State) : Out :=
  .next (s.lanewiseF d (fun i =>
    toL6 s.amod.mode (decide (s.scaleOf b = 0xFF))
      ((unscale (s.scaleOf b) (s.amod.realA .f32 (s.rdV a i).toNat)).scale s.amod.k)))

/-- CVTS out of a scaled format into F32: the exact product, rounded once (R45, R142). -/
def execCvtsF8aF32 (d a : VReg) (b : SReg) (s : State) : Out :=
  .next (s.lanewiseF d (fun i =>
    finishReal .f32 .rne s.amod (rescale (s.scaleOf b)
      (srcReal s.amod.absA s.amod.negA (Fmt.f8a.decode ((s.rdV a i).toNat % 256))))))

/-- CVTS out of a scaled format into F32: the exact product, rounded once (R45, R142). -/
def execCvtsF8bF32 (d a : VReg) (b : SReg) (s : State) : Out :=
  .next (s.lanewiseF d (fun i =>
    finishReal .f32 .rne s.amod (rescale (s.scaleOf b)
      (srcReal s.amod.absA s.amod.negA (Fmt.f8b.decode ((s.rdV a i).toNat % 256))))))

/-- CVTS out of a scaled format into F32: the exact product, rounded once (R45, R142). -/
def execCvtsL6F32 (d a : VReg) (b : SReg) (s : State) : Out :=
  .next (s.lanewiseF d (fun i =>
    finishReal .f32 .rne s.amod (rescale (s.scaleOf b)
      (srcReal s.amod.absA s.amod.negA (l6Value ((s.rdV a i).toNat % 64))))))

end Sys2Proof.Machine
end

