-- ==== Sys2Proof/Machine/LaneInt.lean ====
section
/-! DEFINITION. The integer, logic, shift, compare, predicate, selection and immediate words of the V pipe (R123 to R133, R138). -/

namespace Sys2Proof.Machine

/-- The carry into a lane's sum: P7 there (R125). -/
def State.carryIn (s : State) (i : Nat) : Int := if laneIn (s.rdP 7) i then 1 else 0
/-- The exact sum of IADDC (R125). -/
def State.carrySum (s : State) (a b : VReg) (i : Nat) : Int := s.intA false a i + s.intB false b i + s.carryIn i
/-- The exact difference of ISUBB (R125). -/
def State.borrowDiff (s : State) (a b : VReg) (i : Nat) : Int := s.intA false a i - s.intB false b i - s.carryIn i

/-- The number of one bits. -/
def popCount (x : W32) : W32 := BitVec.ofNat 32 (lanesOf x).length
/-- Leading zeros, 32 for zero. -/
def leadingZeros (x : W32) : W32 := BitVec.ofNat 32 (32 - bitLen x.toNat)
/-- Bit i moved to bit 31 − i. -/
def bitReverse (x : W32) : W32 := maskOf (fun i => x.getLsbD (31 - i))

/-- Position and clipped width of a bit-field control (R127); none where nothing is named. -/
def fieldControl (y : W32) : Option (Nat × Nat) :=
  let pos := bits y.toNat 7 0
  let w := bits y.toNat 15 8
  if pos ≥ 32 ∨ w = 0 then none else some (pos, min w (32 - pos))

/-- Bit-field extraction (R127). -/
def bfe (sgn : Bool) (x y : W32) : W32 :=
  match fieldControl y with
  | none => 0
  | some (pos, w) =>
    let f := x.toNat / 2 ^ pos % 2 ^ w
    BitVec.ofNat 32 (if sgn && bit f (w - 1) then f + 2 ^ 32 - 2 ^ w else f)

/-- Bit-field insertion (R127). -/
def bfi (old x y : W32) : W32 :=
  match fieldControl y with
  | none => old
  | some (pos, w) =>
    let m : W32 := BitVec.ofNat 32 ((2 ^ w - 1) * 2 ^ pos)
    (old &&& ~~~m) ||| ((x <<< pos) &&& m)

/-- The four products of an integer dot product, each element modified on its own (R138). -/
def State.dot4 (s : State) (sgnA sgnB : Bool) (a b : VReg) (i : Nat) : Int :=
  let el (sgn : Bool) (x : W32) (e : Nat) : Int :=
    let v := x.extractLsb' (8 * e) 8
    if sgn then v.toInt else (v.toNat : Int)
  ((List.range 4).map (fun e =>
    srcInt s.amod.absA s.amod.negA (el sgnA (s.rdV a i) e) * srcInt s.amod.absB s.amod.negB (el sgnB (s.rdV b i) e))).foldl
      (· + ·) 0

/-- IADD (R124). -/
def execIadd (d a b : VReg) (s : State) : Out :=
  .next (s.intOp d a b true false (fun _ x y => x + y))

/-- ISUB (R124). -/
def execIsub (d a b : VReg) (s : State) : Out :=
  .next (s.intOp d a b true false (fun _ x y => x - y))

/-- IMUL (R124). -/
def execImul (d a b : VReg) (s : State) : Out :=
  .next (s.intOp d a b true false (fun _ x y => x * y))

/-- IMULH.i: the floor of the signed product over 2^32 (R124). -/
def execImulhI (d a b : VReg) (s : State) : Out :=
  .next (s.intOp d a b true false (fun _ x y => x * y / 2 ^ 32))

/-- IMULH.n: unsigned sources and unsigned range (R124). -/
def execImulhN (d a b : VReg) (s : State) : Out :=
  .next (s.intOp d a b false true (fun _ x y => x * y / 2 ^ 32))

/-- IMAD: D read signed, no modifier acts on it (R124). -/
def execImad (d a b : VReg) (s : State) : Out :=
  .next (s.intOp d a b true false (fun i x y => s.srcV true d i + x * y))

/-- IMIN.i (R124). -/
def execIminI (d a b : VReg) (s : State) : Out :=
  .next (s.intOp d a b true false (fun _ x y => min x y))

/-- IMIN.n (R124). -/
def execIminN (d a b : VReg) (s : State) : Out :=
  .next (s.intOp d a b false true (fun _ x y => min x y))

/-- IMAX.i (R124). -/
def execImaxI (d a b : VReg) (s : State) : Out :=
  .next (s.intOp d a b true false (fun _ x y => max x y))

/-- IMAX.n (R124). -/
def execImaxN (d a b : VReg) (s : State) : Out :=
  .next (s.intOp d a b false true (fun _ x y => max x y))

/-- IABSD (R124). -/
def execIabsd (d a b : VReg) (s : State) : Out :=
  .next (s.intOp d a b true false (fun _ x y => ((x - y).natAbs : Int)))

/-- IADDC: sources and carry unsigned, the carry out to P7 (R125). -/
def execIaddc (d a b : VReg) (s : State) : Out :=
  .next ((s.lanewise d (fun i => s.finInt false (s.carrySum a b i))).wrP 7 s.acting
    (maskOf (fun i => decide (s.carrySum a b i ≥ 2 ^ 32))))

/-- ISUBB: sources and borrow unsigned, the borrow out to P7 (R125). -/
def execIsubb (d a b : VReg) (s : State) : Out :=
  .next ((s.lanewise d (fun i => s.finInt false (s.borrowDiff a b i))).wrP 7 s.acting
    (maskOf (fun i => decide (s.borrowDiff a b i < 0))))

/-- POPC (R124). -/
def execPopc (d a : VReg) (s : State) : Out :=
  .next (s.bitOp1 d a popCount)

/-- CLZ (R124). -/
def execClz (d a : VReg) (s : State) : Out :=
  .next (s.bitOp1 d a leadingZeros)

/-- BREV (R124). -/
def execBrev (d a : VReg) (s : State) : Out :=
  .next (s.bitOp1 d a bitReverse)

/-- AND (R126). -/
def execAnd (d a b : VReg) (s : State) : Out :=
  .next (s.bitOp d a b (fun x y => x &&& y))

/-- OR (R126). -/
def execOr (d a b : VReg) (s : State) : Out :=
  .next (s.bitOp d a b (fun x y => x ||| y))

/-- XOR (R126). -/
def execXor (d a b : VReg) (s : State) : Out :=
  .next (s.bitOp d a b (fun x y => x ^^^ y))

/-- ANDN (R126). -/
def execAndn (d a b : VReg) (s : State) : Out :=
  .next (s.bitOp d a b (fun x y => x &&& ~~~y))

/-- ORN (R126). -/
def execOrn (d a b : VReg) (s : State) : Out :=
  .next (s.bitOp d a b (fun x y => x ||| ~~~y))

/-- XNOR (R126). -/
def execXnor (d a b : VReg) (s : State) : Out :=
  .next (s.bitOp d a b (fun x y => ~~~(x ^^^ y)))

/-- SHL: 0 from a shift by 32 on (R126). -/
def execShl (d a b : VReg) (s : State) : Out :=
  .next (s.bitOp d a b (fun x y => x <<< (y.toNat % 256)))

/-- SHR: logical (R126). -/
def execShr (d a b : VReg) (s : State) : Out :=
  .next (s.bitOp d a b (fun x y => x >>> (y.toNat % 256)))

/-- SRA: arithmetic, by at most 31 (R126). -/
def execSra (d a b : VReg) (s : State) : Out :=
  .next (s.bitOp d a b (fun x y => x.sshiftRight (min (y.toNat % 256) 31)))

/-- ROTL (R126). -/
def execRotl (d a b : VReg) (s : State) : Out :=
  .next (s.bitOp d a b (fun x y => x.rotateLeft (y.toNat % 32)))

/-- BFE.i (R127). -/
def execBfeI (d a b : VReg) (s : State) : Out :=
  .next (s.bitOp d a b (fun x y => bfe true x y))

/-- BFE.n (R127). -/
def execBfeN (d a b : VReg) (s : State) : Out :=
  .next (s.bitOp d a b (fun x y => bfe false x y))

/-- BFI: D is a source too (R127). -/
def execBfi (d a b : VReg) (s : State) : Out :=
  .next (s.lanewise d (fun i => bfi (s.rdV d i) (s.rdV a i) (s.rdV b i)))

/-- MOV (R126). -/
def execMov (d a : VReg) (s : State) : Out :=
  .next (s.bitOp1 d a id)

/-- IADDI (R128). -/
def execIaddi (d a : VReg) (i : BitVec 11) (s : State) : Out :=
  .next (s.lanewise d (fun l => s.finInt false (s.intA true a l + i.toInt)))

/-- IMULI (R128). -/
def execImuli (d a : VReg) (i : BitVec 11) (s : State) : Out :=
  .next (s.lanewise d (fun l => s.finInt false (s.intA true a l * i.toInt)))

/-- ANDI: the immediate sign-extended (R128). -/
def execAndi (d a : VReg) (i : BitVec 11) (s : State) : Out :=
  .next (s.bitOp1 d a (fun x => x &&& i.signExtend 32))

/-- ORI: the immediate sign-extended (R128). -/
def execOri (d a : VReg) (i : BitVec 11) (s : State) : Out :=
  .next (s.bitOp1 d a (fun x => x ||| i.signExtend 32))

/-- XORI: the immediate sign-extended (R128). -/
def execXori (d a : VReg) (i : BitVec 11) (s : State) : Out :=
  .next (s.bitOp1 d a (fun x => x ^^^ i.signExtend 32))

/-- SHLI (R129). -/
def execShli (d a : VReg) (k : BitVec 5) (s : State) : Out :=
  .next (s.bitOp1 d a (fun x => x <<< k.toNat))

/-- SHRI (R129). -/
def execShri (d a : VReg) (k : BitVec 5) (s : State) : Out :=
  .next (s.bitOp1 d a (fun x => x >>> k.toNat))

/-- SRAI (R129). -/
def execSrai (d a : VReg) (k : BitVec 5) (s : State) : Out :=
  .next (s.bitOp1 d a (fun x => x.sshiftRight k.toNat))

/-- ROTLI (R129). -/
def execRotli (d a : VReg) (k : BitVec 5) (s : State) : Out :=
  .next (s.bitOp1 d a (fun x => x.rotateLeft k.toNat))

/-- ICMP on 32 bits (R72, R130). -/
def execIcmp (n : BitVec 4) (p : PReg) (a b : VReg) (s : State) : Out :=
  .next (s.wrP p s.acting (maskOf (fun i => icond n.toNat (s.rdV a i) (s.rdV b i))))

/-- MOVI (R133). -/
def execMovi (d : VReg) (i : BitVec 16) (s : State) : Out :=
  .next (s.lanewise d (fun _ => i.signExtend 32))

/-- MOVI.hi keeps the low half (R133). -/
def execMoviHi (d : VReg) (i : BitVec 16) (s : State) : Out :=
  .next (s.lanewise d (fun l => i ++ (s.rdV d l).truncate 16))

/-- MOVI.f16: widened exactly, no flag (R133). -/
def execMoviF16 (d : VReg) (i : BitVec 16) (s : State) : Out :=
  .next (s.lanewise d (fun _ => BitVec.ofNat 32 (roundF32 (Fmt.f16.decode i.toNat)).code))

/-- MOVI.bf16: widened exactly, no flag (R133). -/
def execMoviBf16 (d : VReg) (i : BitVec 16) (s : State) : Out :=
  .next (s.lanewise d (fun _ => BitVec.ofNat 32 (roundF32 (Fmt.bf16.decode i.toNat)).code))

/-- SEL: A where the guard passes, B in the other active lanes (R69). -/
def execSel (d a b : VReg) (s : State) : Out :=
  .next (s.wrV d s.iss.mask (fun i => if laneIn s.acting i then s.rdV a i else s.rdV b i))

/-- PAND (R132). -/
def execPand (d a b : PReg) (s : State) : Out :=
  .next (s.wrP d s.acting (s.rdP a &&& s.rdP b))

/-- POR (R132). -/
def execPor (d a b : PReg) (s : State) : Out :=
  .next (s.wrP d s.acting (s.rdP a ||| s.rdP b))

/-- PXOR (R132). -/
def execPxor (d a b : PReg) (s : State) : Out :=
  .next (s.wrP d s.acting (s.rdP a ^^^ s.rdP b))

/-- PNOT (R132). -/
def execPnot (d a : PReg) (s : State) : Out :=
  .next (s.wrP d s.acting (~~~(s.rdP a)))

/-- PMOV (R132). -/
def execPmov (d a : PReg) (s : State) : Out :=
  .next (s.wrP d s.acting (s.rdP a))

/-- IDOT4.i8 (R138). -/
def execIdot4I8 (d a b : VReg) (s : State) : Out :=
  .next (s.lanewise d (fun i => s.finInt false (s.srcV true d i + s.dot4 true true a b i)))

/-- IDOT4.n8: D unsigned, unsigned range (R138). -/
def execIdot4N8 (d a b : VReg) (s : State) : Out :=
  .next (s.lanewise d (fun i => s.finInt true (s.srcV false d i + s.dot4 false false a b i)))

/-- IDOT4.in (R138). -/
def execIdot4In (d a b : VReg) (s : State) : Out :=
  .next (s.lanewise d (fun i => s.finInt false (s.srcV true d i + s.dot4 true false a b i)))

end Sys2Proof.Machine
end

