-- ==== Sys2Proof/Machine/LaneMove.lean ====
section
/-! DEFINITION. Quads, lane exchange, reductions, scans and transfers (R101 to R107). -/

namespace Sys2Proof.Machine

/-- The fields of a lane exchange's control value: n, the segment's width, the direction (R104). -/
def lxchN (c : W32) : Nat := bits c.toNat 4 0
def lxchW (c : W32) : Nat := 2 ^ min (bits c.toNat 7 5) 5
def lxchDir (c : W32) : Bool := bit c.toNat 8

/-- The source lane of each form, none where a slide leaves its segment (R104). -/
def lxchPick (c : W32) (_ : Nat) : Option Nat := some (lxchN c)
def lxchRot (c : W32) (i : Nat) : Option Nat :=
  let base := i / lxchW c * lxchW c
  some (base + (i - base + lxchN c) % lxchW c)
def lxchSlide (c : W32) (i : Nat) : Option Nat :=
  let base := i / lxchW c * lxchW c
  let j : Int := if lxchDir c then (i : Int) + lxchN c else (i : Int) - lxchN c
  if j < base ∨ j > base + lxchW c - 1 then none else some j.toNat
def lxchRev (c : W32) (i : Nat) : Option Nat :=
  let base := i / lxchW c * lxchW c
  some (base + (lxchW c - 1 - (i - base)))

/-- A lane exchange: each participating lane reads its source lane, whether that lane participates or not (R103, R104). -/
def State.lxch (s : State) (d a b : VReg) (src : W32 → Nat → Option Nat) : State :=
  s.lanewise d (fun i => match src (s.rdV b i) i with
    | some j => s.rdV a j
    | none => 0)

/-- The element that stands first in an order; 0 for no elements. -/
def redPick (le : W32 → W32 → Bool) (l : List W32) : W32 :=
  match l with
  | [] => 0
  | x :: r => r.foldl (fun m y => if le m y then m else y) x

/-- The exact sum of F32 codes rounded once to nearest even, and its flags (R106). -/
def sumF (l : List W32) : Nat × Flags := finF .f32 AMod.none (xsum .rne (l.map (fun x => Fmt.f32.decode x.toNat)))

/-- The least or greatest of F32 codes, NaN ignored (R106). -/
def pickF (big : Bool) (l : List W32) : W32 :=
  BitVec.ofNat 32 (roundF32 ((l.map (fun x => Fmt.f32.decode x.toNat)).foldl (xpick big false) .nan)).code

/-- Whether a transfer to or from a lane takes place (R107): always without a guard. -/
def State.takes (s : State) (j : Nat) : Bool :=
  match s.iss.mod with
  | some (.arith g _ _ _ _ _ _ _ _ _) => g = 0 || laneIn s.acting j
  | _ => true

/-- QSWX: from lane i XOR 1 (R102). -/
def execQswx (d a : VReg) (s : State) : Out :=
  .next (s.lanewise d (fun i => s.rdV a (i ^^^ 1)))

/-- QSWY: from lane i XOR 2 (R102). -/
def execQswy (d a : VReg) (s : State) : Out :=
  .next (s.lanewise d (fun i => s.rdV a (i ^^^ 2)))

/-- QSWD: from lane i XOR 3 (R102). -/
def execQswd (d a : VReg) (s : State) : Out :=
  .next (s.lanewise d (fun i => s.rdV a (i ^^^ 3)))

/-- QBCAST: from lane n of the quad (R102). -/
def execQbcast (d a : VReg) (n : BitVec 2) (s : State) : Out :=
  .next (s.lanewise d (fun i => s.rdV a (i / 4 * 4 + n.toNat)))

/-- LXCH.pick (R104). -/
def execLxchPick (d a b : VReg) (s : State) : Out :=
  .next (s.lxch d a b lxchPick)

/-- LXCH.rot (R104). -/
def execLxchRot (d a b : VReg) (s : State) : Out :=
  .next (s.lxch d a b lxchRot)

/-- LXCH.slide (R104). -/
def execLxchSlide (d a b : VReg) (s : State) : Out :=
  .next (s.lxch d a b lxchSlide)

/-- LXCH.rev (R104). -/
def execLxchRev (d a b : VReg) (s : State) : Out :=
  .next (s.lxch d a b lxchRev)

/-- GRED.add.i over the participating lanes (R105). -/
def execGredAddI (d a : VReg) (s : State) : Out :=
  .next (s.lanewise d (fun _ => (fun l => l.foldl (· + ·) 0) ((lanesOf s.acting).map (s.rdV a))))

/-- GRED.min.i over the participating lanes (R105). -/
def execGredMinI (d a : VReg) (s : State) : Out :=
  .next (s.lanewise d (fun _ => (redPick (fun x y => decide (x.toInt ≤ y.toInt))) ((lanesOf s.acting).map (s.rdV a))))

/-- GRED.max.i over the participating lanes (R105). -/
def execGredMaxI (d a : VReg) (s : State) : Out :=
  .next (s.lanewise d (fun _ => (redPick (fun x y => decide (x.toInt ≥ y.toInt))) ((lanesOf s.acting).map (s.rdV a))))

/-- GRED.add.f: the exact sum rounded once, its flags raised once (R106). -/
def execGredAddF (d a : VReg) (s : State) : Out :=
  .next (s.lanewiseF d (fun _ => sumF ((lanesOf s.acting).map (s.rdV a))))

/-- GRED.min.f: NaN ignored unless all are NaN; no flag (R106). -/
def execGredMinF (d a : VReg) (s : State) : Out :=
  .next (s.lanewise d (fun _ => pickF false ((lanesOf s.acting).map (s.rdV a))))

/-- GRED.max.f: NaN ignored unless all are NaN; no flag (R106). -/
def execGredMaxF (d a : VReg) (s : State) : Out :=
  .next (s.lanewise d (fun _ => pickF true ((lanesOf s.acting).map (s.rdV a))))

/-- GSCAN.add.i: inclusive prefix sums (R105). -/
def execGscanAddI (d a : VReg) (s : State) : Out :=
  .next (s.lanewise d (fun i => (((lanesOf s.acting).filter (· ≤ i)).map (s.rdV a)).foldl (· + ·) 0))

/-- GSCAN.add.f: each prefix exact, rounded once (R106). -/
def execGscanAddF (d a : VReg) (s : State) : Out :=
  .next (s.lanewiseF d (fun i => sumF (((lanesOf s.acting).filter (· ≤ i)).map (s.rdV a))))

/-- XFER.get (R107). -/
def execXferGet (d : SReg) (a : VReg) (b : SReg) (s : State) : Out :=
  let j := (s.rdS b).toNat % 32
  if s.takes j then .next (s.wrS d ((s.rdV a j).zeroExtend 64)) else .next s

/-- XFER.first (R107). -/
def execXferFirst (d : SReg) (a : VReg) (s : State) : Out :=
  if s.acting ≠ 0 then .next (s.wrS d ((s.rdV a (lowLane s.acting)).zeroExtend 64)) else .next s

/-- XFER.put (R107). -/
def execXferPut (d : VReg) (a : SReg) (n : BitVec 5) (s : State) : Out :=
  if s.takes n.toNat then .next (s.wrV d (laneBit n.toNat) (fun _ => (s.rdS a).truncate 32)) else .next s

end Sys2Proof.Machine
end

