-- ==== Sys2Proof/Machine/Sessions.lean ====
section
/-! DEFINITION. Sessions, keys and evidence: session set-up and lock states, heartbeats, promotion of keys, the sweep of CXL-attached lines, and the
signed evidence (R299, R304, R367, R387 to R394). -/

namespace Sys2Proof.Machine

/-! ## Sessions (R387, R390) -/

/-- The number by which a session names the host in the place of a peer id (log entry 22). -/
def hostPeer : Nat := 2047

/-- A session before it is set up. Its number names it (log entry 22): below 72 · 2048 the link session of a port, above it the world session of a world,
with the peer in the last eleven bits. -/
def newSession (n : Nat) : Session :=
  let k := n / 2048
  { peer := n % 2048, world := if k < 72 then 0 else k - 72, port := if k < 72 then some k else none, st := .unlocked, keyed := false,
    lastBeat := 0, lastSent := 0 }

/-- Whether a number names a session. -/
def sessionNumber (n : Nat) : Bool := decide (n < 328 * 2048)

/-- Changing a session. -/
def Dev.modSession (d : Dev) (n : Nat) (f : Session → Session) : Dev := { d with sessions := Tab.modify d.sessions n f }

/-- Both key slots of a world erased. -/
def Dev.eraseKeys (d : Dev) (w : Nat) : Dev := { d with keys := Tab.erase (Tab.erase d.keys (2 * w)) (2 * w + 1) }

/-- Whether a world has a session, but for one of a number, that meets a condition. -/
def Dev.otherSession (d : Dev) (n w : Nat) (p : Session → Bool) : Bool := d.sessions.any (fun x => decide (x.1 ≠ n ∧ x.2.world = w) && p x.2)

/-- KEY_EXCHANGE (R387): a key goes into one of the two slots of the session's world. A port has one link session. -/
def execKeyExchange (session slot : Nat) (key : BitVec 256) (s : State) : Out :=
  let d := s.dev
  let x := (Tab.find d.sessions session).getD (newSession session)
  if !sessionNumber session ∨ slot / 2 ≠ x.world ∨ x.st = .error then .next s
  else
    let rest := Tab.keep d.sessions (fun n y => decide (n = session ∨ x.port.isNone ∨ y.port ≠ x.port))
    .next { s with dev := { d with keys := Tab.insert d.keys slot key, sessions := Tab.insert rest session x } }

/-- FINISH (R304, R390): the session's keys are installed; a link session's flit counters start. -/
def execFinish (session : Nat) (s : State) : Out :=
  match Tab.find s.dev.sessions session with
  | none => .next s
  | some x =>
    if (Tab.find s.dev.keys (2 * x.world)).isNone then .next s
    else
      let d1 := s.dev.modSession session (fun x => { x with keyed := true })
      .next { s with dev := match x.port with
        | some p => if x.st = .run then d1 else d1.modLink (d1.linkOfPort p) (fun k => { k with sendCtr := 0, recvCtr := 0, exhausted := none })
        | none => d1 }

/-- END_SESSION (R302, R387): with the world's last session its keys go; messages that no link took go out where one now does. -/
def execEndSession (session : Nat) (s : State) : Out :=
  match Tab.find s.dev.sessions session with
  | none => .next s
  | some x =>
    let d1 : Dev := { s.dev with sessions := Tab.erase s.dev.sessions session }
    .next { s with dev := (if d1.otherSession session x.world (fun _ => true) then d1 else d1.eraseKeys x.world).flushStranded }

/-- LOCK (R390). -/
def execLock (session : Nat) (s : State) : Out :=
  .next (s.modDev (fun d => d.modSession session (fun x => if x.st = .unlocked then { x with st := .locked } else x)))

/-- Whether evidence passes the device's policy: every required signature verifies (R394). -/
def evidencePasses (policy : BitVec 2) (ecdsaOk mldsaOk : Bool) : Bool := (!policy.getLsbD 0 || ecdsaOk) && (!policy.getLsbD 1 || mldsaOk)

/-- START (R299, R390, R391, R394): the peer's evidence passes and the keys are there. Every SK6 announces at START that it decodes compressed chunks (log
entry 99). -/
def execStart (session : Nat) (ecdsaOk mldsaOk : Bool) (s : State) : Out :=
  match Tab.find s.dev.sessions session with
  | none => .next s
  | some x =>
    if x.st ≠ .locked ∨ !x.keyed ∨ !evidencePasses s.dev.policy ecdsaOk mldsaOk then .next s
    else
      let d1 := s.dev.modSession session (fun x => { x with st := .run, lastBeat := s.dev.time, lastSent := s.dev.time })
      .next { s with dev := match x.port with
        | some p => (d1.modLink (d1.linkOfPort p) (fun k => { k with peerDecodes := decide (x.peer ≠ hostPeer) })).flushStranded
        | none => { d1 with expelled := d1.expelled.filter (fun w => decide (w ≠ x.world)) }.withdrawAll (expelMark x.world) }

/-- STOP (R390): the session's keys are erased, of a link session the link secret too; those of its world stay while another session of the world still has
them (R387, log entry 22). -/
def execStop (session : Nat) (s : State) : Out :=
  match Tab.find s.dev.sessions session with
  | none => .next s
  | some x =>
    if x.st ≠ .error then .next s
    else
      let d0 := s.dev.modSession session (fun x => { x with st := .unlocked, keyed := false })
      let d1 := match x.port with
        | some p => d0.modLink (d0.linkOfPort p) (fun k => { k with secret := 0 })
        | none => d0
      .next { s with dev := (if d1.otherSession session x.world (fun y => y.keyed) then d1 else d1.eraseKeys x.world).flushStranded }

/-- SESSION_CONFIG_WRITE (R305, R390): a locked or running session goes to error; the link of a link session then reads as down. -/
def execSessionConfigWrite (session : Nat) (s : State) : Out :=
  match Tab.find s.dev.sessions session with
  | none => .next s
  | some x =>
    if x.st = .locked ∨ x.st = .run then
      .next (s.modDev (fun d =>
        let e := d.errorSession session
        match x.port with
        | some p => e.linkLost (e.linkOfPort p)
        | none => e))
    else .next s

/-! ## Heartbeats (R391) -/

/-- HEARTBEAT_SEND (R391): every 100 µs on channel 3; the host's port carries its own. -/
def execHeartbeatSend (session : Nat) (s : State) : Out :=
  match Tab.find s.dev.sessions session with
  | none => .next s
  | some x =>
    if x.port.isSome ∨ x.st ≠ .run ∨ s.dev.time < x.lastSent + 100 * usTime then .next s
    else
      let m : Msg :=
        { kind := 8, win := 0, va := 0, tag := 0, len := 0, op := 0, scope := 0, tkt := 0, data := [], peer := x.peer, world := x.world }
      let d1 := s.dev.modSession session (fun x => { x with lastSent := s.dev.time })
      .next { s with dev := if x.peer = hostPeer then d1 else d1.sendMsg 3 m }

/-- HEARTBEAT (R391). -/
def execHeartbeat (session : Nat) (s : State) : Out :=
  .next (s.modDev (fun d => d.modSession session (fun x => if x.st = .run then { x with lastBeat := d.time } else x)))

/-- The classes of the workgroups on a core. -/
def Dev.classesOn (d : Dev) (core : Nat) : List Nat := ((d.residents core).map (fun t => (d.queue t.2.queue).cls)).eraseDups

/-- A world whose heartbeat was lost: its queues are disabled, and the cores that latch it are asked to give up its work. -/
def Dev.expel (d : Dev) (w : Nat) : Dev :=
  let d1 : Dev := { d with
    queues := Tab.mapV d.queues (fun _ (q : Queue) => if q.world = w then { q with en := false } else q)
    expelled := if d.expelled.contains w then d.expelled else d.expelled ++ [w] }
  let cs := (List.range 256).filter (fun c => decide ((d1.core c).world = w))
  (cs.foldl (fun (d : Dev) c => (d.classesOn c).foldl (fun d k => d.requestPreempt c k (expelMark w)) d) d1).expelCores

/-- HEARTBEAT_TIMEOUT (R391). -/
def execHeartbeatTimeout (session : Nat) (s : State) : Out :=
  match Tab.find s.dev.sessions session with
  | none => .next s
  | some x =>
    if x.port.isSome ∨ x.st ≠ .run ∨ s.dev.time < x.lastBeat + s.dev.param 3 * usTime then .next s
    else .next (s.modDev (fun d => (d.errorSession session).expel x.world))

/-! ## Promotion and the sweep (R388, R389) -/

/-- Whether a flit under a world's current key awaits acknowledgement on any link, while it has a next key. -/
def Dev.oldFlits (d : Dev) (w : Nat) : Bool := d.links.any (fun l => l.2.unacked.any (fun f => decide (f.1.world = w) && !f.1.ks))

/-- The next key of a world becomes its current one. -/
def Dev.promote (d : Dev) (w : Nat) : Dev :=
  match Tab.find d.keys (2 * w + 1) with
  | some k => { d with keys := Tab.erase (Tab.insert d.keys (2 * w) k) (2 * w + 1) }
  | none => d

/-- Whether a sweep of a world is under way on a port: its pointer has not passed the last line. -/
def Dev.sweeping (d : Dev) (w : Nat) : Bool := d.sweeps.any (fun p => decide (p.1 % 256 = w))

/-- KEY_PROMOTE (R388): once every flit of the world under the old key is acknowledged; a sweep under way promotes at its own end (log entry 23). -/
def execKeyPromote (world link : Nat) (s : State) : Out :=
  .next (if link < s.dev.linkCount ∧ !s.dev.oldFlits world ∧ !s.dev.sweeping world then s.modDev (fun d => d.promote world) else s)

/-- The key slot that a CXL-attached line of a world stands under: below the pointer of a sweep under way the next key, else the current one (R389). -/
def Dev.lineSlot (d : Dev) (world line : Nat) : Nat :=
  2 * world + (if (Tab.find d.keys (2 * world + 1)).isSome ∧ line < Tab.get 0 d.sweeps world then 1 else 0)

/-- What the attached memory holds of a line (R387, R389): its bytes enciphered under the line's key, its 16-byte tag, and its write count; the device's clear
bytes are in Dev.cxl. The initialisation vector is not in the spec (log entry 23). -/
def Dev.lineStored (d : Dev) (world line : Nat) : List Byte × BitVec 128 × BitVec 32 :=
  let key := Tab.get 0 d.keys (d.lineSlot world line)
  let count := Tab.get 0 d.cxlCounts line
  let iv : BitVec 96 := BitVec.ofNat 96 (count * 2 ^ 64 + line)
  let bs := d.readBytes { sp := .cxl, own := 0, a := 128 * line } 128
  (cipher key iv bs, Config.gcmTag key iv bs, BitVec.ofNat 32 count)

/-- REENCRYPTION_SWEEP (R377, R389): the line at the pointer is read and rewritten under the next key, which raises its write count, and the pointer moves past it;
past the world's last line the key is promoted. The device has one CXL port, 0. A step is whole, so that no access meets a line in the middle of its rewrite. -/
def execReencryptionSweep (world port : Nat) (s : State) : Out :=
  let d := s.dev
  let k := 256 * port + world
  let line := Tab.get 0 d.sweeps k
  if (Tab.find d.keys (2 * world + 1)).isNone ∨ 256 ≤ world ∨ port ≠ 0 then .next s
  else if Config.cxlLines world port ≤ line then
    if d.oldFlits world then .next s else .next { s with dev := ({ d with sweeps := Tab.erase d.sweeps k }).promote world }
  else if !d.budgetLeft 1 port 128 then .next s
  else .next { s with dev := (({ d with sweeps := Tab.insert d.sweeps k (line + 1) } : Dev).countWrites { sp := .cxl, own := 0, a := 128 * line } 128).spend 1 port 128 }

/-! ## Evidence (R367, R393) -/

/-- The six words of a digest. -/
def digestWords (x : BitVec 384) : List W64 := (List.range 6).map (fun i => x.extractLsb' (64 * i) 64)

/-- A queue's record (R306). -/
def Queue.record (q : Queue) : List W64 :=
  (List.range 4).map (fun i => q.mask.extractLsb' (64 * i) 64) ++
    [BitVec.ofNat 64 ((if q.en then 2 ^ 63 else 0) + q.cls * 2 ^ 61 + q.world * 2 ^ 53 + q.asn * 2 ^ 41 + q.quantum),
     BitVec.ofNat 64 q.root, BitVec.ofNat 64 (q.deadline * 2 ^ 32 + q.equota), BitVec.ofNat 64 q.cbud]

/-- The newer stored copy of every record, in order of class, then index. -/
def Dev.storedRecords (d : Dev) : List W64 :=
  (List.range unitCount).flatMap (fun u =>
    let w := ((Tab.find d.wearMram u).map Prod.snd).getD (wearInit u)
    (List.range 12).map (fun i => w.word u i))

/-- The entries of the frame world table that name a world, each with its frame. -/
def Dev.framesOf (d : Dev) (w : Nat) : List W64 :=
  (d.frames.filter (fun f => decide (f.2.world = some w))).map (fun f => BitVec.ofNat 64 (f.1 * 2 ^ 16 + 256 + w))

/-- What evidence holds beside the nonce. -/
def Dev.evidenceItems (d : Dev) (world : Nat) : List W64 :=
  digestWords Config.firmware
    ++ digestWords (Config.digest ((List.range 256).map (fun w => BitVec.ofNat 64 (Tab.get 0 d.handlers w))))
    ++ digestWords (Config.digest ((List.range 64).flatMap (fun q => (d.queue q).record)))
    ++ (match d.target with
      | some t => t.words ++ [0, 0]
      | none => [])
    ++ digestWords (Config.digest d.storedRecords) ++ [BitVec.ofNat 64 d.bindingSurplus]
    ++ digestWords (Config.digest (d.framesOf world))

/-- GET_MEASUREMENTS (R393): evidence for a nonce, signed by both chains. -/
def execGetMeasurements (nonce : BitVec 384) (world : Nat) (s : State) : Out :=
  let items := s.dev.evidenceItems world
  let x := Config.digest (digestWords nonce ++ items)
  .next (s.modDev (fun d => { d with evidence := some (nonce, items, Config.sign false x, Config.sign true x) }))

end Sys2Proof.Machine
end

