-- ==== Sys2Proof/Machine/Manage.lean ====
section
/-! DEFINITION. The host port, the management interface and bring-up (R280, R282, R285, R293, R298, R355, R385, R398, R409 to R415). -/

namespace Sys2Proof.Machine

/-! ## The host port (R386, R409 to R411) -/

/-- What the port answers. -/
def Dev.hostReply (d : Dev) (x : Option (List Byte)) : Dev := { d with host := { d.host with reply := x, aborted := x.isNone } }

/-- The world of a host's request: that its IDE stream is bound to, 0 outside any (R409, R410). -/
def hostWorld (m : HostReq) : Nat :=
  match m.stream with
  | some k => Config.streamWorld k
  | none => 0

/-- Whether the host's traffic of a world is served: the session of its function, PF 0 or the VF of the world, is in run (R390, R409). -/
def Dev.hostRuns (d : Dev) (world : Nat) : Bool := (Tab.find d.sessions (2048 * (72 + world) + hostPeer)).any (fun x => x.st = .run)

/-- Whether a host's access to a range is served: after stage 5, its session in run, in frames of its world (R386, R390, R410). -/
def Dev.hostMay (d : Dev) (world pa n : Nat) : Bool :=
  (d.host.trained && d.hostRuns world && decide (0 < n ∧ pa + n ≤ 2 ^ 39))
    && (List.range ((pa + n - 1) / 65536 - pa / 65536 + 1)).all (fun i => d.hedge ((pa / 65536 + i) * 65536) world)

/-- Where a host's access lies: in device memory, or for its cores' own accesses in host memory (R411). -/
def hostLoc (m : HostReq) : Loc := if m.own then { sp := .cxl, own := 0, a := m.pa } else hbmAt m.pa

/-- Whether a host's access of n bytes is served, in one of 256 streams or outside any; to its own memory it has no need of the device (R409 to R411). -/
def Dev.hostServed (d : Dev) (m : HostReq) (n : Nat) : Bool :=
  if m.bar0 then false else if m.own then decide (0 < n) else m.stream.all (fun k => decide (k < 256)) && d.hostMay (hostWorld m) m.pa n

/-- A host's write, an AtomicOp's or another, with the count of lines that a device atomic wrote last, for an AtomicOp one that is not atomic with it (R197,
R411). Lines of host memory that the host's cores write are held exclusive under
CXL.cache: no cache of the device keeps them (R411). -/
def Dev.hostWrite (d : Dev) (l : Loc) (bs : List Byte) (atomic : Bool) : Dev :=
  let ls := watchLines l bs.length
  let d1 := ls.foldl (fun d x => d.countMixed x (if atomic then [2] else [2, 3])) d
  let d2 := d1.perform l bs
  (ls.foldl (fun (d : Dev) x => if x.sp = .cxl then (d.recallAll x.line).l2Drop x.line else d.homeLine x) d2).markWriter l bs.length (if atomic then 4 else 1)

/-- Lines of local memory that a host read copies for itself under CXL.mem (R177, R409; log entry 109). -/
def Dev.hostTakes (d : Dev) (pa n : Nat) : Dev := { d with hostCopies := (linesOf pa n).foldl (fun l x => if l.contains x then l else l ++ [x]) d.hostCopies }

/-- A host's read: what other caches hold for themselves becomes shared. -/
def Dev.hostRead (d : Dev) (m : HostReq) : Dev :=
  let d1 := (watchLines (hostLoc m) m.len).foldl (fun (d : Dev) x => d.shareOthers 256 x.line) (d.combineRange (hostLoc m) m.len)
  if m.keep ∧ !m.own then d1.hostTakes m.pa m.len else d1

/-- The value an AtomicOp leaves: operands are n bytes each, the compare value first (R409). -/
def hostAtomicNew (op : HostAtomic) (n old : Nat) (operands : List Byte) : Nat :=
  let a := Bytes.toNat (operands.take n)
  let b := Bytes.toNat ((operands.drop n).take n)
  match op with
  | .fetchAdd => (old + a) % 256 ^ n
  | .swap => a
  | .cas => if old = a then b else old

/-- HOST_ATOMICOP (R409 to R411): of 32 or 64 bits, naturally aligned, performed at the home slice, on host memory by the host's
cores; the old value returns. A CAS that does not match writes nothing. -/
def execHostAtomicop (m : HostReq) (op : HostAtomic) (s : State) : Out :=
  .next (s.modDev (fun d =>
    let operands := m.wr.getD []
    let want := if op = .cas then 2 * m.len else m.len
    if (m.len ≠ 4 ∧ m.len ≠ 8) ∨ m.pa % m.len ≠ 0 ∨ operands.length ≠ want ∨ !d.hostServed m m.len then d.hostReply none
    else
      let d1 := d.combineRange (hostLoc m) m.len
      let old := d1.readNat (hostLoc m) m.len
      let new := hostAtomicNew op m.len old operands
      let misses := decide (op = .cas) && decide (old ≠ Bytes.toNat (operands.take m.len))
      (if misses then d1.hostRead { m with keep := false } else d1.hostWrite (hostLoc m) (Bytes.ofNat m.len new) true).hostReply (some (Bytes.ofNat m.len old))))

/-- HOST_CONFIG_REQUEST (R409, R410): served from the moment the link trains, for PF 0 and the VFs 1 to 255. -/
def execHostConfigRequest (fn reg : Nat) (wr : Option (BitVec 32)) (s : State) : Out :=
  .next (s.modDev (fun d =>
    if !d.host.up ∨ 256 ≤ fn ∨ 1024 ≤ reg then d.hostReply none
    else match wr with
      | some x => ({ d with host := { d.host with cfg := Tab.insert d.host.cfg (1024 * fn + reg) x } }).hostReply (some [])
      | none => d.hostReply (some (Bytes.ofNat 4 ((Tab.find d.host.cfg (1024 * fn + reg)).getD (Config.cfgSpace fn reg)).toNat))))

/-- The rates of the generations of PCIe in GT/s, 2 for 2.5 (PRESUMED, log entry 27). -/
def hostRates : List Nat := [128, 64, 32, 16, 8, 5, 2]

/-- HOST_LINK_RECOVERY (R409): the trained port goes to a narrower width or a lower rate. -/
def execHostLinkRecovery (width gts : Nat) (s : State) : Out :=
  .next (s.modDev (fun d =>
    if d.host.up ∧ [16, 8, 4, 1].contains width ∧ width ≤ d.host.width ∧ hostRates.contains gts ∧ gts ≤ d.host.gts then { d with host := { d.host with width := width, gts := gts } }
    else d))

/-! ## The command slot (R412) -/

/-- What a command comes to: its status, the device, and the words of a read. -/
structure CmdResult where
  cst : Nat
  dev : Dev
  out : Option (List W64)

/-- A command that does nothing but end with a status. -/
def ends (d : Dev) (cst : Nat) : CmdResult := { cst := cst, dev := d, out := none }
/-- A command that is done. -/
def does (d : Dev) : CmdResult := { cst := 0, dev := d, out := none }
/-- A read that gives one word. -/
def reads (d : Dev) (x : Nat) : CmdResult := { cst := 0, dev := d, out := some [BitVec.ofNat 64 x] }

/-- What the stage of bring-up says of an op before it is looked at, if it ends it (R414, R415). -/
def stageStatus (stage op : Nat) : Option Nat :=
  if stage = 255 then (if op = 0 then none else some 2)
  else if stage ≤ 6 then some (if op = 8 then 3 else 2)
  else if 8 ≤ stage ∧ op = 8 then some 2
  else none

/-- A submission (R412): from world 0 only; while another runs it ends at once with status 3; else it runs, and COMMAND_COMPLETE ends it. One whose word 0
has a reserved bit set is malformed (R6). fits says that the
step's command is the one submitted. -/
def State.submit (s : State) (c : Cmd) (fits : Bool) (f : Dev → CmdResult) : State :=
  if c.world ≠ 0 ∨ !fits then s
  else if s.dev.mgmt.running.isSome then s.modDev (fun d => { d with mgmt := { d.mgmt with cst := 3, cseq := c.seq % 2 ^ 48 } })
  else
    let r := match stageStatus s.dev.mgmt.stage c.op with
      | some st => ends s.dev st
      | none => if c.zero ≠ 0 then ends s.dev 1 else f s.dev
    { s with dev := { r.dev with mgmt := { r.dev.mgmt with
      running := some (c.seq % 2 ^ 48, r.cst)
      result := match r.out with
        | some l => l ++ List.replicate (7 - l.length) 0
        | none => r.dev.mgmt.result } } }

/-- COMMAND_COMPLETE (R412): MSTAT takes the running command's status and seq. -/
def execCommandComplete (s : State) : Out :=
  match s.dev.mgmt.running with
  | none => .next s
  | some (seq, cst) => .next (s.modDev (fun d => { d with mgmt := { d.mgmt with cst := cst, cseq := seq, running := none } }))

/-- The word MSTAT (R412). -/
def Mgmt.word (m : Mgmt) : Nat := m.stage * 2 ^ 56 + m.cst * 2 ^ 48 + m.cseq

/-! ## Op 0: reads -/

/-- The kind, index and reserved bits of a read. -/
def readKind (c : Cmd) : Nat := bits c.w1.toNat 63 56
def readIndex (c : Cmd) : Nat := bits c.w1.toNat 31 0
def readBad (c : Cmd) : Bool := decide (bits c.w1.toNat 55 33 ≠ 0)

/-- A read of a kind: malformed with a reserved bit or an index out of range, else the value. -/
def State.readCmd (s : State) (c : Cmd) (kind : Nat) (ok : Bool) (f : Dev → CmdResult) : State :=
  s.submit c (decide (c.op = 0 ∧ readKind c = kind)) (fun d => if readBad c || !ok then ends d 1 else f d)

/-- MGMT_READ_ABJSTAT (R305, R412). -/
def execMgmtReadAbjstat (c : Cmd) (s : State) : Out :=
  .next (s.readCmd c 0 (decide (readIndex c < 72)) (fun d => reads d (d.abjstat (readIndex c))))

/-- An entry of the error log as words 1 to 4. -/
def LogEntry.words (e : LogEntry) : List W64 :=
  [BitVec.ofNat 64 (e.kind * 2 ^ 56 + e.cls * 2 ^ 10 + e.unit), BitVec.ofNat 64 e.pa, BitVec.ofNat 64 e.world, BitVec.ofNat 64 e.time]

/-- MGMT_READ_ERROR_LOG (R396, R412): entries by age, the oldest 0 (log entry 28). -/
def execMgmtReadErrorLog (c : Cmd) (s : State) : Out :=
  .next (s.readCmd c 1 true (fun d => { cst := 0, dev := d, out := some (match d.log[readIndex c]? with
    | some e => e.words
    | none => [BitVec.allOnes 64]) }))

/-- Instances of an activity (R376, R412). -/
def instances (activity : Nat) : Nat :=
  match activity with
  | 0 => 8
  | 1 => 1
  | 3 => 1
  | 7 => 64
  | _ => if activity < 7 then 4 else 0

/-- MGMT_READ_TIME_BUDGET (R376, R412). -/
def execMgmtReadTimeBudget (c : Cmd) (s : State) : Out :=
  let a := bits (readIndex c) 15 8
  let i := bits (readIndex c) 7 0
  .next (s.readCmd c 2 (decide (readIndex c < 65536 ∧ i < instances a)) (fun d => reads d (if a = 7 then (d.queue i).cbud else d.budget a i)))

/-- MGMT_READ_MIXED_ATOMIC_COUNTER (R197, R412). -/
def execMgmtReadMixedAtomicCounter (c : Cmd) (s : State) : Out :=
  .next (s.readCmd c 3 (decide (readIndex c < 4)) (fun d =>
    reads (if bit c.w1.toNat 32 then d.modDie (readIndex c) (fun x => { x with mixed := 0 }) else d) (d.die (readIndex c)).mixed))

/-- MGMT_READ_PARAMETER (R412, R413). -/
def execMgmtReadParameter (c : Cmd) (s : State) : Out :=
  .next (s.readCmd c 4 (decide (readIndex c < 8)) (fun d => reads d (d.param (readIndex c))))

/-- A frame's entry of the frame world table, with the pinned bit (R385, R412). -/
def Frame.entry (f : Frame) : Nat :=
  (if f.pinned then 512 else 0) + (match f.world with
    | some w => 256 + w
    | none => 0)

/-- MGMT_READ_FRAME_WORLD_ENTRY (R385, R412). -/
def execMgmtReadFrameWorldEntry (c : Cmd) (s : State) : Out :=
  .next (s.readCmd c 5 (decide (readIndex c < 2 ^ 23)) (fun d => reads d (d.frame (readIndex c)).entry))

/-- MGMT_READ_ROUTE_ENTRY (R301, R412). -/
def execMgmtReadRouteEntry (c : Cmd) (s : State) : Out :=
  .next (s.readCmd c 6 (decide (readIndex c < 1536)) (fun d => reads d (Tab.get 0 d.routes (readIndex c)).toNat))

/-! ## Ops 1, 3, 9: budgets, handlers, parameters -/

/-- SET_TIME_BUDGET (R376, R412). -/
def execSetTimeBudget (c : Cmd) (s : State) : Out :=
  let a := bits c.w1.toNat 15 8
  let i := bits c.w1.toNat 7 0
  .next (s.submit c (decide (c.op = 1)) (fun d =>
    if bits c.w1.toNat 63 16 ≠ 0 ∨ instances a ≤ i ∨ (a = 7 ∧ 2 ^ 32 ≤ c.w2.toNat) then ends d 1
    else if a = 7 then does (d.modQueue i (fun q => { q with cbud := c.w2.toNat }))
    else does { d with budgets := Tab.insert d.budgets (a * 256 + i) c.w2.toNat }))

/-- SET_HANDLER_TABLE_ENTRY (R329, R412). -/
def execSetHandlerTableEntry (c : Cmd) (s : State) : Out :=
  .next (s.submit c (decide (c.op = 3)) (fun d =>
    if bits c.w1.toNat 63 8 ≠ 0 ∨ bits c.w2.toNat 63 54 ≠ 0 then ends d 1
    else does { d with handlers := Tab.set 0 d.handlers (bits c.w1.toNat 7 0) c.w2.toNat }))

/-- The range of a parameter (R413). -/
def paramOk (code x : Nat) : Bool :=
  match code with
  | 0 => decide (1024 ≤ x ∧ x ≤ 2 ^ 40)
  | 1 => decide (100 ≤ x ∧ x < 2 ^ 32)
  | 2 => decide (100 ≤ x ∧ x < 2 ^ 32)
  | 3 => decide (1000 ≤ x ∧ x < 2 ^ 32)
  | 4 => decide (100 ≤ x ∧ x < 2 ^ 32)
  | 5 => decide (1 ≤ x ∧ x < 65536)
  | 6 => decide (60 ≤ x ∧ x ≤ 105)
  | 7 => decide (bits x 63 13 = 0)
  | _ => false

/-- SET_PARAMETER (R347, R413). -/
def execSetParameter (c : Cmd) (s : State) : Out :=
  let code := bits c.w1.toNat 15 0
  let x := c.w2.toNat
  .next (s.submit c (decide (c.op = 9)) (fun d =>
    let b := d.box (bits x 11 0)
    if bits c.w1.toNat 63 16 ≠ 0 ∨ !paramOk code x then ends d 1
    else if code = 7 ∧ bit x 12 ∧ (!b.bound ∨ (d.queue b.queue).world ≠ 0) then ends d 2
    else does { d with params := Tab.insert d.params code x }))

/-! ## Op 2: frames (R146, R385) -/

/-- A frame's bytes set to zero. -/
def zeroFrame (f : Nat) (m : List Host.Cell) : List Host.Cell := m.filter (fun c => decide (c.1 / 65536 ≠ f))

/-- An HBM frame zeroed: gathered partials of its lines go, and so does poison. -/
def Dev.zeroHbm (d : Dev) (f : Nat) : Dev :=
  let d1 : Dev := { d with
    hbm := zeroFrame f d.hbm
    poison := d.poison.filter (fun l => !decide (l.sp = .hbm ∧ l.a / 65536 = f))
    raw := d.raw.filter (fun r => !decide (8 ≤ r.array ∧ r.addr / 65536 = f))
    cores := Tab.mapV d.cores (fun _ (k : Core) => { k with upart := k.upart.filter (fun p => decide (p.1 / 16384 ≠ f)) }) }
  d1.staleStreams (hbmAt (65536 * f)) 65536

/-- The old world's TLB entries go device-wide, as by TLBI of kind 2, and the frame has no world. -/
def Dev.unassign (d : Dev) (f : Nat) : Dev :=
  match (d.frame f).world with
  | none => d
  | some w => ((d.tlbi 0 0 (BitVec.ofNat 64 (2 * 2 ^ 62 + 3 * 2 ^ 59 + w * 2 ^ 36))).1).modFrame f (fun x => { x with world := none })

/-- Op 2 on an HBM frame. -/
def Dev.frameCmd (d : Dev) (f : Nat) (pinned assigned : Bool) (w : Nat) : Dev :=
  let d1 :=
    if !assigned then d.unassign f
    else if (d.frame f).world = some w then d
    else ((d.unassign f).zeroHbm f).modFrame f (fun x => { x with world := some w })
  d1.modFrame f (fun x => { x with pinned := pinned })

/-- Op 2 on a chip-scratchpad frame. -/
def Dev.kframeCmd (d : Dev) (f : Nat) (assigned : Bool) (w : Nat) : Dev :=
  if !assigned then { d with kframes := Tab.erase d.kframes f }
  else if Tab.find d.kframes f = some w then d
  else
    let d1 : Dev := { d with
      kframes := Tab.insert d.kframes f w
      kmem := zeroFrame f d.kmem
      poison := d.poison.filter (fun l => !decide (l.sp = .kmem ∧ l.a / 65536 = f))
      raw := d.raw.filter (fun r => !decide (r.array = 7 ∧ (33554432 * r.inst + r.addr) / 65536 = f)) }
    d1.staleStreams { sp := .kmem, own := 0, a := 65536 * f } 65536

/-- Op 2 (R412): a frame of a context region is not given away (R339). -/
def Dev.assignCmd (d : Dev) (c : Cmd) : CmdResult :=
  let k := bit c.w1.toNat 63
  let f := bits c.w1.toNat 35 0
  let pinned := bit c.w2.toNat 9
  let assigned := bit c.w2.toNat 8
  let w := bits c.w2.toNat 7 0
  if bits c.w1.toNat 62 36 ≠ 0 ∨ bits c.w2.toNat 63 10 ≠ 0 ∨ (k ∧ (pinned ∨ 2048 ≤ f)) ∨ (!k ∧ 2 ^ 23 ≤ f) then ends d 1
  else if !k ∧ (d.frame f).reserved then ends d 2
  else does (if k then d.kframeCmd f assigned w else d.frameCmd f pinned assigned w)

/-- FRAME_ASSIGN (R385). -/
def execFrameAssign (c : Cmd) (s : State) : Out := .next (s.submit c (decide (c.op = 2) && bit c.w2.toNat 8) (fun d => d.assignCmd c))
/-- FRAME_UNASSIGN (R385). -/
def execFrameUnassign (c : Cmd) (s : State) : Out := .next (s.submit c (decide (c.op = 2) && !bit c.w2.toNat 8) (fun d => d.assignCmd c))

/-! ## Ops 4, 5, 7, 10, 11 -/

/-- KILL_WAIT_CYCLE (R346, R412). -/
def execKillWaitCycle (c : Cmd) (s : State) : Out :=
  let core := bits c.w2.toNat 7 0
  let slot := bits c.w2.toNat 12 8
  .next (s.submit c (decide (c.op = 4)) (fun d =>
    let t := (d.group core slot).task
    let mine := match d.task? t with
      | some k => decide (k.grid = bits c.w1.toNat 55 0)
      | none => false
    if bits c.w1.toNat 63 56 ≠ 0 ∨ bits c.w2.toNat 63 13 ≠ 0 then ends d 1
    else if !d.hasGroup core slot ∨ !mine then ends d 2
    else does (d.killTask t)))

/-- REFORMAT_FRAME_GRANULE (R280): lines are written back with U copies combined, the frame is rewritten under the new code, and every translation goes. -/
def execReformatFrameGranule (c : Cmd) (s : State) : Out :=
  let f := bits c.w1.toNat 35 0
  .next (s.submit c (decide (c.op = 5)) (fun d =>
    if bits c.w1.toNat 63 36 ≠ 0 ∨ 2 ^ 23 ≤ f ∨ bits c.w2.toNat 63 2 ≠ 0 then ends d 1
    else if (d.frame f).reserved then ends d 2
    else
      let d1 := (linesOf (65536 * f) 65536).foldl (fun (d : Dev) l => if d.cores.any (fun k => k.2.upart.any (fun p => decide (p.1 / 32 = l))) then d.combine l else d) d
      let d2 : Dev := { d1 with
        cores := Tab.mapV d1.cores (fun _ (k : Core) => { k with l1 := Tab.keep k.l1 (fun l _ => decide (l / 512 ≠ f)) })
        raw := d1.raw.filter (fun r => !decide (8 ≤ r.array ∧ r.addr / 65536 = f)) }
      let d3 := ((linesOf (65536 * f) 65536).foldl Dev.l2Drop d2).modFrame f (fun x => { x with gran := bits c.w2.toNat 1 0 })
      does (d3.tlbi 0 0 (BitVec.ofNat 64 (3 * 2 ^ 62 + 3 * 2 ^ 59))).1))

/-- POST_TICKET_OUTCOME (R285, R412): for any ticket of the device; one that is not open is ignored. -/
def execPostTicketOutcome (c : Cmd) (s : State) : Out :=
  .next (s.submit c (decide (c.op = 7)) (fun d =>
    if bits c.w1.toNat 60 16 ≠ 0 then ends d 1 else does (d.closeTicket (bits c.w1.toNat 15 0) (bits c.w1.toNat 63 61))))

/-- Op 10 (R338, R412). -/
def Dev.preemptCmd (d : Dev) (c : Cmd) : CmdResult :=
  let core := bits c.w1.toNat 7 0
  let cls := bits c.w1.toNat 9 8
  if bits c.w1.toNat 63 17 ≠ 0 ∨ bits c.w1.toNat 15 10 ≠ 0 then ends d 1
  else does (if bit c.w1.toNat 16 then d.withdrawBy core cls 0 else d.requestPreempt core cls 0)

/-- MGMT_PREEMPTION_REQUEST (R338). -/
def execMgmtPreemptionRequest (c : Cmd) (s : State) : Out := .next (s.submit c (decide (c.op = 10) && !bit c.w1.toNat 16) (fun d => d.preemptCmd c))
/-- MGMT_PREEMPTION_WITHDRAW (R338). -/
def execMgmtPreemptionWithdraw (c : Cmd) (s : State) : Out := .next (s.submit c (decide (c.op = 10) && bit c.w1.toNat 16) (fun d => d.preemptCmd c))

/-- RESET_PORT (R298, R412): the port's link retrains at full width. -/
def execResetPort (c : Cmd) (s : State) : Out :=
  let port := bits c.w1.toNat 6 0
  .next (s.submit c (decide (c.op = 11)) (fun d =>
    if bits c.w1.toNat 63 7 ≠ 0 ∨ 72 ≤ port then ends d 1
    else let l := d.linkOfPort port; does (d.retrain l (d.goodLanes l))))

/-- MGMT_UNASSIGNED_OP (R412): ops 12 to 255, and the kinds of op 0 and selectors of op 6 outside their ranges. -/
def execMgmtUnassignedOp (c : Cmd) (s : State) : Out :=
  .next (s.submit c (decide ((12 ≤ c.op ∧ c.op < 256) ∨ (c.op = 0 ∧ 6 < readKind c) ∨ (c.op = 6 ∧ 3 < bits c.w1.toNat 63 56))) (fun d => ends d 1))

/-! ## Op 6 (R282, R299, R301, R394) -/

/-- The selector and index of op 6, and its reserved bits. -/
def setSelector (c : Cmd) : Nat := bits c.w1.toNat 63 56
def setIndex (c : Cmd) : Nat := bits c.w1.toNat 15 0
def setBad (c : Cmd) : Bool := decide (bits c.w1.toNat 55 16 ≠ 0)

/-- SET_ROUTE_TABLE (R301): messages that no route took go out where one now does (R302). -/
def execSetRouteTable (c : Cmd) (s : State) : Out :=
  .next (s.submit c (decide (c.op = 6 ∧ setSelector c = 0)) (fun d =>
    if setBad c ∨ 1536 ≤ setIndex c ∨ bits c.w2.toNat 63 18 ≠ 0 then ends d 1
    else does ({ d with routes := Tab.insert d.routes (setIndex c) (BitVec.ofNat 18 c.w2.toNat) }).flushStranded))

/-- SET_ATTESTATION_POLICY (R394, R395): a policy that requires nothing is rejected. -/
def execSetAttestationPolicy (c : Cmd) (s : State) : Out :=
  .next (s.submit c (decide (c.op = 6 ∧ setSelector c = 1)) (fun d =>
    if setBad c ∨ setIndex c ≠ 0 ∨ bits c.w2.toNat 63 2 ≠ 0 ∨ c.w2 = 0 then ends d 1 else does { d with policy := BitVec.ofNat 2 c.w2.toNat }))

/-- A window from its three words (R282). -/
def windowOf (w0 w1 w2 : Nat) : Window :=
  { v := bit w0 63, wr := bit w0 62, root := bits w0 51 13 * 8192, asn := bits w1 63 52, world := bits w1 51 44, mbox := bits w1 43 32,
    plo := bits w1 31 21, phi := bits w1 20 10, post := bits w2 51 3 * 8 }

/-- SET_OWNER_WINDOW (R282): the post word lies in a frame of the window's world, and no other window installed names it; no L1 keeps its line (R285). -/
def execSetOwnerWindow (c : Cmd) (s : State) : Out :=
  let w0 := c.w2.toNat
  let w1 := c.w3.toNat
  let w2 := c.w4.toNat
  let w := windowOf w0 w1 w2
  .next (s.submit c (decide (c.op = 6 ∧ setSelector c = 2)) (fun d =>
    if setBad c ∨ 32 ≤ setIndex c ∨ bits w0 61 52 ≠ 0 ∨ bits w0 12 0 ≠ 0 ∨ bits w1 9 0 ≠ 0 ∨ bits w2 63 52 ≠ 0 ∨ bits w2 2 0 ≠ 0
      ∨ !d.hedge w.post w.world ∨ d.windows.any (fun x => decide (x.1 ≠ setIndex c ∧ x.2.post = w.post)) then ends d 1
    else does (({ d with windows := Tab.insert d.windows (setIndex c) w }).recallAll (w.post / 128))))

/-- The place of a port's setting among those of its link (log entry 99). -/
def Dev.portPlace (d : Dev) (port : Nat) : Nat := if d.gangMode then port % 4 else 0

/-- SET_PORT_CONFIGURATION (R299, R412): while the port's link session is unlocked. -/
def execSetPortConfiguration (c : Cmd) (s : State) : Out :=
  .next (s.submit c (decide (c.op = 6 ∧ setSelector c = 3)) (fun d =>
    if setBad c ∨ 72 ≤ setIndex c ∨ bits c.w2.toNat 63 1 ≠ 0 then ends d 1
    else if d.sessions.any (fun x => decide (x.2.port = some (setIndex c) ∧ x.2.st ≠ .unlocked)) then ends d 2
    else does (d.modLink (d.linkOfPort (setIndex c)) (fun k =>
      let b := BitVec.ofNat 4 (2 ^ d.portPlace (setIndex c))
      { k with compress := if bit c.w2.toNat 0 then k.compress ||| b else k.compress &&& ~~~b }))))

/-! ## Op 8: the boot binding (R414) -/

/-- Words at a G address of world 0 under a root and ASN; none where the translation faults, the page is remote, or a byte is poisoned. -/
def Dev.bootRead (d : Dev) (root asn a n : Nat) : Option (Dev × List W64) :=
  let x : XCtx := { core := none, die := 0, world := 0, asn := asn, root := root, priv := false, spec := false }
  let r := d.translate x .read a
  match r.out with
  | .error _ => none
  | .ok p =>
    if a % n ≠ 0 ∨ p.loc.isRemote ∨ r.dev.poisoned p.loc n then none
    else let d1 := r.dev.combineRange p.loc n; some (d1, wordsOf (d1.readBytes p.loc n) (n / 8))

/-- Several 16-byte entries one after another. -/
def Dev.bootReads (d : Dev) (root asn : Nat) : List Nat → Option (Dev × List W64)
  | [] => some (d, [])
  | a :: l => match d.bootRead root asn a 16 with
    | none => none
    | some (d1, ws) => (d1.bootReads root asn l).map (fun r => (r.1, ws ++ r.2))

/-- Queue 0 as the boot binding configures it. -/
def bootQueue (root asn : Nat) : Queue :=
  { Queue.reset with mask := BitVec.allOnes 256, en := true, cls := 3, asn := asn, quantum := 2 ^ 32 - 1, root := root }

/-- The boot binding installed: queue 0, mailbox 0, stage 8. -/
def Dev.bootCmd (d : Dev) (c : Cmd) : CmdResult :=
  let root := bits c.w4.toNat 51 13 * 8192
  let asn := bits c.w5.toNat 11 0
  let handler := c.w1
  let image : List W64 := [c.w3, handler, c.w2, 0]
  let m0 := Mailbox.reset.ofImage image [] []
  if bits c.w1.toNat 63 54 ≠ 0 ∨ bits c.w2.toNat 63 54 ≠ 0 ∨ bits c.w4.toNat 63 52 ≠ 0 ∨ bits c.w4.toNat 12 0 ≠ 0 ∨ bits c.w5.toNat 63 12 ≠ 0
    ∨ badImage image ∨ d.trigWorld m0 ≠ some 0 then ends d 1
  else
    let d0 : Dev := { d with queues := Tab.insert d.queues 0 (bootQueue root asn) }
    match d0.bootRead root asn c.w2.toNat 128 with
    | none => ends d 1
    | some (d1, ws) =>
      let rec_ := handlerRecord ws handler.toNat 0
      if d1.badRecord rec_ then ends d 1
      else match d1.bootReads root asn (tableAddrs rec_) with
        | none => ends d 1
        | some (d2, ts) =>
          if !tableOk (tableOf ts) then ends d 1
          else
            let d3 := d2.modBox 0 (fun _ => Mailbox.reset.ofImage image ws (tableOf ts))
            does { d3 with mgmt := { d3.mgmt with stage := 8 } }

/-- INSTALL_BOOT_BINDING (R414). -/
def execInstallBootBinding (c : Cmd) (s : State) : Out := .next (s.submit c (decide (c.op = 8)) (fun d => d.bootCmd c))

/-! ## BAR0 (R412) -/

/-- The step of a submitted command, by its op. -/
def execCommand (c : Cmd) : State → Out :=
  match c.op with
  | 0 => match readKind c with
    | 0 => execMgmtReadAbjstat c
    | 1 => execMgmtReadErrorLog c
    | 2 => execMgmtReadTimeBudget c
    | 3 => execMgmtReadMixedAtomicCounter c
    | 4 => execMgmtReadParameter c
    | 5 => execMgmtReadFrameWorldEntry c
    | 6 => execMgmtReadRouteEntry c
    | _ => execMgmtUnassignedOp c
  | 1 => execSetTimeBudget c
  | 2 => if bit c.w2.toNat 8 then execFrameAssign c else execFrameUnassign c
  | 3 => execSetHandlerTableEntry c
  | 4 => execKillWaitCycle c
  | 5 => execReformatFrameGranule c
  | 6 => match setSelector c with
    | 0 => execSetRouteTable c
    | 1 => execSetAttestationPolicy c
    | 2 => execSetOwnerWindow c
    | 3 => execSetPortConfiguration c
    | _ => execMgmtUnassignedOp c
  | 7 => execPostTicketOutcome c
  | 8 => execInstallBootBinding c
  | 9 => execSetParameter c
  | 10 => if bit c.w1.toNat 16 then execMgmtPreemptionWithdraw c else execMgmtPreemptionRequest c
  | 11 => execResetPort c
  | _ => execMgmtUnassignedOp c

/-- The eight words of the slot as a command of world 0. -/
def cmdOf (ws : List W64) : Cmd :=
  let w (i : Nat) : W64 := ws.getD i 0
  { world := 0, op := bits (w 0).toNat 63 56, seq := bits (w 0).toNat 47 0, w1 := w 1, w2 := w 2, w3 := w 3, w4 := w 4, w5 := w 5, w6 := w 6, w7 := w 7,
    zero := BitVec.ofNat 8 (bits (w 0).toNat 55 48) }

/-- The bytes of the slot. -/
def Mgmt.slotBytes (m : Mgmt) : List Byte := (m.word0 :: m.result).flatMap (fun w => Bytes.ofNat 8 w.toNat)

/-- A byte of BAR0: MSTAT at 0x0000, the slot at 0x0040; the spec gives nothing else, where a read finds a free value (log entry 28). -/
def Dev.barByte (d : Dev) (o : Nat) : Byte :=
  if o < 8 then (Bytes.ofNat 8 d.mgmt.word).getD o 0
  else if 64 ≤ o ∧ o < 128 then d.mgmt.slotBytes.getD (o - 64) 0
  else (Config.freeWord (d.fresh + o)).truncate 8

/-- The slot with bytes written from an offset of BAR0 on; what lies outside it goes nowhere. -/
def Dev.slotWrite (d : Dev) (o : Nat) (bs : List Byte) : Dev :=
  let old := d.mgmt.slotBytes
  let new := (List.range 64).map (fun i => if o ≤ 64 + i ∧ 64 + i < o + bs.length then bs.getD (64 + i - o) 0 else old.getD i 0)
  let ws := wordsOf new 8
  { d with mgmt := { d.mgmt with word0 := ws.headD 0, result := ws.tail } }

/-- An access to BAR0 of PF 0: a write that includes bytes 0 to 7 of the slot submits the command (R412). -/
def State.barAccess (s : State) (m : HostReq) : Out :=
  if !s.dev.host.trained ∨ !s.dev.hostRuns 0 ∨ m.stream.any (fun k => decide (256 ≤ k ∨ Config.streamWorld k ≠ 0)) then .next (s.modDev (fun d => d.hostReply none))
  else match m.wr with
    | none => .next (s.modDev (fun d => { d.hostReply (some ((List.range m.len).map (fun i => d.barByte (m.pa + i)))) with fresh := d.fresh + m.pa + m.len }))
    | some bs =>
      let s1 := s.modDev (fun d => (d.slotWrite m.pa bs).hostReply (some []))
      if m.pa ≤ 64 ∧ 72 ≤ m.pa + bs.length then execCommand (cmdOf (s1.dev.mgmt.word0 :: s1.dev.mgmt.result)) s1 else .next s1

/-- HOST_MEMORY_REQUEST (R386, R409, R410, R412): payloads of at most 512 bytes, reads of at most 4,096. -/
def execHostMemoryRequest (m : HostReq) (s : State) : Out :=
  let long := match m.wr with
    | some bs => decide (512 < bs.length)
    | none => decide (4096 < m.len)
  if long then .next (s.modDev (fun d => d.hostReply none))
  else if m.bar0 then s.barAccess m
  else .next (s.modDev (fun d => match m.wr with
    | some bs => if d.hostServed m bs.length then (d.hostWrite (hostLoc m) bs false).hostReply (some []) else d.hostReply none
    | none => if d.hostServed m m.len then let d1 := d.hostRead m; d1.hostReply (some (d1.readBytes (hostLoc m) m.len)) else d.hostReply none))

/-! ## Reset and bring-up (R355, R398, R414, R415) -/

/-- RESET (R414): bring-up from stage 1. What MRAM and the fuses of the part hold stays: records, target, pending repairs, marker, service time; TIME and launch
ids run on (log entry 25). -/
def execReset (s : State) : Out :=
  let d := s.dev
  .next { State.reset with
    dev := { Dev.reset with
      time := d.time, nextLaunch := d.nextLaunch, wearMram := d.wearMram, target := d.target, lifeNow := d.lifeNow, serviceMs := d.serviceMs, repairs := d.repairs
      remapped := d.remapped, marker := d.marker, fresh := d.fresh, log := d.log, logCounts := d.logCounts
      hbm := d.hbm, cxl := d.cxl, cxlCounts := d.cxlCounts
      dies := Tab.mapV d.dies (fun _ (x : Die) => { Die.reset with spareUsed := x.spareUsed }) }
    agenda := s.agenda }

/-- A record as power-up loads it (R355): the newer copy, charged for the time up to the supply-loss warning at the mean rate between the two copies; no grant
runs. -/
def loadRecord (older newer : Wear) (until_ : Option Nat) : Wear :=
  let span := newer.ctime - older.ctime
  let gap := match until_ with
    | some t => t - newer.ctime
    | none => 0
  let more (f : Wear → Nat) : Nat := if span = 0 then 0 else (f newer - f older) * gap / span
  let b := more (fun w => w.bti)
  { newer with bti := newer.bti + b, hci := newer.hci + more (fun w => w.hci), em := newer.em + more (fun w => w.em), pool := newer.pool + b * 3 / 10,
               cbti := 0, chci := 0, cem := 0, st := if newer.st = 1 ∨ newer.st = 2 ∨ newer.st = 4 then 0 else newer.st }

/-- Stage 2: the records are loaded. -/
def Dev.loadRecords (d : Dev) : Dev :=
  { d with wear := d.wearMram.map (fun p => (p.1, loadRecord p.2.1 p.2.2 (d.marker.map (fun m => m.1)))) }

/-- Stage 3: listed rows are repaired; one whose repair fails stays listed and is reported (R398); HBM is zeroed. -/
def Dev.trainHbm (d : Dev) : Dev :=
  let bad := d.repairs.filter Config.repairFails
  let d1 := bad.foldl (fun d r => d.logError 5 0 0 r 0) d
  { d1 with repairs := bad, hbm := [] }

/-- The pair whose cores' records name a slot. -/
def Dev.pairOfSlot (d : Dev) (die slot : Nat) : Nat :=
  ((List.range 5).find? (fun p => decide ((d.wearOf (die * 80 + p * 16)).core = die * 64 + slot * 16 ∧ (d.wearOf (die * 80 + p * 16)).st = 0))).getD 255

/-- The self-test of a die's pairs: at most one fails (R415), takes state 6, and the granary pair, if there is one, takes its slot (R12; DEDUCED, log entry 25). -/
def Dev.testDie (d : Dev) (n die : Nat) : Dev :=
  let bad := Config.selfTest n die
  let d1 := if bad < 5 ∧ (d.wearOf (die * 80 + bad * 16)).st ≠ 5 then d.setStates (pairUnits die bad) 6 else d
  let d2 := d1.modDie die (fun x => { x with slotMap := (List.range 4).map (d1.pairOfSlot die) })
  match (d2.die die).slotMap.findIdx? (fun p => decide (p = 255)), d2.granary die with
  | some slot, some p => (d2.namePair die slot p).modDie die (fun x => { x with slotMap := setAt x.slotMap slot p })
  | _, _ => d2

/-- Stage 4: SRAM is tested, the map of slots set as the records name them, and the count of cores in service (R13); a slice's spare stands in its record of
spares, which resets keep (R155). -/
def Dev.setMaps (d : Dev) : Dev :=
  ((List.range 4).foldl (fun (e : Dev) i => e.testDie d.fresh i) { d with fresh := d.fresh + 1 }).reportCores

/-- Stage 5 ends: the host's session is in run, and memory requests are served. -/
def Dev.trainHost (d : Dev) : Dev :=
  let n := 72 * 2048 + hostPeer
  { d with host := { d.host with trained := true }
           sessions := Tab.insert d.sessions n { newSession n with st := .run, keyed := true, lastBeat := d.time, lastSent := d.time } }

/-- A context region of each die is reserved: frames of world 0 that no task can address (R339, R414). -/
def Dev.reserveRegions (d : Dev) : Dev :=
  ((List.range 4).flatMap Config.regionFrames).foldl (fun d f => d.modFrame f (fun x => { x with world := some 0, pinned := true, reserved := true })) d

/-- Stage 6 begins: fabric mode and peer id are set, and the links train. -/
def Dev.startFabric (d : Dev) : Dev :=
  let d1 : Dev := { d with gangMode := Config.fabric.1, peerId := Config.fabric.2 % 1536 }
  (List.range d1.linkCount).foldl (fun d l => d.modLink l (fun k => { k with st := 1 })) d1

/-- What happens as a stage begins: the host link trains at the beginning of stage 5, from when configuration requests are served (R410; DESIGN CHOICE, log
entry 25). -/
def Dev.stageStart (d : Dev) (stage : Nat) : Dev :=
  match stage with
  | 5 => { d with host := { d.host with width := 16, gts := 128, up := true } }
  | 6 => d.startFabric
  | _ => d

/-- The work that a stage has done as it ends. -/
def Dev.stageWork (d : Dev) (stage : Nat) : Dev :=
  match stage with
  | 2 => d.loadRecords
  | 3 => d.trainHbm
  | 4 => d.setMaps
  | 5 => d.trainHost
  | 6 => d.reserveRegions
  | _ => d

/-- The cause of a failed stage in the error log: for an HBM stack its first address, for self-tests the first core of each of two pairs of a die; which they are
is a free value (R415; DESIGN CHOICE, log entry 25). -/
def Dev.failCause (d : Dev) (stage : Nat) : Dev :=
  let x := (Config.freeWord d.fresh).toNat
  let d1 : Dev := { d with fresh := d.fresh + 1 }
  let a := x / 4 % 5
  let pair (p : Nat) : Nat := x % 4 * 80 + p * 16
  match stage with
  | 3 => d1.logError 6 0 0 (x % 8 * 2 ^ 36) 0
  | 4 => (d1.logError 6 0 (pair a) 0 0).logError 6 0 (pair ((a + 1 + x / 20 % 4) % 5)) 0 0
  | _ => d1.logError 6 0 0 0 0

/-- The stages that may fail (R415): a rejected firmware measurement, an HBM stack that does not train, self-tests of more than one pair on a die. -/
def mayFail (stage : Nat) : Bool := decide (stage = 1 ∨ stage = 3 ∨ stage = 4)

/-- BRINGUP_STAGE_COMPLETE (R414, R415): a stage's work is done and the next begins; one that fails ends bring-up. Stage 7 ends by op 8. -/
def execBringupStageComplete (ok : Bool) (s : State) : Out :=
  let n := s.dev.mgmt.stage
  if 7 ≤ n then .next s
  else if !ok ∧ mayFail n then .next (s.modDev (fun d => { d.failCause n with mgmt := { d.mgmt with stage := 255 } }))
  else .next (s.modDev (fun d => let e := (d.stageWork n).stageStart (n + 1); { e with mgmt := { e.mgmt with stage := n + 1 } }))

end Sys2Proof.Machine
end

