-- ==== Sys2Proof/Machine/Streams.lean ====
section
/-! DEFINITION. Access streams: the words of the STRM major, the fills of the affine address engine and the reloads at a pop (R263 to R268). -/

namespace Sys2Proof.Machine

/-! ## Words (R263, R265) -/

/-- The queue a record names. -/
def streamQueue (ws : List W64) : Nat := bits (ws.getD 5 0).toNat 59 58

/-- A malformed stream record (R263). -/
def badStream (ws : List W64) : Bool :=
  let w (i : Nat) : Nat := (ws.getD i 0).toNat
  let c (i : Nat) : Nat := bits (w (1 + i)) 63 40
  decide (3 < bits (w 0) 63 60) || decide (bits (w 0) 59 54 ≠ 0) || decide (8 < bits (w 5) 63 60) || decide (5 < bits (w 5) 57 55)
    || decide (2 < bits (w 5) 54 52) || decide (bits (w 5) 51 0 ≠ 0) || decide (bits (w 6) 63 40 ≠ 0) || decide (w 7 ≠ 0)
    || decide (c 0 = 0 ∨ c 1 = 0 ∨ c 2 = 0 ∨ c 3 = 0) || decide (2 ^ 48 < c 0 * c 1 * c 2 * c 3)

/-- SOPEN (R265). -/
def execSopen (d a : SReg) (n : BitVec 4) (s : State) : Out :=
  .next (s.withRecord (s.rdS a).toNat 64 (fun s ws =>
    match s.dev.task? s.taskId with
    | none => s.wrS d 3
    | some t =>
      if (Tab.find t.streams n.toNat).isSome then s.wrS d 1
      else if (s.dev.streamOf s.iss.core s.iss.slot (streamQueue ws)).isSome then s.wrS d 2
      else if badStream ws then s.wrS d 3
      else
        let x : Stream := { words := ws, group := s.dev.streamOwner s.iss.core s.iss.slot, popped := 0, queue := [] }
        (s.modDev (fun e => e.modTask s.taskId (fun k => { k with streams := Tab.insert k.streams n.toNat x }))).wrS d 0))

/-- The reads that a stream's reloads have under way are dropped. -/
def Dev.dropReloads (d : Dev) (task ctx : Nat) : Dev :=
  let gone := Tab.keys (Tab.keep d.ops (fun _ o => decide (o.task = task ∧ o.kind = .stream ctx)))
  let d1 := d.abandonOps gone
  { d1 with ops := Tab.keep d1.ops (fun n _ => !gone.contains n) }

/-- SCLOSE (R265). -/
def execSclose (n : BitVec 4) (s : State) : Out :=
  .next (s.modDev (fun d => (d.modTask s.taskId (fun k => { k with streams := Tab.erase k.streams n.toNat })).dropReloads s.taskId n.toNat))

/-- A stream n entries on, queued ones first; past its end it is exhausted (R265). -/
def Stream.skip (x : Stream) (n : Nat) : Stream :=
  { x with queue := x.queue.drop n, popped := min (x.popped + n) x.entries }

/-- SSKIP (R265). -/
def execSskip (a : SReg) (n : BitVec 4) (s : State) : Out :=
  let k := (s.rdS a).toNat
  if k = 0 then .next s
  else .next (s.modDev (fun d =>
    (d.modTask s.taskId (fun t => { t with streams := Tab.modify t.streams n.toNat (fun x => x.skip k) })).dropReloads s.taskId n.toNat))

/-- SSTAT's word (R265). -/
def Stream.status (x : Stream) : Nat :=
  (if x.entries ≤ x.popped then 2 else 1) * 2 ^ 62 + x.queue.length * 2 ^ 58 + (x.entries - x.popped) % 2 ^ 48

/-- SSTAT (R265): 0 for a closed context. -/
def execSstat (d : SReg) (n : BitVec 4) (s : State) : Out :=
  match (s.dev.task? s.taskId).bind (fun t => Tab.find t.streams n.toNat) with
  | some x => .next (s.wrS d (BitVec.ofNat 64 x.status))
  | none => .next (s.wrS d 0)

/-! ## Reading an entry (R264, R266, R267) -/

/-- The space of a record (R263). -/
def Stream.space (x : Stream) : Nat := bits (x.words.getD 0 0).toNat 63 60

/-- The level a space of a record names. -/
def spaceLevel (sp : Nat) : Level := match sp with | 0 => .g | 1 => .s | 2 => .c | _ => .k

/-- The place of one lane's element, or the trap that a load of it would raise: bounds, translation and world, alignment (R148). -/
def Dev.streamPlace (d : Dev) (core slot : Nat) (x : Stream) (spec : Bool) (lane a : Nat) : Dev × Except TrapInfo Loc :=
  let n := x.elementSize
  let aligned (d : Dev) (l : Loc) : Dev × Except TrapInfo Loc := (d, if a % n = 0 then .ok l else .error (checkInfo 0x08 .read a lane))
  let t := d.taskAt core slot
  match spaceLevel x.space with
  | .g =>
    if a / 2 ^ 54 ≠ 0 then (d, .error (checkInfo 0x06 .read a lane))
    else
      let r := d.translate { d.slotCtx core slot with spec := spec } .read a
      match r.out with
      | .error f => (r.dev, .error (f.info .read a lane))
      | .ok p => aligned r.dev p.loc
  | .k =>
    let k := bits a 26 0
    if d.hedgeK k (d.core core).world then aligned d { sp := .kmem, own := 0, a := k } else (d, .error (checkInfo 0x07 .read a lane))
  | lv =>
    if d.extent core slot lv < a + n then (d, .error (checkInfo 0x06 .read a lane))
    else
      let gang := match d.task? t with
        | some k => k.gang
        | none => 0
      aligned d (if lv = .s then { sp := .smem, own := t, a := a } else { sp := .cmem, own := gang, a := a })

/-- The places of an entry's lanes; a lane past the walk has none. -/
def Dev.streamPlaces (d : Dev) (core slot : Nat) (x : Stream) (spec : Bool) (e : Nat) : List Nat → Dev × Except TrapInfo (List (Nat × Loc))
  | [] => (d, .ok [])
  | i :: l =>
    match x.laneAddr e i with
    | none => d.streamPlaces core slot x spec e l
    | some a =>
      match d.streamPlace core slot x spec i a with
      | (d1, .error t) => (d1, .error t)
      | (d1, .ok p) =>
        if d1.poisoned p x.elementSize then (if spec then d1 else d1.reportRaw p x.elementSize, .error (checkInfo 0x14 .read a i))
        else match d1.streamPlaces core slot x spec e l with
          | (d2, .error t) => (d2, .error t)
          | (d2, .ok ps) => (d2, .ok ((i, p) :: ps))

/-- An element's bytes widened to 32 bits (R264): zero-extended, sign-extended, or converted to F32. -/
def Stream.widen (x : Stream) (v : Nat) : W32 :=
  let f32 (f : Nat) : W32 := BitVec.ofNat 32 (roundF32 (elemValue f v)).code
  match bits (x.words.getD 5 0).toNat 63 60 with
  | 2 => (BitVec.ofNat 16 v).signExtend 32
  | 4 => (BitVec.ofNat 8 v).signExtend 32
  | 5 => f32 1
  | 6 => f32 2
  | 7 => f32 3
  | 8 => f32 4
  | _ => BitVec.ofNat 32 v

/-- A queue entry from its lanes' places, each read by a function. -/
def Stream.entryOf (x : Stream) (ps : List (Nat × Loc)) (read : Nat × Loc → Nat) : StreamEntry :=
  { vals := (List.range 32).map (fun i => match ps.find? (fun p => decide (p.1 = i)) with
      | some p => x.widen (read p)
      | none => 0)
    lines := (ps.flatMap (fun p => watchLines p.2 x.elementSize)).eraseDups
    stale := false
    marked := false }

/-- The elements of n bytes at some places are decoded, and their lines served to a core (R194, R324, R396). -/
def Dev.servePlaces (d : Dev) (core n : Nat) (ps : List (Nat × Loc)) : Dev :=
  (ps.foldl (fun d p => d.reportRaw p.2 n) d).serveAll core (ps.map (fun p => p.2.entryLine))

/-- An entry that could not be filled. -/
def StreamEntry.blocked : StreamEntry := { vals := [], lines := [], stale := false, marked := true }

/-- Changing a stream of a task. -/
def Dev.modStream (d : Dev) (task ctx : Nat) (f : Stream → Stream) : Dev :=
  d.modTask task (fun t => { t with streams := Tab.modify t.streams ctx f })

/-- The slot of the group that opened a stream, among its task's slots (R265, R268). -/
def Stream.slotIn (x : Stream) (t : Task) : Nat := if x.group = handlerSlot then handlerSlot else t.slots.getD x.group 0

/-- STREAM_FILL (R266): the next entry of a stream whose queue holds fewer than 8 joins it, read speculatively; one that meets a fault, the
hedgerow or a peer's page is marked. -/
def execStreamFill (task ctx : Nat) (s : State) : Out :=
  match s.dev.task? task with
  | none => .next s
  | some t =>
    match Tab.find t.streams ctx with
    | none => .next s
    | some x =>
      let e := x.popped + x.queue.length
      if t.phase ≠ .running ∨ 8 ≤ x.queue.length ∨ x.entries ≤ e then .next s
      else
        let sl := x.slotIn t
        let r := s.dev.streamPlaces t.core sl x true e (List.range 32)
        let (d1, ent) := match r with
          | (d1, .error _) => (d1, StreamEntry.blocked)
          | (d1, .ok ps) =>
            if ps.any (fun p => p.2.isRemote) then (d1, StreamEntry.blocked)
            else
              let d2 := d1.servePlaces t.core x.elementSize ps
              (d2, x.entryOf ps (fun p => d2.seen t.core sl task d2.nextOp p.2 x.elementSize))
        .next { s with dev := d1.modStream task ctx (fun x => { x with queue := x.queue ++ [ent] }) }

/-- Whether words are an issue group that waits for nothing but its queue heads, a given queue's among them: it is legal, its registers are ready, and no queue
it names underflows (R82, R266). -/
def Dev.awaitsHead (d : Dev) (core slot q : Nat) (raw : List W32) : Bool :=
  let is := raw.filterMap decoded
  let heads := is.flatMap headsOf
  packetOk raw && raw.all (d.mayIssue core slot) && modsSuit raw && !(d.group core slot).holdsBack (is.flatMap sourcesOf) (is.flatMap destsOf)
    && heads.contains (120 + q) && heads.all (fun h => decide (d.headState core slot (h - 120) ≠ .underflow))

/-- The split of a group that stands at an issue group which waits for nothing but to pop a queue, and where (R82, R110). -/
def Dev.popper (d : Dev) (core slot q : Nat) : Option (Nat × Split × Pos) :=
  if !d.groupRuns core slot then none
  else ((d.group core slot).splits.zipIdx).findSome? (fun p => match p.1 with
    | none => none
    | some x =>
      if x.park ≠ .running then none
      else match (d.standsAt core slot x).2 with
        | .error _ => none
        | .ok pos => match (d.fetchPacket core slot pos.pc).2 with
          | .ok ws =>
            let raw := runOf (ws.drop pos.word)
            if x.rest ≤ d.now (clusterOf core) ∧ (d.missing core slot pos.pc).isEmpty ∧ d.awaitsHead core slot q raw ∧ d.roomFor core slot x pos raw
            then some (p.2, x, pos) else none
          | .error _ => none)

/-- The head of a queue replaced by an entry read for its pop. -/
def Stream.reloaded (x : Stream) (e : StreamEntry) : Stream := { x with queue := e :: x.queue.tail }

/-- The reload of the head entry of a stream for the word that pops it (R266, R267): what a load would meet, it meets; elements on a peer's
pages are asked for, and the entry comes with their replies. -/
def Dev.reload (d : Dev) (task ctx : Nat) (t : Task) (x : Stream) (sp : Nat) (y : Split) (pos : Pos) : Dev :=
  let c := t.core
  let sl := x.slotIn t
  let stop (d : Dev) (i : TrapInfo) : Dev := (if y.skip then d.moveSplit c sl sp pos else d).raiseTrap c sl sp y.mask pos i
  let n := x.elementSize
  match d.ops.find? (fun o => decide (o.2.task = task ∧ o.2.kind = .stream ctx)) with
  | some (k, o) =>
    if o.st = .ended then
      let d1 := { d with ops := Tab.erase d.ops k }
      match (d.group c sl).failureOf k with
      | some f => stop (d1.modGroup c sl (fun g => g.dropFailure f)) f.tr.info
      | none => d1
    else if o.parts.all (fun p => p.done) then
      let ps := o.parts.map (fun p => (p.lane, p.loc))
      let d1 := d.servePlaces c n (ps.filter (fun p => !p.2.isRemote))
      let read (p : Nat × Loc) : Nat :=
        if p.2.isRemote then ((o.parts.find? (fun (q : LanePart) => decide (q.lane = p.1))).getD default).data.toNat % 256 ^ n
        else d1.seen c sl task k p.2 n
      ({ d1 with ops := Tab.erase d1.ops k }).modStream task ctx (fun x => x.reloaded (x.entryOf ps read))
    else d
  | none =>
    match d.streamPlaces c sl x false x.popped (List.range 32) with
    | (d1, .error i) => stop d1 i
    | (d1, .ok ps) =>
      if ps.any (fun p => d1.engineHolds p.2 n) then d1
      else if ps.any (fun p => p.2.isRemote) then
        let k := d1.nextOp
        let parts := ps.map (fun p => ({ lane := p.1, loc := p.2, addr := (x.laneAddr x.popped p.1).getD 0, n := n, data := 0, done := !p.2.isRemote } : LanePart))
        let o : Op :=
          { core := c, slot := sl, task := task, ctr := .cl, kind := .stream ctx, parts := parts, scope := bits (x.words.getD 5 0).toNat 57 55,
            tent := false, pos := pos, st := .going, waits := [], held := [] }
        ({ d1 with ops := Tab.insert d1.ops k o, nextOp := k + 1 }).sendParts k 0 parts
      else
        let d2 := d1.servePlaces c n ps
        d2.modStream task ctx (fun x => x.reloaded (x.entryOf ps (fun p => d2.seen c sl task d2.nextOp p.2 n)))

/-- STREAM_RELOAD (R267): a stale or marked head entry that a word waits to pop is read anew, not speculatively. -/
def execStreamReload (task ctx : Nat) (s : State) : Out :=
  match s.dev.task? task with
  | none => .next s
  | some t =>
    match Tab.find t.streams ctx with
    | none => .next s
    | some x =>
      let due := match x.queue with
        | e :: _ => (e.stale || e.marked) && !s.dev.storeNear t.core (x.slotIn t) e
        | [] => false
      match s.dev.popper t.core (x.slotIn t) (streamQueue x.words) with
      | some (sp, y, pos) => .next (if due then s.modDev (fun d => d.reload task ctx t x sp y pos) else s)
      | none => .next s

end Sys2Proof.Machine
end

