-- ==== Sys2Proof/Machine/Dispatch.lean ====
section
/-! DEFINITION. exec: one arm for each constructor of Instr, each a call of that instruction's own meaning. -/

namespace Sys2Proof.Machine

/-- What one instruction or step does to a state. -/
def exec (i : Instr) (s : State) : Host.Outcome State Fault Refusal :=
  match i with
  | .modArithmetic g e r t l n m a b k => Sys2Proof.Machine.execModArithmetic g e r t l n m a b k s
  | .modMemory g e sr h o => Sys2Proof.Machine.execModMemory g e sr h o s
  | .jmpi a => Sys2Proof.Machine.execJmpi a s
  | .calli a => Sys2Proof.Machine.execCalli a s
  | .trap t => Sys2Proof.Machine.execTrap t s
  | .elect d => Sys2Proof.Machine.execElect d s
  | .probe d => Sys2Proof.Machine.execProbe d s
  | .brf sr f o => Sys2Proof.Machine.execBrf sr f o s
  | .bra o => Sys2Proof.Machine.execBra o s
  | .brv sr p o => Sys2Proof.Machine.execBrv sr p o s
  | .call o => Sys2Proof.Machine.execCall o s
  | .loop d im => Sys2Proof.Machine.execLoop d im s
  | .waitc l sr p t => Sys2Proof.Machine.execWaitc l sr p t s
  | .sadd d a b => Sys2Proof.Machine.execSadd d a b s
  | .ssub d a b => Sys2Proof.Machine.execSsub d a b s
  | .smul d a b => Sys2Proof.Machine.execSmul d a b s
  | .sand d a b => Sys2Proof.Machine.execSand d a b s
  | .sor d a b => Sys2Proof.Machine.execSor d a b s
  | .sxor d a b => Sys2Proof.Machine.execSxor d a b s
  | .sandn d a b => Sys2Proof.Machine.execSandn d a b s
  | .sshl d a b => Sys2Proof.Machine.execSshl d a b s
  | .sshr d a b => Sys2Proof.Machine.execSshr d a b s
  | .ssra d a b => Sys2Proof.Machine.execSsra d a b s
  | .smin d a b => Sys2Proof.Machine.execSmin d a b s
  | .smax d a b => Sys2Proof.Machine.execSmax d a b s
  | .smov d a => Sys2Proof.Machine.execSmov d a s
  | .ssel d a b f => Sys2Proof.Machine.execSsel d a b f s
  | .sli d k im => Sys2Proof.Machine.execSli d k im s
  | .scmp n f a b => Sys2Proof.Machine.execScmp n f a b s
  | .saddi d a im => Sys2Proof.Machine.execSaddi d a im s
  | .rdspc d n => Sys2Proof.Machine.execRdspc d n s
  | .wrspc a n => Sys2Proof.Machine.execWrspc a n s
  | .vtos d p => Sys2Proof.Machine.execVtos d p s
  | .stov p a => Sys2Proof.Machine.execStov p a s
  | .ballot d p => Sys2Proof.Machine.execBallot d p s
  | .vote f p m => Sys2Proof.Machine.execVote f p m s
  | .sigchk im => Sys2Proof.Machine.execSigchk im s
  | .iadd d a b => Sys2Proof.Machine.execIadd d a b s
  | .isub d a b => Sys2Proof.Machine.execIsub d a b s
  | .iaddc d a b => Sys2Proof.Machine.execIaddc d a b s
  | .isubb d a b => Sys2Proof.Machine.execIsubb d a b s
  | .imul d a b => Sys2Proof.Machine.execImul d a b s
  | .imulhI d a b => Sys2Proof.Machine.execImulhI d a b s
  | .imulhN d a b => Sys2Proof.Machine.execImulhN d a b s
  | .imad d a b => Sys2Proof.Machine.execImad d a b s
  | .iminI d a b => Sys2Proof.Machine.execIminI d a b s
  | .iminN d a b => Sys2Proof.Machine.execIminN d a b s
  | .imaxI d a b => Sys2Proof.Machine.execImaxI d a b s
  | .imaxN d a b => Sys2Proof.Machine.execImaxN d a b s
  | .iabsd d a b => Sys2Proof.Machine.execIabsd d a b s
  | .popc d a => Sys2Proof.Machine.execPopc d a s
  | .clz d a => Sys2Proof.Machine.execClz d a s
  | .brev d a => Sys2Proof.Machine.execBrev d a s
  | .and d a b => Sys2Proof.Machine.execAnd d a b s
  | .or d a b => Sys2Proof.Machine.execOr d a b s
  | .xor d a b => Sys2Proof.Machine.execXor d a b s
  | .andn d a b => Sys2Proof.Machine.execAndn d a b s
  | .orn d a b => Sys2Proof.Machine.execOrn d a b s
  | .xnor d a b => Sys2Proof.Machine.execXnor d a b s
  | .shl d a b => Sys2Proof.Machine.execShl d a b s
  | .shr d a b => Sys2Proof.Machine.execShr d a b s
  | .sra d a b => Sys2Proof.Machine.execSra d a b s
  | .rotl d a b => Sys2Proof.Machine.execRotl d a b s
  | .bfeI d a b => Sys2Proof.Machine.execBfeI d a b s
  | .bfeN d a b => Sys2Proof.Machine.execBfeN d a b s
  | .bfi d a b => Sys2Proof.Machine.execBfi d a b s
  | .mov d a => Sys2Proof.Machine.execMov d a s
  | .iaddi d a im => Sys2Proof.Machine.execIaddi d a im s
  | .imuli d a im => Sys2Proof.Machine.execImuli d a im s
  | .andi d a im => Sys2Proof.Machine.execAndi d a im s
  | .ori d a im => Sys2Proof.Machine.execOri d a im s
  | .xori d a im => Sys2Proof.Machine.execXori d a im s
  | .shli d a sr => Sys2Proof.Machine.execShli d a sr s
  | .shri d a sr => Sys2Proof.Machine.execShri d a sr s
  | .srai d a sr => Sys2Proof.Machine.execSrai d a sr s
  | .rotli d a sr => Sys2Proof.Machine.execRotli d a sr s
  | .icmp n p a b => Sys2Proof.Machine.execIcmp n p a b s
  | .fcmp n p a b => Sys2Proof.Machine.execFcmp n p a b s
  | .movi d im => Sys2Proof.Machine.execMovi d im s
  | .moviHi d im => Sys2Proof.Machine.execMoviHi d im s
  | .moviF16 d im => Sys2Proof.Machine.execMoviF16 d im s
  | .moviBf16 d im => Sys2Proof.Machine.execMoviBf16 d im s
  | .fadd d a b => Sys2Proof.Machine.execFadd d a b s
  | .fsub d a b => Sys2Proof.Machine.execFsub d a b s
  | .fmul d a b => Sys2Proof.Machine.execFmul d a b s
  | .ffma d a b => Sys2Proof.Machine.execFfma d a b s
  | .fmin d a b => Sys2Proof.Machine.execFmin d a b s
  | .fmax d a b => Sys2Proof.Machine.execFmax d a b s
  | .fminm d a b => Sys2Proof.Machine.execFminm d a b s
  | .fmaxm d a b => Sys2Proof.Machine.execFmaxm d a b s
  | .fclass d a => Sys2Proof.Machine.execFclass d a s
  | .frcp d a => Sys2Proof.Machine.execFrcp d a s
  | .fsqrt d a => Sys2Proof.Machine.execFsqrt d a s
  | .frsq d a => Sys2Proof.Machine.execFrsq d a s
  | .fexp2 d a => Sys2Proof.Machine.execFexp2 d a s
  | .flog2 d a => Sys2Proof.Machine.execFlog2 d a s
  | .faddF16x2 d a b => Sys2Proof.Machine.execFaddF16x2 d a b s
  | .faddBf16x2 d a b => Sys2Proof.Machine.execFaddBf16x2 d a b s
  | .fsubF16x2 d a b => Sys2Proof.Machine.execFsubF16x2 d a b s
  | .fsubBf16x2 d a b => Sys2Proof.Machine.execFsubBf16x2 d a b s
  | .fmulF16x2 d a b => Sys2Proof.Machine.execFmulF16x2 d a b s
  | .fmulBf16x2 d a b => Sys2Proof.Machine.execFmulBf16x2 d a b s
  | .ffmaF16x2 d a b => Sys2Proof.Machine.execFfmaF16x2 d a b s
  | .ffmaBf16x2 d a b => Sys2Proof.Machine.execFfmaBf16x2 d a b s
  | .fminF16x2 d a b => Sys2Proof.Machine.execFminF16x2 d a b s
  | .fminBf16x2 d a b => Sys2Proof.Machine.execFminBf16x2 d a b s
  | .fmaxF16x2 d a b => Sys2Proof.Machine.execFmaxF16x2 d a b s
  | .fmaxBf16x2 d a b => Sys2Proof.Machine.execFmaxBf16x2 d a b s
  | .idot4I8 d a b => Sys2Proof.Machine.execIdot4I8 d a b s
  | .idot4N8 d a b => Sys2Proof.Machine.execIdot4N8 d a b s
  | .idot4In d a b => Sys2Proof.Machine.execIdot4In d a b s
  | .fdot2F16 d a b => Sys2Proof.Machine.execFdot2F16 d a b s
  | .fdot2Bf16 d a b => Sys2Proof.Machine.execFdot2Bf16 d a b s
  | .ldot4L6 d a b => Sys2Proof.Machine.execLdot4L6 d a b s
  | .cvt x d a sr => Sys2Proof.Machine.execCvt x d a sr s
  | .cvtsF32F8a d a b => Sys2Proof.Machine.execCvtsF32F8a d a b s
  | .cvtsF32F8b d a b => Sys2Proof.Machine.execCvtsF32F8b d a b s
  | .cvtsF32L6 d a b => Sys2Proof.Machine.execCvtsF32L6 d a b s
  | .cvtsF8aF32 d a b => Sys2Proof.Machine.execCvtsF8aF32 d a b s
  | .cvtsF8bF32 d a b => Sys2Proof.Machine.execCvtsF8bF32 d a b s
  | .cvtsL6F32 d a b => Sys2Proof.Machine.execCvtsL6F32 d a b s
  | .sel d a b => Sys2Proof.Machine.execSel d a b s
  | .pand d a b => Sys2Proof.Machine.execPand d a b s
  | .por d a b => Sys2Proof.Machine.execPor d a b s
  | .pxor d a b => Sys2Proof.Machine.execPxor d a b s
  | .pnot d a => Sys2Proof.Machine.execPnot d a s
  | .pmov d a => Sys2Proof.Machine.execPmov d a s
  | .lxchPick d a b => Sys2Proof.Machine.execLxchPick d a b s
  | .lxchRot d a b => Sys2Proof.Machine.execLxchRot d a b s
  | .lxchSlide d a b => Sys2Proof.Machine.execLxchSlide d a b s
  | .lxchRev d a b => Sys2Proof.Machine.execLxchRev d a b s
  | .qswx d a => Sys2Proof.Machine.execQswx d a s
  | .qswy d a => Sys2Proof.Machine.execQswy d a s
  | .qswd d a => Sys2Proof.Machine.execQswd d a s
  | .qbcast d a n => Sys2Proof.Machine.execQbcast d a n s
  | .gredAddI d a => Sys2Proof.Machine.execGredAddI d a s
  | .gredAddF d a => Sys2Proof.Machine.execGredAddF d a s
  | .gredMinI d a => Sys2Proof.Machine.execGredMinI d a s
  | .gredMinF d a => Sys2Proof.Machine.execGredMinF d a s
  | .gredMaxI d a => Sys2Proof.Machine.execGredMaxI d a s
  | .gredMaxF d a => Sys2Proof.Machine.execGredMaxF d a s
  | .gscanAddI d a => Sys2Proof.Machine.execGscanAddI d a s
  | .gscanAddF d a => Sys2Proof.Machine.execGscanAddF d a s
  | .xferGet d a b => Sys2Proof.Machine.execXferGet d a b s
  | .xferFirst d a => Sys2Proof.Machine.execXferFirst d a s
  | .xferPut d a n => Sys2Proof.Machine.execXferPut d a n s
  | .ldP z d sr v x => Sys2Proof.Machine.execLdP z d sr v x s
  | .stP z d sr v x => Sys2Proof.Machine.execStP z d sr v x s
  | .ldS z d sr v x => Sys2Proof.Machine.execLdS z d sr v x s
  | .stS z d sr v x => Sys2Proof.Machine.execStS z d sr v x s
  | .ldC z d sr v x => Sys2Proof.Machine.execLdC z d sr v x s
  | .stC z d sr v x => Sys2Proof.Machine.execStC z d sr v x s
  | .ldK z d sr v x => Sys2Proof.Machine.execLdK z d sr v x s
  | .stK z d sr v x => Sys2Proof.Machine.execStK z d sr v x s
  | .ldG z d sr v x => Sys2Proof.Machine.execLdG z d sr v x s
  | .stG z d sr v x => Sys2Proof.Machine.execStG z d sr v x s
  | .atomAdd d sr v => Sys2Proof.Machine.execAtomAdd d sr v s
  | .atomMinI d sr v => Sys2Proof.Machine.execAtomMinI d sr v s
  | .atomMinN d sr v => Sys2Proof.Machine.execAtomMinN d sr v s
  | .atomMaxI d sr v => Sys2Proof.Machine.execAtomMaxI d sr v s
  | .atomMaxN d sr v => Sys2Proof.Machine.execAtomMaxN d sr v s
  | .atomAnd d sr v => Sys2Proof.Machine.execAtomAnd d sr v s
  | .atomOr d sr v => Sys2Proof.Machine.execAtomOr d sr v s
  | .atomXor d sr v => Sys2Proof.Machine.execAtomXor d sr v s
  | .atomXchg d sr v => Sys2Proof.Machine.execAtomXchg d sr v s
  | .atomAddF32 d sr v => Sys2Proof.Machine.execAtomAddF32 d sr v s
  | .atomCas d sr v => Sys2Proof.Machine.execAtomCas d sr v s
  | .redAdd d sr v => Sys2Proof.Machine.execRedAdd d sr v s
  | .redMinI d sr v => Sys2Proof.Machine.execRedMinI d sr v s
  | .redMinN d sr v => Sys2Proof.Machine.execRedMinN d sr v s
  | .redMaxI d sr v => Sys2Proof.Machine.execRedMaxI d sr v s
  | .redMaxN d sr v => Sys2Proof.Machine.execRedMaxN d sr v s
  | .redAnd d sr v => Sys2Proof.Machine.execRedAnd d sr v s
  | .redOr d sr v => Sys2Proof.Machine.execRedOr d sr v s
  | .redXor d sr v => Sys2Proof.Machine.execRedXor d sr v s
  | .redAddF32 d sr v => Sys2Proof.Machine.execRedAddF32 d sr v s
  | .ldu d sr => Sys2Proof.Machine.execLdu d sr s
  | .stu d sr => Sys2Proof.Machine.execStu d sr s
  | .lda d sr v x => Sys2Proof.Machine.execLda d sr v x s
  | .sta d sr v x => Sys2Proof.Machine.execSta d sr v x s
  | .prefL1 sr v x => Sys2Proof.Machine.execPrefL1 sr v x s
  | .prefL2 sr v x => Sys2Proof.Machine.execPrefL2 sr v x s
  | .acqld d sr v x => Sys2Proof.Machine.execAcqld d sr v x s
  | .relst d sr v x => Sys2Proof.Machine.execRelst d sr v x s
  | .barw sr => Sys2Proof.Machine.execBarw sr s
  | .bara d sr => Sys2Proof.Machine.execBara d sr s
  | .bart a sr => Sys2Proof.Machine.execBart a sr s
  | .marm sr => Sys2Proof.Machine.execMarm sr s
  | .mwaitNe d sr => Sys2Proof.Machine.execMwaitNe d sr s
  | .mwaitGe d sr => Sys2Proof.Machine.execMwaitGe d sr s
  | .adecl im sr l => Sys2Proof.Machine.execAdecl im sr l s
  | .astat d => Sys2Proof.Machine.execAstat d s
  | .mma t a b n m e sr r => Sys2Proof.Machine.execMma t a b n m e sr r s
  | .mres d a h => Sys2Proof.Machine.execMres d a h s
  | .mrel h => Sys2Proof.Machine.execMrel h s
  | .mlda h a b => Sys2Proof.Machine.execMlda h a b s
  | .mldb h a b => Sys2Proof.Machine.execMldb h a b s
  | .mshape sr a => Sys2Proof.Machine.execMshape sr a s
  | .mzero t => Sys2Proof.Machine.execMzero t s
  | .mtld t a b => Sys2Proof.Machine.execMtld t a b s
  | .mtst t a b => Sys2Proof.Machine.execMtst t a b s
  | .mtrv d t b => Sys2Proof.Machine.execMtrv d t b s
  | .mtwv t a b => Sys2Proof.Machine.execMtwv t a b s
  | .mhint a => Sys2Proof.Machine.execMhint a s
  | .mxcntExceptions d r => Sys2Proof.Machine.execMxcntExceptions d r s
  | .mxcntPrune d r => Sys2Proof.Machine.execMxcntPrune d r s
  | .mpair d => Sys2Proof.Machine.execMpair d s
  | .cqinit d a => Sys2Proof.Machine.execCqinit d a s
  | .cqpush d a => Sys2Proof.Machine.execCqpush d a s
  | .cqpub d a => Sys2Proof.Machine.execCqpub d a s
  | .cqstage a => Sys2Proof.Machine.execCqstage a s
  | .cqwptr d a => Sys2Proof.Machine.execCqwptr d a s
  | .cqstat d => Sys2Proof.Machine.execCqstat d s
  | .lprog d a n => Sys2Proof.Machine.execLprog d a n s
  | .sopen d a n => Sys2Proof.Machine.execSopen d a n s
  | .sclose n => Sys2Proof.Machine.execSclose n s
  | .sskip a n => Sys2Proof.Machine.execSskip a n s
  | .sstat d n => Sys2Proof.Machine.execSstat d n s
  | .lnch d a => Sys2Proof.Machine.execLnch d a s
  | .mbindBind d a b => Sys2Proof.Machine.execMbindBind d a b s
  | .mboxqRead d a => Sys2Proof.Machine.execMboxqRead d a s
  | .qcfgConfigure d a b => Sys2Proof.Machine.execQcfgConfigure d a b s
  | .grd d a => Sys2Proof.Machine.execGrd d a s
  | .gwr a b => Sys2Proof.Machine.execGwr a b s
  | .gstat d a => Sys2Proof.Machine.execGstat d a s
  | .gresume a b => Sys2Proof.Machine.execGresume a b s
  | .gkill a => Sys2Proof.Machine.execGkill a s
  | .tlbiPage a b => Sys2Proof.Machine.execTlbiPage a b s
  | .tkstat d a => Sys2Proof.Machine.execTkstat d a s
  | .wlatchRead d a => Sys2Proof.Machine.execWlatchRead d a s
  | .diagst k a b => Sys2Proof.Machine.execDiagst k a b s
  | .diagld d a => Sys2Proof.Machine.execDiagld d a s
  | .boostGrant d a b => Sys2Proof.Machine.execBoostGrant d a b s
  | .lbrd d a => Sys2Proof.Machine.execLbrd d a s
  | .wrecrd d a => Sys2Proof.Machine.execWrecrd d a s
  | .lifeset d a => Sys2Proof.Machine.execLifeset d a s
  | .eqrd d a => Sys2Proof.Machine.execEqrd d a s
  | .rdnBegin d => Sys2Proof.Machine.execRdnBegin d s
  | .sigrd d a => Sys2Proof.Machine.execSigrd d a s
  | .nop => Sys2Proof.Machine.execNop s
  | .exit => Sys2Proof.Machine.execExit s
  | .ret => Sys2Proof.Machine.execRet s
  | .join => Sys2Proof.Machine.execJoin s
  | .yld => Sys2Proof.Machine.execYld s
  | .tret => Sys2Proof.Machine.execTret s
  | .airrev => Sys2Proof.Machine.execAirrev s
  | .rdnCkpt => Sys2Proof.Machine.execRdnCkpt s
  | .rdnEnd => Sys2Proof.Machine.execRdnEnd s
  | .mbindUnbind d a b => Sys2Proof.Machine.execMbindUnbind d a b s
  | .mboxqClearOverflow d a => Sys2Proof.Machine.execMboxqClearOverflow d a s
  | .mboxqDiscardPending d a => Sys2Proof.Machine.execMboxqDiscardPending d a s
  | .qcfgDisable d a b => Sys2Proof.Machine.execQcfgDisable d a b s
  | .qcfgMask d a b => Sys2Proof.Machine.execQcfgMask d a b s
  | .qcfgRead d a b => Sys2Proof.Machine.execQcfgRead d a b s
  | .tlbiAsn a b => Sys2Proof.Machine.execTlbiAsn a b s
  | .tlbiWorld a b => Sys2Proof.Machine.execTlbiWorld a b s
  | .tlbiAll a b => Sys2Proof.Machine.execTlbiAll a b s
  | .wlatchSet d a => Sys2Proof.Machine.execWlatchSet d a s
  | .boostEnd d a b => Sys2Proof.Machine.execBoostEnd d a b s
  | .issueGroup core port => Sys2Proof.Machine.execIssueGroup core port s
  | .waitCountPromotion core slot split => Sys2Proof.Machine.execWaitCountPromotion core slot split s
  | .reconvergenceStackPop core slot => Sys2Proof.Machine.execReconvergenceStackPop core slot s
  | .splitMerge core slot => Sys2Proof.Machine.execSplitMerge core slot s
  | .joinRelease core slot => Sys2Proof.Machine.execJoinRelease core slot s
  | .groupSlotRelease core slot => Sys2Proof.Machine.execGroupSlotRelease core slot s
  | .loadValueBound op => Sys2Proof.Machine.execLoadValueBound op s
  | .storePerformed op => Sys2Proof.Machine.execStorePerformed op s
  | .counterEnd core slot ctr => Sys2Proof.Machine.execCounterEnd core slot ctr s
  | .waitcRelease core slot split => Sys2Proof.Machine.execWaitcRelease core slot split s
  | .barrierRelease core slot split => Sys2Proof.Machine.execBarrierRelease core slot split s
  | .monitorWake core slot split => Sys2Proof.Machine.execMonitorWake core slot split s
  | .monitorRemoteReread core slot split => Sys2Proof.Machine.execMonitorRemoteReread core slot split s
  | .engineRecall cluster chan => Sys2Proof.Machine.execEngineRecall cluster chan s
  | .atomicSetWaitAcquire task => Sys2Proof.Machine.execAtomicSetWaitAcquire task s
  | .taskRestart task => Sys2Proof.Machine.execTaskRestart task s
  | .taskCommit task => Sys2Proof.Machine.execTaskCommit task s
  | .irrevocableTokenGrant world => Sys2Proof.Machine.execIrrevocableTokenGrant world s
  | .activeSetEntryFree task => Sys2Proof.Machine.execActiveSetEntryFree task s
  | .matrixEntryStart core entry => Sys2Proof.Machine.execMatrixEntryStart core entry s
  | .pairArbiterGrant pair => Sys2Proof.Machine.execPairArbiterGrant pair s
  | .mmaOccupancyEnd pair => Sys2Proof.Machine.execMmaOccupancyEnd pair s
  | .mmaRetire core entry => Sys2Proof.Machine.execMmaRetire core entry s
  | .tileOpRetire core entry => Sys2Proof.Machine.execTileOpRetire core entry s
  | .reservationClearDone core => Sys2Proof.Machine.execReservationClearDone core s
  | .hintRequestTime pair => Sys2Proof.Machine.execHintRequestTime pair s
  | .slewWindowBegin cluster => Sys2Proof.Machine.execSlewWindowBegin cluster s
  | .rampStepEnd pair => Sys2Proof.Machine.execRampStepEnd pair s
  | .holdExpiry pair => Sys2Proof.Machine.execHoldExpiry pair s
  | .copyAccept cluster => Sys2Proof.Machine.execCopyAccept cluster s
  | .copyComplete cluster chan => Sys2Proof.Machine.execCopyComplete cluster chan s
  | .streamFill task ctx => Sys2Proof.Machine.execStreamFill task ctx s
  | .streamReload task ctx => Sys2Proof.Machine.execStreamReload task ctx s
  | .pageWalk core slot va kind => Sys2Proof.Machine.execPageWalk core slot va kind s
  | .remoteAccessArrival m => Sys2Proof.Machine.execRemoteAccessArrival m s
  | .readData tag data => Sys2Proof.Machine.execReadData tag data s
  | .writeAck tag => Sys2Proof.Machine.execWriteAck tag s
  | .ticketReply tag tkt => Sys2Proof.Machine.execTicketReply tag tkt s
  | .busy tag => Sys2Proof.Machine.execBusy tag s
  | .busyResend tag => Sys2Proof.Machine.execBusyResend tag s
  | .ticketTableFullResend tag => Sys2Proof.Machine.execTicketTableFullResend tag s
  | .ticketPost win word => Sys2Proof.Machine.execTicketPost win word s
  | .replayNotice tkt => Sys2Proof.Machine.execReplayNotice tkt s
  | .requesterTicketTimeout die entry => Sys2Proof.Machine.execRequesterTicketTimeout die entry s
  | .ownerTicketTimeout id => Sys2Proof.Machine.execOwnerTicketTimeout id s
  | .remoteResponseTimeout tag => Sys2Proof.Machine.execRemoteResponseTimeout tag s
  | .noticeRetentionExpiry tkt => Sys2Proof.Machine.execNoticeRetentionExpiry tkt s
  | .tagRetentionExpiry peer tag => Sys2Proof.Machine.execTagRetentionExpiry peer tag s
  | .flitTransmit link vc => Sys2Proof.Machine.execFlitTransmit link vc s
  | .flitReceive link f => Sys2Proof.Machine.execFlitReceive link f s
  | .creditReturn link vc n => Sys2Proof.Machine.execCreditReturn link vc n s
  | .filler link => Sys2Proof.Machine.execFiller link s
  | .retryReplayTimeout link => Sys2Proof.Machine.execRetryReplayTimeout link s
  | .laneLockLoss link lane => Sys2Proof.Machine.execLaneLockLoss link lane s
  | .correctedSymbolThreshold link lane rate => Sys2Proof.Machine.execCorrectedSymbolThreshold link lane rate s
  | .retrainStepComplete link trained => Sys2Proof.Machine.execRetrainStepComplete link trained s
  | .heartbeatSend session => Sys2Proof.Machine.execHeartbeatSend session s
  | .heartbeat session => Sys2Proof.Machine.execHeartbeat session s
  | .heartbeatTimeout session => Sys2Proof.Machine.execHeartbeatTimeout session s
  | .flitCounterExhaustion link => Sys2Proof.Machine.execFlitCounterExhaustion link s
  | .linkSecretTimeout link => Sys2Proof.Machine.execLinkSecretTimeout link s
  | .keyPromote world link => Sys2Proof.Machine.execKeyPromote world link s
  | .reencryptionSweep world port => Sys2Proof.Machine.execReencryptionSweep world port s
  | .dispatch => Sys2Proof.Machine.execDispatch s
  | .dependenceCheck grid => Sys2Proof.Machine.execDependenceCheck grid s
  | .gridDoneWrite grid => Sys2Proof.Machine.execGridDoneWrite grid s
  | .mailboxArrival binding => Sys2Proof.Machine.execMailboxArrival binding s
  | .handlerAccept binding => Sys2Proof.Machine.execHandlerAccept binding s
  | .migrationPeriodEnd => Sys2Proof.Machine.execMigrationPeriodEnd s
  | .lineMigrate frame => Sys2Proof.Machine.execLineMigrate frame s
  | .handlerActivation core => Sys2Proof.Machine.execHandlerActivation core s
  | .preemptionDeadline task => Sys2Proof.Machine.execPreemptionDeadline task s
  | .cooperativeSave task => Sys2Proof.Machine.execCooperativeSave task s
  | .forcedSaveComplete cluster => Sys2Proof.Machine.execForcedSaveComplete cluster s
  | .shadowPlaceRelease die place => Sys2Proof.Machine.execShadowPlaceRelease die place s
  | .waitProbe core slot split => Sys2Proof.Machine.execWaitProbe core slot split s
  | .probeForward probe => Sys2Proof.Machine.execProbeForward probe s
  | .wearSample inputs watts => Sys2Proof.Machine.execWearSample inputs watts s
  | .recordCommit unit => Sys2Proof.Machine.execRecordCommit unit s
  | .fallowEntry cluster => Sys2Proof.Machine.execFallowEntry cluster s
  | .fallowWake cluster => Sys2Proof.Machine.execFallowWake cluster s
  | .callupPowerupDone die => Sys2Proof.Machine.execCallupPowerupDone die s
  | .callupSelftestDone die pass => Sys2Proof.Machine.execCallupSelftestDone die pass s
  | .callupSave die => Sys2Proof.Machine.execCallupSave die s
  | .callupMapUpdate die => Sys2Proof.Machine.execCallupMapUpdate die s
  | .boostGrantEnd grant => Sys2Proof.Machine.execBoostGrantEnd grant s
  | .drainWindowOpen change => Sys2Proof.Machine.execDrainWindowOpen change s
  | .frequencySwitch change => Sys2Proof.Machine.execFrequencySwitch change s
  | .frequencyResume change => Sys2Proof.Machine.execFrequencyResume change s
  | .timeSyncPulse => Sys2Proof.Machine.execTimeSyncPulse s
  | .currentWindow pair ia ib => Sys2Proof.Machine.execCurrentWindow pair ia ib s
  | .energyMeasure cluster uj fillerUj => Sys2Proof.Machine.execEnergyMeasure cluster uj fillerUj s
  | .timeBudgetPeriod => Sys2Proof.Machine.execTimeBudgetPeriod s
  | .supplyLossWarning => Sys2Proof.Machine.execSupplyLossWarning s
  | .fastThrottleAlarm => Sys2Proof.Machine.execFastThrottleAlarm s
  | .fastThrottleClear => Sys2Proof.Machine.execFastThrottleClear s
  | .gatingCommitWindowEnd cluster => Sys2Proof.Machine.execGatingCommitWindowEnd cluster s
  | .worldLatchClearDone core => Sys2Proof.Machine.execWorldLatchClearDone core s
  | .correctedError site => Sys2Proof.Machine.execCorrectedError site s
  | .targetedSelfTest die failed => Sys2Proof.Machine.execTargetedSelfTest die failed s
  | .uncorrectableError site => Sys2Proof.Machine.execUncorrectableError site s
  | .scrub stack => Sys2Proof.Machine.execScrub stack s
  | .checkpoint core slot => Sys2Proof.Machine.execCheckpoint core slot s
  | .reset => Sys2Proof.Machine.execReset s
  | .bringupStageComplete ok => Sys2Proof.Machine.execBringupStageComplete ok s
  | .hostMemoryRequest m => Sys2Proof.Machine.execHostMemoryRequest m s
  | .hostAtomicop m op => Sys2Proof.Machine.execHostAtomicop m op s
  | .hostConfigRequest fn reg wr => Sys2Proof.Machine.execHostConfigRequest fn reg wr s
  | .getMeasurements nonce world => Sys2Proof.Machine.execGetMeasurements nonce world s
  | .keyExchange session slot key => Sys2Proof.Machine.execKeyExchange session slot key s
  | .finish session => Sys2Proof.Machine.execFinish session s
  | .keyUpdate link secret => Sys2Proof.Machine.execKeyUpdate link secret s
  | .endSession session => Sys2Proof.Machine.execEndSession session s
  | .lock session => Sys2Proof.Machine.execLock session s
  | .start session ecdsaOk mldsaOk => Sys2Proof.Machine.execStart session ecdsaOk mldsaOk s
  | .stop session => Sys2Proof.Machine.execStop session s
  | .sessionConfigWrite session => Sys2Proof.Machine.execSessionConfigWrite session s
  | .mgmtReadAbjstat c => Sys2Proof.Machine.execMgmtReadAbjstat c s
  | .mgmtReadErrorLog c => Sys2Proof.Machine.execMgmtReadErrorLog c s
  | .mgmtReadTimeBudget c => Sys2Proof.Machine.execMgmtReadTimeBudget c s
  | .mgmtReadMixedAtomicCounter c => Sys2Proof.Machine.execMgmtReadMixedAtomicCounter c s
  | .mgmtReadParameter c => Sys2Proof.Machine.execMgmtReadParameter c s
  | .mgmtReadFrameWorldEntry c => Sys2Proof.Machine.execMgmtReadFrameWorldEntry c s
  | .mgmtReadRouteEntry c => Sys2Proof.Machine.execMgmtReadRouteEntry c s
  | .setTimeBudget c => Sys2Proof.Machine.execSetTimeBudget c s
  | .frameAssign c => Sys2Proof.Machine.execFrameAssign c s
  | .frameUnassign c => Sys2Proof.Machine.execFrameUnassign c s
  | .setHandlerTableEntry c => Sys2Proof.Machine.execSetHandlerTableEntry c s
  | .killWaitCycle c => Sys2Proof.Machine.execKillWaitCycle c s
  | .reformatFrameGranule c => Sys2Proof.Machine.execReformatFrameGranule c s
  | .setRouteTable c => Sys2Proof.Machine.execSetRouteTable c s
  | .setAttestationPolicy c => Sys2Proof.Machine.execSetAttestationPolicy c s
  | .setOwnerWindow c => Sys2Proof.Machine.execSetOwnerWindow c s
  | .setPortConfiguration c => Sys2Proof.Machine.execSetPortConfiguration c s
  | .postTicketOutcome c => Sys2Proof.Machine.execPostTicketOutcome c s
  | .installBootBinding c => Sys2Proof.Machine.execInstallBootBinding c s
  | .setParameter c => Sys2Proof.Machine.execSetParameter c s
  | .mgmtPreemptionRequest c => Sys2Proof.Machine.execMgmtPreemptionRequest c s
  | .mgmtPreemptionWithdraw c => Sys2Proof.Machine.execMgmtPreemptionWithdraw c s
  | .resetPort c => Sys2Proof.Machine.execResetPort c s
  | .mgmtUnassignedOp c => Sys2Proof.Machine.execMgmtUnassignedOp c s
  | .instructionFetch core pa spec => Sys2Proof.Machine.execInstructionFetch core pa spec s
  | .cxlCompleterAck op => Sys2Proof.Machine.execCxlCompleterAck op s
  | .allotmentClearDone task => Sys2Proof.Machine.execAllotmentClearDone task s
  | .contextRestoreComplete cluster => Sys2Proof.Machine.execContextRestoreComplete cluster s
  | .commandComplete => Sys2Proof.Machine.execCommandComplete s
  | .hostLinkRecovery width gts => Sys2Proof.Machine.execHostLinkRecovery width gts s

end Sys2Proof.Machine
end

