-- ==== Sys2Proof/Machine/Schedule.lean ====
section
/-! DEFINITION. What the device does next where nothing outside it says so (log entry 3): the device's own steps that are due, in a fixed order, before the
next issue group, and TIME that passes. Each candidate is a call of the step's meaning; one that changes nothing was not due. -/

namespace Sys2Proof.Machine

/-! ## TIME that passes (R375) -/

/-- TIME at a later value. -/
def State.later (s : State) (t : Nat) : State := s.modDev (fun d => { d with time := t })

/-- The next so many pulses, each at its multiple of 16,000. -/
def State.pulses : Nat → State → State
  | 0, s => s
  | n + 1, s =>
    match execTimeSyncPulse (s.later ((s.dev.time / 16000 + 1) * 16000)) with
    | .next u => u.pulses n
    | _ => s

/-- TIME runs on: every pulse on the way takes place, and the groups see the cycles that have passed (R84, R90). -/
def State.pass (s : State) (n : Nat) : State :=
  if n = 0 then s
  else
    let t := s.dev.time + n
    ((s.pulses (t / 16000 - s.dev.time / 16000)).later t).modDev (fun e => e.elapsed s.dev)

/-- TIME units to the next cycle of a cluster's clock in which its cores may issue (R369, R381): of one that R370 holds to half its rate, to the next even
cycle. -/
def Dev.nextCycle (d : Dev) (cluster : Nat) : Nat :=
  let k := d.cluster cluster
  let gone := d.time - k.mark
  let c := d.cyclesIn cluster gone + (if k.halfRate && decide (d.now cluster % 2 = 0) then 2 else 1)
  let f := if d.throttled then 4 else 1
  max 1 ((160 * f * c + clockRate k.level - 1) / clockRate k.level - gone)

/-! ## Ports that may issue (R81) -/

/-- The cores that hold groups, each once. -/
def Dev.busyCores (d : Dev) : List Nat := ((d.groups.map (fun g => g.1 / 64)).eraseDups)

/-- The cores that hold groups, in ascending order. -/
def Dev.coreOrder (d : Dev) : List Nat := (d.busyCores.foldl (fun l c => Tab.insert l c ()) ([] : Tab Unit)).map Prod.fst

/-- The ports of a core that may issue in the cycle under way, with the slot each would issue from and whether its group holds a BOOST. -/
def Dev.openPorts (d : Dev) (core : Nat) : List (Nat × Nat × Bool) :=
  (List.range 4).filterMap (fun p => (d.portChoice core p).map (fun c =>
    (p, c.1, match (d.plan core c.1 c.2.2).2 with
      | .go _ raw => raw.any (fun w => match decoded w with
        | some (.boostGrant _ _ _) => true
        | _ => false)
      | _ => false)))

/-- The port of a core that issues next: of those that would issue a BOOST the one of the lowest slot (R361), and else the lowest port, which is the order of
matrix entries enqueued in one cycle (R222). -/
def Dev.portNext (d : Dev) (core : Nat) : Option Nat :=
  let l := d.openPorts core
  let boosts := l.filter (fun x => x.2.2)
  match boosts.find? (fun x => boosts.all (fun y => decide (x.2.1 ≤ y.2.1))) with
  | some x => some x.1
  | none => (l.head?).map Prod.fst

/-- Whether a port of a core is still to issue in the cycle under way; a handler's activation waits for it, so that traps of one cycle are raised together
(R330). -/
def Dev.cycleRuns (d : Dev) (core : Nat) : Bool := (List.range 4).any (fun p => (d.portChoice core p).isSome)

/-! ## Candidates -/

/-- A step that may be due. -/
abbrev Candidate := State → Out

/-- A candidate under a condition. -/
def dueIf (b : Bool) (f : Candidate) : List Candidate := if b then [f] else []

/-- The first candidate that changes the state. -/
def firstChange (s : State) : List Candidate → Option State
  | [] => none
  | f :: l =>
    match f s with
    | .next t => if t = s then firstChange s l else some t
    | _ => firstChange s l

/-- One candidate after another. -/
def both (f g : Candidate) : Candidate := fun s =>
  match f s with
  | .next t => g t
  | o => o

/-- The bytes a store's message brings: whole 16-byte units but for the last, of which its op field tells how many (log entry 90). -/
def Msg.stored (m : Msg) : List Byte := m.data.take (16 * m.len + (if m.op % 16 = 0 then 16 else m.op % 16))

/-- A read or write of a peer as it arrives in a message (R295). -/
def remoteOf (m : Msg) (k : AccKind) : RemoteMsg :=
  { peer := m.peer, world := m.world, win := m.win, va := m.va, kind := k, tag := m.tag, len := m.len, op := m.op, scope := m.scope
    data := if k = .write then m.stored else m.data }

/-- The number of the world session that a message belongs to. -/
def worldSessionOf (m : Msg) : Nat := 2048 * (72 + m.world) + m.peer

/-- What a message does as it is handled (R295). -/
def messageStep (m : Msg) : Candidate :=
  match m.kind with
  | 0 => execRemoteAccessArrival (remoteOf m .read)
  | 1 => execRemoteAccessArrival (remoteOf m .write)
  | 2 => execRemoteAccessArrival (remoteOf m .rmw)
  | 3 => execReadData m.tag m.data
  | 4 => execWriteAck m.tag
  | 5 => execTicketReply m.tag m.tkt
  | 6 => execReplayNotice m.tkt
  | 7 => execBusy m.tag
  | 8 => execHeartbeat (worldSessionOf m)
  | _ => fun s => .next s

/-- Whether a message is a request for a line that a copy engine holds, so that it stays where it is (R158). -/
def Dev.messageWaits (d : Dev) (m : Msg) : Bool :=
  match m.kind with
  | 0 => d.arrivalWaits (remoteOf m .read)
  | 1 => d.arrivalWaits (remoteOf m .write)
  | 2 => d.arrivalWaits (remoteOf m .rmw)
  | _ => false

/-- A message of a link's inbox handled, with which buffers may be free again (R300). One that changes nothing since it has to wait stays. -/
def takeMessage (link : Nat) (m : Msg) : Candidate := fun s =>
  let taken := s.modDev (fun d => d.modLink link (fun k => ({ k with inbox := k.inbox.erase m } : Link).freeBuffers))
  match messageStep m taken with
  | .next t => if t = taken ∧ s.dev.messageWaits m = true then .next s else .next t
  | o => o

/-- Steps of a link: the first message received on each channel, none of which waits for another's (R300), what it has to send, and the ends of its waits. -/
def linkSteps (d : Dev) (l : Nat × Link) : List Candidate :=
  ((List.range 4).filterMap (fun vc => l.2.inbox.find? (fun m => decide (msgVc m.kind = vc)))).map (takeMessage l.1)
  ++ (List.range 4).flatMap (fun vc => dueIf ((Tab.find l.2.started vc).isSome || !(Tab.get [] l.2.queued vc).isEmpty) (execFlitTransmit l.1 vc))
  ++ dueIf (d.replayDue l.1) (execRetryReplayTimeout l.1)
  ++ dueIf (l.2.idle && l.2.unacked.isEmpty) (execFiller l.1)
  ++ dueIf (decide (2 ^ 48 - 2 ≤ l.2.sendCtr)) (execFlitCounterExhaustion l.1)
  ++ dueIf l.2.exhausted.isSome (execLinkSecretTimeout l.1)

/-- Steps of an outstanding operation. -/
def opSteps (d : Dev) (o : Nat × Op) : List Candidate :=
  dueIf (d.canBind o.1) (execLoadValueBound o.1) ++ dueIf (d.canPerform o.1) (execStorePerformed o.1)
  ++ dueIf (match o.2.st with
    | .awaiting _ => true
    | _ => d.relstUnseen o.2) (execCxlCompleterAck o.1)
  ++ dueIf (o.2.ticketed && !o.2.probed && decide (o.2.core < 65535)) (execWaitProbe o.2.core o.2.slot (6 + o.1))

/-- The lines that the running splits of a group wait to be fetched (R82, R110). -/
def Dev.fetches (d : Dev) (core slot : Nat) : List Nat :=
  if !d.groupRuns core slot then []
  else ((d.group core slot).splits.filterMap id).flatMap (fun x =>
    if x.park ≠ .running then []
    else match (d.standsAt core slot x).2 with
      | .ok p => d.missing core slot p.pc
      | .error _ => [])

/-- Steps of a split that waits. -/
def splitSteps (d : Dev) (core slot i : Nat) (x : Split) : List Candidate :=
  (match x.park with
    | .running => dueIf (decide ((64 ≤ x.waitCount ∧ x.classPromo.isNone) ∨ (1024 ≤ x.waitCount ∧ x.globalPromo.isNone)))
        (execWaitCountPromotion core slot i)
    | .barrier _ _ => [execBarrierRelease core slot i]
    | .mwait _ _ _ _ w => if w.isRemote then [execMonitorRemoteReread core slot i] else [execMonitorWake core slot i]
    | p => dueIf (d.waitOver core slot p) (execWaitcRelease core slot i))
  ++ dueIf (decide (x.waitKind ≠ 0) && !x.probed) (execWaitProbe core slot i)

/-- Steps of a group slot. -/
def groupSteps (d : Dev) (k : Nat × Group) : List Candidate :=
  let core := k.1 / 64
  let slot := k.1 % 64
  let g := k.2
  dueIf g.mayPop (execReconvergenceStackPop core slot)
  ++ dueIf (d.mergePair core slot).isSome (execSplitMerge core slot)
  ++ dueIf g.joinsRelease (execJoinRelease core slot)
  ++ [Ctr.cl, .cs, .cc, .ct].flatMap (fun c => dueIf (!(endedPrefix (g.count c)).isEmpty) (execCounterEnd core slot c))
  ++ (g.splits.zipIdx).flatMap (fun p => match p.1 with
    | some x => splitSteps d core slot p.2 x
    | none => [])
  ++ dueIf g.atCheckpoint.isSome (execCheckpoint core slot)
  ++ dueIf ((d.arbiterWait core slot).any (fun e => !e.probed)) (execWaitProbe core slot 4)
  ++ dueIf (g.holdSince.isSome && !g.probed) (execWaitProbe core slot 5)
  ++ (d.fetches core slot).map (fun l => execInstructionFetch core (96 * l) false)
  ++ dueIf (decide (g.live = 0)) (execGroupSlotRelease core slot)

/-- Steps of a core. -/
def coreSteps (d : Dev) (c : Nat × Core) : List Candidate :=
  dueIf (c.2.serving.isNone && !c.2.waiting.isEmpty && !d.cycleRuns c.1) (execHandlerActivation c.1)
  ++ dueIf c.2.clearing.isSome (execWorldLatchClearDone c.1)
  ++ c.2.mq.flatMap (fun e => if e.kind.isMma then [execMmaRetire c.1 e.id] else [execMatrixEntryStart c.1 e.id, execTileOpRetire c.1 e.id])
  ++ dueIf (c.2.mq.any (fun e => e.reqAt.isSome)) (execPairArbiterGrant (pairOf c.1))
  ++ dueIf (c.2.opUsed.any (fun p => decide (p.2 = 0)) || c.2.wUsed.any (fun p => decide (p.2 = 0))) (execReservationClearDone c.1)

/-- Steps of a matrix pair. -/
def pairSteps (p : Nat × Pair) : List Candidate :=
  dueIf p.2.owner.isNone (execPairArbiterGrant p.1) ++ dueIf p.2.owner.isSome (execMmaOccupancyEnd p.1)
  ++ dueIf p.2.hint.isSome (execHintRequestTime p.1) ++ dueIf (decide (p.2.st = .rampUp ∨ p.2.st = .rampDown)) (execRampStepEnd p.1)
  ++ dueIf (decide (p.2.st = .holding)) (execHoldExpiry p.1) ++ dueIf p.2.window.isSome (execSlewWindowBegin (clusterOfPair p.1))

/-- Steps of a cluster. -/
def clusterSteps (d : Dev) (c : Nat × Cluster) : List Candidate :=
  c.2.held.map (fun h => execEngineRecall c.1 h.1)
  ++ c.2.chans.map (fun h => execCopyComplete c.1 h.1)
  ++ dueIf c.2.waking (execFallowWake c.1) ++ dueIf c.2.gating.isSome (execGatingCommitWindowEnd c.1)
  ++ dueIf c.2.clearing (execForcedSaveComplete c.1)
  ++ dueIf (d.tasks.any (fun t => decide (t.2.phase = .restoring ∧ clusterOf t.2.core = c.1))) (execContextRestoreComplete c.1)

/-- Clusters that have been idle long enough for fallow (R354). -/
def Dev.idleClusters (d : Dev) : List Nat :=
  (List.range 32).filter (fun c => decide ((d.cluster c).idleSince + d.param 4 * usTime ≤ d.time) && d.idleCluster c)

/-- Steps of a task. -/
def taskSteps (d : Dev) (t : Nat × Task) : List Candidate :=
  dueIf (decide (t.2.phase = .clearing)) (execAllotmentClearDone t.1)
  ++ dueIf (decide (t.2.phase = .restoring)) (execContextRestoreComplete (clusterOf t.2.core))
  ++ dueIf (d.setWaiters.any (fun w => decide (w.1 = t.1))) (execAtomicSetWaitAcquire t.1)
  ++ dueIf t.2.commitDue (execTaskCommit t.1)
  ++ dueIf (decide (t.2.phase = .wounded)) (execTaskRestart t.1)
  ++ dueIf (decide (t.2.token = .requested ∨ t.2.token = .atFirst)) (execIrrevocableTokenGrant (d.worldOf t.1))
  ++ dueIf (d.groups.any (fun g => decide (g.2.task = t.1) && g.2.splits.any (fun x => decide (x.map Split.park = some .stallAdecl))))
      (execActiveSetEntryFree t.1)
  ++ t.2.streams.flatMap (fun x => [execStreamFill t.1 x.1, execStreamReload t.1 x.1])
  ++ dueIf (t.2.cq.entries.any (fun e => e.unaccepted)) (execCopyAccept (clusterOf t.2.core))
  ++ dueIf t.2.deadlineFrom.isSome (execCooperativeSave t.1) ++ dueIf t.2.deadlineFrom.isSome (execPreemptionDeadline t.1)

/-- Steps of a grid. -/
def gridSteps (g : Nat × Grid) : List Candidate :=
  dueIf (!(g.2.dep0 && g.2.dep1)) (execDependenceCheck g.1) ++ dueIf g.2.over (execGridDoneWrite g.1)

/-- Steps of a die. -/
def dieSteps (x : Nat × Die) : List Candidate :=
  (x.2.shadow.zipIdx).flatMap (fun p => dueIf p.1.isSome (execShadowPlaceRelease x.1 p.2))
  ++ x.2.tickets.map (fun e => execRequesterTicketTimeout x.1 e.1)
  ++ x.2.kept.map (fun e => execNoticeRetentionExpiry e.1)
  ++ (match x.2.callup with
    | some (_, _, n) => dueIf (decide (n = 2 ∨ n = 4)) (execCallupSave x.1) ++ dueIf (decide (n = 3 ∨ n = 5)) (execCallupMapUpdate x.1)
    | none => [])

/-- Steps of a request to a peer. -/
def requestSteps (r : Nat × Request) : List Candidate :=
  if r.2.resend.isSome then [execBusyResend r.1, execTicketTableFullResend r.1] else [execRemoteResponseTimeout r.1]

/-- Steps of a mailbox binding. -/
def boxSteps (b : Nat × Mailbox) : List Candidate :=
  dueIf (!b.2.arrived.isEmpty) (execMailboxArrival b.1) ++ dueIf (!b.2.pend.isEmpty) (execHandlerAccept b.1)

/-- Steps of a change of frequency. -/
def changeSteps (x : Nat × Change) : List Candidate := [execDrainWindowOpen x.1, execFrequencySwitch x.1, execFrequencyResume x.1]

/-- Whether the distributor has anything to decide. -/
def Dev.distributes (d : Dev) : Bool :=
  d.grids.any (fun g => g.2.pending) || d.queues.any (fun q => decide (0 < q.2.deficit))
    || d.tasks.any (fun t => match t.2.phase with
      | .saved _ => true
      | _ => false)

/-- A decision of the distributor, where it decides more than that queues whose energy is spent add their quanta once more (R308, R379). -/
def decision : Candidate := fun s =>
  match execDispatch s with
  | .next t =>
    let e : Dev := { t.dev with queues := Tab.mapV t.dev.queues (fun q x => if x.spent then { x with deficit := (s.dev.queue q).deficit } else x) }
    if e = s.dev then .next s else .next t
  | o => o

/-- Every candidate, in the order in which the model tries them. -/
def Dev.candidates (d : Dev) : List Candidate :=
  d.groups.flatMap (groupSteps d)
  ++ d.ops.flatMap (opSteps d)
  ++ d.posted.map (fun p => execTicketPost p.1 p.2)
  ++ d.boxes.flatMap boxSteps
  ++ d.links.flatMap (linkSteps d)
  ++ d.cores.flatMap (coreSteps d)
  ++ d.pairs.flatMap pairSteps
  ++ d.clusters.flatMap (clusterSteps d)
  ++ d.tasks.flatMap (taskSteps d)
  ++ d.grids.flatMap gridSteps
  ++ dueIf d.distributes decision
  ++ d.dies.flatMap dieSteps
  ++ d.requests.flatMap requestSteps
  ++ d.changes.flatMap changeSteps
  ++ d.probes.map (fun p => execProbeForward p.1)
  ++ d.performedTags.map (fun t => execTagRetentionExpiry t.1 t.2.1)
  ++ d.owned.map (fun t => execOwnerTicketTimeout t.1)
  ++ d.sessions.flatMap (fun x => [execHeartbeatSend x.1, execHeartbeatTimeout x.1])
  ++ d.grants.map (fun g => execBoostGrantEnd g.1)
  ++ (Tab.keys d.commitDue).map execRecordCommit
  ++ d.idleClusters.map execFallowEntry
  ++ dueIf (d.alarmCause && !d.throttled) execFastThrottleAlarm
  ++ ((Tab.keys d.keys).filter (fun k => decide (k % 2 = 1))).map (fun k => execReencryptionSweep (k / 2) 0)
  ++ ((List.range 4).filterMap d.firstMove).map execLineMigrate
  ++ dueIf d.mgmt.running.isSome execCommandComplete
  ++ dueIf (decide (d.period < d.time / 1600000)) (both execMigrationPeriodEnd execTimeBudgetPeriod)

/-! ## The port that issues next (R81) -/

/-- The port, as four times the core and the port, that issues next in the cycle under way: cores in ascending order (R361). -/
def Dev.nextPort (d : Dev) : Option Nat := d.coreOrder.findSome? (fun c => (d.portNext c).map (fun p => 4 * c + p))

/-- What passes before a port issues: nothing where it may still do so in the cycle under way, else the time to the next (R81, log entry 3). -/
def Dev.issueTime (d : Dev) (p : Nat) : Nat := if d.portOpen (p / 4) (p % 4) then 0 else d.nextCycle (clusterOf (p / 4))

/-- A port's turn comes. -/
def State.takeTurn (s : State) (p : Nat) : State := s.pass (s.dev.issueTime p)

/-- A port issues, at most once in a cycle. -/
def State.issueFrom (s : State) (p : Nat) : Out := execIssueGroup (p / 4) (p % 4) (s.takeTurn p)

/-- With nothing to do bring-up goes on: the stage under way ends, well or not as its free value says (R414, R415). -/
def State.bringUp (s : State) : Out :=
  execBringupStageComplete (Config.stageOk s.dev.fresh) (s.modDev (fun d => { d with fresh := d.fresh + 1 }))

/-- The clusters whose clocks something resident waits for. -/
def Dev.busyClusters (d : Dev) : List Nat :=
  (d.groups.map (fun g => clusterOf (g.1 / 64)) ++ d.tasks.map (fun t => clusterOf t.2.core)
    ++ (d.pairs.filter (fun p => decide (p.2.st ≠ .cold))).map (fun p => clusterOfPair p.1) ++ d.changes.flatMap (fun c => c.2.clusters)).eraseDups

/-- TIME that passes with nothing to do: to the first cycle of a busy cluster, else up to the next pulse. -/
def Dev.idleTime (d : Dev) : Nat :=
  let pulse := 16000 - d.time % 16000
  d.busyClusters.foldl (fun n c => min n (d.nextCycle c)) pulse

/-- The device's next step of its own accord: the first of its candidates that is due, else the next port of the cycle, else bring-up, else only TIME. -/
def State.ownStep (s : State) : Out :=
  match firstChange s s.dev.candidates with
  | some t => .next t
  | none =>
    match s.dev.nextPort with
    | some p => s.issueFrom p
    | none => if s.dev.mgmt.stage < 7 then s.bringUp else .next (s.pass s.dev.idleTime)

/-! ## Running an issue group's words (R54, R57) -/

/-- A modifier holds for the next word only (R63). -/
def isModifier : Instr → Bool
  | .modArithmetic _ _ _ _ _ _ _ _ _ _ => true
  | .modMemory _ _ _ _ _ => true
  | _ => false

/-- One word of the issue group: it leaves the list of words, runs, and takes the modifier with it. -/
def State.runWord (s : State) (i : Instr) (l : List Instr) : Out :=
  match exec i (s.modIss (fun x => { x with words := l })) with
  | .next t => .next (if isModifier i then t else t.modIss (fun x => { x with mod := none }))
  | o => o

/-- The words of an issue group one after another, until none is left, which closes it, or one has ended it by a trap or a stall. -/
def State.runWords : Nat → State → Out
  | 0, s => .next s
  | n + 1, s =>
    if !s.iss.open_ then .next s
    else match s.iss.words with
      | [] => .next s.closeIssue
      | i :: l =>
        match s.runWord i l with
        | .next t => t.runWords n
        | o => o

/-- An issue group that a step has opened run to its end. -/
def finish (o : Out) : Out :=
  match o with
  | .next t => t.runWords (t.iss.words.length + 1)
  | o => o

/-! ## Scheduled steps -/

/-- A scheduled step that has come: TIME runs up to it. What is no step of its own but a word is passed over. -/
def State.scheduled (s : State) (e : Sched) (l : List Sched) : Out :=
  let s1 : State := { s.pass e.after with agenda := l }
  if e.ev.body.isNone then exec e.ev s1 else .next s1

/-- Whether a step is the device's reset. -/
def isReset : Instr → Bool
  | .reset => true
  | _ => false

/-- After the sealed marker of a loss of supply only a reset takes place (R380). -/
def State.afterLoss (s : State) : Out :=
  match s.agenda with
  | e :: l => if isReset e.ev then s.scheduled e l else .next { s with agenda := l }
  | [] => .fault .supplyLost

/-- The step that comes next. -/
def State.nextStep (s : State) : Out :=
  if s.dev.stopped then s.afterLoss
  else match s.pick, s.agenda with
    | some p, _ => { s with pick := none }.issueFrom p
    | none, e :: l => s.scheduled e l
    | none, [] => s.ownStep

/-! ## A program placed from outside (log entry 1) -/

/-- Where the placed packet lies, and the two tables that map the first 16 GiB of addresses to themselves (R270, R272). -/
def placedAt : Nat := 0x24000
def placedRoot : Nat := 0x10000
def placedTable : Nat := 0x12000

/-- A grid of one workgroup of one group that declares all it may (R310). -/
def placedGrid : Grid :=
  { words := [BitVec.ofNat 64 placedAt, 0, BitVec.ofNat 64 (16 * 2 ^ 51 + 16 * 2 ^ 46 + 16 * 2 ^ 41 + 4 * 2 ^ 38 + 1024 * 2 ^ 27 + 256 * 2 ^ 18 + 248 * 2 ^ 9 + 15 * 2 ^ 5)]
      ++ List.replicate 13 0,
    sets := [], queue := 0, world := 0, next := 1, retired := 0, dep0 := true, dep1 := true, fail := 0, mailbox := none, snapshot := [] }

/-- Bytes placed in local HBM. -/
def Dev.placeBytes (d : Dev) (a : Nat) (bs : List Byte) : Dev := d.writeBytes (hbmAt a) bs

/-- The device with the placed tables and packet, in frames of world 0. -/
def Dev.placePacket (d : Dev) (w : Nat) : Dev :=
  let fr (f : Frame) : Frame := { f with world := some 0, gran := 2 }
  let d1 := ((d.modFrame 1 fr).modFrame 2 fr)
  let d2 : Dev := { d1 with
    poison := []
    cores := Tab.mapV d1.cores (fun _ c => { c with upart := c.upart.filter (fun p => decide (p.1 / 16384 ≠ 1 ∧ p.1 / 16384 ≠ 2)) }) }
  ((d2.placeBytes placedRoot (Bytes.ofNat 8 (placedTable + 1))).placeBytes placedTable (Bytes.ofNat 8 1247)).placeBytes placedAt
    (Bytes.ofNat 4 (w % 2 ^ 32) ++ List.replicate 8 0)

/-- The handler slot of core 0, of world 0, serving the workgroup of a grid, its split at the placed packet. -/
def Dev.placeWork (d : Dev) : Dev :=
  let t := d.nextTask
  let g := d.nextLaunch
  let task : Task :=
    { grid := g, linear := 0, gang := t, core := 0, slots := [0], left := [], fixed := none, queue := 0, phase := .running, age := 0, restarts := 0, since := 0, ran := 0, smem := [],
      pmem := [], tent := [], tiles := [], handles := [], shapes := [], mxc := [0, 0, 0, 0, 0], streams := [], cq := CopyQueue.empty, cqFirst := none,
      sets := [], token := .none, killed := false, cyc := false, restart := false, saved := [], savedMx := [], savedBuf := [], deadlineFrom := none, floor := 0 }
  let rec_ : TrapRec :=
    { slot := 0, split := 0, mask := BitVec.allOnes 32, pos := { pc := placedAt, word := 0 }, cause := 0x11, sub := 0, tcode := 0, kind := 0, orig := 0,
      addr := 0, tkt := 0, lane := 0, launch := g, queue := 0, raised := 0 }
  let own : Group := { freshGroup placedGrid g t 0 0 with trap := some rec_, held := true }
  let d1 : Dev := { d with
    nextTask := t + 1, nextLaunch := g + 1, turn := []
    grids := Tab.insert d.grids g placedGrid
    gangs := Tab.insert d.gangs t { cmem := [], extent := 0, share := [], cluster := 0, live := 1 }
    tasks := Tab.insert d.tasks t task
    handlers := Tab.insert d.handlers 0 placedAt
    groups := Tab.keep d.groups (fun k _ => decide (64 ≤ k)) }
  let d2 := (((d1.setGroup 0 0 own).setGroup 0 handlerSlot (handlerGroup Group.empty placedAt 0)).modQueue 0 (fun q => { q with
    world := 0, asn := 0, root := placedRoot }))
  ((d2.modCore 0 (fun c => { c with
    icache := codeLine (hbmAt placedAt) :: c.icache
    world := 0, clearing := none, tlb := [], serving := some (t, rec_), waiting := [], herr := false })).modDie 0
    (fun x => { x with tlb := [], walkCache := [] })).modCluster 0 (fun c => { c with settling := none, clearing := false, drain := none })

end Sys2Proof.Machine
end

