-- ==== Sys2Proof/Machine/Step.lean ====
section
/-! DEFINITION. One step of the machine: the step that comes next, and, where it opens an issue group, the words of that group to its end. And the
placing of an instruction where the next step issues it. -/

namespace Sys2Proof.Machine

/-- One step. -/
def step (s : State) : Host.Outcome State Fault Refusal := finish s.nextStep

/-- The state with an instruction's word as the first of a packet that core 0 issues in the next step (log entry 1). -/
def State.withFetchWord (s : State) (_nbits w : Nat) : State :=
  { s with dev := { (s.dev.placePacket w).placeWork with stopped := false }, iss := Issue.closed, pick := some 0 }

end Sys2Proof.Machine
end

