-- ==== Sys2Proof/Safety.lean ====
section
/-! DEFINITION. The terms claims are stated in: canonical forms, what an issue group is between steps, and what a word may change. -/

namespace Sys2Proof.Machine

/-! ## Canonical forms -/

/-- Every memory of the device in canonical form: HBM, CXL-attached memory, the scratchpad, and each workgroup's and gang's own. -/
def Dev.memWf (d : Dev) : Bool :=
  Memory.wf d.hbm && Memory.wf d.cxl && Memory.wf d.kmem
    && d.tasks.all (fun t => Memory.wf t.2.smem && Memory.wf t.2.pmem) && d.gangs.all (fun g => Memory.wf g.2.cmem)

/-- Between steps no issue group is in progress (R54). -/
def State.settled (s : State) : Bool := !s.iss.open_

/-- A state in which a word of an issue group may run: its group is there. -/
def State.running (s : State) : Bool := s.dev.hasGroup s.iss.core s.iss.slot

/-! ## What a word changes -/

/-- Everything but the registers of the issuing group and the flags raised so far is as it was. In particular memory, the counters, the splits, the
special registers, every other group, task and core, TIME, and the agenda. -/
structure OnlyRegs (s t : State) : Prop where
  iss : t.iss = { s.iss with raised := t.iss.raised }
  agenda : t.agenda = s.agenda
  pick : t.pick = s.pick
  dev : t.dev = { s.dev with groups := t.dev.groups }
  others : ∀ k, k ≠ gkey s.iss.core s.iss.slot → Tab.find t.dev.groups k = Tab.find s.dev.groups k
  own : t.grp = { s.grp with regs := t.grp.regs }

/-- The V register d holds f in the lanes of a mask, some flags have been raised, and nothing else has changed; V127 discards the write (R61, R68,
R113). -/
structure VWritten (s t : State) (d : VReg) (lanes : W32) (f : Nat → W32) (flags : Flags) : Prop extends OnlyRegs s t where
  raised : t.iss.raised = s.iss.raised ||| flags
  regs : t.grp.regs = { s.grp.regs with v := t.grp.regs.v }
  val : ∀ (r : VReg) (i : Nat), i < 32 → t.grp.regs.readV r.toNat i =
    if r = d ∧ r ≠ 127 ∧ lanes.getLsbD i = true then f i else s.grp.regs.readV r.toNat i

/-- The S register d holds x and nothing else has changed; S0 discards the write (R61). -/
structure SWritten (s t : State) (d : SReg) (x : W64) : Prop extends OnlyRegs s t where
  raised : t.iss.raised = s.iss.raised
  regs : t.grp.regs = { s.grp.regs with s := t.grp.regs.s }
  val : ∀ r : SReg, t.grp.regs.readS r.toNat = if r = d ∧ r ≠ 0 then x else s.grp.regs.readS r.toNat

/-- The P register d holds m in some lanes, its other lanes and all else as before; P0 discards the write (R61). -/
structure PWritten (s t : State) (d : PReg) (lanes m : W32) : Prop extends OnlyRegs s t where
  raised : t.iss.raised = s.iss.raised
  regs : t.grp.regs = { s.grp.regs with p := t.grp.regs.p }
  val : ∀ r : PReg, t.grp.regs.readP r.toNat =
    if r = d ∧ r ≠ 0 then (s.grp.regs.readP r.toNat &&& ~~~lanes) ||| (m &&& lanes) else s.grp.regs.readP r.toNat

/-- The F flag d holds b and nothing else has changed; F0 discards the write (R61). -/
structure FWritten (s t : State) (d : FReg) (b : Bool) : Prop extends OnlyRegs s t where
  raised : t.iss.raised = s.iss.raised
  regs : t.grp.regs = { s.grp.regs with f := t.grp.regs.f }
  val : ∀ r : FReg, t.grp.regs.readF r.toNat = if r = d ∧ r ≠ 0 then b else s.grp.regs.readF r.toNat

/-- Each byte of each place reads as before. -/
def SameMemory (d e : Dev) : Prop := ∀ l : Loc, e.readByte l = d.readByte l

end Sys2Proof.Machine
end

