-- ==== Sys2Proof/Certificates/Slice0/Obligations.lean ====
section
/-! DEFINITION. The statements for the provers. Each says where an instruction or a step completes, what it then leaves changed, and that nothing else
is. The claims that several instructions of one shape share are said once, above their first use. -/

namespace Sys2Proof.Claims

open Sys2Proof.Machine

/-! ## Words of one shape -/

/-- A two-source integer word: each acting lane's D takes the exact result on the modified sources, finished by R67; no flag is raised. -/
def IntWord (mk : VReg → VReg → VReg → Instr) (sgn unsignedRange : Bool) (f : State → VReg → Nat → Int → Int → Int) : Prop :=
  ∀ (s : State) (d a b : VReg), s.running = true → ∃ t, exec (mk d a b) s = .next t ∧
    VWritten s t d s.acting (fun i => s.finInt unsignedRange (f s d i (s.intA sgn a i) (s.intB sgn b i))) 0

/-- An integer word with an immediate. -/
def IntImmWord (mk : VReg → VReg → BitVec 11 → Instr) (f : Int → Int → Int) : Prop :=
  ∀ (s : State) (d a : VReg) (i : BitVec 11), s.running = true → ∃ t, exec (mk d a i) s = .next t ∧
    VWritten s t d s.acting (fun l => s.finInt false (f (s.intA true a l) i.toInt)) 0

/-- A two-source word on the bits of each lane. -/
def BitWord (mk : VReg → VReg → VReg → Instr) (f : W32 → W32 → W32) : Prop :=
  ∀ (s : State) (d a b : VReg), s.running = true → ∃ t, exec (mk d a b) s = .next t ∧
    VWritten s t d s.acting (fun i => f (s.rdV a i) (s.rdV b i)) 0

/-- A one-source word on the bits of each lane. -/
def BitWord1 (mk : VReg → VReg → Instr) (f : W32 → W32) : Prop :=
  ∀ (s : State) (d a : VReg), s.running = true → ∃ t, exec (mk d a) s = .next t ∧
    VWritten s t d s.acting (fun i => f (s.rdV a i)) 0

/-- A word on the bits of each lane with an immediate of any width. -/
def BitImmWord {n : Nat} (mk : VReg → VReg → BitVec n → Instr) (f : W32 → BitVec n → W32) : Prop :=
  ∀ (s : State) (d a : VReg) (i : BitVec n), s.running = true → ∃ t, exec (mk d a i) s = .next t ∧
    VWritten s t d s.acting (fun l => f (s.rdV a l) i) 0

/-- The flags that some lanes raise together (R51). -/
def allFlags (lanes : W32) (f : Nat → Nat × Flags) : Flags := (lanesOf lanes).foldl (fun x i => x ||| (f i).2) 0

/-- A word whose lanes make codes and flags: D takes the codes, and the flags of the acting lanes are raised together. -/
def FloatLanes (s : State) (i : Instr) (d : VReg) (f : Nat → Nat × Flags) : Prop :=
  ∃ t, exec i s = .next t ∧ VWritten s t d s.acting (fun l => BitVec.ofNat 32 (f l).1) (allFlags s.acting f)

/-- The modified F32 sources of a lane. -/
def srcA (s : State) (a : VReg) (l : Nat) : XReal := s.amod.realA .f32 (s.rdV a l).toNat
def srcB (s : State) (b : VReg) (l : Nat) : XReal := s.amod.realB .f32 (s.rdV b l).toNat

/-- A two-source F32 word: the exact result, rounded once. -/
def Float2Word (mk : VReg → VReg → VReg → Instr) (f : AMod → XReal → XReal → XReal × Bool) : Prop :=
  ∀ (s : State) (d a b : VReg), s.running = true → FloatLanes s (mk d a b) d (fun l => finF .f32 s.amod (f s.amod (srcA s a l) (srcB s b l)))

/-- A one-source F32 word: the exact result, rounded once, and the flags that its special inputs raise. -/
def Float1Word (mk : VReg → VReg → Instr) (f : XReal → XReal × Flags) : Prop :=
  ∀ (s : State) (d a : VReg), s.running = true → FloatLanes s (mk d a) d (fun l =>
    let r := f (srcA s a l)
    ((finF .f32 s.amod (r.1, false)).1, (finF .f32 s.amod (r.1, false)).2 ||| r.2))

/-- The element e of a lane of a packed register. -/
def half (s : State) (r : VReg) (l e : Nat) : Nat := bits (s.rdV r l).toNat (16 * e + 15) (16 * e)

/-- A packed word: both 16-bit elements of each lane on their own, each rounded once. -/
def PackedWord (fm : Fmt) (mk : VReg → VReg → VReg → Instr) (f : AMod → XReal → XReal → XReal → XReal × Bool) : Prop :=
  ∀ (s : State) (d a b : VReg), s.running = true →
    let el (l e : Nat) : Nat × Flags :=
      finF fm s.amod (f s.amod (fm.decode (half s d l e)) (s.amod.realA fm (half s a l e)) (s.amod.realB fm (half s b l e)))
    FloatLanes s (mk d a b) d (fun l => ((el l 0).1 + 65536 * (el l 1).1, (el l 0).2 ||| (el l 1).2))

/-- A conversion under a scale: what each lane makes of its source and the scale. -/
def ScaledWord (mk : VReg → VReg → SReg → Instr) (f : AMod → Nat → Nat → Nat × Flags) : Prop :=
  ∀ (s : State) (d a : VReg) (b : SReg), s.running = true →
    FloatLanes s (mk d a b) d (fun l => f s.amod ((s.rdS b).toNat % 256) (s.rdV a l).toNat)

/-- A word that moves lanes: D takes, in each acting lane, what f says of the source register. -/
def MoveWord (mk : VReg → VReg → Instr) (f : State → VReg → Nat → W32) : Prop :=
  ∀ (s : State) (d a : VReg), s.running = true → ∃ t, exec (mk d a) s = .next t ∧ VWritten s t d s.acting (f s a) 0

/-- A lane exchange: each acting lane reads the lane its control value names, 0 where a slide leaves the segment. -/
def ExchangeWord (mk : VReg → VReg → VReg → Instr) (src : W32 → Nat → Option Nat) : Prop :=
  ∀ (s : State) (d a b : VReg), s.running = true → ∃ t, exec (mk d a b) s = .next t ∧
    VWritten s t d s.acting (fun i => match src (s.rdV b i) i with
      | some j => s.rdV a j
      | none => 0) 0

/-- The values of the acting lanes, ascending. -/
def actingValues (s : State) (a : VReg) : List W32 := (lanesOf s.acting).map (s.rdV a)

/-- A scalar word of two sources. -/
def ScalarWord (mk : SReg → SReg → SReg → Instr) (f : W64 → W64 → W64) : Prop :=
  ∀ (s : State) (d a b : SReg), s.running = true → ∃ t, exec (mk d a b) s = .next t ∧ SWritten s t d (f (s.rdS a) (s.rdS b))

/-- A scalar result of a word. -/
def GivesS (s : State) (i : Instr) (d : SReg) (x : W64) : Prop := ∃ t, exec i s = .next t ∧ SWritten s t d x
/-- A predicate result of a word, in some lanes. -/
def GivesP (s : State) (i : Instr) (d : PReg) (lanes m : W32) : Prop := ∃ t, exec i s = .next t ∧ PWritten s t d lanes m
/-- A flag result of a word. -/
def GivesF (s : State) (i : Instr) (d : FReg) (b : Bool) : Prop := ∃ t, exec i s = .next t ∧ FWritten s t d b
/-- A lane result of a word that raises no flag. -/
def GivesV (s : State) (i : Instr) (d : VReg) (lanes : W32) (f : Nat → W32) : Prop := ∃ t, exec i s = .next t ∧ VWritten s t d lanes f 0

/-! ## Control and issue -/

/-- A word that changes only the issue in progress. -/
def Steers (s : State) (i : Instr) (f : Issue) : Prop := exec i s = .next { s with iss := f }
/-- A word after which the split goes to a packet at the end of its issue group. -/
def GoesTo (s : State) (i : Instr) (pc : Nat) : Prop := Steers s i { s.iss with target := some pc }
/-- A word that leaves the split to its fall-through position. -/
def FallsThrough (s : State) (i : Instr) : Prop := exec i s = .next s
/-- A word whose split waits at the end of its issue group. -/
def Waits (s : State) (i : Instr) (p : Park) : Prop := Steers s i { s.iss with parks := s.iss.parks ++ [p] }
/-- The packet an offset reaches from the issuing packet (R53). -/
def branchTarget (s : State) (o : Int) : Nat := (((s.iss.pos.pc : Int) + 12 * o) % 2 ^ 54).toNat
/-- A word that traps with no more than a cause. -/
def Traps (s : State) (i : Instr) (cause : Nat) : Prop := exec i s = .next (s.takeTrap (TrapInfo.plain cause))

/-! ## Memory words -/

/-- A load or store of a level at the lanes' own addresses (R160). -/
def levelWord (s : State) (store : Bool) (lv : Level) (z : BitVec 4) (d : VReg) (b : SReg) (v : VReg) (x : BitVec 1) : MemWord :=
  let n := sizeBytes z.toNat
  let addr := s.laneAddr b v (if x = 1 then n else 1)
  let kind : OpKind := if store then .store else .load d.toNat (decide (z = 5 ∨ z = 6))
  { ctr := if store then .cs else .cl, kind := kind, n := n, scope := s.scopeOr (levelDefault lv), regs := kind.regs n, lanes := lanesOf s.acting,
    addr := addr, check := fun st i => st.checkAt lv (if store then .write else .read) i (addr i) (addr i) n,
    data := if store then s.laneData d n else fun _ => 0 }

/-- A 32-bit load or store at generic addresses (R163, R179). -/
def genericWord (s : State) (store : Bool) (d : VReg) (b : SReg) (v : VReg) (x : BitVec 1) : MemWord :=
  let addr := s.laneAddr b v (if x = 1 then 4 else 1)
  let kind : OpKind := if store then .store else .load d.toNat false
  { ctr := if store then .cs else .cl, kind := kind, n := 4, scope := s.scopeOr 3, regs := kind.regs 4, lanes := lanesOf s.acting,
    addr := addr, check := fun st i => st.checkGeneric anyLevel (if store then .write else .read) i (addr i) 4,
    data := if store then s.laneData d 4 else fun _ => 0 }

/-- A 64-bit uniform load or store, checked once for the lowest acting lane (R162). -/
def uniformWord (s : State) (store : Bool) (d b : SReg) : MemWord :=
  let a := s.uniAddr b
  let kind : OpKind := if store then .store else .loadU d
  { ctr := if store then .cs else .cl, kind := kind, n := 8, scope := s.scopeOr 3, regs := kind.regs 8, lanes := (lanesOf s.acting).take 1,
    addr := fun _ => a, check := fun st i => st.checkGeneric notP (if store then .write else .read) i a 8,
    data := fun _ => if store then (s.rdS d).zeroExtend 128 else 0 }

/-- An atomic or a reduction of one 32-bit word in each lane; a compare and swap takes two registers of data (R187, R188). -/
def atomicWord (s : State) (kind : OpKind) (d : VReg) (b : SReg) (v : VReg) : MemWord :=
  let addr := s.laneAddr b v 4
  { ctr := (match kind with
      | .red _ _ => .cs
      | _ => .cl), kind := kind, n := 4, scope := s.scopeOr 3, regs := kind.regs 4, lanes := lanesOf s.acting, addr := addr,
    check := fun st i => st.checkGeneric atomLevel .rmw i (addr i) 4,
    data := fun i => s.laneData d (match kind with
      | .atom 10 _ => 8
      | _ => 4) i }

/-- What each memory word asks for. ACQLD's wait and RELST are told apart below. -/
def accessOf (s : State) : Instr → Option MemWord
  | .ldP z d b v x => some (levelWord s false .p z d b v x) | .stP z d b v x => some (levelWord s true .p z d b v x)
  | .ldS z d b v x => some (levelWord s false .s z d b v x) | .stS z d b v x => some (levelWord s true .s z d b v x)
  | .ldC z d b v x => some (levelWord s false .c z d b v x) | .stC z d b v x => some (levelWord s true .c z d b v x)
  | .ldK z d b v x => some (levelWord s false .k z d b v x) | .stK z d b v x => some (levelWord s true .k z d b v x)
  | .ldG z d b v x => some (levelWord s false .g z d b v x) | .stG z d b v x => some (levelWord s true .g z d b v x)
  | .lda d b v x => some (genericWord s false d b v x) | .sta d b v x => some (genericWord s true d b v x)
  | .ldu d b => some (uniformWord s false d b) | .stu d b => some (uniformWord s true d b)
  | .atomAdd d b v => some (atomicWord s (.atom 0 d.toNat) d b v) | .atomMinI d b v => some (atomicWord s (.atom 1 d.toNat) d b v)
  | .atomMinN d b v => some (atomicWord s (.atom 2 d.toNat) d b v) | .atomMaxI d b v => some (atomicWord s (.atom 3 d.toNat) d b v)
  | .atomMaxN d b v => some (atomicWord s (.atom 4 d.toNat) d b v) | .atomAnd d b v => some (atomicWord s (.atom 5 d.toNat) d b v)
  | .atomOr d b v => some (atomicWord s (.atom 6 d.toNat) d b v) | .atomXor d b v => some (atomicWord s (.atom 7 d.toNat) d b v)
  | .atomXchg d b v => some (atomicWord s (.atom 8 d.toNat) d b v) | .atomAddF32 d b v => some (atomicWord s (.atom 9 d.toNat) d b v)
  | .atomCas d b v => some (atomicWord s (.atom 10 (2 * d.toNat)) (d.zeroExtend 7 <<< 1) b v)
  | .redAdd d b v => some (atomicWord s (.red 11 false) d b v) | .redMinI d b v => some (atomicWord s (.red 12 false) d b v)
  | .redMinN d b v => some (atomicWord s (.red 12 true) d b v) | .redMaxI d b v => some (atomicWord s (.red 13 false) d b v)
  | .redMaxN d b v => some (atomicWord s (.red 13 true) d b v) | .redAnd d b v => some (atomicWord s (.red 14 false) d b v)
  | .redOr d b v => some (atomicWord s (.red 14 true) d b v) | .redXor d b v => some (atomicWord s (.red 15 false) d b v)
  | .redAddF32 d b v => some (atomicWord s (.red 15 true) d b v)
  | _ => none

/-- A word's lanes have all passed their checks, what it touches of atomic sets is settled, and its counter and the transaction table have room: the
state then, and the accesses. The group is of no redundant pair, and no lane reaches a peer's memory. -/
structure Passes (s : State) (w : MemWord) (u : State) (as : List (Nat × Access)) : Prop where
  some_lane : w.lanes ≠ []
  checked : ∃ s1, s.checkLanes w.check w.lanes = (s1, .ok as) ∧ s1.settleSets (gRanges w as) (s1.irrevocable w as) = .inl u
  room : u.mustStall w.ctr (!(entryLines (w.parts u as)).isEmpty) = false
  alone : u.old.role = .none
  here : u.running = true
  near : ∀ p ∈ w.parts u as, p.loc.isRemote = false

/-- The operation that a memory word begins: of a store's lanes that write one place only the highest takes part (R149); it holds an entry for each of its
lines, in order, as far as entries are free, and waits for the rest (R159, R174); a write to a tentative task's lines is tentative (R204). -/
def opOf (s : State) (w : MemWord) (as : List (Nat × Access)) (st : OpState) : Op :=
  let ps := if w.kind = .store then lastWrites (w.parts s as) else w.parts s as
  let ls := entryLines ps
  let free := s.dev.entriesFree s.iss.core s.iss.slot
  { core := s.iss.core, slot := s.iss.slot, task := s.taskId, ctr := w.ctr, kind := w.kind, parts := ps, scope := w.wide as,
    pos := s.iss.pos, st := st, waits := ls.drop free, held := ls.take free
    tent := decide (s.iss.slot ≠ handlerSlot) && s.dev.tentative s.taskId && w.kind.writes && ps.any (fun p => decide (p.loc.sp = .hbm)) }

/-- A new operation stands in the table, its registers are not ready, its counter, if any, has risen, and nothing else has changed: no register, no byte of
memory. -/
structure Begun (s t : State) (o : Op) (regs : List RegName) (counted : Bool) : Prop where
  op : Tab.find t.dev.ops s.dev.nextOp = some o
  ops : ∀ k, k ≠ s.dev.nextOp → Tab.find t.dev.ops k = Tab.find s.dev.ops k
  dev : t.dev = { s.dev with ops := t.dev.ops, nextOp := s.dev.nextOp + 1, groups := t.dev.groups }
  iss : t.iss = s.iss
  agenda : t.agenda = s.agenda
  others : ∀ k, k ≠ gkey s.iss.core s.iss.slot → Tab.find t.dev.groups k = Tab.find s.dev.groups k
  grp : t.grp = { s.grp with
    notReady := t.grp.notReady, totals := t.grp.totals, cl := t.grp.cl, cs := t.grp.cs, cc := t.grp.cc, ct := t.grp.ct }
  awaited : ∀ r ∈ regs, (r, s.dev.nextOp) ∈ t.grp.notReady
  ready : ∀ r k, r ∉ regs → ((r, k) ∈ t.grp.notReady ↔ (r, k) ∈ s.grp.notReady)
  counts : ∀ c, (t.grp.count c).map (fun x => (x.op, x.ended)) =
    (s.grp.count c).map (fun x => (x.op, x.ended)) ++ (if c = o.ctr ∧ counted = true then [(s.dev.nextOp, false)] else [])

/-- The word acts as R148 and R170 say of a memory word: nothing with no acting lane, a trap where a lane fails, else an operation begins. -/
def EntersCounter (s : State) (i : Instr) (w : MemWord) : Prop :=
  (w.lanes = [] → exec i s = .next s)
  ∧ (∀ s1 f, w.lanes ≠ [] → s.checkLanes w.check w.lanes = (s1, .error f) → exec i s = .next (s1.takeTrap f))
  ∧ (∀ u as, Passes s w u as → ∃ t, exec i s = .next t ∧ Begun u t (opOf u w as .going) w.regs true)

/-- No core holds a partial value of a reduction. -/
def noPartials (d : Dev) : Prop := ∀ c, (d.core c).upart = []

/-- A place in a memory of the device itself. -/
def Plain (l : Loc) : Prop := (l.sp = .hbm ∨ l.sp = .cxl ∨ l.sp = .kmem) ∧ l.own = 0

/-! ## The matrix engine and the device's own steps -/

/-- What a matrix-queue entry is, apart from how far it has come. -/
def entryKey (e : MxEntry) : Nat × Nat × Nat × MxKind × Nat := (e.id, e.task, e.slot, e.kind, e.op)

/-- A new entry stands last in its core's matrix queue, CT counts it, the registers it will write are not ready, and no register, tile or byte of memory has
changed. -/
structure Queued (s t : State) (k : MxKind) (regs : List RegName) : Prop where
  iss : t.iss = s.iss
  agenda : t.agenda = s.agenda
  queue : ((t.dev.core s.iss.core).mq).map entryKey =
    ((s.dev.core s.iss.core).mq).map entryKey ++ [(s.dev.nextEntry, s.taskId, s.iss.slot, k, s.dev.nextOp)]
  counted : t.grp.ct.map (fun c => (c.op, c.ended)) = s.grp.ct.map (fun c => (c.op, c.ended)) ++ [(s.dev.nextOp, false)]
  awaited : ∀ r ∈ regs, (r, s.dev.nextOp) ∈ t.grp.notReady
  regs_ : t.grp.regs = s.grp.regs
  tasks : t.dev.tasks = s.dev.tasks
  memory : SameMemory s.dev t.dev

/-- A matrix word whose checks pass joins the queue when the sets it touches are settled and queue and counter have room; with no room it stalls. -/
def JoinsQueue (s : State) (i : Instr) (k : MxKind) (ranges : List (Nat × Nat)) (irr : Bool) (regs : List RegName) : Prop :=
  ∀ u, s.settleSets ranges irr = .inl u → u.running = true →
    ((u.dev.core u.iss.core).queued.length < 8 → u.mustStall .ct false = false → u.iss.core = s.iss.core → u.iss.slot = s.iss.slot →
      s.taskId = u.taskId → ∃ t, exec i s = .next t ∧ Queued u t k regs)
    ∧ (8 ≤ (u.dev.core s.iss.core).queued.length → exec i s = .next (u.stall .stallEngine id))

/-- A step of the device that leaves it as said, and the rest of the machine as it was. -/
def Makes (s : State) (i : Instr) (d : Dev) : Prop := exec i s = .next { s with dev := d }

/-- A step whose condition does not hold: nothing changes (log entry 5). -/
def NotDue (s : State) (i : Instr) : Prop := exec i s = .next s

/-- The first of the rows of the opcode table that share an instruction's word (R318, R319, R323, R290, R384, R357). -/
def firstOfRow : Instr → Instr
  | .mbindUnbind d a b => .mbindBind d a b
  | .mboxqClearOverflow d a => .mboxqRead d a
  | .mboxqDiscardPending d a => .mboxqRead d a
  | .qcfgDisable d a b => .qcfgConfigure d a b
  | .qcfgMask d a b => .qcfgConfigure d a b
  | .qcfgRead d a b => .qcfgConfigure d a b
  | .tlbiAsn a b => .tlbiPage a b
  | .tlbiWorld a b => .tlbiPage a b
  | .tlbiAll a b => .tlbiPage a b
  | .wlatchSet d a => .wlatchRead d a
  | .boostEnd d a b => .boostGrant d a b
  | i => i

/-- The group's stores that issued before its issue group have been performed and none of its earlier ones has failed; no word ahead in the issue group
has brought one (R173, R178). -/
def StoresDone (s : State) : Prop :=
  s.old.coveredFailure (s.old.covers [63, 0, 63, 63]) = none ∧ s.iss.base.storesOut s.iss.core s.iss.slot = false
    ∧ s.dev.storesOut s.iss.core s.iss.slot = false

/-- A word's scalar result, given over a state that its record's load (or HERR) left. -/
def Leaves (s : State) (i : Instr) (u : State) (d : SReg) (x : W64) : Prop := ∃ t, exec i s = .next t ∧ SWritten u t d x

end Sys2Proof.Claims

open Sys2Proof Sys2Proof.Machine Sys2Proof.Claims

/-! ## Lanes -/

/-- R123, R124: the integer words with every modifier. -/
def Obligations.IntegerWordsGiveTheExactResultFinished : Prop :=
  IntWord .iadd true false (fun _ _ _ x y => x + y)
  ∧ IntWord .isub true false (fun _ _ _ x y => x - y)
  ∧ IntWord .imul true false (fun _ _ _ x y => x * y)
  ∧ IntWord .imulhI true false (fun _ _ _ x y => x * y / 2 ^ 32)
  ∧ IntWord .imulhN false true (fun _ _ _ x y => x * y / 2 ^ 32)
  ∧ IntWord .imad true false (fun s d i x y => (s.rdV d i).toInt + x * y)
  ∧ IntWord .iminI true false (fun _ _ _ x y => min x y)
  ∧ IntWord .iminN false true (fun _ _ _ x y => min x y)
  ∧ IntWord .imaxI true false (fun _ _ _ x y => max x y)
  ∧ IntWord .imaxN false true (fun _ _ _ x y => max x y)
  ∧ IntWord .iabsd true false (fun _ _ _ x y => ((x - y).natAbs : Int))
  ∧ IntImmWord .iaddi (fun x y => x + y) ∧ IntImmWord .imuli (fun x y => x * y)

/-- R123, R124: without a modifier's fields the words wrap to 32 bits. R67: saturation clamps a 32-bit integer result to the signed or the unsigned range. -/
def Obligations.PlainIntegerWordsWrap : Prop :=
  (∀ (s : State) (d a b : VReg), s.running = true → s.amod = AMod.none →
      GivesV s (.iadd d a b) d s.acting (fun i => s.rdV a i + s.rdV b i)
      ∧ GivesV s (.isub d a b) d s.acting (fun i => s.rdV a i - s.rdV b i)
      ∧ GivesV s (.imul d a b) d s.acting (fun i => s.rdV a i * s.rdV b i)
      ∧ GivesV s (.imad d a b) d s.acting (fun i => s.rdV d i + s.rdV a i * s.rdV b i)
      ∧ GivesV s (.imulhN d a b) d s.acting (fun i => (((s.rdV a i).zeroExtend 64 * (s.rdV b i).zeroExtend 64) >>> 32).truncate 32))
  ∧ (∀ (s : State) (x : Int) (u : Bool), s.amod.sat = true → s.amod.k = 0 →
      let lo := if u then 0 else loI32
      let hi := if u then hiN32 else hiI32
      s.finInt u x = BitVec.ofInt 32 (max lo (min hi x)))

/-- R125: IADDC and ISUBB take P7 as carry or borrow in each lane and leave it there. -/
def Obligations.CarryWordsChainThroughP7 : Prop :=
  ∀ (s : State) (d a b : VReg) (sub : Bool), s.running = true →
    let c (i : Nat) : Int := if (s.rdP 7).getLsbD i then 1 else 0
    let x (i : Nat) : Int := if sub then s.intA false a i - s.intB false b i - c i else s.intA false a i + s.intB false b i + c i
    ∃ t, exec (if sub then .isubb d a b else .iaddc d a b) s = .next t ∧ OnlyRegs s t ∧ t.iss.raised = s.iss.raised
      ∧ t.grp.regs = { s.grp.regs with v := t.grp.regs.v, p := t.grp.regs.p }
      ∧ (∀ (r : VReg) (i : Nat), i < 32 → t.grp.regs.readV r.toNat i =
          if r = d ∧ r ≠ 127 ∧ s.acting.getLsbD i = true then s.finInt false (x i) else s.grp.regs.readV r.toNat i)
      ∧ (∀ (r : PReg) (i : Nat), i < 32 → (t.grp.regs.readP r.toNat).getLsbD i =
          if r = 7 ∧ s.acting.getLsbD i = true then (if sub then decide (x i < 0) else decide (2 ^ 32 ≤ x i)) else (s.grp.regs.readP r.toNat).getLsbD i)

/-- R124, R126 to R129, R133: words on the bits of each lane. -/
def Obligations.BitWordsActLaneByLane : Prop :=
  BitWord .and (fun x y => x &&& y) ∧ BitWord .or (fun x y => x ||| y) ∧ BitWord .xor (fun x y => x ^^^ y)
  ∧ BitWord .andn (fun x y => x &&& ~~~y) ∧ BitWord .orn (fun x y => x ||| ~~~y) ∧ BitWord .xnor (fun x y => ~~~(x ^^^ y))
  ∧ BitWord .shl (fun x y => if 32 ≤ y.toNat % 256 then 0 else x <<< (y.toNat % 256))
  ∧ BitWord .shr (fun x y => if 32 ≤ y.toNat % 256 then 0 else x >>> (y.toNat % 256))
  ∧ BitWord .sra (fun x y => if 32 ≤ y.toNat % 256 then (if x.msb then -1 else 0) else x.sshiftRight (y.toNat % 256))
  ∧ BitWord .rotl (fun x y => x.rotateLeft (y.toNat % 32))
  ∧ BitWord .bfeI (bfe true) ∧ BitWord .bfeN (bfe false)
  ∧ BitWord1 .popc popCount ∧ BitWord1 .clz leadingZeros ∧ BitWord1 .brev bitReverse ∧ BitWord1 .mov (fun x => x)
  ∧ BitImmWord .andi (fun x i => x &&& i.signExtend 32) ∧ BitImmWord .ori (fun x i => x ||| i.signExtend 32)
  ∧ BitImmWord .xori (fun x i => x ^^^ i.signExtend 32)
  ∧ BitImmWord .shli (fun x k => x <<< k.toNat) ∧ BitImmWord .shri (fun x k => x >>> k.toNat)
  ∧ BitImmWord .srai (fun x k => x.sshiftRight k.toNat) ∧ BitImmWord .rotli (fun x k => x.rotateLeft k.toNat)
  ∧ (∀ (s : State) (d a b : VReg), s.running = true → GivesV s (.bfi d a b) d s.acting (fun i => bfi (s.rdV d i) (s.rdV a i) (s.rdV b i)))
  ∧ (∀ (s : State) (d : VReg) (i : BitVec 16), s.running = true →
      GivesV s (.movi d i) d s.acting (fun _ => i.signExtend 32)
      ∧ GivesV s (.moviHi d i) d s.acting (fun l => i ++ (s.rdV d l).truncate 16)
      ∧ GivesV s (.moviF16 d i) d s.acting (fun _ => BitVec.ofNat 32 (roundF32 (Fmt.f16.decode i.toNat)).code)
      ∧ GivesV s (.moviBf16 d i) d s.acting (fun _ =>
          if i.extractLsb' 7 8 = 0xFF ∧ i.extractLsb' 0 7 ≠ 0 then 0x7FC00000 else i ++ (0 : BitVec 16)))
  ∧ (∀ (s : State) (d a b : VReg), s.running = true →
      GivesV s (.sel d a b) d s.iss.mask (fun i => if s.acting.getLsbD i then s.rdV a i else s.rdV b i))

/-- R72, R130 to R132: comparisons and predicate words set the lanes in which they act and leave the others. -/
def Obligations.ComparisonsWriteTheirLanes : Prop :=
  ∀ (s : State) (p q r : PReg) (a b : VReg) (n : BitVec 4) (m : BitVec 3), s.running = true →
    (∃ x, GivesP s (.icmp n p a b) p s.acting x ∧ ∀ i, i < 32 → x.getLsbD i = icond n.toNat (s.rdV a i) (s.rdV b i))
    ∧ (∃ x, GivesP s (.fcmp m p a b) p s.acting x ∧ ∀ i, i < 32 → x.getLsbD i =
        fcond m.toNat (Fmt.f32.decode (s.rdV a i).toNat) (Fmt.f32.decode (s.rdV b i).toNat))
    ∧ GivesP s (.pand p q r) p s.acting (s.rdP q &&& s.rdP r) ∧ GivesP s (.por p q r) p s.acting (s.rdP q ||| s.rdP r)
    ∧ GivesP s (.pxor p q r) p s.acting (s.rdP q ^^^ s.rdP r) ∧ GivesP s (.pnot p q) p s.acting (~~~(s.rdP q))
    ∧ GivesP s (.pmov p q) p s.acting (s.rdP q)

/-- R134 to R136: the F32 words, each result rounded once; FCLASS by the class of its modified source. -/
def Obligations.FloatWordsRoundOnce : Prop :=
  Float2Word .fadd (fun md x y => xsum md.mode [x, y]) ∧ Float2Word .fsub (fun md x y => xsum md.mode [x, y.neg])
  ∧ Float2Word .fmul (fun _ x y => xmul x y)
  ∧ Float2Word .fmin (fun _ x y => (xpick false false x y, false)) ∧ Float2Word .fmax (fun _ x y => (xpick true false x y, false))
  ∧ Float2Word .fminm (fun _ x y => (xpick false true x y, false)) ∧ Float2Word .fmaxm (fun _ x y => (xpick true true x y, false))
  ∧ Float1Word .frcp opRcp ∧ Float1Word .fsqrt opSqrt ∧ Float1Word .frsq opRsq ∧ Float1Word .fexp2 opExp2 ∧ Float1Word .flog2 opLog2
  ∧ (∀ (s : State) (d a b : VReg), s.running = true → FloatLanes s (.ffma d a b) d (fun l =>
      let p := xmul (srcA s a l) (srcB s b l)
      let r := xsum s.amod.mode [Fmt.f32.decode (s.rdV d l).toNat, p.1]
      finF .f32 s.amod (r.1, p.2 || r.2)))
  ∧ (∀ (s : State) (d a : VReg), s.running = true → GivesV s (.fclass d a) d s.acting (fun l =>
      BitVec.ofNat 32 (fclass (signEdit s.amod.absA s.amod.negA 31 (s.rdV a l).toNat))))

/-- R137: the packed words act on the two 16-bit elements of each lane apart. -/
def Obligations.PackedWordsActOnEachHalf : Prop :=
  ∀ fm ∈ [Fmt.f16, Fmt.bf16],
    let w (f b : VReg → VReg → VReg → Instr) : VReg → VReg → VReg → Instr := if fm = Fmt.f16 then f else b
    PackedWord fm (w .faddF16x2 .faddBf16x2) (fun md _ x y => opAdd md x y)
    ∧ PackedWord fm (w .fsubF16x2 .fsubBf16x2) (fun md _ x y => opSub md x y)
    ∧ PackedWord fm (w .fmulF16x2 .fmulBf16x2) (fun md _ x y => opMul md x y)
    ∧ PackedWord fm (w .ffmaF16x2 .ffmaBf16x2) opFma
    ∧ PackedWord fm (w .fminF16x2 .fminBf16x2) (fun _ _ x y => (xpick false false x y, false))
    ∧ PackedWord fm (w .fmaxF16x2 .fmaxBf16x2) (fun _ _ x y => (xpick true false x y, false))

/-- R138, R139: dot products total exactly and finish once. -/
def Obligations.DotProductsRoundTheExactTotal : Prop :=
  ∀ (s : State) (d a b : VReg), s.running = true →
    (let el (sgn : Bool) (x : W32) (e : Nat) : Int := if sgn then (x.extractLsb' (8 * e) 8).toInt else ((x.extractLsb' (8 * e) 8).toNat : Int)
     let pr (u v : Bool) (l e : Nat) : Int :=
       srcInt s.amod.absA s.amod.negA (el u (s.rdV a l) e) * srcInt s.amod.absB s.amod.negB (el v (s.rdV b l) e)
     let sum (u v : Bool) (l : Nat) : Int := pr u v l 0 + pr u v l 1 + pr u v l 2 + pr u v l 3
     GivesV s (.idot4I8 d a b) d s.acting (fun l => s.finInt false ((s.rdV d l).toInt + sum true true l))
     ∧ GivesV s (.idot4N8 d a b) d s.acting (fun l => s.finInt true ((s.rdV d l).toNat + sum false false l))
     ∧ GivesV s (.idot4In d a b) d s.acting (fun l => s.finInt false ((s.rdV d l).toInt + sum true false l)))
    ∧ (let total (fm : Fmt) (l : Nat) : Nat × Flags :=
         let p (e : Nat) := xmul (s.amod.realA fm (half s a l e)) (s.amod.realB fm (half s b l e))
         let t := xsum s.amod.mode [Fmt.f32.decode (s.rdV d l).toNat, (p 0).1, (p 1).1]
         finF .f32 s.amod (t.1, t.2 || (p 0).2 || (p 1).2)
       FloatLanes s (.fdot2F16 d a b) d (total .f16) ∧ FloatLanes s (.fdot2Bf16 d a b) d (total .bf16))
    ∧ FloatLanes s (.ldot4L6 d a b) d (fun l =>
        finF .f32 s.amod (xsum s.amod.mode [Fmt.f32.decode (s.rdV d l).toNat, (XReal.ofInt (s.l6Dot a b l)).scale (-23)]))

/-- R140 to R142, R45: CVT by its codes, and the conversions under a scale, which read the low eight bits of S[B]. -/
def Obligations.ConversionsGoThroughTheExactValue : Prop :=
  (∀ (s : State) (x c : BitVec 4) (d a : VReg), s.running = true →
    FloatLanes s (.cvt x d a c) d (fun l => cvtLane x.toNat c.toNat s.amod (s.rdV a l).toNat))
  ∧ (let real (md : AMod) (x : Nat) : XReal := md.realA .f32 x
     ScaledWord .cvtsF32F8a (fun md sc x => finishReal .f8a .rne { md with sat := true } (unscale sc (real md x)))
     ∧ ScaledWord .cvtsF32F8b (fun md sc x => finishReal .f8b .rne { md with sat := true } (unscale sc (real md x)))
     ∧ ScaledWord .cvtsF32L6 (fun md sc x => toL6 md.mode (decide (sc = 0xFF)) ((unscale sc (real md x)).scale md.k)))
  ∧ ScaledWord .cvtsF8aF32 (fun md sc x => finishReal .f32 .rne md (rescale sc (srcReal md.absA md.negA (Fmt.f8a.decode (x % 256)))))
  ∧ ScaledWord .cvtsF8bF32 (fun md sc x => finishReal .f32 .rne md (rescale sc (srcReal md.absA md.negA (Fmt.f8b.decode (x % 256)))))
  ∧ ScaledWord .cvtsL6F32 (fun md sc x => finishReal .f32 .rne md (rescale sc (srcReal md.absA md.negA (l6Value (x % 64)))))

/-- R102 to R104: quads and lane exchange; a slide that leaves its segment gives 0. -/
def Obligations.LanesMoveAsNamed : Prop :=
  MoveWord .qswx (fun s a i => s.rdV a (i ^^^ 1)) ∧ MoveWord .qswy (fun s a i => s.rdV a (i ^^^ 2)) ∧ MoveWord .qswd (fun s a i => s.rdV a (i ^^^ 3))
  ∧ (∀ n : BitVec 2, MoveWord (fun d a => .qbcast d a n) (fun s a i => s.rdV a (i / 4 * 4 + n.toNat)))
  ∧ (let n (c : W32) : Nat := c.toNat % 32
     let w (c : W32) : Nat := 2 ^ min (c.toNat / 32 % 8) 5
     let base (c : W32) (i : Nat) : Nat := i / w c * w c
     ExchangeWord .lxchPick (fun c _ => some (n c))
     ∧ ExchangeWord .lxchRot (fun c i => some (base c i + (i - base c i + n c) % w c))
     ∧ ExchangeWord .lxchRev (fun c i => some (base c i + (w c - 1 - (i - base c i))))
     ∧ ExchangeWord .lxchSlide (fun c i =>
         let j : Int := if c.getLsbD 8 then i + n c else (i : Int) - n c
         if (base c i : Int) ≤ j ∧ j < base c i + w c then some j.toNat else none))

/-- R105, R106: reductions give every acting lane the one result, scans each prefix; float sums are exact and round once. -/
def Obligations.ReductionsAndScansOverActingLanes : Prop :=
  ∀ (s : State) (d a : VReg), s.running = true →
    let upTo (i : Nat) : List W32 := ((lanesOf s.acting).filter (· ≤ i)).map (s.rdV a)
    GivesV s (.gredAddI d a) d s.acting (fun _ => (actingValues s a).foldl (· + ·) 0)
    ∧ (∃ f, GivesV s (.gredMinI d a) d s.acting (fun _ => f) ∧
        (s.acting ≠ 0 → f ∈ actingValues s a ∧ ∀ x ∈ actingValues s a, f.toInt ≤ x.toInt))
    ∧ (∃ f, GivesV s (.gredMaxI d a) d s.acting (fun _ => f) ∧
        (s.acting ≠ 0 → f ∈ actingValues s a ∧ ∀ x ∈ actingValues s a, x.toInt ≤ f.toInt))
    ∧ FloatLanes s (.gredAddF d a) d (fun _ => sumF (actingValues s a))
    ∧ GivesV s (.gredMinF d a) d s.acting (fun _ => pickF false (actingValues s a))
    ∧ GivesV s (.gredMaxF d a) d s.acting (fun _ => pickF true (actingValues s a))
    ∧ GivesV s (.gscanAddI d a) d s.acting (fun i => (upTo i).foldl (· + ·) 0)
    ∧ FloatLanes s (.gscanAddF d a) d (fun i => sumF (upTo i))

/-- R107: transfers between a lane and an S register. A guard is asked of the lane named; without one the lane need not be active. -/
def Obligations.TransfersBetweenLanesAndScalars : Prop :=
  ∀ (s : State) (d : VReg) (a : VReg) (x y : SReg) (n : BitVec 5), s.running = true →
    (s.takes ((s.rdS y).toNat % 32) = true → GivesS s (.xferGet x a y) x ((s.rdV a ((s.rdS y).toNat % 32)).zeroExtend 64))
    ∧ (s.takes ((s.rdS y).toNat % 32) = false → exec (.xferGet x a y) s = .next s)
    ∧ (s.acting ≠ 0 → ∃ i, s.acting.getLsbD i = true ∧ (∀ j, s.acting.getLsbD j = true → i ≤ j) ∧
        GivesS s (.xferFirst x a) x ((s.rdV a i).zeroExtend 64))
    ∧ (s.acting = 0 → exec (.xferFirst x a) s = .next s)
    ∧ (s.takes n.toNat = true → GivesV s (.xferPut d x n) d (laneBit n.toNat) (fun _ => (s.rdS x).truncate 32))
    ∧ (s.takes n.toNat = false → exec (.xferPut d x n) s = .next s)

/-! ## Scalars -/

/-- R118: 64-bit arithmetic, wrapping; shifts by 64 and more empty the register or fill it with the sign. R119: SLI replaces the 16-bit chunk it names and keeps the other three. -/
def Obligations.ScalarWordsGiveTheirResults : Prop :=
  (ScalarWord .sadd (fun x y => x + y) ∧ ScalarWord .ssub (fun x y => x - y) ∧ ScalarWord .smul (fun x y => x * y)
    ∧ ScalarWord .sand (fun x y => x &&& y) ∧ ScalarWord .sor (fun x y => x ||| y) ∧ ScalarWord .sxor (fun x y => x ^^^ y)
    ∧ ScalarWord .sandn (fun x y => x &&& ~~~y)
    ∧ ScalarWord .sshl (fun x y => if 64 ≤ y.toNat % 256 then 0 else x <<< (y.toNat % 256))
    ∧ ScalarWord .sshr (fun x y => if 64 ≤ y.toNat % 256 then 0 else x >>> (y.toNat % 256))
    ∧ ScalarWord .ssra (fun x y => if 64 ≤ y.toNat % 256 then (if x.msb then -1 else 0) else x.sshiftRight (y.toNat % 256))
    ∧ ScalarWord .smin (fun x y => BitVec.ofInt 64 (min x.toInt y.toInt)) ∧ ScalarWord .smax (fun x y => BitVec.ofInt 64 (max x.toInt y.toInt))
    ∧ (∀ (s : State) (d a b : SReg) (f : FReg) (i : BitVec 13) (n : BitVec 4) (g : FReg), s.running = true →
        GivesS s (.smov d a) d (s.rdS a) ∧ GivesS s (.ssel d a b f) d (if s.rdF f then s.rdS a else s.rdS b)
        ∧ GivesS s (.saddi d a i) d (s.rdS a + i.signExtend 64) ∧ GivesF s (.scmp n g a b) g (icond n.toNat (s.rdS a) (s.rdS b))))
  ∧ (∀ (s : State) (d : SReg) (k : BitVec 2) (i : BitVec 16), s.running = true →
      ∃ x, GivesS s (.sli d k i) d x ∧ ∀ j : Nat, j < 4 →
        x.extractLsb' (16 * j) 16 = if j = k.toNat then i else (s.rdS d).extractLsb' (16 * j) 16)

/-- R100, R116, R122: lane masks and scalars. -/
def Obligations.MasksPassBetweenLanesAndScalars : Prop :=
  ∀ (s : State) (d : SReg) (p : PReg) (f : FReg) (m : BitVec 6), s.running = true →
    GivesS s (.vtos d p) d ((s.rdP p).zeroExtend 64) ∧ GivesS s (.ballot d p) d ((s.rdP p &&& s.iss.mask).zeroExtend 64)
    ∧ GivesP s (.stov p d) p s.iss.mask ((s.rdS d).truncate 32)
    ∧ (s.iss.mask ≠ 0 → ∃ i, s.iss.mask.getLsbD i = true ∧ (∀ j, s.iss.mask.getLsbD j = true → i ≤ j) ∧ GivesS s (.elect d) d (BitVec.ofNat 64 i))
    ∧ (let a := (lanesOf s.iss.mask).length
       let t := (lanesOf (s.iss.mask &&& s.rdP p)).length
       GivesF s (.vote f p m) f (match m.toNat with
         | 0 => decide (t = 0)
         | 1 => decide (a < 2 * t)
         | 2 => decide (0 < t ∧ t < a)
         | 3 => (s.rdP p).getLsbD ((lanesOf s.iss.mask).headD 0)
         | 4 => (s.rdP p).getLsbD ((lanesOf s.iss.mask).getLastD 0)
         | _ => decide (t % 2 = 0)))

/-- R116, R117, R52: RDSPC gives the special register's value as the split sees it. The handler registers are those of the trap being served (R328). WRSPC sets FPFLAGS and nothing else; the flags the issue group itself raises come on top as it ends (State.closeIssue). -/
def Obligations.SpecialRegistersRead : Prop :=
  (∀ (s : State) (d : SReg) (n : BitVec 8), s.running = true →
      GivesS s (.rdspc d n) d (s.special n.toNat)
      ∧ s.special 0 = BitVec.ofNat 64 s.iss.mask.toNat ∧ s.special 6 = BitVec.ofNat 64 s.iss.core
      ∧ s.special 8 = BitVec.ofNat 64 (s.iss.core / 8) ∧ s.special 9 = BitVec.ofNat 64 (s.iss.core / 64)
      ∧ s.special 7 = BitVec.ofNat 64 (s.iss.core / 2 % 4)
      ∧ s.special 12 = BitVec.ofNat 64 s.old.regs.sig.toNat ∧ s.special 13 = BitVec.ofNat 64 s.old.regs.flags.toNat
      ∧ (∀ t r, (s.dev.core s.iss.core).serving = some (t, r) → r.slot < 32 → r.split < 4 → r.lane < 32 →
          s.special 129 = BitVec.ofNat 64 (r.pos.word * 2 ^ 54 + r.pos.pc) ∧ s.special 130 = BitVec.ofNat 64 r.orig
          ∧ s.special 131 = BitVec.ofNat 64 r.addr ∧ s.special 132 = BitVec.ofNat 64 r.tkt
          ∧ (s.special 133).extractLsb' 32 32 = r.mask ∧ (s.special 133).extractLsb' 0 5 = BitVec.ofNat 5 r.slot
          ∧ (s.special 133).extractLsb' 5 2 = BitVec.ofNat 2 r.split ∧ (s.special 133).extractLsb' 16 5 = BitVec.ofNat 5 r.lane))
  ∧ (∀ (s : State) (a : SReg), s.running = true → ∃ t, exec (.wrspc a 13) s = .next t ∧ OnlyRegs s t ∧ t.iss = s.iss
      ∧ t.grp.regs = { s.grp.regs with flags := (s.rdS a).extractLsb' 0 5 })

/-- R345: PROBE's value: bit 63 says that the longest wait lasted longer than parameter 0, bit 62 that a wait cycle was reported, and the low
bits give that wait's kind. -/
def Obligations.ProbeReportsTheLongestWait : Prop :=
  ∀ (s : State) (d : SReg), s.running = true →
    let w := longest (s.dev.waits s.taskId)
    GivesS s (.probe d) d (BitVec.ofNat 64 ((if w.1 ≠ 0 ∧ s.dev.param 0 ≤ w.2 then 2 ^ 63 else 0)
        + (if (s.dev.task? s.taskId).any (fun t => t.cyc) then 2 ^ 62 else 0) + w.1))
    ∧ (s.dev.waits s.taskId ≠ [] → w ∈ s.dev.waits s.taskId ∧ ∀ v ∈ s.dev.waits s.taskId, v.2 ≤ w.2)

/-! ## Control -/

/-- R63 to R65, R68: a modifier word is kept for the word after it: its guard, scope, cache field, offset and arithmetic fields hold there. -/
def Obligations.ModifiersHoldForTheNextWord : Prop :=
  ∀ (s : State) (g : PReg) (e tt n m a b : BitVec 1) (r l c : BitVec 2) (k : BitVec 5) (sc : BitVec 3) (o : BitVec 15),
    let lanes := if g = 0 then BitVec.allOnes 32 else if e = 1 then ~~~(s.rdP g) else s.rdP g
    (∃ t, exec (.modArithmetic g e r tt l n m a b k) s = .next t ∧ t = { s with iss := { s.iss with mod := t.iss.mod } }
      ∧ t.acting = s.iss.mask &&& lanes
      ∧ t.amod = { r := r.toNat, sat := decide (tt = 1), clamp := l.toNat, negA := decide (n = 1), negB := decide (m = 1),
                   absA := decide (a = 1), absB := decide (b = 1), k := k.toInt })
    ∧ (∃ t, exec (.modMemory g e sc c o) s = .next t ∧ t = { s with iss := { s.iss with mod := t.iss.mod } }
      ∧ t.acting = s.iss.mask &&& lanes ∧ (∀ d, t.scopeOr d = sc.toNat) ∧ t.cacheField = c.toNat ∧ t.offset = o.toInt)
    ∧ (s.iss.mod = none → s.acting = s.iss.mask ∧ s.amod = AMod.none ∧ (∀ d, s.scopeOr d = d) ∧ s.cacheField = 0 ∧ s.offset = 0)

/-- R88, R89, R96, R97, R99, R100: NOP, the branches, and LOOP, which counts down on 64 bits. -/
def Obligations.BranchesSteerTheSplit : Prop :=
  ∀ (s : State) (e : BitVec 1) (f : FReg) (p : PReg) (o : BitVec 21) (d : SReg) (i : BitVec 13), s.running = true →
    FallsThrough s .nop ∧ GoesTo s (.bra o) (branchTarget s o.toInt)
    ∧ (s.rdF f = !(e == 1#1) → GoesTo s (.brf e f o) (branchTarget s o.toInt))
    ∧ (s.rdF f = (e == 1#1) → FallsThrough s (.brf e f o))
    ∧ (let taken := s.iss.mask &&& (if e = 1 then ~~~(s.rdP p) else s.rdP p)
       (taken = s.iss.mask → GoesTo s (.brv e p o) (branchTarget s o.toInt))
       ∧ (taken ≠ s.iss.mask → taken = 0 → FallsThrough s (.brv e p o))
       ∧ (taken ≠ s.iss.mask → taken ≠ 0 → s.old.live < 4 ∨ s.old.stack.length < 16 →
           Steers s (.brv e p o) { s.iss with divide := some (taken, branchTarget s o.toInt) })
       ∧ (taken ≠ s.iss.mask → taken ≠ 0 → s.old.live = 4 → 16 ≤ s.old.stack.length → Traps s (.brv e p o) 0x04))
    ∧ (let v := s.rdS d - 1
       ∃ t u, exec (.loop d i) s = .next t ∧ SWritten s u d v
         ∧ t = { u with iss := { u.iss with target := if v = 0 then u.iss.target else some (branchTarget s i.toInt) } })

/-- R57, R58, R95, R98: jumps through registers ignore bits 63 to 54, calls leave the packet after their own in S63, and a target that is no multiple of
12 traps with nothing written. -/
def Obligations.CallsAndJumps : Prop :=
  ∀ (s : State) (a : SReg) (o : BitVec 21), s.running = true →
    let dest (x : W64) : Nat := x.toNat % 2 ^ 54
    let back : W64 := BitVec.ofNat 64 ((s.iss.pos.pc + 12) % 2 ^ 54)
    let linked (i : Instr) (pc : Nat) : Prop := ∃ t u, exec i s = .next t ∧ SWritten s u 63 back ∧ t = { u with iss := { u.iss with target := some pc } }
    linked (.call o) (branchTarget s o.toInt)
    ∧ (dest (s.rdS a) % 12 = 0 → GoesTo s (.jmpi a) (dest (s.rdS a)) ∧ linked (.calli a) (dest (s.rdS a)))
    ∧ (dest (s.rdS 63) % 12 = 0 → GoesTo s .ret (dest (s.rdS 63)))
    ∧ (dest (s.rdS a) % 12 ≠ 0 → Traps s (.jmpi a) 0x03 ∧ Traps s (.calli a) 0x03)
    ∧ (dest (s.rdS 63) % 12 ≠ 0 → Traps s .ret 0x03)

/-- R92, R93, R175, R337, R338: JOIN, TRET, and YLD while PREQ reads 1 park the split; EXIT ends it; TRAP leaves its code for the group's end; WAITC
parks the split unless every counter is at or below its field. -/
def Obligations.WaitsParkTheSplit : Prop :=
  ∀ (s : State) (l c p t : BitVec 6) (k : BitVec 12),
    Waits s .join .join ∧ Waits s .tret .tret ∧ Steers s .exit { s.iss with exits := true } ∧ Steers s (.trap k) { s.iss with trapCode := some k.toNat }
    ∧ ((s.dev.task? s.taskId).any (fun x => x.deadlineFrom.isSome) = true → s.iss.slot ≠ handlerSlot → Waits s .yld .yld)
    ∧ (s.iss.slot = handlerSlot → FallsThrough s .yld)
    ∧ ((s.dev.task? s.taskId).any (fun x => x.deadlineFrom.isSome) = false →
        ((s.dev.cluster (clusterOf s.iss.core)).drain = none → FallsThrough s .yld)
        ∧ (∀ z, (s.dev.cluster (clusterOf s.iss.core)).drain = some z → s.iss.slot ≠ handlerSlot → Waits s .yld (.drain z)))
    ∧ (let cov := s.old.covers [l.toNat, c.toNat, p.toNat, t.toNat]
       let done := s.old.cl.length ≤ l.toNat ∧ s.old.cs.length ≤ c.toNat ∧ s.old.cc.length ≤ p.toNat ∧ s.old.ct.length ≤ t.toNat
       (s.paired = true → s.pairHeld ≤ c.toNat) → s.coversDeferred cov = false →
         (done → s.old.coveredFailure cov = none → FallsThrough s (.waitc l c p t))
         ∧ (done → ∀ f, s.old.coveredFailure cov = some f → exec (.waitc l c p t) s = .next (s.takeFailure f))
         ∧ (¬ done → Waits s (.waitc l c p t) (.waitc l.toNat c.toNat p.toNat t.toNat cov)))

/-- R404: SIGCHK clears a SIG that folds to its immediate, and otherwise traps with SIG kept. -/
def Obligations.SignatureChecks : Prop :=
  ∀ (s : State) (i : BitVec 16), s.running = true →
    let fold := s.old.regs.sig.extractLsb' 16 16 ^^^ s.old.regs.sig.extractLsb' 0 16
    (fold = i → ∃ t, exec (.sigchk i) s = .next t ∧ OnlyRegs s t ∧ t.iss = s.iss ∧ t.grp.regs = { s.grp.regs with sig := 0 })
    ∧ (fold ≠ i → s.paired = false → Traps s (.sigchk i) 0x13)
    ∧ (fold ≠ i → s.paired = true → exec (.sigchk i) s = .next s.mismatch)

/-- R52, R57, R88, R89, R93: what becomes of the split when its issue group closes: FPFLAGS take the flags raised, and the split ends, moves, or divides. -/
def Obligations.ClosingAnIssueGroup : Prop :=
  ∀ s : State, s.running = true → s.iss.split < 4 → s.grp.splits.length = 4 → s.grp.role = .none → s.iss.trapCode = none →
    let g := s.closeIssue.dev.group s.iss.core s.iss.slot
    let at_ (k : Nat) (m : W32) (pos : Pos) : Prop :=
      ∃ x, g.splits.getD k none = some x ∧ x.mask = m ∧ x.pos = pos ∧ x.park = s.waitsOf.headD .running
        ∧ x.later = (s.waitsOf.map (fun p => (p, s.iss.pos))).tail ∧ x.waitCount = 0 ∧ x.exiting = s.iss.exits
    s.closeIssue.iss = Issue.closed ∧ s.closeIssue.agenda = s.agenda
    ∧ s.closeIssue.dev = { s.dev with groups := s.closeIssue.dev.groups }
    ∧ g.regs = { s.grp.regs with flags := s.grp.regs.flags ||| s.iss.raised }
    ∧ (s.iss.exits = true → s.waitsOf.headD .running = .running → g.splits.getD s.iss.split none = none ∧ g.exitPos = s.iss.pos ∧ g.stack = s.grp.stack)
    ∧ (s.iss.exits = true → s.waitsOf.headD .running ≠ .running → at_ s.iss.split s.iss.mask s.iss.fall ∧ g.stack = s.grp.stack)
    ∧ (s.iss.exits = false → s.iss.divide = none → g.stack = s.grp.stack ∧
        at_ s.iss.split s.iss.mask (match s.iss.target with
          | some pc => { pc := pc, word := 0 }
          | none => s.iss.fall))
    ∧ (∀ m pc, s.iss.exits = false → s.iss.divide = some (m, pc) →
        (∀ k, k < 4 → k ≠ s.iss.split → s.grp.splits.getD k none = none → (∀ j, j < k → s.grp.splits.getD j none ≠ none) →
          s.grp.splits.getD s.iss.split none ≠ none →
          at_ k m { pc := pc, word := 0 } ∧ at_ s.iss.split (s.iss.mask &&& ~~~m) s.iss.fall ∧ g.stack = s.grp.stack)
        ∧ ((∀ k, k < 4 → s.grp.splits.getD k none ≠ none) →
          at_ s.iss.split m { pc := pc, word := 0 } ∧ g.stack.tail = s.grp.stack
          ∧ (g.stack.head?).map (fun e => (e.mask, e.word)) = some (s.iss.mask &&& ~~~m, s.iss.fall.word)))

/-! ## Memory -/

/-- R148, R160 to R163, R170, R187, R188: every load, store, atomic and reduction. -/
def Obligations.MemoryWordsEnterTheirCounters : Prop :=
  ∀ (s : State) (i : Instr) (w : MemWord), accessOf s i = some w → EntersCounter s i w

/-- R144, R148: the checks of an access to the P, S and C levels are of its bounds first, then of its alignment, and change nothing. -/
def Obligations.LevelAccessesAreCheckedInOrder : Prop :=
  ∀ (s : State) (k : AccKind) (lane off n : Nat), ∀ lv ∈ [Level.p, Level.s, Level.c],
    let r := s.checkAt lv k lane off off n
    let ext := s.dev.extent s.iss.core s.iss.slot lv
    r.1 = s
    ∧ (ext < off + n → r.2 = .error (checkInfo 0x06 k off lane))
    ∧ (off + n ≤ ext → off % n ≠ 0 → r.2 = .error (checkInfo 0x08 k off lane))
    ∧ (off + n ≤ ext → off % n = 0 → ∃ a, r.2 = .ok a ∧ a.lv = lv ∧ a.leaf = 0 ∧ a.loc =
        (match lv with
          | .p => { sp := .pmem, own := s.dev.taskAt s.iss.core s.iss.slot, a := 4096 * (32 * s.dev.sliceIndex s.iss.core s.iss.slot + lane) + off }
          | .s => { sp := .smem, own := s.dev.taskAt s.iss.core s.iss.slot, a := off }
          | _ => { sp := .cmem, own := ((s.dev.task? (s.dev.taskAt s.iss.core s.iss.slot)).map (fun t => t.gang)).getD 0, a := off }))

/-- R178, R179: ACQLD is a load whose split waits until CL is 0, RELST a store held until CS is 0; both wait even when no lane acts, and neither
when a lane fails. -/
def Obligations.AcquireAndRelease : Prop :=
  ∀ (s : State) (d : VReg) (b : SReg) (v : VReg) (x : BitVec 1), s.iss.open_ = true →
    let l := genericWord s false d b v x
    let w := genericWord s true d b v x
    let cov := s.grp.covers [63, 0, 63, 63]
    (l.lanes = [] → Waits s (.acqld d b v x) (.acqld (s.scopeOr 3) (s.grp.covers [0, 63, 63, 63]))
      ∧ (s.old.role = .none → s.running = true → ∃ t o, Begun s t o [] false ∧ o.parts = [] ∧ o.st = OpState.held ∧ o.ctr = .cs ∧
          exec (.relst d b v x) s = .next (t.park (.relst s.dev.nextOp (s.scopeOr 3) cov))))
    ∧ (∀ s1 f, l.lanes ≠ [] → s.checkLanes l.check l.lanes = (s1, .error f) → exec (.acqld d b v x) s = .next (s1.takeTrap f))
    ∧ (∀ s1 f, w.lanes ≠ [] → s.checkLanes w.check w.lanes = (s1, .error f) → exec (.relst d b v x) s = .next (s1.takeTrap f))
    ∧ (∀ u as, Passes s l u as → u.iss.open_ = true → ∃ t, Begun u t (opOf u l as .going) l.regs true ∧
        exec (.acqld d b v x) s = .next (t.park (.acqld (s.scopeOr 3) (t.grp.covers [0, 63, 63, 63]))))
    ∧ (∀ u as, Passes s w u as → u.iss.open_ = true → s.old.role = .none → u.dev.nextOp = s.dev.nextOp →
        ∃ t, Begun u t (opOf u w as .held) [] false ∧
          exec (.relst d b v x) s = .next (t.park (.relst s.dev.nextOp (s.scopeOr 3) cov)))

/-- R166: BARW, BARA and BART at a barrier word: the arrival, what BARA returns, and who waits. R165, R166: an arrival counts one; the one that reaches the target turns the phase over and clears the arrivals; a word without a target, or with as many arrivals as that, is malformed. -/
def Obligations.BarrierWordsArriveAndWait : Prop :=
  (∀ (s u : State) (a : Access) (b d : SReg), s.performs = true →
      let old := u.dev.readNat a.loc 4
      let phase := decide (2 ^ 31 ≤ old)
      (∀ w, s.uniCheck barLevel .rmw b 4 = (u, .ok a) → u.old.role = .none → u.iss.base.storesOut s.iss.core s.iss.slot = false →
        u.dev.storesOut s.iss.core s.iss.slot = false → u.dev.engineHolds a.loc 4 = false → barArrive old = some w →
        let t : State := { u with dev := u.dev.perform a.loc (Bytes.ofNat 4 w) }
        let now := decide (2 ^ 31 ≤ t.dev.readNat a.loc 4 % 2 ^ 32)
        (now ≠ phase → exec (.barw b) s = .next t) ∧ (now = phase → exec (.barw b) s = .next (t.park (.barrier a.loc phase)))
        ∧ (s.mustStall .cl false = false → exec (.bara d b) s = .next ((t.wrS d (BitVec.ofNat 64 old)).countOnce .cl)))
      ∧ (s.uniCheck barLevel .rmw b 4 = (u, .ok a) → u.old.role = .none → u.iss.base.storesOut s.iss.core s.iss.slot = false →
        u.dev.storesOut s.iss.core s.iss.slot = false → u.dev.engineHolds a.loc 4 = false → barArrive old = none →
        let tr := checkInfo 0x0A .rmw (s.uniAddr b) ((s.uniLanes.head?).getD 0)
        exec (.barw b) s = .next (u.takeTrap tr) ∧ (s.mustStall .cl false = false → exec (.bara d b) s = .next (u.takeTrap tr)))
      ∧ (s.uniCheck barLevel .rmw b 4 = (u, .ok a) → u.old.role = .none → u.iss.base.storesOut s.iss.core s.iss.slot = true →
        exec (.barw b) s = .next (u.stall .stallStores id) ∧ (s.mustStall .cl false = false → exec (.bara d b) s = .next (u.stall .stallStores id)))
      ∧ (s.uniCheck barLevel .read b 4 = (u, .ok a) → u.old.role = .none → u.dev.engineHolds a.loc 4 = false →
        (decide (2 ^ 31 ≤ old) ≠ (s.rdS d).getLsbD 31 → exec (.bart d b) s = .next u)
        ∧ (decide (2 ^ 31 ≤ old) = (s.rdS d).getLsbD 31 → exec (.bart d b) s = .next (u.park (.barrier a.loc ((s.rdS d).getLsbD 31))))))
  ∧ (∀ (phase : Bool) (target n : Nat), target < 2 ^ 15 → n < 2 ^ 16 →
      let word (p : Bool) (k : Nat) : Nat := (if p then 2 ^ 31 else 0) + target * 2 ^ 16 + k
      (target ≤ n → barArrive (word phase n) = none)
      ∧ (n + 1 < target → barArrive (word phase n) = some (word phase (n + 1)))
      ∧ (n + 1 = target → barArrive (word phase n) = some (word (!phase) 0)))

/-- R167: MARM watches the block of its address; MWAIT returns the word when its condition holds and disarms, and parks otherwise. -/
def Obligations.MonitorsWatchABlock : Prop :=
  ∀ (s u : State) (a : Access) (b d : SReg) (ge : Bool), s.performs = true → u.running = true →
    let i := if ge then Instr.mwaitGe d b else Instr.mwaitNe d b
    let block : Loc := { a.loc with a := a.loc.a / 128 * 128 }
    (∀ u0, s.uniCheck notP .read b 1 = (u0, .ok a) → u0.settleSets (if a.lv = .g then [(s.uniAddr b, 1)] else []) false = .inl u → u.old.role = .none →
      u.dev.engineHolds a.loc 1 = false →
      (a.loc.isRemote = false → ∃ t, exec (.marm b) s = .next t ∧ t.iss = u.iss ∧ t.grp = { u.grp with monitor := some block }
        ∧ (noPartials u.dev → SameMemory u.dev t.dev))
      ∧ (a.loc.isRemote = true → exec (.marm b) s = .next ((u.modGrp (fun g => { g with monitor := some block })).fetchBlock a (s.uniAddr b))))
    ∧ (∀ u0, s.uniCheck notP .read b 1 = (u0, .ok a) → u0.settleSets (if a.lv = .g then [(s.uniAddr b, 1)] else []) false = .inl u → u.old.role = .none →
      u.dev.engineHolds a.loc 1 = true → exec (.marm b) s = .next (u.stall .stallEngine id))
    ∧ (∀ u0, s.uniCheck notP .read b 8 = (u0, .ok a) → u0.settleSets (if a.lv = .g then [(s.uniAddr b, 8)] else []) false = .inl u → u.old.role = .none →
      u.dev.engineHolds a.loc 8 = false → a.loc.isRemote = false → u.grp.monitor = some block → noPartials u.dev →
        let w : W64 := BitVec.ofNat 64 (u.dev.seen u.iss.core u.iss.slot u.taskId u.dev.nextOp a.loc 8)
        let holds := if ge then (u.rdS d).toNat ≤ w.toNat else w ≠ u.rdS d
        ∃ t, exec i s = .next t ∧ SameMemory u.dev t.dev
          ∧ (holds → t.iss = u.iss ∧ t.grp = { u.grp with monitor := none, regs := u.grp.regs.writeS d.toNat w })
          ∧ (¬ holds → t.grp = u.grp ∧ t.iss = { u.iss with parks := u.iss.parks ++ [.mwait ge d (u.uniAddr b) (u.scopeOr 3) a.loc] }))

/-- R164: a prefetch writes no register and no byte, raises no counter and never traps; one that finds an entry of the shared part free, and an address that
translates by a TLB hit, stands as an operation of its own, which fills caches as it ends. With no entry free it is dropped. -/
def Obligations.PrefetchesOnlyFill : Prop :=
  (∀ (s : State) (b : SReg) (v : VReg) (x : BitVec 1), ∀ p ∈ [(Instr.prefL1 b v x, true), (Instr.prefL2 b v x, false)],
    (s.dev.sharedFree s.iss.core = 0 → exec p.1 s = .next s)
    ∧ (∃ t, exec p.1 s = .next t ∧ t.iss = s.iss ∧ t.agenda = s.agenda
      ∧ t.dev = { s.dev with ops := t.dev.ops, nextOp := t.dev.nextOp }
      ∧ (∀ k, k ≠ s.dev.nextOp → Tab.find t.dev.ops k = Tab.find s.dev.ops k)
      ∧ (t = s ∨ ∃ o, Tab.find t.dev.ops s.dev.nextOp = some o ∧ o.kind = .pref p.2 ∧ o.st = .going ∧ o.waits = [] ∧ o.held.length ≤ 1
          ∧ ∀ q ∈ o.parts, q.loc.isRemote = false ∧ q.lane ∈ lanesOf s.acting))
    ∧ (let place (i : Nat) : Option Access := s.dev.prefetchPlace s.iss.core s.iss.slot (s.laneAddr b v (if x = 1 then 4 else 1) i)
       s.old.role ≠ .trailer → s.dev.sharedFree s.iss.core ≠ 0 → ∀ j ∈ lanesOf s.acting, (place j).isSome = true →
         ∃ t o, exec p.1 s = .next t ∧ Tab.find t.dev.ops s.dev.nextOp = some o ∧ t.dev.nextOp = s.dev.nextOp + 1 ∧ t.dev.groups = s.dev.groups
           ∧ o.core = s.iss.core ∧ o.slot = s.iss.slot ∧ o.kind = .pref p.2 ∧ o.st = .going
           ∧ ∀ i ∈ lanesOf s.acting, ∀ a, place i = some a → ∃ q ∈ o.parts, q.lane = i ∧ q.loc = a.loc))
  ∧ (∀ (s : State) (n : Nat) (o : Op) (l1 : Bool), s.dev.op? n = some o → o.kind = .pref l1 → o.st = .going →
      (∀ q ∈ o.parts, q.loc.isRemote = false ∧ s.dev.engineHolds q.loc q.n = false) → noPartials s.dev →
      ∃ t, exec (.loadValueBound n) s = .next t ∧ t.iss = s.iss ∧ t.agenda = s.agenda ∧ SameMemory s.dev t.dev ∧ t.dev.op? n = none
        ∧ t.dev.groups = s.dev.groups ∧ t.dev.tasks = s.dev.tasks ∧ (l1 = false → t.dev.cores = s.dev.cores))

/-- R200, R207, R211: atomic sets are declared, told and made irrevocable; with no lane acting the words do nothing. -/
def Obligations.AtomicSetWords : Prop :=
  ∀ (s : State) (t : Task) (i : BitVec 4) (b l d : SReg), s.running = true → s.dev.task? s.taskId = some t →
    (s.performs = false → exec (.adecl i b l) s = .next s ∧ exec (.astat d) s = .next s ∧ exec .airrev s = .next s)
    ∧ (s.old.role = .trailer → exec (.adecl i b l) s = .next s)
    ∧ (s.performs = true → s.old.role ≠ .trailer → setValid t i.toNat (s.rdS b).toNat (s.rdS l).toNat = true → s.dev.activeSets < 4096 →
        ∃ u, exec (.adecl i b l) s = .next u ∧ u = { s with dev := { s.dev with tasks := u.dev.tasks } }
          ∧ (∀ k, k ≠ s.taskId → u.dev.task? k = s.dev.task? k)
          ∧ u.dev.task? s.taskId = some { t with
              sets := Tab.insert t.sets i.toNat { base := (s.rdS b).toNat, len := (s.rdS l).toNat, acquired := false } })
    ∧ (s.performs = true → s.old.role ≠ .trailer → setValid t i.toNat (s.rdS b).toNat (s.rdS l).toNat = false →
        exec (.adecl i b l) s = .next (s.takeTrap { TrapInfo.plain 0x0B with addr := (s.rdS b).toNat }))
    ∧ (s.performs = true → GivesS s (.astat d) d (BitVec.ofNat 64 t.astat))
    ∧ (s.performs = true → s.iss.slot ≠ handlerSlot → t.token = .held ∨ t.sets.any (fun r => r.2.acquired) = false →
        ∃ u, exec .airrev s = .next u ∧ u = { s with dev := { s.dev with tasks := u.dev.tasks } }
          ∧ (∀ k, k ≠ s.taskId → u.dev.task? k = s.dev.task? k)
          ∧ u.dev.task? s.taskId = some { t with token := if t.token = .held then .held else .recorded })
    ∧ (s.performs = true → s.iss.slot ≠ handlerSlot → t.token ≠ .held → t.sets.any (fun r => r.2.acquired) = true →
        exec .airrev s = .next (s.stall .stallToken (fun e => e.modTask s.taskId (fun k => { k with token := .requested }))))

/-- R149, R160, R172: a load's value is bound when it reads its bytes: with one part it leaves that part's lane of its register, the operation ends, and no
byte of memory changes. -/
def Obligations.LoadsBindTheirBytes : Prop :=
  ∀ (s : State) (n d : Nat) (sx : Bool) (o : Op) (p : LanePart), s.dev.op? n = some o → s.dev.canBind n = true → o.core < 65536 →
    s.dev.hasGroup o.core o.slot = true → noPartials s.dev → o.kind = .load d sx → o.parts = [p] → d < 127 →
    p.lane < 32 → s.dev.poisoned p.loc p.n = false → p.n = 1 ∨ p.n = 2 ∨ p.n = 4 → (s.dev.group o.core o.slot).awaits (.v d) n = true →
    o.waits = [] →
    ∃ t, exec (.loadValueBound n) s = .next t ∧ t.dev.op? n = none ∧ t.iss = s.iss ∧ t.agenda = s.agenda ∧ SameMemory s.dev t.dev
      ∧ (let g := s.dev.group o.core o.slot
         let h := t.dev.group o.core o.slot
         let x := s.dev.seen o.core o.slot o.task n p.loc p.n
         h.regs.readV d p.lane = (if sx then (BitVec.ofNat (8 * p.n) x).signExtend 32 else BitVec.ofNat 32 x)
         ∧ (∀ r i, r < 128 → i < 32 → (r, i) ≠ (d, p.lane) → h.regs.readV r i = g.regs.readV r i)
         ∧ h.regs = { g.regs with v := h.regs.v } ∧ (∀ r, (r, n) ∉ h.notReady)
         ∧ (∀ c ∈ h.count o.ctr, c.op = n → c.ended = true))

/-- R172, R188, R190: a store or atomic with one part, in a memory of the device, writes exactly that part's bytes, an atomic what its operation makes of the
old word; a compare that fails writes nothing. -/
def Obligations.PerformedWritesChangeTheirBytes : Prop :=
  ∀ (s : State) (n : Nat) (o : Op) (p : LanePart), s.dev.op? n = some o → s.dev.canPerform n = true → o.core < 65536 → o.parts = [p] →
    Plain p.loc → noPartials s.dev → o.st = .going → o.tent = false → s.dev.gathers o p = false → o.waits = [] → o.scope ≠ 5 ∨ s.dev.hostSees p.loc = false →
    s.dev.poisoned p.loc p.n = false → (o.kind ≠ .store → p.n = 4) →
    ∃ t, exec (.storePerformed n) s = .next t ∧ t.iss = s.iss ∧ t.agenda = s.agenda ∧ t.dev.op? n = none ∧ (s.dev.memWf = true → t.dev.memWf = true)
      ∧ (∀ l : Loc, ¬ (l.sp = p.loc.sp ∧ p.loc.a ≤ l.a ∧ l.a < p.loc.a + p.n) → t.dev.readByte l = s.dev.readByte l)
      ∧ (let old : W32 := BitVec.ofNat 32 (s.dev.readNat p.loc 4)
         let v : W32 := p.data.truncate 32
         (o.kind = .store → t.dev.readNat p.loc p.n = p.data.toNat % 256 ^ p.n)
         ∧ (∀ fn d, o.kind = .atom fn d → fn ≠ 10 → t.dev.readNat p.loc 4 = (atomApply fn old v).toNat)
         ∧ (∀ fn sub, o.kind = .red fn sub → t.dev.readNat p.loc 4 = (atomApply (atomOpOf o.kind) old v).toNat)
         ∧ (∀ d, o.kind = .atom 10 d → t.dev.readNat p.loc 4 = (if old = v then (p.data >>> 32).truncate 32 else old).toNat))

/-- R193, R194: a reduction gathered in a core's U copy leaves memory as it is, and combining the copy gives what the reduction would have
made of the word at its home. (Of AddF the spec says so up to the canonical NaN; it is left out here.) -/
def Obligations.GatheredReductionsCombineAtHome : Prop :=
  ∀ (d : Dev) (core cache op a : Nat) (v : W32), noPartials d → op < 10 → op ≠ 8 → op ≠ 9 → a % 4 = 0 →
    let e := d.gather core cache op a v
    SameMemory d e
    ∧ (e.combine (a / 128)).readNat (hbmAt a) 4 = (atomApply op (BitVec.ofNat 32 (d.readNat (hbmAt a) 4)) v).toNat
    ∧ (∀ l : Loc, ¬ (l.sp = .hbm ∧ a ≤ l.a ∧ l.a < a + 4) → (e.combine (a / 128)).readByte l = d.readByte l)

/-! ## Matrix -/

/-- R222, R223, R230, R231: the words that give the matrix queue an entry, and the operand trap of those that fail their checks. -/
def Obligations.MatrixWordsJoinTheQueue : Prop :=
  ∀ (s : State) (t : BitVec 2) (a b h sh r : BitVec 4) (n m e : BitVec 1) (x y : SReg) (v : VReg),
    JoinsQueue s (.mzero t) (.mzero t.toNat) [] false []
    ∧ JoinsQueue s (.mtrv v t x) (.mtrv v.toNat t.toNat ((s.rdS x).toNat % 256) s.iss.mask) [] false (if v = 127 then [] else [.v v.toNat])
    ∧ JoinsQueue s (.mtwv t v x) (.mtwv t.toNat ((s.rdS x).toNat % 256) s.iss.mask ((List.range 32).map (s.rdV v))) [] false []
    ∧ (let ok := s.task?.any (fun k => k.mmaOk s.tileCount t.toNat a.toNat b.toNat sh.toNat r.toNat)
       (ok = true → JoinsQueue s (.mma t a b n m e sh r)
          (.mma t.toNat a.toNat b.toNat (decide (n = 1)) (decide (m = 1)) (decide (e = 1)) sh.toNat r.toNat) [] false [])
       ∧ (ok = false → Traps s (.mma t a b n m e sh r) 0x0C))
    ∧ (let src := (s.rdS x).toNat
       let ofs := (s.rdS y).toNat % 2 ^ 18
       let len := (s.rdS y).toNat / 2 ^ 18 % 2 ^ 18
       ∀ w, s.task?.bind (fun k => k.handle h.toNat) = some w →
         let ok := w.buf ≠ 2 ∧ ofs + len ≤ w.size ∧ ofs % 16 = 0 ∧ len % 16 = 0 ∧ 16 ≤ len
         (ok → s.spanCheck .read src [(0, len)] 16 false = none → JoinsQueue s (.mlda h x y) (.mlda h.toNat src ofs len) (gSpan src len) false [])
         ∧ (ok → ∀ f, s.spanCheck .read src [(0, len)] 16 false = some f → exec (.mlda h x y) s = .next (s.takeTrap f))
         ∧ (¬ ok → Traps s (.mlda h x y) 0x0C))
    ∧ (s.task?.bind (fun k => k.handle h.toNat) = none → Traps s (.mlda h x y) 0x0C ∧ Traps s (.mldb h x y) 0x0C)
    ∧ (let src := (s.rdS x).toNat
       let pitch := (s.rdS y).toNat / 2 ^ 24 % 2 ^ 24
       let kn := (s.rdS y).toNat / 2 ^ 12 % 2 ^ 12
       let jn := (s.rdS y).toNat / 2 ^ 4 % 2 ^ 8
       let f := (s.rdS y).toNat % 2 ^ 4
       let rows := if kn = 0 then [] else (List.range (jn + 1)).map (fun j => (j * pitch, kn * elemBytes f))
       ∀ w, s.task?.bind (fun k => k.handle h.toNat) = some w →
         let ok := w.buf = 1 ∧ f ≤ 2 ∧ (w.sparse = true → kn % 4 = 0) ∧ (w.bl ≠ 0 → kn % w.bl = 0) ∧ (kn ≠ 0 → mldbFits w kn jn = true)
         (ok → ∀ g, s.spanCheck .read src rows (elemBytes f) false = some g → exec (.mldb h x y) s = .next (s.takeTrap g))
         ∧ (ok → s.spanCheck .read src rows (elemBytes f) false = none → pitch % elemBytes f ≠ 0 → jn ≠ 0 → kn ≠ 0 →
           exec (.mldb h x y) s = .next (s.takeTrap (checkInfo 0x08 .read src (lowLane s.iss.mask))))
         ∧ (ok → s.spanCheck .read src rows (elemBytes f) false = none → pitch % elemBytes f = 0 ∨ jn = 0 ∨ kn = 0 →
           JoinsQueue s (.mldb h x y) (.mldb h.toNat src pitch kn jn f)
             ((List.range (jn + 1)).flatMap (fun j => gSpan (src + j * pitch) (kn * elemBytes f))) false [])
         ∧ (¬ ok → Traps s (.mldb h x y) 0x0C))
    ∧ (let src := (s.rdS x).toNat
       let pitch := (s.rdS y).toNat % 2 ^ 24
       let f := (s.rdS y).toNat / 2 ^ 24 % 2 ^ 4
       let es := elemBytes f
       let ok (k : AccKind) := f ≤ 2 ∧ s.spanCheck k src ((List.range 64).map (fun i => (i * pitch, 64 * es))) es true = none ∧ pitch % es = 0
       (ok .read → JoinsQueue s (.mtld t x y) (.mtld t.toNat src pitch f) (tileRows src pitch f) false [])
       ∧ (ok .write → ∃ irr, JoinsQueue s (.mtst t x y) (.mtst t.toNat src pitch f) (tileRows src pitch f) irr [])
       ∧ (2 < f → Traps s (.mtld t x y) 0x0C ∧ Traps s (.mtst t x y) 0x0C))

/-- R216, R217, R220, R221: handles are bound to the lowest free run of their buffer and given back, and shape records are set; MRES says in S[D] how it
ended. -/
def Obligations.ReservationsAndShapes : Prop :=
  ∀ (s : State) (d a : SReg) (h sh : BitVec 4), s.running = true →
    let free := s.mxNames (fun k => k.handles.contains h.toNat) = false
    (∀ (u : State) (ws : List W64) (x : Task), free → s.loadRecord (s.rdS a).toNat 16 = .got u ws → u.task? = some x → u.running = true →
      let b : Binding := { w0 := ws.getD 0 0, w1 := ws.getD 1 0, base := 0 }
      let tells (n : W64) : Prop := ∃ t, exec (.mres d a h) s = .next t ∧ SWritten u t d n
      (x.handle h.toNat ≠ none → tells 3)
      ∧ (x.handle h.toNat = none → b.bad = true → tells 2)
      ∧ (x.handle h.toNat = none → b.bad = false → b.buf = 2 → ∃ t, exec (.mres d a h) s = .next t ∧
          (t.task?.bind (fun y => y.handle h.toNat)) = some b ∧ t.grp.regs = u.grp.regs.writeS d.toNat 0)
      ∧ (x.handle h.toNat = none → b.bad = false → b.buf ≠ 2 →
          let k := u.dev.core u.iss.core
          (freeRun (if b.buf = 0 then k.opUsed else k.wUsed) b.units = none → tells 1)
          ∧ (∀ n, freeRun (if b.buf = 0 then k.opUsed else k.wUsed) b.units = some n → ∃ t, exec (.mres d a h) s = .next t ∧
              (t.task?.bind (fun y => y.handle h.toNat)) = some { b with base := 256 * n } ∧ t.grp.regs = u.grp.regs.writeS d.toNat 0)))
    ∧ (free → s.task?.bind (fun x => x.handle h.toNat) = none → FallsThrough s (.mrel h))
    ∧ (∀ b, free → s.task?.bind (fun x => x.handle h.toNat) = some b → ∃ t, exec (.mrel h) s = .next t ∧ t.iss = s.iss
        ∧ t.dev.groups = s.dev.groups ∧ (t.task?.bind (fun x => x.handle h.toNat)) = none ∧ SameMemory s.dev t.dev)
    ∧ (∀ (u : State) (ws : List W64) (x : Task), s.mxNames (fun k => k.shapes.contains sh.toNat) = false →
        s.loadRecord (s.rdS a).toNat 32 = .got u ws → u.task? = some x → u.taskId = s.taskId →
        ∃ t, exec (.mshape sh a) s = .next t ∧ t.iss = u.iss ∧ t.dev = { u.dev with tasks := t.dev.tasks }
          ∧ (t.task?.map (fun y => Tab.find y.shapes sh.toNat)) =
              some (if (ws.getD 0 0).toNat / 2 ^ 10 = 0 ∧ ws.getD 3 0 = 0 then some ws else none))

/-- R232, R236, R237: MHINT, MXCNT and MPAIR issue at once. -/
def Obligations.MatrixStatusWords : Prop :=
  ∀ (s : State) (a d : SReg) (clr : BitVec 1) (k : Task), s.running = true → s.task? = some k → k.mxc.length = 5 →
    let p := s.dev.pair (s.iss.core / 2)
    let at_ (f : Pair) : Dev := { s.dev with pairs := Tab.insert s.dev.pairs (s.iss.core / 2) f }
    let now := s.dev.now (clusterOf s.iss.core)
    let lead := (s.rdS a).toNat % 2 ^ 16
    (p.st = .cold → p.hint = none → p.owner = none → Makes s (.mhint a) (at_ { p with hint := some (now + (lead - 32)) }))
    ∧ (p.st = .holding → Makes s (.mhint a) (at_ { p with since := now, holdLimit := 256 }))
    ∧ (p.st = .hot → Makes s (.mhint a) (at_ { p with hinted := true }))
    ∧ (p.st ∉ [ArrayState.cold, .holding, .hot] → FallsThrough s (.mhint a))
    ∧ (let sum := k.mxc.getD 0 0 * 2 ^ 48 + k.mxc.getD 1 0 * 2 ^ 32 + k.mxc.getD 2 0 * 2 ^ 16 + k.mxc.getD 3 0
       ∃ t u, exec (.mxcntExceptions d clr) s = .next t ∧ exec (.mxcntPrune d clr) s = .next u
         ∧ t.grp = { s.grp with regs := s.grp.regs.writeS d.toNat (BitVec.ofNat 64 sum) }
         ∧ u.grp = { s.grp with regs := s.grp.regs.writeS d.toNat (BitVec.ofNat 64 (k.mxc.getD 4 0)) }
         ∧ (t.task?.map (fun x => x.mxc)) = some (if clr = 1 then [0, 0, 0, 0, k.mxc.getD 4 0] else k.mxc)
         ∧ (u.task?.map (fun x => x.mxc)) = some (if clr = 1 then k.mxc.take 4 ++ [0] else k.mxc))
    ∧ GivesS s (.mpair d) d (BitVec.ofNat 64 (p.ramps * 2 ^ 16 + min ((s.dev.core s.iss.core).queued.length) 15 * 2 ^ 12
        + min (s.dev.parkedIn (s.iss.core / 2)) 15 * 2 ^ 8 + p.st.code * 2 ^ 4 + p.level))

/-- R233 to R236: the array of a pair ramps in eight steps of 4 cycles, holds 16 cycles, or 256 after a hint, and asks its cluster's limiter for the window of
each ramp. R235: a request gets the first window not taken that starts at or after its cycle, on the grid of four cycles from the base. A step that is not due changes nothing (log entry 5). -/
def Obligations.ArraysRampAndHold : Prop :=
  (∀ (s : State) (q : Nat),
      let p := s.dev.pair q
      let at_ (f : Pair) : Dev := { s.dev with pairs := Tab.insert s.dev.pairs q f }
      let now := s.dev.now (q / 4)
      let z := p.since + 4
      (p.st = .rampUp → z ≤ now → p.level < 8 → Makes s (.rampStepEnd q) (at_ { p with level := p.level + 1, since := z }))
      ∧ (p.st = .rampUp → z ≤ now → p.level = 8 → p.owner = none →
          Makes s (.rampStepEnd q) (at_ { p with st := .holding, since := z, holdLimit := if p.hinted then 256 else 16, hinted := false }))
      ∧ (∀ c id, p.st = .rampUp → z ≤ now → p.level = 8 → p.owner = some (c, id) →
          Makes s (.rampStepEnd q) ((at_ { p with st := .hot, since := z, hinted := false }).startMma c id z))
      ∧ (p.st = .rampDown → z ≤ now → p.owner = none → 0 < p.level → Makes s (.rampStepEnd q) (at_ { p with level := p.level - 1, since := z }))
      ∧ (p.st = .rampDown → z ≤ now → p.owner = none → p.level = 0 → Makes s (.rampStepEnd q) (at_ { p with st := .cold, since := z }))
      ∧ (p.st = .rampDown → z ≤ now → p.owner ≠ none → Makes s (.rampStepEnd q) (s.dev.requestRamp q z .awaitUp))
      ∧ (now < z → NotDue s (.rampStepEnd q))
      ∧ (p.st = .holding → p.since + p.holdLimit ≤ now → Makes s (.holdExpiry q) (s.dev.requestRamp q (p.since + p.holdLimit) .awaitDown))
      ∧ (p.st ≠ .holding ∨ now < p.since + p.holdLimit → NotDue s (.holdExpiry q))
      ∧ (∀ c, p.hint = some c → c ≤ now → p.st ≠ .cold → Makes s (.hintRequestTime q) (at_ { p with hint := none }))
      ∧ (∀ c, p.hint = some c → c ≤ now → p.st = .cold → ∃ e : Dev, Makes s (.hintRequestTime q) (e.requestRamp q c .awaitUp) ∧
          e.pair q = { p with hint := none, hinted := true } ∧ e = { s.dev with pairs := e.pairs })
      ∧ (∀ cl w, q / 4 = cl → p.window = some w → w ≤ s.dev.now cl → p.awaits = true → (∀ r, r / 4 = cl → r < q → (s.dev.pair r).awaits = false) →
          (s.dev.cluster cl).drain = none → (s.dev.cluster cl).settling = none →
          Makes s (.slewWindowBegin cl) (at_ { p with
            st := (if p.st = .awaitUp then .rampUp else .rampDown), since := w, window := none, ramps := (p.ramps + 1) % 2 ^ 32,
            level := (if p.st = .awaitUp then min 8 (p.level + 1) else p.level - 1) })))
  ∧ (∀ (taken : List Nat) (base c : Nat), base ≤ c →
      let w := firstWindow taken base c
      c ≤ w ∧ (w - base) % 4 = 0 ∧ w ∉ taken ∧ ∀ v, c ≤ v → (v - base) % 4 = 0 → v ∉ taken → w ≤ v)

/-- R222, R225, R227, R234: the arbiter's grant, the start, the occupancy and the end of an MMA and of the other entries of the queue. R216: units that are being cleared read zero and are free again when that is done; nothing in use is touched. A step that is not due changes nothing (log entry 5). -/
def Obligations.MatrixEntriesStartAndRetire : Prop :=
  (∀ (s : State) (q c id : Nat) (e : MxEntry),
      (∀ f, (s.dev.pair q).owner = none → s.dev.arbitrate q = some (c, f) → Makes s (.pairArbiterGrant q) (s.dev.giveArray q c f.id (s.dev.now (clusterOf c))))
      ∧ ((s.dev.pair q).owner ≠ none ∨ s.dev.arbitrate q = none → NotDue s (.pairArbiterGrant q))
      ∧ (∀ f g, s.dev.mmaRequest (2 * q) none = some f → s.dev.mmaRequest (2 * q + 1) none = some g →
          let tf := f.reqAt.getD (s.dev.now (clusterOfPair q))
          let tg := g.reqAt.getD (s.dev.now (clusterOfPair q))
          s.dev.arbitrate q = some (if tf < tg ∨ (tf = tg ∧ (s.dev.pair q).lastCore ≠ some 0) then (2 * q, f) else (2 * q + 1, g)))
      ∧ (∀ m z o, (s.dev.pair q).owner = some (c, id) → s.dev.entry? c id = some e → s.dev.mmaOps e.task e.kind = some m → e.occEnd = some z →
          s.dev.op? e.op = some o → z ≤ s.dev.now (clusterOf c) → o.parts.all (fun p => p.done) = true → o.st = .going →
          let d1 := ((s.dev.fillB c m.b o.parts).meetBuf c false m.a.base m.a.size).meetBuf c true m.b.base m.b.size
          let r := d1.mmaRun c e m e.kGroup m.groups
          let e1 : MxEntry := { e with result := r.1, marks := r.2, kGroup := m.groups }
          let d2 := (d1.modEntry c id (fun _ => e1)).modPair q (fun p => { p with owner := none })
          let other := if c % 2 = 0 then c + 1 else c - 1
          (∀ c2 x, d2.nextMma q c e1 = some (c2, x) → Makes s (.mmaOccupancyEnd q)
            ((d2.modPair q (fun p => { p with owner := some (c2, x.id), lastCore := some (c2 % 2) })).startMma c2 x.id z))
          ∧ (d2.nextMma q c e1 = none → Makes s (.mmaOccupancyEnd q) (d2.modPair q (fun p =>
                { p with st := .holding, since := z, holdLimit := if p.hinted then 256 else 16, hinted := false })))
          ∧ (∀ x, d2.mmaRequest c (some e1) = some x → d2.mayStart c x none = true → d2.nextMma q c e1 = d2.arbitrate q)
          ∧ (∀ y, d2.mmaRequest c none = none → d2.mmaRequest other none = some y → d2.nextMma q c e1 = some (other, y))
          ∧ (c / 2 = q → d2.mmaRequest other none = none → d2.nextMma q c e1 = (d2.mmaRequest c (some e1)).map (fun x => (c, x))))
      ∧ (∀ m z, s.dev.entry? c id = some e → s.dev.mmaOps e.task e.kind = some m → e.occEnd = some z → e.made = true → m.groups ≤ e.kGroup →
          (z + 11 ≤ s.dev.now (clusterOf c) → Makes s (.mmaRetire c id)
            (((s.dev.writeResult c e).modTask e.task (fun t =>
              { t with mxc := countMarks t.mxc (e.marks.map (fun x => BitVec.ofNat 5 x.2)) 0 })).dropEntry c id e.op none))
          ∧ (s.dev.now (clusterOf c) < z + 11 → NotDue s (.mmaRetire c id)))
      ∧ (∀ k, Tab.find e.result k = none → ∀ y t, s.dev.task? e.task = some t → (s.dev.writeResult c e).task? e.task = some y → Tab.get 0 y.tiles k = Tab.get 0 t.tiles k)
      ∧ (∀ o t, s.dev.entry? c id = some e → s.dev.op? e.op = some o → s.dev.task? e.task = some t → e.started ≠ none → o.st = .going →
          o.parts.all (fun p => p.done) = true → s.dev.enginesDone o.parts = true →
          o.parts.any (fun p => !p.loc.isRemote && s.dev.poisoned p.loc p.n) = false →
          let d := s.dev.serveParts c o.parts
          (∀ tt, e.kind = .mzero tt → Makes s (.tileOpRetire c id)
            (((d.modTask e.task (fun t => { t with tiles := t.tiles.filter (fun x => decide (x.1 / 4096 ≠ tt)) })).modTask e.task
              (fun t => { t with mxc := countMarks t.mxc [] 0 })).dropEntry c id e.op none))
          ∧ (∀ tt col mask vals, e.kind = .mtwv tt col mask vals → Makes s (.tileOpRetire c id)
            (((d.writeTiles e.task ((lanesOf mask).map (fun l => (4096 * tt + 64 * (lineElem col l).1 + (lineElem col l).2, vals.getD l 0)))).modTask e.task
              (fun t => { t with mxc := countMarks t.mxc [] 0 })).dropEntry c id e.op none)))
      ∧ (s.dev.entry? c id = none → NotDue s (.mmaRetire c id) ∧ NotDue s (.tileOpRetire c id) ∧ NotDue s (.matrixEntryStart c id))
      ∧ (∀ tt t o, s.dev.entry? c id = some e → e.kind = .mzero tt → s.dev.task? e.task = some t → s.dev.op? e.op = some o →
          ((s.dev.core c).mq.find? (fun x => !x.kind.isMma && s.dev.mayStart c x none)).map (fun x => x.id) = some id →
          Makes s (.matrixEntryStart c id) (((s.dev.modEntry c id (fun x => { x with started := some (s.dev.now (clusterOf c)) })).modOp e.op (fun o =>
            { o with parts := [], scope := 4 })).fetchParts e.op)))
  ∧ (∀ (s : State) (c : Nat), ∃ t, exec (.reservationClearDone c) s = .next t ∧ t.iss = s.iss ∧ SameMemory s.dev t.dev
      ∧ (∀ u, u ∈ (t.dev.core c).opUsed ↔ u ∈ (s.dev.core c).opUsed ∧ u.2 ≠ 0) ∧ (∀ u, u ∈ (t.dev.core c).wUsed ↔ u ∈ (s.dev.core c).wUsed ∧ u.2 ≠ 0)
      ∧ (∀ a, Memory.read (t.dev.core c).opBuf a = if (a / 256, 0) ∈ (s.dev.core c).opUsed then 0 else Memory.read (s.dev.core c).opBuf a)
      ∧ (∀ a, Memory.read (t.dev.core c).wBuf a = if (a / 256, 0) ∈ (s.dev.core c).wUsed then 0 else Memory.read (s.dev.core c).wBuf a))

/-! ## Copies, streams, launches -/

/-- R241, R256 to R262: the copy-queue words. CQINIT makes a fresh queue and zeroes its notify word; CQPUSH fills the next slot and publishes it, CQPUB
publishes the next slots as they stand; a publication numbers its entry, sets its deadline and raises CC; CQSTAGE advances the stage; CQWPTR and CQSTAT read. -/
def Obligations.CopyQueueWords : Prop :=
  ∀ (s : State) (t : Task) (d a : SReg) (r n : BitVec 4), s.running = true → s.dev.task? s.taskId = some t →
    let q := t.cq
    let x := (s.rdS a).toNat
    let ofs := x % 2 ^ 18
    let cap := x / 2 ^ 18 % 2 ^ 6 + 1
    let ext := s.dev.extent s.iss.core s.iss.slot .s
    let k := x % 2 ^ 7
    let raised (sc : Nat) : Dev := s.dev.raiseStores s.iss.core s.iss.slot sc
    let rangesAt (ws : List W64) := (raised (CopyRec.of ws).scope).copyRanges s.iss.core ((raised (CopyRec.of ws).scope).worldOf s.taskId) (CopyRec.of ws)
    let ranges (ws : List W64) := (raised 3).copyRanges s.iss.core ((raised 3).worldOf s.taskId) (CopyRec.of ws)
    let slots := (List.range k).map (fun i => (raised 3).slotWords s.taskId q (q.last + 1 + i))
    let ws := (List.range 4).map (fun i => s.rdS (BitVec.ofNat 6 (4 * r.toNat + i)))
    let entry := x % 2 ^ 56
    (q.busy = true → GivesS s (.cqinit d a) d 1)
    ∧ (q.busy = false → 2 ^ 24 ≤ x ∨ ofs % 32 ≠ 0 ∨ ext < ofs + 32 * (cap + 1) → GivesS s (.cqinit d a) d 2)
    ∧ (q.busy = false → x < 2 ^ 24 → ofs % 32 = 0 → ofs + 32 * (cap + 1) ≤ ext → ∃ u, exec (.cqinit d a) s = .next u ∧ u.iss = s.iss
        ∧ u.grp.regs = s.grp.regs.writeS d.toNat 0
        ∧ (u.dev.task? s.taskId).map (fun y => y.cq) = some { init := true, ofs := ofs, cap := cap, last := 0, stage := 0, err := 0, entries := [] }
        ∧ (∀ l : Loc, u.dev.readByte l = if l.sp = .smem ∧ l.own = s.taskId ∧ ofs ≤ l.a ∧ l.a < ofs + 8 then 0 else s.dev.readByte l))
    ∧ (q.init = false → Traps s (.cqpush d r) 0x0D ∧ GivesS s (.cqpub d a) d 0x8000000000000002)
    ∧ (q.init = true → q.cap ≤ q.unacc → q.entries.any (fun e => e.deferred) = false → exec (.cqpush d r) s = .next (s.stall .stallEngine id))
    ∧ (q.init = true → q.unacc < q.cap → s.mustStall .cc false = false → StoresDone s →
        ∀ u, (s.modDev (fun e => e.raiseStores s.iss.core s.iss.slot (CopyRec.of ws).scope)).settleSets (rangesAt ws) false = .inl u →
        exec (.cqpush d r) s = .next ((((u.modDev (fun e =>
          e.perform (q.slotAt s.taskId (q.last + 1)) (ws.flatMap (fun w => Bytes.ofNat 8 w.toNat)))).publish ws).notify).wrS d (BitVec.ofNat 64 (q.last + 1))))
    ∧ (q.init = true → k = 0 ∨ q.cap < k → GivesS s (.cqpub d a) d 0x8000000000000002)
    ∧ (q.init = true → 0 < k → k ≤ q.cap → q.cap < q.unacc + k → GivesS s (.cqpub d a) d 0x8000000000000001)
    ∧ (q.init = true → 0 < k → q.unacc + k ≤ q.cap → s.grp.cc.length + k ≤ 63 → StoresDone s →
        ∀ u, (s.modDev (fun e => e.raiseStores s.iss.core s.iss.slot 3)).settleSets (slots.flatMap ranges) false = .inl u →
          exec (.cqpub d a) s = .next (((slots.foldl State.publish u).notify).wrS d (BitVec.ofNat 64 (q.last + k))))
    ∧ (∀ vs : List W64, let v := s.publish vs
        v.iss = s.iss ∧ SameMemory s.dev v.dev
        ∧ (∃ y e, v.dev.task? s.taskId = some y ∧ y.cq.last = q.last + 1 ∧ e ∈ y.cq.entries ∧ e.n = q.last + 1 ∧ e.deadline = q.stage + (CopyRec.of vs).slack
            ∧ e.words = none ∧ e.opId = s.dev.nextOp)
        ∧ v.grp.cc.map (fun c => c.op) = s.grp.cc.map (fun c => c.op) ++ [s.dev.nextOp])
    ∧ (s.notify.iss = s.iss ∧ s.notify.dev.readNat (q.notifyAt s.taskId) 8 = q.last % 2 ^ 64)
    ∧ (∃ u, exec (.cqstage a) s = .next u ∧ u.iss = s.iss ∧ u.dev = { s.dev with tasks := u.dev.tasks }
        ∧ u.dev.task? s.taskId = some { t with cq := { q with stage := (q.stage + x % 2 ^ 16) % 2 ^ 64 } }
        ∧ ∀ y, y ≠ s.taskId → u.dev.task? y = s.dev.task? y)
    ∧ (entry = 0 ∨ q.last < entry → GivesS s (.cqwptr d a) d 0)
    ∧ (0 < entry → entry ≤ q.last → q.entries.find? (fun e => decide (e.n = entry)) = none → GivesS s (.cqwptr d a) d (BitVec.allOnes 64))
    ∧ (0 < entry → entry + 64 ≤ q.last → GivesS s (.cqwptr d a) d (BitVec.allOnes 64))
    ∧ (∀ e, 0 < entry → entry ≤ q.last → q.last < entry + 64 → q.entries.find? (fun e => decide (e.n = entry)) = some e → GivesS s (.cqwptr d a) d
        (if e.unaccepted then 0 else if e.chan.isSome then BitVec.ofNat 64 e.written else if e.stop = some 0 then BitVec.ofNat 64 e.total
          else BitVec.allOnes 64))
    ∧ GivesS s (.cqstat d) d (BitVec.ofNat 64 (q.err * 2 ^ 56 + (if q.init then q.cap else 0) * 2 ^ 40 + q.unacc * 2 ^ 32
        + (q.entries.filter (fun e => e.chan.isSome)).length * 2 ^ 24 + q.stage % 2 ^ 24))
    ∧ (∀ u vs, s.loadRecord x 64 = .got u vs → u.running = true →
        (imageOk vs = false → Leaves s (.lprog d a n) u d 2)
        ∧ (imageOk vs = true → ∃ v, exec (.lprog d a n) s = .next v ∧ v.iss = u.iss ∧ v.grp.regs = u.grp.regs.writeS d.toNat 0 ∧ SameMemory u.dev v.dev
            ∧ Tab.find (v.dev.cluster (clusterOf u.iss.core)).layouts n.toNat = some ((u.dev.core u.iss.core).world, vs)))

/-- R263, R265: SOPEN, SCLOSE, SSKIP and SSTAT. -/
def Obligations.StreamWords : Prop :=
  ∀ (s : State) (t : Task) (d a : SReg) (n : BitVec 4), s.running = true → s.dev.task? s.taskId = some t →
    let x := (s.rdS a).toNat
    (∀ u ws y, s.loadRecord x 64 = .got u ws → u.running = true → u.dev.task? u.taskId = some y →
      let open_ := Tab.find y.streams n.toNat
      let taken := (u.dev.streamOf u.iss.core u.iss.slot (streamQueue ws)).isSome
      (open_.isSome = true → Leaves s (.sopen d a n) u d 1)
      ∧ (open_ = none → taken = true → Leaves s (.sopen d a n) u d 2)
      ∧ (open_ = none → taken = false → badStream ws = true → Leaves s (.sopen d a n) u d 3)
      ∧ (open_ = none → taken = false → badStream ws = false → ∃ v, exec (.sopen d a n) s = .next v ∧ v.iss = u.iss
          ∧ v.grp.regs = u.grp.regs.writeS d.toNat 0 ∧ SameMemory u.dev v.dev
          ∧ v.dev.task? u.taskId = some { y with
              streams := Tab.insert y.streams n.toNat { words := ws, group := u.dev.streamOwner u.iss.core u.iss.slot, popped := 0, queue := [] } }))
    ∧ (∃ u y, exec (.sclose n) s = .next u ∧ u.iss = s.iss ∧ u.grp.regs = s.grp.regs ∧ SameMemory s.dev u.dev
        ∧ u.dev.task? s.taskId = some y ∧ Tab.find y.streams n.toNat = none
        ∧ ∀ m, m ≠ n.toNat → Tab.find y.streams m = Tab.find t.streams m)
    ∧ (x = 0 → FallsThrough s (.sskip a n))
    ∧ (∀ st, x ≠ 0 → Tab.find t.streams n.toNat = some st → ∃ u y, exec (.sskip a n) s = .next u ∧ u.iss = s.iss ∧ u.grp.regs = s.grp.regs
        ∧ SameMemory s.dev u.dev ∧ u.dev.task? s.taskId = some y
        ∧ Tab.find y.streams n.toNat = some { st with queue := st.queue.drop x, popped := min (st.popped + x) st.entries })
    ∧ (Tab.find t.streams n.toNat = none → GivesS s (.sstat d n) d 0)
    ∧ (∀ st, Tab.find t.streams n.toNat = some st → GivesS s (.sstat d n) d (BitVec.ofNat 64
        ((if st.entries ≤ st.popped then 2 else 1) * 2 ^ 62 + st.queue.length * 2 ^ 58 + (st.entries - st.popped) % 2 ^ 48)))

/-- R311, R317 to R320: LNCH's checks in their order and the grid it accepts; QCFG and MBOXQ by the operation in their operand; MBIND's binding and its
end. -/
def Obligations.LaunchAndQueueWords : Prop :=
  ∀ (s : State) (d a b : SReg), s.running = true → s.needToken = none →
    let x := (s.rdS a).toNat
    let y := (s.rdS b).toNat
    let world := (s.dev.core s.iss.core).world
    (StoresDone s → ∀ u ws, s.loadRecord x 128 = .got u ws → u.running = true →
      (u.dev.badRecord ws = true → Leaves s (.lnch d a) u d (statusWord 1 0))
      ∧ (u.dev.badRecord ws = false → ∀ v ts, u.loadRecords 16 (tableAddrs ws) = .got v ts → v.running = true →
          let g := gridOfRecord ws (tableOf ts) (v.dev.queue (wordN ws 3 % 64)).world
          let q := v.dev.queue (wordN ws 3 % 64)
          let w := (v.dev.core u.iss.core).world
          let out := q.en = false ∨ (q.world ≠ w ∧ w ≠ 0)
          let apart := g.coRes = true ∧ v.dev.fitsEmpty g = false
          (tableOk (tableOf ts) = false → Leaves s (.lnch d a) v d (statusWord 1 0))
          ∧ (tableOk (tableOf ts) = true → g.need.fits = false → Leaves s (.lnch d a) v d (statusWord 2 0))
          ∧ (tableOk (tableOf ts) = true → g.need.fits = true → out → Leaves s (.lnch d a) v d (statusWord 3 0))
          ∧ (tableOk (tableOf ts) = true → g.need.fits = true → ¬ out → apart → Leaves s (.lnch d a) v d (statusWord 4 0))
          ∧ (tableOk (tableOf ts) = true → g.need.fits = true → ¬ out → ¬ apart → 4096 ≤ v.dev.grids.length → Leaves s (.lnch d a) v d (statusWord 5 0))
          ∧ (tableOk (tableOf ts) = true → g.need.fits = true → ¬ out → ¬ apart → v.dev.grids.length < 4096 →
              ∃ t, exec (.lnch d a) s = .next t ∧ t.iss = v.iss ∧ t.grp.regs = v.grp.regs.writeS d.toNat (statusWord 0 v.dev.nextLaunch)
                ∧ t.dev = { v.dev with
                    groups := t.dev.groups
                    grids := Tab.insert v.dev.grids v.dev.nextLaunch g
                    nextLaunch := (v.dev.nextLaunch + 1) % 2 ^ 56 })))
    ∧ (∀ i ∈ [Instr.qcfgConfigure d a b, .qcfgDisable d a b, .qcfgMask d a b, .qcfgRead d a b],
        let q := y % 64
        let op := y / 2 ^ 8 % 4
        (op = 0 → ∀ u ws, s.loadRecord x 64 = .got u ws → u.running = true →
          let old := u.dev.queue q
          let new := old.ofRecord ws
          let locked := (new.world ≠ old.world ∨ new.asn ≠ old.asn ∨ new.root ≠ old.root) ∧ u.dev.queueBusy q = true
          (badQueue ws = true → Leaves s i u d 2) ∧ (badQueue ws = false → locked → Leaves s i u d 1)
          ∧ (badQueue ws = false → ¬ locked → ∃ t, exec i s = .next t ∧ t.iss = u.iss ∧ t.grp.regs = u.grp.regs.writeS d.toNat 0
              ∧ t.dev = { u.dev with groups := t.dev.groups, queues := Tab.insert u.dev.queues q new }))
        ∧ (op = 1 → ∃ t, exec i s = .next t ∧ t.iss = s.iss ∧ t.grp.regs = s.grp.regs.writeS d.toNat 0
              ∧ t.dev = { s.dev with groups := t.dev.groups, queues := Tab.insert s.dev.queues q { s.dev.queue q with en := false } })
        ∧ (op = 2 → ∀ u ws, s.loadRecord x 32 = .got u ws → u.running = true → ∃ t, exec i s = .next t ∧ t.iss = u.iss
              ∧ t.grp.regs = u.grp.regs.writeS d.toNat 0
              ∧ (let mask : BitVec 256 := BitVec.ofNat 256 (wordN ws 0 + wordN ws 1 * 2 ^ 64 + wordN ws 2 * 2 ^ 128 + wordN ws 3 * 2 ^ 192)
                 t.dev = { u.dev with groups := t.dev.groups, queues := Tab.insert u.dev.queues q { u.dev.queue q with mask := mask } }))
        ∧ (op = 3 → GivesS s i d (BitVec.ofNat 64 (s.dev.queueWord q))))
    ∧ (∀ i ∈ [Instr.mbindBind d a b, .mbindUnbind d a b],
        let n := y % 2 ^ 12
        let m := s.dev.box n
        (y / 2 ^ 12 % 2 = 1 → (m.bound = false → GivesS s i d 1) ∧ (m.bound = true → s.bindAllowed n m = false → GivesS s i d 3)
          ∧ (m.bound = true → s.bindAllowed n m = true → ∃ t, exec i s = .next t ∧ t.iss = s.iss ∧ t.grp.regs = s.grp.regs.writeS d.toNat 0
              ∧ t.dev = { s.dev with groups := t.dev.groups, boxes := Tab.insert s.dev.boxes n { m with
                  bound := false, ovf := min (m.ovf + m.pend.length + m.arrived.length) (2 ^ 32 - 1), pend := [], arrived := [] } }))
        ∧ (y / 2 ^ 12 % 2 = 0 → ∀ u im v ws, s.loadRecord x 32 = .got u im → u.loadRecord (wordN im 2 % 2 ^ 54) 128 = .got v ws → v.running = true →
            let rec_ := handlerRecord ws (wordN im 1 % 2 ^ 54) (wordN im 3 % 64)
            let bad := badImage im = true ∨ v.dev.badRecord rec_ = true
            ((v.dev.box n).bound = true → Leaves s i v d 1)
            ∧ ((v.dev.box n).bound = false → bad → Leaves s i v d 2)
            ∧ ((v.dev.box n).bound = false → ¬ bad → ∀ w ts, v.loadRecords 16 (tableAddrs rec_) = .got w ts → w.running = true →
                let m := (v.dev.box n).ofImage im ws (tableOf ts)
                let not_ := tableOk (tableOf ts) = false ∨ w.dev.trigTaken m = true
                let e := if m.kind = 0 then w.dev.recallAll (m.trig / 128) else w.dev
                (not_ → Leaves s i w d 2) ∧ (¬ not_ → w.bindAllowed n m = false → Leaves s i w d 3)
                ∧ (¬ not_ → w.bindAllowed n m = true → ∃ t, exec i s = .next t ∧ t.iss = w.iss
                    ∧ t.grp.regs = (e.group w.iss.core w.iss.slot).regs.writeS d.toNat 0
                    ∧ t.dev = { e with groups := t.dev.groups, boxes := Tab.insert e.boxes n m }))))
    ∧ (∀ i ∈ [Instr.mboxqRead d a, .mboxqClearOverflow d a, .mboxqDiscardPending d a],
        let n := x % 2 ^ 12
        let op := x / 2 ^ 12 % 4
        let m := s.dev.box n
        let seen := world = 0 ∨ s.iss.slot = handlerSlot ∨ (s.dev.queue m.queue).world = world
        (¬ seen → GivesS s i d 0)
        ∧ (seen → ∃ t, exec i s = .next t ∧ t.iss = s.iss ∧ t.grp.regs = s.grp.regs.writeS d.toNat (BitVec.ofNat 64
              ((if m.bound then 2 ^ 63 else 0) + m.queue * 2 ^ 50 + min m.pend.length 16 * 2 ^ 45 + min m.run 16 * 2 ^ 40 + min m.ovf (2 ^ 32 - 1)))
            ∧ (let m1 := if op = 1 then { m with ovf := 0 } else if op = 2 then { m with pend := [] } else m
               t.dev = { s.dev with groups := t.dev.groups, boxes := Tab.insert s.dev.boxes n m1 })))

/-! ## The handler's words and the SYS and RDN words -/

/-- R332 to R336: GRD and GWR reach the groups of the served workgroup and report in HERR; GSTAT, GRESUME and GKILL act on one of its groups. -/
def Obligations.GroupInspectionWords : Prop :=
  ∀ (s : State) (d a b : SReg), s.running = true →
    let x := (s.rdS a).toNat
    let slot := x % 2 ^ 5
    let kind := x / 2 ^ 8 % 2 ^ 8
    let ix := x / 2 ^ 16 % 2 ^ 8
    let lane := x / 2 ^ 24 % 2 ^ 5
    let g := s.dev.group s.iss.core slot
    let ok := x / 2 ^ 5 % 2 ^ 3 = 0 ∧ s.names slot = true
    let vs := s.dev.vregsAt s.iss.core slot
    let gives (v : Nat) : Prop := Leaves s (.grd d a) (s.herr false) d (BitVec.ofNat 64 v)
    let none_ : Prop := Leaves s (.grd d a) (s.herr true) d 0
    let puts (h : Group) : Prop := Makes s (.gwr a b) { (s.herr false).dev with groups := Tab.insert s.dev.groups (gkey s.iss.core slot) h }
    let w : W32 := (s.rdS b).truncate 32
    (¬ ok ∨ 10 < kind → none_ ∧ exec (.gwr a b) s = .next (s.herr true))
    ∧ (ok → kind = 0 → (ix < vs → gives (g.regs.readV ix lane).toNat
          ∧ puts { g with regs := g.regs.writeV ix lane w, notReady := g.notReady.filter (fun p => decide (p.1 ≠ .v ix)) })
        ∧ (vs ≤ ix → none_ ∧ exec (.gwr a b) s = .next (s.herr true)))
    ∧ (ok → kind = 1 → (1 ≤ ix → ix ≤ 63 → gives (g.regs.readS ix).toNat
          ∧ puts { g with regs := g.regs.writeS ix (s.rdS b), notReady := g.notReady.filter (fun p => decide (p.1 ≠ .s ix)) })
        ∧ (ix = 0 ∨ 63 < ix → none_ ∧ exec (.gwr a b) s = .next (s.herr true)))
    ∧ (ok → kind = 2 → (1 ≤ ix → ix ≤ 7 → gives (g.regs.readP ix).toNat
          ∧ puts { g with regs := g.regs.writeP ix w, notReady := g.notReady.filter (fun p => decide (p.1 ≠ .p ix)) })
        ∧ (ix = 0 ∨ 7 < ix → none_ ∧ exec (.gwr a b) s = .next (s.herr true)))
    ∧ (ok → kind = 4 → ix ≤ 3 → (g.splits.getD ix none = none → gives 0) ∧ (∀ y, g.splits.getD ix none = some y →
        gives (y.mask.toNat * 2 ^ 32 + posField y.pos.word (s.dev.packetOf s.iss.core slot y.pos.pc))))
    ∧ (ok → kind = 7 → ix = 0 → gives g.stack.length)
    ∧ (ok → kind = 8 → ix = 0 → gives (g.ct.length * 2 ^ 24 + g.cc.length * 2 ^ 16 + g.cs.length * 2 ^ 8 + g.cl.length))
    ∧ (ok → kind = 9 → ix = 0 → gives g.regs.flags.toNat ∧ puts { g with regs := { g.regs with flags := (s.rdS b).truncate 5 } })
    ∧ (ok → kind = 10 → ix = 0 → gives g.regs.sig.toNat ∧ puts { g with regs := { g.regs with sig := w } })
    ∧ (s.names slot = false → Leaves s (.gstat d a) (s.herr true) d 0 ∧ exec (.gresume a b) s = .next (s.herr true)
        ∧ exec (.gkill a) s = .next (s.herr true))
    ∧ (s.names slot = true → Leaves s (.gstat d a) (s.herr false) d (BitVec.ofNat 64
        (((g.trap.map (fun r => r.cause)).getD 0) * 2 ^ 56 + (if g.held then 2 ^ 55 else 0)
          + (if (g.splits.filterMap id).any (fun y => decide (y.park = .yld)) then 2 ^ 54 else 0) + g.stack.length * 2 ^ 32 + g.alive.toNat)))
    ∧ (s.names slot = true → g.trap = none → exec (.gresume a b) s = .next (s.herr true))
    ∧ (∀ r, s.names slot = true → g.trap = some r → ∃ t, exec (.gresume a b) s = .next t ∧ t.iss = s.iss
        ∧ t.dev = { s.dev with groups := t.dev.groups, cores := t.dev.cores }
        ∧ t.dev.group s.iss.core slot = { g with trap := none, splits := modSplit g.splits r.split (fun y => { y with skip := (s.rdS b).getLsbD 0 }) }
        ∧ t.dev.core s.iss.core = { s.dev.core s.iss.core with
            herr := false, waiting := (s.dev.core s.iss.core).waiting.filter (fun v => decide (v.slot ≠ slot)) }
        ∧ ∀ k, k ≠ gkey s.iss.core slot → Tab.find t.dev.groups k = Tab.find s.dev.groups k)
    ∧ (s.names slot = true → x / 2 ^ 8 % 2 = 1 → Makes s (.gkill a) ((s.herr false).dev.killTask s.served))
    ∧ (s.names slot = true → x / 2 ^ 8 % 2 = 0 → Makes s (.gkill a) (((s.herr false).dev.killGroup s.iss.core slot).markKilled s.served))

/-- R290, R291, R383, R384, R402, R405: TLBI removes the matching entries of its scope and waits for the accesses that used them; TKSTAT, WLATCH, DIAGST,
DIAGLD and the words of redundant pairs. -/
def Obligations.SystemWords : Prop :=
  ∀ (s : State) (d a b k : SReg), s.running = true →
    let x := (s.rdS a).toNat
    let core := s.iss.core
    (∀ i ∈ [Instr.tlbiPage a b, .tlbiAsn a b, .tlbiWorld a b, .tlbiAll a b], s.needToken = none → StoresDone s →
      let r := s.dev.tlbi core (s.rdS a) (s.rdS b)
      let users := r.1.usersOf core (s.rdS b) r.2
      let sc := (s.rdS b).toNat / 2 ^ 59 % 2 ^ 3
      let keeps (l : List TlbEntry) := l.filter (fun e => !tlbiHits (s.rdS a) (s.rdS b) e.asn e.world e.va e.size)
      (users = [] → Makes s i r.1)
      ∧ (users ≠ [] → exec i s = .next { s with dev := r.1, iss := { s.iss with parks := s.iss.parks ++ [.tlbi (s.rdS a) (s.rdS b) (some users)] } })
      ∧ r.1 = { s.dev with cores := r.1.cores, dies := r.1.dies }
      ∧ (∀ c, r.1.core c = { s.dev.core c with
          tlb := if c ∈ tlbiCores core sc then keeps (s.dev.core c).tlb else (s.dev.core c).tlb })
      ∧ (∀ c, (r.1.die c).tlb = if c ∈ tlbiDies core sc then keeps (s.dev.die c).tlb else (s.dev.die c).tlb))
    ∧ (let die := s.dev.die (core / 64)
       let world := (s.dev.core core).world
       let sees (e : TicketEntry) : Bool := decide (world = 0 ∨ s.iss.slot = handlerSlot ∨ e.world = world)
       let mine := (s.dev.ops.filter (fun o => decide (o.2.core = core ∧ o.2.slot = s.iss.slot))).filterMap (fun o => o.2.ticket?)
       (x / 2 ^ 62 = 0 → GivesS s (.tkstat d a) d (BitVec.ofNat 64 (mine.length % 2 ^ 16 * 2 ^ 32 + ((mine.head?).map (fun t => t.toNat)).getD 0)))
       ∧ (x / 2 ^ 62 = 1 → GivesS s (.tkstat d a) d (BitVec.ofNat 64 ((die.tickets.filter (fun e => sees e.2)).length * 2 ^ 32 + die.notices % 2 ^ 32)))
       ∧ (x / 2 ^ 62 = 2 → ∀ e, die.tickets.find? (fun e => sees e.2 && decide (e.2.owner = x / 2 ^ 16 % 2 ^ 11 ∧ e.2.tkt.toNat % 2 ^ 16 = x % 2 ^ 16))
            = some e → GivesS s (.tkstat d a) d (BitVec.ofNat 64 (2 ^ 63 + e.2.ops.length % 2 ^ 16 * 2 ^ 32 + e.2.tkt.toNat)))
       ∧ (x / 2 ^ 62 = 3 → GivesS s (.tkstat d a) d 0))
    ∧ (∀ i ∈ [Instr.wlatchRead d a, .wlatchSet d a], s.needToken = none →
        let c := x % 2 ^ 8
        let op := x / 2 ^ 16 % 4
        let now := (s.dev.core c).world
        let gives (st w : Nat) : Prop := GivesS s i d (BitVec.ofNat 64 (st * 2 ^ 56 + w * 2 ^ 8 + c))
        (1 < op → gives 4 now) ∧ (op ≤ 1 → s.dev.inService c = false → gives 2 now) ∧ (op = 0 → s.dev.inService c = true → gives 0 now)
        ∧ (op = 1 → s.dev.inService c = true → s.dev.emptyCore c = false → gives 1 now)
        ∧ (op = 1 → s.dev.inService c = true → s.dev.emptyCore c = true → ∃ t, exec i s = .next t
            ∧ t.iss = { s.iss with parks := s.iss.parks ++ [.latch c] }
            ∧ t.grp.regs = s.grp.regs.writeS d.toNat (BitVec.ofNat 64 (x / 2 ^ 8 % 2 ^ 8 * 2 ^ 8 + c))
            ∧ t.dev = { s.dev with
                groups := t.dev.groups
                cores := Tab.insert s.dev.cores c { s.dev.core c with clearing := some (x / 2 ^ 8 % 2 ^ 8) } }))
    ∧ ((s.paired = true → s.pairHeld = 0) → s.old.countsAt 0 0 63 63 = true → s.old.coveredFailure (s.old.covers [0, 0, 63, 63]) = none →
        GivesS s (.diagld d a) d (s.dev.diagLoad core (Diag.of (s.rdS a)) (s.rdS d))
        ∧ (s.needToken = none → Makes s (.diagst k a b) (s.dev.diagStore core (Diag.of (s.rdS a)) (s.rdS k) (s.rdS b)))
        ∧ ((Diag.of (s.rdS a)).ok = false → GivesS s (.diagld d a) d (BitVec.allOnes 64) ∧ (s.needToken = none → FallsThrough s (.diagst k a b))))
    ∧ ((s.paired = true → s.pairHeld = 0) → s.old.countsAt 0 0 63 63 = false → exec (.diagld d a) s = .next (s.stall .stallStores id))
    ∧ (s.paired = true → 0 < s.pairHeld → exec (.diagld d a) s = .next s.stopAtCheckpoint)
    ∧ (s.iss.slot = handlerSlot → GivesS s (.rdnBegin d) d 1)
    ∧ (s.iss.slot ≠ handlerSlot → s.old.role ≠ .none → GivesS s (.rdnBegin d) d 3)
    ∧ (s.iss.slot ≠ handlerSlot → s.old.role = .none → s.old.countsAt 0 0 63 63 = true →
        s.old.coveredFailure (s.old.covers [0, 0, 63, 63]) = none →
        (64 ≤ s.dev.pairsOn (core / 64) → GivesS s (.rdnBegin d) d 2)
        ∧ (s.dev.pairsOn (core / 64) < 64 → s.dev.trailerCore core s.taskId = none → GivesS s (.rdnBegin d) d 1)
        ∧ (∀ c, s.iss.slot < 64 → s.dev.pairsOn (core / 64) < 64 → s.dev.trailerCore core s.taskId = some c → c ≠ core → ∃ t, exec (.rdnBegin d) s = .next t ∧ t.iss = s.iss
            ∧ t.grp = { s.grp with role := .leader, partner := (c, (s.dev.freeSlots c 1).headD 0), regs := s.grp.regs.writeS d.toNat 0 }
            ∧ (t.dev.group c ((s.dev.freeSlots c 1).headD 0)).role = .trailer
            ∧ (t.dev.group c ((s.dev.freeSlots c 1).headD 0)).partner = (core, s.iss.slot)))
    ∧ (s.old.role = .none → FallsThrough s .rdnCkpt ∧ FallsThrough s .rdnEnd)
    ∧ (s.old.role ≠ .none → Makes s .rdnCkpt { s.dev with groups := Tab.modify s.dev.groups (gkey core s.iss.slot) (fun g => { g with atCheckpoint := some 0 }) }
        ∧ Makes s .rdnEnd { s.dev with groups := Tab.modify s.dev.groups (gkey core s.iss.slot) (fun g => { g with atCheckpoint := some 1 }) })
    ∧ ((s.rdS a).getLsbD 0 = true → GivesS s (.sigrd d a) d (s.old.lastSig.zeroExtend 64))
    ∧ ((s.rdS a).getLsbD 0 = false → GivesS s (.sigrd d a) d (BitVec.ofNat 64
        ((match s.old.role with
            | .none => 0
            | .leader => 1
            | .trailer => 2) * 2 ^ 62
          + ((s.dev.entries core s.iss.slot).filter (fun e => !e.matched)).length % 64 * 2 ^ 56
          + ((s.dev.entries core s.iss.slot).filter (fun e => e.matched)).length % 256 * 2 ^ 48
          + (if s.old.role = .none then 0 else s.old.partner.1 % 256) * 2 ^ 40 + s.old.rollbacks % 2 ^ 32)))

/-- R352, R357 to R366: BOOST's checks in their order and the grant it makes; LIFESET's checks; LBRD, WRECRD and EQRD read. -/
def Obligations.LifeWords : Prop :=
  ∀ (s : State) (d a b : SReg), s.running = true →
    let x := (s.rdS a).toNat
    let ms := (s.rdS b).toNat
    let level := x / 2 ^ 32 % 4
    let cs := s.dev.boostSet (x % 2 ^ 32)
    let bad := 2 ^ 34 ≤ x ∨ level = 3 ∨ (level ≠ 0 ∧ (ms = 0 ∨ 3600000 < ms)) ∨ cs = []
    let r := s.dev.boostCheck cs level ms
    let unit := unitOf (x / 2 ^ 14 % 4) (x % 2 ^ 10)
    (∀ i ∈ [Instr.boostGrant d a b, .boostEnd d a b], s.needToken = none →
      (bad → GivesS s i d 0x0400000000000000)
      ∧ (¬ bad → level = 0 → ∃ t, exec i s = .next t ∧ t.iss = s.iss ∧ t.grp.regs = s.grp.regs.writeS d.toNat (BitVec.ofNat 64 (clusterMask cs))
          ∧ (cs.all (fun c => !s.dev.grants.any (fun g => g.2.clusters.contains c)) = true → t.dev = { s.dev with groups := t.dev.groups }))
      ∧ (¬ bad → level ≠ 0 → r.1 ≠ 0 → GivesS s i d (BitVec.ofNat 64 (r.1 * 2 ^ 56 + r.2 * 2 ^ 52 + clusterMask cs)))
      ∧ (¬ bad → level ≠ 0 → r.1 = 0 → ∃ t n, exec i s = .next t ∧ t.iss = s.iss ∧ 1 ≤ n ∧ n ≤ 65535
          ∧ t.grp.regs = s.grp.regs.writeS d.toNat (BitVec.ofNat 64 (n * 2 ^ 32 + clusterMask cs))
          ∧ Tab.find t.dev.grants n = some
              { level := level, clusters := cs, ms := ms, drawn := 0, start := some s.dev.changeCount
                cost := (boostCost level 0 ms, boostCost level 1 ms, boostCost level 2 ms) }
          ∧ Tab.find t.dev.changes s.dev.nextChange = some { clusters := cs, level := level, count := s.dev.changeCount, switched := false }))
    ∧ (x % 4 < 3 → GivesS s (.lbrd d a) d (BitVec.ofInt 64 (s.dev.binding (x % 4))))
    ∧ (∀ u, x % 4 = 3 → s.dev.bindingUnit = some u → GivesS s (.lbrd d a) d ((s.dev.wearOf u).word u 7))
    ∧ (unit = none ∨ 12 ≤ x / 2 ^ 16 % 2 ^ 4 → GivesS s (.wrecrd d a) d (BitVec.allOnes 64))
    ∧ (∀ u, unit = some u → x / 2 ^ 16 % 2 ^ 4 < 12 → GivesS s (.wrecrd d a) d ((s.dev.wearOf u).word u (x / 2 ^ 16 % 2 ^ 4)))
    ∧ (s.needToken = none → StoresDone s → ∀ u ws, s.loadRecord x 64 = .got u ws → u.running = true →
        (badTarget ws = true → Leaves s (.lifeset d a) u d 1)
        ∧ (badTarget ws = false → ∃ t, exec (.lifeset d a) s = .next t ∧ t.iss = u.iss ∧ t.grp.regs = u.grp.regs.writeS d.toNat 0
            ∧ t.dev = { u.dev with groups := t.dev.groups, commitDue := t.dev.commitDue, target := some { words := ws.take 6 } }))
    ∧ (let q := s.dev.queue (x % 64)
       let world := (s.dev.core s.iss.core).world
       (world = 0 ∨ q.world = world → GivesS s (.eqrd d a) d (BitVec.ofNat 64 (min q.used (2 ^ 32 - 1) * 2 ^ 32 + min q.debt (2 ^ 32 - 1))))
       ∧ (world ≠ 0 → q.world ≠ world → GivesS s (.eqrd d a) d 0))

/-! ## The device's own steps: copies, streams, grids, pages -/

/-- R158, R248 to R253, R266, R267: a channel accepts the entry of least slack and writes its lines; a held line is recalled for a thread that waits for it;
streams fill their queues, and a stale or marked head that a word waits for is read anew. A step that is not due changes nothing (log entry 5). -/
def Obligations.CopyAndStreamSteps : Prop :=
  ∀ (s : State) (cluster chan task ctx : Nat),
    let free := firstBelow (fun i => (Tab.find (s.dev.cluster cluster).chans i).isNone) 8
    let first := firstCopy (s.dev.waitingCopies cluster)
    (∀ t e, free = some chan → first = some (task, t, e) → Makes s (.copyAccept cluster) (s.dev.acceptCopy cluster chan task t e))
    ∧ (free = none ∨ first = none → NotDue s (.copyAccept cluster))
    ∧ (∀ t e, s.dev.task? task = some t → e ∈ t.cq.entries → e.unaccepted = true →
        let e2 := s.dev.acceptedEntry cluster chan task t e
        let d1 := (s.dev.modCluster cluster (fun k => { k with chans := Tab.insert k.chans chan (task, e.n) })).modCopy task e.n (fun _ => e2)
        (∀ f, e2.rec_.failCode e2.steps (s.dev.extents t).1 (s.dev.extents t).2 = some f →
          s.dev.acceptCopy cluster chan task t e = d1.stampCopy cluster chan task t e2 f)
        ∧ (∃ y, d1.carried cluster chan = some (task, y, e2)) ∧ e2.written = e.written ∧ SameMemory s.dev d1)
    ∧ Makes s (.copyComplete cluster chan) (s.dev.copyStep cluster chan)
    ∧ (s.dev.carried cluster chan = none → NotDue s (.copyComplete cluster chan))
    ∧ (∀ t e o, s.dev.carried cluster chan = some (task, t, e) → s.dev.op? e.opId = some o → o.st = .going → e.stop = none → ∀ st r k, e.steps = some st →
        e.rec_.shape st false e.rec_.rows e.rec_.cols = some (r, k) → e.rec_.total r k ≤ e.written →
        Makes s (.copyComplete cluster chan) (s.dev.stampCopy cluster chan task t e 0))
    ∧ (∀ t e code, s.dev.carried cluster chan = some (task, t, e) → s.dev.op? e.opId = none ∧ code = 0 ∨
        e.stop = some code ∧ (s.dev.op? e.opId).any (fun o => decide (o.st = .going) && o.parts.all (fun p => p.done)) = true →
        Makes s (.copyComplete cluster chan) (s.dev.endCopy cluster chan task e code))
    ∧ (Tab.find (s.dev.cluster cluster).held chan = none → NotDue s (.engineRecall cluster chan))
    ∧ (∀ hs, Tab.find (s.dev.cluster cluster).held chan = some hs →
        let waits (p : LanePart) : Prop := p.done = false ∧ ∃ h ∈ hs, p.loc.sp = h.sp ∧ p.loc.own = h.own ∧ overlap h.a 128 p.loc.a p.n = true
        let stalls (x : Option Split) : Prop := ∃ y, x = some y ∧ y.park.isStall = true
        ((∃ o ∈ s.dev.ops, ∃ p ∈ o.2.parts, waits p) → Makes s (.engineRecall cluster chan) (s.dev.copyStep cluster chan))
        ∧ ((∃ g ∈ s.dev.groups, ∃ x ∈ g.2.splits, stalls x) → Makes s (.engineRecall cluster chan) (s.dev.copyStep cluster chan))
        ∧ ((∀ o ∈ s.dev.ops, ∀ p ∈ o.2.parts, ¬ waits p) → (∀ g ∈ s.dev.groups, ∀ x ∈ g.2.splits, ¬ stalls x) → NotDue s (.engineRecall cluster chan)))
    ∧ (∀ t x, s.dev.task? task = some t → Tab.find t.streams ctx = some x →
        let e := x.popped + x.queue.length
        let slot := x.slotIn t
        let r := s.dev.streamPlaces t.core slot x true e (List.range 32)
        let joins (d : Dev) (ent : StreamEntry) : Prop := Makes s (.streamFill task ctx) (d.modStream task ctx (fun x => { x with queue := x.queue ++ [ent] }))
        (t.phase ≠ .running ∨ 8 ≤ x.queue.length ∨ x.entries ≤ e → NotDue s (.streamFill task ctx))
        ∧ (t.phase = .running → x.queue.length < 8 → e < x.entries →
            (∀ f, r.2 = .error f → joins r.1 StreamEntry.blocked)
            ∧ (∀ ps, r.2 = .ok ps → ps.any (fun p => p.2.isRemote) = true → joins r.1 StreamEntry.blocked)
            ∧ (∀ ps, r.2 = .ok ps → ps.any (fun p => p.2.isRemote) = false →
                let d2 := r.1.servePlaces t.core x.elementSize ps
                joins d2 (x.entryOf ps (fun p => d2.seen t.core slot task d2.nextOp p.2 x.elementSize))))
        ∧ (s.dev.popper t.core slot (streamQueue x.words) = none → NotDue s (.streamReload task ctx))
        ∧ (∀ y l sp z pos, x.queue = y :: l → s.dev.popper t.core slot (streamQueue x.words) = some (sp, z, pos) →
            (y.stale = true ∨ y.marked = true → s.dev.storeNear t.core slot y = false →
              Makes s (.streamReload task ctx) (s.dev.reload task ctx t x sp z pos))
            ∧ (y.stale = false → y.marked = false → NotDue s (.streamReload task ctx))))
    ∧ (s.dev.task? task = none → NotDue s (.streamFill task ctx) ∧ NotDue s (.streamReload task ctx))

/-- R314, R315, R321, R322, R324: arrivals and handlers of mailboxes, dependences and done words of grids, and the migration of pages. A step that is not due changes nothing (log entry 5). -/
def Obligations.GridAndPageSteps : Prop :=
  ∀ (s : State) (n : Nat),
    let m := s.dev.box n
    let boxed (x : Mailbox) : Prop := Makes s (.mailboxArrival n) { s.dev with boxes := Tab.insert s.dev.boxes n x }
    (m.arrived = [] → NotDue s (.mailboxArrival n))
    ∧ (∀ x l, m.arrived = x :: l → m.pend.length < 16 → boxed { m with arrived := l, pend := m.pend ++ [x] })
    ∧ (∀ x l, m.arrived = x :: l → 16 ≤ m.pend.length → boxed { m with arrived := l, ovf := min (m.ovf + 1) (2 ^ 32 - 1) })
    ∧ (m.pend = [] ∨ m.bound = false ∨ m.lim + 1 ≤ m.run ∨ 4096 ≤ s.dev.grids.length → NotDue s (.handlerAccept n))
    ∧ (∀ x l, m.pend = x :: l → m.bound = true → m.run < m.lim + 1 → s.dev.grids.length < 4096 →
        Makes s (.handlerAccept n) { s.dev with
          boxes := Tab.insert s.dev.boxes n { m with pend := l, run := m.run + 1 }
          grids := Tab.insert s.dev.grids s.dev.nextLaunch
            { gridOfRecord m.words m.sets (s.dev.queue m.queue).world with mailbox := some n, snapshot := x }
          nextLaunch := (s.dev.nextLaunch + 1) % 2 ^ 56 })
    ∧ Makes s (.dependenceCheck n) ((s.dev.checkDep n 0).checkDep n 1)
    ∧ (∀ g p, s.dev.grid? n = some g → g.fail = 0 → g.dep0 = false → ∀ r, s.dev.translate (s.dev.gridCtx g) .read (wordN g.words 4 % 2 ^ 54) = r → r.out = .ok p →
        r.dev.grid? n = some g → p.loc.isRemote = false → noPartials r.dev →
          let v := r.dev.readNat p.loc 8
          (s.dev.checkDep n 0).grid? n = some (if 2 ^ 63 ≤ v then { g with fail := 1 } else if wordN g.words 5 ≤ v then { g with dep0 := true } else g))
    ∧ (s.dev.grid? n = none → NotDue s (.dependenceCheck n) ∧ NotDue s (.gridDoneWrite n))
    ∧ (∀ g, s.dev.grid? n = some g →
        let over_ := g.fail = 1 ∨ g.fail = 3 ∨ g.retired = g.size
        let a := wordN g.words 9 % 2 ^ 54
        let out := s.dev.gridOpOut (.doneWord n) = true
        let r := s.dev.translate (s.dev.gridCtx g) .write a
        let word := (if g.fail ≠ 0 then 2 ^ 63 else 0) + g.fail * 2 ^ 56 + n
        (¬ over_ ∨ out → NotDue s (.gridDoneWrite n))
        ∧ (over_ → ¬ out → a = 0 → Makes s (.gridDoneWrite n) { s.dev with grids := Tab.erase s.dev.grids n })
        ∧ (over_ → ¬ out → a ≠ 0 → (∀ f, r.out = .error f → Makes s (.gridDoneWrite n) (r.dev.lostDone n a g.world))
            ∧ (∀ p, r.out = .ok p → p.loc.isRemote = false →
                Makes s (.gridDoneWrite n) ((r.dev.perform p.loc (Bytes.ofNat 8 word)).endGrid n))
            ∧ (∀ p, r.out = .ok p → p.loc.isRemote = true →
                Makes s (.gridDoneWrite n) (r.dev.gridOp g (.doneWord n) p.loc a (BitVec.ofNat 128 word)))))
    ∧ (∃ t, exec .migrationPeriodEnd s = .next t ∧ t = { s with dev := { s.dev with frames := t.dev.frames, moves := t.dev.moves, fresh := t.dev.fresh } }
        ∧ ∀ f x, Tab.find s.dev.frames f = some x → ∃ y, Tab.find t.dev.frames f = some y
            ∧ y = { x with fills := [0, 0, 0, 0], moving := y.moving, swap := y.swap }
            ∧ (x.pinned = true ∨ x.moving.isSome = true → y.moving = x.moving ∧ y.swap = x.swap)
            ∧ (x.pinned = false → x.moving = none → ∀ die k, y.moving = some (die, k) →
                let home := s.dev.homeDie (f * 65536)
                let exchanged : Prop := ∃ q, y.swap = some q ∧ (t.dev.frame q).moving = some (home, 0) ∧ (t.dev.frame q).swap = some f
                k = 0 ∧ (exchanged ∨ (die < 4 ∧ die ≠ home ∧ 1024 < x.fills.getD die 0 ∧ 4 * x.fills.getD home 0 < x.fills.getD die 0
                  ∧ ∀ j, j < 4 → j ≠ home → x.fills.getD j 0 ≤ x.fills.getD die 0))))
    ∧ ((s.dev.frame n).moving = none → NotDue s (.lineMigrate n))
    ∧ (∀ die k, (s.dev.frame n).moving = some (die, k) →
        let x := s.dev.frame n
        let from_ := s.dev.leaving n
        let room := s.dev.budgetLeft 4 from_ 1 = true ∧ ∀ p, x.swap = some p → s.dev.budgetLeft 4 (s.dev.leaving p) 1 = true
        let moved (x : Frame) (die k : Nat) : Frame :=
          if k + 1 = 512 then { x with home := some die, moving := none, swap := none } else { x with moving := some (die, k + 1) }
        (¬ room ∨ s.dev.firstMove from_ ≠ some n → NotDue s (.lineMigrate n))
        ∧ (room → s.dev.firstMove from_ = some n → x.swap ≠ some n → ∃ t, exec (.lineMigrate n) s = .next t ∧ t.iss = s.iss
            ∧ (noPartials s.dev → SameMemory s.dev t.dev) ∧ t.dev.frame n = moved x die k
            ∧ (∀ p e j, x.swap = some p → (s.dev.frame p).moving = some (e, j) → t.dev.frame p = moved (s.dev.frame p) e j)
            ∧ ∀ f, f ≠ n → x.swap ≠ some f → t.dev.frame f = s.dev.frame f))

/-- R82 to R84, R90 to R92, R110, R166, R167, R171 to R179, R274, R405 to R407: what a port issues, what becomes of splits between issue groups, how counts
and waits end, and the checkpoints of redundant pairs. A step that is not due changes nothing (log entry 5). -/
def Obligations.IssueAndWaitSteps : Prop :=
  ∀ (s : State) (core slot split port : Nat) (x : Split),
    let g := s.dev.group core slot
    let with_ (h : Group) : Dev := { s.dev with groups := Tab.insert s.dev.groups (gkey core slot) h }
    let cands := (s.dev.portSplits core port).filter (fun c => s.dev.ready core c.1 c.2.2)
    (s.dev.portOpen core port = false ∨ cands = [] → NotDue s (.issueGroup core port))
    ∧ (s.dev.portOpen core port = true → cands ≠ [] → ∃ c ∈ cands, (∀ b ∈ cands, lexLess (s.dev.rank core b) (s.dev.rank core c) = false)
        ∧ exec (.issueGroup core port) s = .next ((s.modDev (fun d => d.issued core port c.1 c.2.1)).issueSplit core c.1 c.2.1 c.2.2))
    ∧ (s.dev.split? core slot split = some x → ∃ t, exec (.waitCountPromotion core slot split) s = .next t ∧ t.iss = s.iss
        ∧ t.dev = { s.dev with groups := t.dev.groups }
        ∧ t.dev.split? core slot split = some { x with
            classPromo := if 64 ≤ x.waitCount ∧ x.classPromo = none then some (s.dev.now (clusterOf core) - (x.waitCount - 64)) else x.classPromo
            globalPromo := if 1024 ≤ x.waitCount ∧ x.globalPromo = none then some (s.dev.now (clusterOf core) - (x.waitCount - 1024)) else x.globalPromo })
    ∧ (s.dev.hasGroup core slot = true →
        (g.mayPop = false ∨ g.stack = [] ∨ freeSplit g.splits = none → NotDue s (.reconvergenceStackPop core slot))
        ∧ (∀ e l k, g.mayPop = true → g.stack = e :: l → freeSplit g.splits = some k →
            Makes s (.reconvergenceStackPop core slot) (with_ { g with stack := l, mayPop := false, splits := setAt g.splits k (some
              (Split.start e.mask { pc := packetAt (s.dev.codeOf core slot) e.packet.toInt, word := e.word } (s.dev.now (clusterOf core)))) }))
        ∧ (s.dev.mergePair core slot = none → NotDue s (.splitMerge core slot))
        ∧ (∀ a b, s.dev.mergePair core slot = some (a, b) → a < b ∧ ∃ y z p, g.splits.getD a none = some y ∧ g.splits.getD b none = some z
            ∧ s.dev.mergePos core slot y = some p ∧ s.dev.mergePos core slot z = some p ∧ (p.word = 0 ∨ (y.park = .join ∧ z.park = .join))
            ∧ (let ws := mergedWaits (y.waits ++ z.waits)
               let now := s.dev.now (clusterOf core)
               let one : Split := { y with
                 mask := y.mask ||| z.mask, pos := p, park := (ws.map Prod.fst).headD .running, later := ws.tail, skip := false
                 issued := (ws.map Prod.snd).headD y.issued, waitCount := 0, classPromo := none, globalPromo := none
                 exiting := false, rest := now + 1, tried := 0 }
               Makes s (.splitMerge core slot) (with_ { g with splits := setAt (setAt g.splits a (some one)) b none })))
        ∧ (let live := g.splits.filterMap id
           let due := live ≠ [] ∧ (∀ y ∈ live, y.park = .join) ∧ (g.stack = [] ∨ live.length = 4)
           (¬ due → NotDue s (.joinRelease core slot))
           ∧ (due → Makes s (.joinRelease core slot) (with_ { g with
                splits := g.splits.map (fun o => o.map Split.unpark)
                regs := { g.regs with sig := g.regs.sig + (live.foldl (fun (m : W32) (y : Split) => m ||| y.mask) 0).rotateLeft 16 } })))
        ∧ (∀ c, Makes s (.counterEnd core slot c) (with_ (g.endCounts c)).wakeStalls))
    ∧ (s.dev.split? core slot split = none → NotDue s (.waitcRelease core slot split) ∧ NotDue s (.barrierRelease core slot split)
        ∧ NotDue s (.monitorWake core slot split) ∧ NotDue s (.monitorRemoteReread core slot split))
    ∧ (s.dev.split? core slot split = some x →
        (∀ l c p t cov, x.park = .waitc l c p t cov →
          let over_ := g.cl.length ≤ l ∧ g.cs.length ≤ c ∧ g.cc.length ≤ p ∧ g.ct.length ≤ t
          (¬ over_ → NotDue s (.waitcRelease core slot split))
          ∧ (over_ → g.coveredFailure cov = none → Makes s (.waitcRelease core slot split) (s.dev.unpark core slot split))
          ∧ (∀ f, over_ → g.coveredFailure cov = some f → g.trap = none →
              Makes s (.waitcRelease core slot split) (s.dev.trapWait core slot split x f))
          ∧ (∀ f, over_ → g.coveredFailure cov = some f → g.trap ≠ none → NotDue s (.waitcRelease core slot split)))
        ∧ (∀ sc cov, x.park = .acqld sc cov → g.coveredFailure cov = none →
          (g.cl ≠ [] → NotDue s (.waitcRelease core slot split))
          ∧ (g.cl = [] → Makes s (.waitcRelease core slot split) ((if 4 ≤ sc then s.dev.dropCopies core else s.dev).unpark core slot split)))
        ∧ (∀ o sc cov, x.park = .relst o sc cov → g.coveredFailure cov = none →
          let over_ := g.cs = [] ∧ (sc < 5 ∨ g.unseen = [])
          (¬ over_ → NotDue s (.waitcRelease core slot split))
          ∧ (over_ → Makes s (.waitcRelease core slot split)
              (((if 4 ≤ sc then s.dev.cleanAll core else s.dev).releaseStore core slot o).unpark core slot split)))
        ∧ (x.park = .tret → g.coveredFailure [0, 0, 0, 0] = none → g.cl = [] → g.cs = [] → g.cc = [] → g.ct = [] →
          Makes s (.waitcRelease core slot split) ((s.dev.unpark core slot split).trapReturn core))
        ∧ (∀ w phase, x.park = .barrier w phase →
          (bit (s.dev.readNat w 4) 31 ≠ phase → s.dev.engineHolds w 4 = false →
            Makes s (.barrierRelease core slot split) ((s.dev.unpark core slot split).restSplit core slot split))
          ∧ (bit (s.dev.readNat w 4) 31 = phase ∨ s.dev.engineHolds w 4 = true → NotDue s (.barrierRelease core slot split)))
        ∧ (∀ ge r a sc w, x.park = .mwait ge r a sc w →
          let d1 := s.dev.combineRange w 8
          let v : W64 := BitVec.ofNat 64 (d1.seen core slot (d1.taskAt core slot) d1.nextOp w 8)
          (w.isRemote = false → g.role ≠ .trailer → s.dev.engineHolds w 8 = false →
            Makes s (.monitorWake core slot split) (d1.mwaitSees core slot split v))
          ∧ (g.role = .none → (if ge then (g.regs.readS r.toNat).toNat ≤ v.toNat else v ≠ g.regs.readS r.toNat) →
              s.dev.mwaitSees core slot split v =
                ((with_ { g with regs := g.regs.writeS r.toNat v, monitor := none }).unpark core slot split).acquired core (if w.isRemote then max 4 sc else sc))
          ∧ (g.role = .none → ¬ (if ge then (g.regs.readS r.toNat).toNat ≤ v.toNat else v ≠ g.regs.readS r.toNat) →
              s.dev.mwaitSees core slot split v = s.dev)
          ∧ (w.isRemote = true → (∀ o ∈ s.dev.ops, ¬ (o.2.core = core ∧ o.2.slot = slot ∧ o.2.kind = .monitor split)) →
              Makes s (.monitorRemoteReread core slot split) (s.dev.monitorRead core slot split a w))
          ∧ (w.isRemote = false → NotDue s (.monitorRemoteReread core slot split))))
    ∧ (∀ n, (∀ o k, s.dev.op? n = some o → o.st = .awaiting k → Makes s (.cxlCompleterAck n) (s.dev.hostAnswers n))
        ∧ (∀ o, s.dev.op? n = some o → (∀ k, o.st ≠ .awaiting k) →
            (s.dev.relstUnseen o = true → Makes s (.cxlCompleterAck n)
              ((s.dev.hostGives (s.dev.group o.core o.slot).unseen).modGroup o.core o.slot (fun h => { h with unseen := [] })))
            ∧ (s.dev.relstUnseen o = false → NotDue s (.cxlCompleterAck n)))
        ∧ (s.dev.op? n = none → NotDue s (.cxlCompleterAck n)))
    ∧ (∀ va k, Makes s (.pageWalk core slot va k) (s.dev.translate (s.dev.slotCtx core slot) k va).dev)
    ∧ (∀ pa spec, let k := s.dev.core core
        (spec = true → pa < 2 ^ 39 → s.dev.hedge pa k.world = false → NotDue s (.instructionFetch core pa spec))
        ∧ (spec = false ∨ 2 ^ 39 ≤ pa ∨ s.dev.hedge pa k.world = true →
            let f := if pa < 2 ^ 39 ∧ k.icache.contains (pa / 96) = false then s.dev.countFill (dieOf core) (hbmAt pa) else s.dev
            Makes s (.instructionFetch core pa spec) { f with cores := Tab.insert s.dev.cores core { k with
            icache := if k.icache.contains (pa / 96) then k.icache else ((pa / 96) :: k.icache).take 1365 } }))
    ∧ (s.dev.pairArrived core slot = false → NotDue s (.checkpoint core slot))
    ∧ (s.dev.pairArrived core slot = true →
        let p := g.partner
        (g.regs.sig ≠ (s.dev.group p.1 p.2).regs.sig → Makes s (.checkpoint core slot) (s.dev.rollPair core slot))
        ∧ (g.regs.sig = (s.dev.group p.1 p.2).regs.sig → s.dev.holdsStores g.pairBuf = true →
            Makes s (.checkpoint core slot) (s.dev.performHeld g.pairBuf))
        ∧ (g.regs.sig = (s.dev.group p.1 p.2).regs.sig → s.dev.holdsStores g.pairBuf = false →
            let mxc := ((s.dev.task? g.task).map (fun t => t.mxc)).getD []
            let keep (h : Group) : Group := { h with
              checkpoint := some (h.save mxc), atCheckpoint := h.atCheckpoint.bind (fun k => if k % 8 = 2 then some (3 + 8 * (k / 8)) else none), pairBuf := [], rollRun := 0 }
            let d := (s.dev.modGroup core slot keep).modGroup p.1 p.2 keep
            Makes s (.checkpoint core slot) (if g.checkKind = some 1 then d.dissolve core slot else d).wakeStalls))

/-- R93, R147, R203 to R210, R308, R315: dispatch, the release of slots and what follows the last, commits and restarts of tentative work, and who gets a
set, a token or an entry. A step that is not due changes nothing (log entry 5). -/
def Obligations.WorkgroupSteps : Prop :=
  ∀ (s : State) (core slot n : Nat) (t : Task),
    let g := s.dev.group core slot
    Makes s .dispatch (let d := (s.dev.failLost.idleDeficits.serveClasses [3, 2, 1, 0]).1
      d.unplaced.foldl Dev.askFor d)
    ∧ Makes s (.allotmentClearDone n) (s.dev.modTask n (fun k => if k.phase = .clearing then { k with phase := .running } else k))
    ∧ (s.dev.task? g.task = some t → s.dev.hasGroup core slot = true → slot ≠ handlerSlot → g.live = 0 → g.stack = [] → g.trap = none →
        s.dev.servedSlot core ≠ some slot → t.phase = .running ∨ t.phase = .committing → g.role = .none →
        (g.countsAt 0 0 0 0 = false → NotDue s (.groupSlotRelease core slot))
        ∧ (g.countsAt 0 0 0 0 = true → g.failed = [] →
            let last : Prop := ∀ y ∈ t.slots, y = slot ∨ y ∈ t.left
            let waits : Prop := t.commitDue = true ∨ s.dev.servedTask core = some g.task
            let d := { s.dev with groups := Tab.erase s.dev.groups (gkey core slot) }.modTask g.task (fun k => { k with
              left := slot :: k.left, floor := max k.floor (max g.timeFloor (s.dev.regionTime (clusterOf core) / 2 ^ 24)) })
            (¬ last → Makes s (.groupSlotRelease core slot) d)
            ∧ (last → ¬ waits → Makes s (.groupSlotRelease core slot) (d.retire g.task))
            ∧ (last → waits → NotDue s (.groupSlotRelease core slot)))
        ∧ (∀ f l, g.countsAt 0 0 0 0 = true → g.failed = f :: l →
            Makes s (.groupSlotRelease core slot) ((s.dev.modGroup core slot (fun h => h.dropFailure f)).raiseTrap core slot 0 0 g.exitPos f.tr.info)))
    ∧ (0 < g.live ∨ g.stack ≠ [] ∨ g.trap.isSome = true ∨ slot = handlerSlot ∨ s.dev.servedSlot core = some slot → NotDue s (.groupSlotRelease core slot))
    ∧ (s.dev.task? n = none → NotDue s (.taskCommit n) ∧ NotDue s (.taskRestart n) ∧ NotDue s (.atomicSetWaitAcquire n))
    ∧ (s.dev.task? n = some t →
        let gone := t.slots.all (fun sl => decide ((s.dev.group t.core sl).live = 0) && (s.dev.group t.core sl).stack.isEmpty
          && (s.dev.group t.core sl).trap.isNone)
        (gone = false ∨ t.commitDue = false ∨ t.phase ≠ .running ∨ s.dev.tentOps n = true → NotDue s (.taskCommit n))
        ∧ (gone = true → t.commitDue = true → t.phase = .running → s.dev.tentOps n = false →
            let d := ((s.dev.mergeTent n).releaseCopies n).modTask n (fun k => { k with sets := [], token := .none, cqFirst := none })
            Makes s (.taskCommit n) (Dev.wakeStalls { d with tokens := d.tokens.filter (fun p => decide (p.2 ≠ n)) }))
        ∧ (∀ gr, s.dev.grid? t.grid = some gr →
            let held := t.slots.any (fun sl => (s.dev.group t.core sl).held || (s.dev.group t.core sl).trap.isSome)
            (t.phase ≠ .wounded ∨ t.killed = true ∨ s.dev.woundBusy n t = true ∨ held = true ∨ 4096 < s.dev.activeSets + gr.sets.length →
              NotDue s (.taskRestart n))
            ∧ (t.phase = .wounded → t.killed = false → s.dev.woundBusy n t = false → held = false → s.dev.activeSets + gr.sets.length ≤ 4096 → ∃ u y, exec (.taskRestart n) s = .next u ∧ u.iss = s.iss
                ∧ SameMemory s.dev u.dev ∧ u.dev.task? n = some y
                ∧ y.phase = .running ∧ y.restarts = (t.restarts + 1) % 2 ^ 32 ∧ y.sets = tableSets gr ∧ y.tiles = [] ∧ y.handles = [] ∧ y.streams = [] ∧ y.tent = []
                ∧ y.left = [] ∧ y.slots = t.slots
                ∧ (∀ k, k ∉ t.slots.map (gkey t.core) → (u.dev.group (k / 64) (k % 64)).regs = (s.dev.group (k / 64) (k % 64)).regs)))
        ∧ ((s.dev.setWaiters.filter (fun w => decide (w.1 = n)) = [] ∨ t.phase ≠ .running) → NotDue s (.atomicSetWaitAcquire n))
        ∧ ((∀ w ∈ s.dev.setWaiters, w.1 = n → ∀ i ∈ w.2.2.2, s.dev.olderWaits n t i = true) → NotDue s (.atomicSetWaitAcquire n)))
    ∧ (∀ k ids, s.dev.setWaiters = [(n, gkey core slot, k, ids)] → slot < 64 → s.dev.task? n = some t → t.phase = .running → ids ≠ [] → ids.Nodup →
        (∀ i ∈ ids, (s.dev.settle n i).1 = []) →
        let taken := ids.filter (fun i => !(s.dev.settle n i).2)
        let rest := ids.filter (fun i => (s.dev.settle n i).2)
        let d := s.dev.acquire n taken
        (rest = [] → Makes s (.atomicSetWaitAcquire n) (d.modGroup core slot (fun h => { h with splits := modSplit h.splits k Split.retry })))
        ∧ (rest ≠ [] → Makes s (.atomicSetWaitAcquire n)
            (d.modGroup core slot (fun h => { h with splits := modSplit h.splits k (fun x => { x with park := .stallSet rest }) }))))
    ∧ (Tab.find s.dev.tokens n ≠ none ∨ s.dev.tokenNext n = none → NotDue s (.irrevocableTokenGrant n))
    ∧ (∀ k, Tab.find s.dev.tokens n = none → s.dev.tokenNext n = some k →
        let d := ((s.dev.mergeTent k).releaseCopies k).modTask k (fun y => { y with token := .held, cqFirst := none })
        let inPlace (o : Op) : Op := if o.task = k ∧ o.slot ≠ handlerSlot then { o with tent := false } else o
        Makes s (.irrevocableTokenGrant n) ({ d with tokens := Tab.insert d.tokens n k, ops := Tab.mapV d.ops (fun _ o => inPlace o) }.wakeTask
          (fun h => decide (h.task = k)) (fun p => decide (p = Park.stallToken))))
    ∧ (4096 ≤ s.dev.activeSets → NotDue s (.activeSetEntryFree n))
    ∧ (s.dev.activeSets < 4096 →
        Makes s (.activeSetEntryFree n) (s.dev.wakeTask (fun h => decide (h.task = n)) (fun p => decide (p = .stallAdecl))))

/-- R12, R326, R330, R338 to R347, R383: activations of the handler, saves and restores of contexts, the clearing of a core for a new world, and the probes
of waits. A step that is not due changes nothing (log entry 5). -/
def Obligations.ContextSteps : Prop :=
  ∀ (s : State) (core slot split n : Nat) (t : Task),
    (let k := s.dev.core core
     (k.serving ≠ none ∨ k.waiting = [] → NotDue s (.handlerActivation core))
     ∧ (∀ r l, k.serving = none → k.waiting = r :: l →
         let task := (s.dev.group core r.slot).task
         let entry := Tab.get 0 s.dev.handlers k.world
         let now := s.dev.now (clusterOf core)
         let hold (h : Group) : Group := if h.held then h else { h with held := true, heldAt := now, probed := false }
         let served : Dev := { s.dev with
           cores := Tab.insert s.dev.cores core { k with waiting := l, serving := some (task, r) }
           groups := Tab.insert (Tab.mapV s.dev.groups (fun g h =>
             if g / 64 = core ∧ g % 64 ≠ handlerSlot ∧ h.task = task then hold h else h))
             (gkey core handlerSlot) (handlerGroup (s.dev.group core handlerSlot) entry now) }
         (s.dev.inFlight core r.slot = true → NotDue s (.handlerActivation core))
         ∧ (s.dev.inFlight core r.slot = false → entry = 0 ∨ entry % 12 ≠ 0 → Makes s (.handlerActivation core) (served.handlerFault core))
         ∧ (s.dev.inFlight core r.slot = false → entry ≠ 0 → entry % 12 = 0 → ∃ u, exec (.handlerActivation core) s = .next u ∧ u.iss = s.iss
             ∧ u.dev = { s.dev with cores := u.dev.cores, groups := u.dev.groups } ∧ u.dev.core core = { k with waiting := l, serving := some (task, r) }
             ∧ u.dev.group core handlerSlot = handlerGroup (s.dev.group core handlerSlot) entry (s.dev.now (clusterOf core))
             ∧ ∀ g h, g ≠ gkey core handlerSlot → g % 64 ≠ handlerSlot → Tab.find s.dev.groups g = some h →
                 Tab.find u.dev.groups g = some (if g / 64 = core ∧ h.task = task then hold h else h))))
    ∧ (s.dev.task? n = none → NotDue s (.cooperativeSave n) ∧ NotDue s (.preemptionDeadline n))
    ∧ (s.dev.task? n = some t →
        let lost := s.dev.expelled.contains (s.dev.worldOf n)
        let unit := s.dev.unitOf t
        let ready := unit.all (fun u => decide (u.2.phase = .running) && u.2.deadlineFrom.isSome && s.dev.yielded u.1 && s.dev.quietTask u.1 u.2)
        let room := (List.range 4).all (fun i => s.dev.regionRoom i ((unit.filter (fun u => decide (dieOf u.2.core = i))).map Prod.fst))
        let cs := s.dev.saveClosure 32 [clusterOf t.core]
        let free : Prop := (∀ c ∈ cs, (s.dev.cluster c).clearing = false)
          ∧ ∀ i, i < 4 → (cs.filter (fun c => decide (dieOfCluster c = i))).length ≤ s.dev.freePlaces i ∧ s.dev.overflowRoom i cs = true
        (lost = true → s.dev.atYield n = true → Makes s (.cooperativeSave n) (s.dev.worldFault n))
        ∧ (lost = false ∨ s.dev.atYield n = false → unit ≠ [] → ready = true → room = true →
            Makes s (.cooperativeSave n) (unit.foldl (fun d u => d.saveToRegion u.1) s.dev))
        ∧ (lost = false ∨ s.dev.atYield n = false → unit = [] ∨ ready = false ∨ room = false → NotDue s (.cooperativeSave n))
        ∧ (t.resident = false ∨ s.dev.expired t = false → NotDue s (.preemptionDeadline n))
        ∧ (t.resident = true → s.dev.expired t = true → lost = true → Makes s (.preemptionDeadline n) (s.dev.worldFault n))
        ∧ (t.resident = true → s.dev.expired t = true → lost = false →
            (free → Makes s (.preemptionDeadline n) (s.dev.beginSave cs)) ∧ (¬ free → NotDue s (.preemptionDeadline n))))
    ∧ (let ts := s.dev.tasks.filter (fun t => t.2.resident && decide (clusterOf t.2.core = n))
       let due : Prop := (s.dev.cluster n).clearing = true ∧ (∀ t ∈ ts, s.dev.quietTask t.1 t.2 = true)
         ∧ ∀ c ∈ coresOf n, s.dev.quietHandler c = true
       let kept (d : Dev) : Dev := d.modCluster n (fun k => { k with clearing := false })
       (¬ due → NotDue s (.forcedSaveComplete n))
       ∧ (due → ∃ u, exec (.forcedSaveComplete n) s = .next u ∧ u.iss = s.iss ∧ (u.dev.cluster n).clearing = false)
       ∧ (due → ts = [] → let d := (coresOf n).foldl Dev.abandonHandler s.dev
           (d.takenPlace (dieOfCluster n) n = none → Makes s (.forcedSaveComplete n) (kept d))
           ∧ (∀ p, d.takenPlace (dieOfCluster n) n = some p → Makes s (.forcedSaveComplete n)
               (kept (d.modDie (dieOfCluster n) (fun x => { x with shadow := setAt x.shadow p none }))))))
    ∧ (∀ die,
        let free (d : Dev) : Dev := d.modDie die (fun x => { x with shadow := setAt x.shadow n none })
        let sought : Prop := ∃ k ∈ s.dev.tasks, k.2.resident = true ∧ dieOf k.2.core = die ∧ s.dev.expired k.2 = true
          ∧ (s.dev.cluster (clusterOf k.2.core)).clearing = false
        ((s.dev.die die).shadow.getD n none = none → NotDue s (.shadowPlaceRelease die n))
        ∧ (∀ l, (s.dev.die die).shadow.getD n none = some l →
            let rest := l.filter (s.dev.liesIn die n)
            let fits : Prop := s.dev.regionUsed die - s.dev.overflowBytes l + s.dev.contextsBytes rest ≤ Config.regionBytes
            (l.headD 0 = 0 → NotDue s (.shadowPlaceRelease die n))
            ∧ (l.headD 0 ≠ 0 → rest = [] → Makes s (.shadowPlaceRelease die n) (free s.dev))
            ∧ (l.headD 0 ≠ 0 → rest ≠ [] → sought → fits → Makes s (.shadowPlaceRelease die n)
                ((free (rest.foldl (fun d t => d.modTask t (fun k => { k with phase := .saved none })) s.dev)).modDie die (fun x =>
                  { x with region := x.region ++ rest })))
            ∧ (l.headD 0 ≠ 0 → rest ≠ [] → ¬ sought ∨ ¬ fits → NotDue s (.shadowPlaceRelease die n))))
    ∧ (let ts := s.dev.tasks.filter (fun t => decide (t.2.phase = .restoring ∧ clusterOf t.2.core = n))
       let d := ts.foldl (fun d t => d.restored t.1) s.dev
       (ts = [] → NotDue s (.contextRestoreComplete n))
       ∧ (ts ≠ [] → Makes s (.contextRestoreComplete n) { d with
           dies := Tab.mapV d.dies (fun _ x => { x with region := x.region.filter (fun k => !(ts.map Prod.fst).contains k) }) }))
    ∧ ((s.dev.core core).clearing = none → NotDue s (.worldLatchClearDone core))
    ∧ (∀ w, (s.dev.core core).clearing = some w → ∃ u, exec (.worldLatchClearDone core) s = .next u ∧ u.iss = s.iss
        ∧ (s.dev.expelled.contains w = false →
            u.dev.core core = { Core.reset with world := w, preq := (s.dev.core core).preq, herr := (s.dev.core core).herr })
        ∧ (u.dev.core core).world = w ∧ (u.dev.core core).l1 = []
        ∧ (∀ g, g / 64 = core → Tab.find u.dev.groups g = none) ∧ (noPartials s.dev → SameMemory s.dev u.dev))
    ∧ (let idle := ∀ p ∈ s.dev.probes, p.2.sender ≠ (core, slot)
       let sent (w : Nat) (d : Dev) : Dev := { d with
         nextProbe := d.nextProbe + 1
         probes := Tab.insert d.probes d.nextProbe { sender := (core, slot), wait := w, at_ := (core, slot), path := [] } }
       (∀ x, split < 4 → s.dev.split? core slot split = some x →
         let waits := x.waitKind ≠ 0 ∧ x.probed = false ∧ s.dev.param 0 ≤ s.dev.lasted core x.since ∧ idle
         (¬ waits → NotDue s (.waitProbe core slot split))
         ∧ (waits → ∃ u, exec (.waitProbe core slot split) s = .next u ∧ u.iss = s.iss
             ∧ u.dev = { sent split s.dev with groups := u.dev.groups }
             ∧ u.dev.split? core slot split = some { x with probed := true }))
       ∧ (s.dev.arbiterWait core slot = none → NotDue s (.waitProbe core slot 4))
       ∧ (∀ e, s.dev.arbiterWait core slot = some e →
         let waits := e.probed = false ∧ s.dev.param 0 ≤ s.dev.lasted core (e.reqAt.getD 0) ∧ idle
         (¬ waits → NotDue s (.waitProbe core slot 4))
         ∧ (waits → Makes s (.waitProbe core slot 4) (sent 4 (s.dev.modEntry core e.id (fun x => { x with probed := true })))))
       ∧ (∀ c, (s.dev.group core slot).holdSince = some c →
         let waits := (s.dev.group core slot).probed = false ∧ s.dev.param 0 ≤ s.dev.lasted core c ∧ idle
         (¬ waits → NotDue s (.waitProbe core slot 5))
         ∧ (waits → Makes s (.waitProbe core slot 5) (sent 5 (s.dev.modGroup core slot (fun g => { g with probed := true })))))
       ∧ (∀ k o, s.dev.op? k = some o →
         let waits := o.core = core ∧ o.slot = slot ∧ o.ticketed = true ∧ o.probed = false ∧ s.dev.param 0 ≤ s.dev.ticketWait core k ∧ idle
         (¬ waits → NotDue s (.waitProbe core slot (6 + k)))
         ∧ (waits → Makes s (.waitProbe core slot (6 + k)) (sent (6 + k) (s.dev.modOp k (fun o => { o with probed := true }))))))
    ∧ (Tab.find s.dev.probes n = none → NotDue s (.probeForward n))
    ∧ (∀ p, Tab.find s.dev.probes n = some p →
        let d := { s.dev with probes := Tab.erase s.dev.probes n }
        let next := (if p.path = [] then d.waitEdges p.sender.1 p.sender.2 p.wait else d.probeEdges p.at_.1 p.at_.2).filter
          (fun x => decide (x = p.sender) || !p.path.contains x)
        let gone := if p.path = [] then d.kindOfWait p.sender.1 p.sender.2 p.wait = 0 else d.groupWaits p.at_.1 p.at_.2 = 0
        let die := dieOf p.at_.1
        let path := p.path ++ [p.at_]
        let due := next.filter (fun x => !p.sent.contains x)
        let taken := due.take (d.unitsLeft 6 die due.length)
        let sent (d : Dev) (x : Nat × Nat) : Dev :=
          { d with probes := Tab.insert d.probes d.nextProbe { p with at_ := x, path := path, sent := [] }, nextProbe := d.nextProbe + 1 }
        let all := taken.foldl sent (d.spend 6 die taken.length)
        (gone → Makes s (.probeForward n) d)
        ∧ (¬ gone → due ≠ [] → taken = [] → NotDue s (.probeForward n))
        ∧ (¬ gone → due = [] ∨ taken ≠ [] →
            (p.sender ∈ taken → Makes s (.probeForward n) ((d.spend 6 die taken.length).foundCycle p.wait path))
            ∧ (p.sender ∉ taken → taken.length = due.length → Makes s (.probeForward n) all)
            ∧ (p.sender ∉ taken → taken.length < due.length → Makes s (.probeForward n)
                { all with probes := Tab.insert all.probes n { p with sent := p.sent ++ taken } })))

/-! ## Fabric, links and sessions -/

/-- R177, R281 to R287, R301 to R303: replies of an owner end the requests of their tags or put them on tickets; arriving accesses are answered through a
window; tickets open, close and time out. A step that is not due changes nothing (log entry 5). -/
def Obligations.RemoteSteps : Prop :=
  ∀ (s : State) (tag die entry win : Nat) (tkt : BitVec 32) (data : List (BitVec 8)) (m : RemoteMsg),
    (s.dev.request? tag = none → NotDue s (.readData tag data) ∧ NotDue s (.writeAck tag) ∧ NotDue s (.ticketReply tag tkt) ∧ NotDue s (.busy tag)
      ∧ NotDue s (.busyResend tag) ∧ NotDue s (.ticketTableFullResend tag) ∧ NotDue s (.remoteResponseTimeout tag))
    ∧ (∀ k r, s.dev.request? tag = some (k, r) →
        Makes s (.readData tag data) (s.dev.replied k r data) ∧ Makes s (.writeAck tag) (s.dev.acked k r)
        ∧ (∀ o, s.dev.op? r.op = some o →
            (ticketClass tkt = 0 → Makes s (.ticketReply tag tkt) (s.dev.pendTicket k r o (withClass tkt 0)))
            ∧ (ticketClass tkt ≠ 0 → Makes s (.ticketReply tag tkt)
                ((s.dev.dropRequest k).failOp r.op (o.parts.getD r.part default).addr (withClass tkt (ticketClass tkt)))))
        ∧ Makes s (.busy tag) { s.dev with requests := Tab.insert s.dev.requests k { r with resend := some (s.dev.time + 6554), full := false } }
        ∧ (∀ z, r.resend = some z → z ≤ s.dev.time →
            (r.full = false → Makes s (.busyResend tag) (s.dev.resend k r)) ∧ (r.full = true → Makes s (.ticketTableFullResend tag) (s.dev.resend k r)))
        ∧ (∀ z, r.resend = some z → s.dev.time < z → NotDue s (.busyResend tag) ∧ NotDue s (.ticketTableFullResend tag))
        ∧ (r.resend ≠ none ∨ s.dev.time < r.sent + micros (s.dev.param 2) → NotDue s (.remoteResponseTimeout tag))
        ∧ (r.resend = none → r.sent + micros (s.dev.param 2) ≤ s.dev.time → Makes s (.remoteResponseTimeout tag)
            (((s.dev.dropRequest k).unsend k r.peer).failOp r.op (((s.dev.op? r.op).map (fun o => (o.parts.getD r.part default).addr)).getD 0) (mkTicket 6 r.peer 0))))
    ∧ (∀ k r o p d sx, s.dev.request? tag = some (k, r) → s.dev.op? r.op = some o → o.kind = .load d sx → o.parts = [p] → r.part = 0 → o.core < 65536 →
        s.dev.hasGroup o.core o.slot = true → d < 127 → p.lane < 32 → p.n = 1 ∨ p.n = 2 ∨ p.n = 4 →
        (s.dev.group o.core o.slot).awaits (.v d) r.op = true →
        let x := Bytes.toNat (((data.take p.n).zipIdx).map (fun b => s.dev.overlay o.core o.slot r.op (p.loc.plus b.2) b.1))
        ((s.dev.replied k r data).group o.core o.slot).regs.readV d p.lane =
          (if sx then (BitVec.ofNat (8 * p.n) x).signExtend 32 else BitVec.ofNat 32 x))
    ∧ Makes s (.replayNotice tkt) ((List.range 4).foldl (fun d i => d.noticeDie i (withClass tkt (ticketClass tkt))) s.dev)
    ∧ (Tab.find (s.dev.die die).tickets entry = none → NotDue s (.requesterTicketTimeout die entry))
    ∧ (∀ e, Tab.find (s.dev.die die).tickets entry = some e →
        let due := e.notice = none ∧ e.since + micros (s.dev.param 1) ≤ s.dev.time
        (due → Makes s (.requesterTicketTimeout die entry) (s.dev.noticeEntry die entry (withClass e.tkt 6)))
        ∧ (¬ due → NotDue s (.requesterTicketTimeout die entry)))
    ∧ Makes s (.noticeRetentionExpiry tkt) { s.dev with dies := Tab.mapV s.dev.dies (fun _ x =>
        { x with kept := x.kept.filter (fun e => !decide (e.1 = tkt ∧ e.2 + micros 1000 ≤ s.dev.time)) }) }
    ∧ Makes s (.tagRetentionExpiry win tag) { s.dev with
        performedTags := s.dev.performedTags.filter (fun t => !decide (t.1 = win ∧ t.2.1 = tag ∧ t.2.2.2 + micros 1000 ≤ s.dev.time)) }
    ∧ (let w := s.dev.window m.win
       let known := s.dev.performedTags.find? (fun t => decide (t.1 = m.peer ∧ t.2.1 = m.tag))
       let refused (d : Dev) (c : Nat) : Prop := Makes s (.remoteAccessArrival m) (d.answer (answerTo m 5 (mkTicket c d.peerId 0) []))
       let outside := w.v = false ∨ m.peer < w.plo ∨ w.phi < m.peer
       let readOnly := kindWrites m.kind = true ∧ w.wr = false
       let r := s.dev.translate (Dev.windowCtx w m) m.kind m.va
       (∀ x, known = some x → Makes s (.remoteAccessArrival m) (s.dev.answer x.2.2.1))
       ∧ (known = none → outside → refused s.dev 4)
       ∧ (known = none → ¬ outside → m.world ≠ w.world → refused s.dev 3)
       ∧ (known = none → ¬ outside → m.world = w.world → readOnly → refused s.dev 2)
       ∧ (known = none → ¬ outside → m.world = w.world → ¬ readOnly →
           (∀ id t, s.dev.openTicket m.win (m.va / 65536) = some (id, t) → ∃ d : Dev, Makes s (.remoteAccessArrival m) (d.answer (answerTo m 5 (mkTicket 0 d.peerId id) []))
               ∧ d = { s.dev with owned := d.owned }
               ∧ Tab.find d.owned id = some { t with peers := if t.peers.contains m.peer then t.peers else t.peers ++ [m.peer] })
           ∧ (s.dev.openTicket m.win (m.va / 65536) = none →
               (r.out = .error .hedge → refused r.dev 3)
               ∧ (∀ x c, r.out = .error (.fault x c) → c = 1 ∨ c = 7 → Makes s (.remoteAccessArrival m) (r.dev.newTicket w m))
               ∧ (∀ x c, r.out = .error (.fault x c) → c ≠ 1 → c ≠ 7 → refused r.dev 2)
               ∧ (∀ p, r.out = .ok p → p.loc.isRemote = true → refused r.dev 2)
               ∧ (∀ p, r.out = .ok p → p.loc.isRemote = false → r.dev.engineHolds p.loc (remoteSpan m) = true → NotDue s (.remoteAccessArrival m))
               ∧ (∀ p, r.out = .ok p → p.loc.isRemote = false → r.dev.engineHolds p.loc (remoteSpan m) = false →
                   let a := r.dev.serveRemote m p.loc (leafSwa p.leaf)
                   Makes s (.remoteAccessArrival m)
                     (({ a.1 with performedTags := a.1.performedTags ++ [(m.peer, m.tag, a.2, a.1.time)] }).answer a.2)))))
    ∧ (∀ word : BitVec 64, (s.dev.posted.contains (win, word) = false → NotDue s (.ticketPost win word))
        ∧ (s.dev.posted.contains (win, word) = true →
            let d := { s.dev with posted := dropPost win word s.dev.posted }
            let id := word.toNat % 2 ^ 16
            let ok := (Tab.find s.dev.owned id).any (fun t => decide (t.win = win)) && s.dev.hedge (s.dev.window win).post (s.dev.window win).world
            Makes s (.ticketPost win word) (if ok then d.closeTicket id (word.toNat / 2 ^ 61) else d)))
    ∧ (∀ t, Tab.find s.dev.owned entry = some t →
        (s.dev.time < t.since + micros (s.dev.param 1) → NotDue s (.ownerTicketTimeout entry))
        ∧ (t.since + micros (s.dev.param 1) ≤ s.dev.time → Makes s (.ownerTicketTimeout entry) { s.dev with owned := Tab.erase s.dev.owned entry }))
    ∧ (Tab.find s.dev.owned entry = none → NotDue s (.ownerTicketTimeout entry))

/-- R294 to R300, R304, R388, R390, R392: a link's flits, credits, retries, lanes and secrets. A step that is not due changes nothing (log entry 5). -/
def Obligations.LinkSteps : Prop :=
  ∀ (s : State) (l vc n lane : Nat) (f : Flit) (trained : BitVec 16) (secret : BitVec 384),
    let k := s.dev.link l
    let linked (x : Link) : Dev := { s.dev with links := Tab.insert s.dev.links l x }
    let begun := Tab.find k.started vc
    let queued := Tab.get [] k.queued vc
    let head := (begun.map Prod.fst).or queued.head?
    let packs := s.dev.compresses l
    let gathered (m : Msg) := gatherFlit packs m.peer m.world 64 [] [] begun queued
    let took (m : Msg) : Dev := linked { k with
      queued := Tab.insert k.queued vc (gathered m).2.2.2
      started := match (gathered m).2.2.1 with
        | some x => Tab.insert k.started vc x
        | none => Tab.erase k.started vc }
    let again (x : Link) : List (Flit × List (Nat × List Byte)) := k.wire ++ k.unacked.map (fun u => (u.1, x.stripe (flitBytes u.1)))
    let replays (i : Instr) (x : Link) (f : Dev → Dev) : Prop := ∃ z, k.sent ≤ z ∧ Makes s i (f (linked { x with wire := again x, sent := z }))
    (head = none → NotDue s (.flitTransmit l vc))
    ∧ (∀ m, head = some m →
        (1536 ≤ m.peer → Makes s (.flitTransmit l vc) ((took m).modLink l (fun x => { x with proto := min (x.proto + 1) 255 })))
        ∧ (m.peer < 1536 → s.dev.drops m.peer m.world = true → Makes s (.flitTransmit l vc) (took m))
        ∧ (m.peer < 1536 → s.dev.drops m.peer m.world = false →
            (s.dev.maySend l vc = false ∨ s.dev.passes l vc m.peer m.world = false → NotDue s (.flitTransmit l vc))
            ∧ (s.dev.maySend l vc = true → s.dev.passes l vc m.peer m.world = true →
                let r := gathered m
                Makes s (.flitTransmit l vc) ((took m).emit l vc m.peer m.world (compressedIn packs r.2.1 r.2.2.1) (fillUp r.1) r.2.1))))
    ∧ (∀ (peer world : Nat) (cmp : Bool) (p : List Byte) (car : List Msg), ∃ g, s.dev.emit l vc peer world cmp p car = linked { k with
          sendCtr := k.sendCtr + 1, credits := Tab.insert k.credits vc (Tab.get 0 k.credits vc - 1), unacked := k.unacked ++ [(g, car)]
          acked := if k.unacked = [] then s.dev.time else k.acked
          wire := k.wire ++ [(g, k.stripe (flitBytes g))]
          sent := k.sent + ((k.stripe (flitBytes g)).map (fun x => x.2.length)).foldl max 0 }
        ∧ g.vc = vc ∧ g.world = world ∧ g.cmp = cmp ∧ g.seq = k.sendCtr % 65536 ∧ g.ack = (k.recvCtr + 4095) % 4096
        ∧ g.src = s.dev.peerId ∧ g.dst = peer ∧ g.zero = 0 ∧ flitCrcOk g = true)
    ∧ (k.idle = true → s.dev.maySend l 3 = true → Makes s (.filler l) (s.dev.emit l 3 (s.dev.farPeer l) 0 false (fillUp []) []))
    ∧ (k.idle = false ∨ s.dev.maySend l 3 = false → NotDue s (.filler l))
    ∧ Makes s (.creditReturn l vc n) (linked { k with credits := Tab.insert k.credits vc (Tab.get 0 k.credits vc + n) })
    ∧ Makes s (.flitCounterExhaustion l) (linked
        (if 2 ^ 48 - 2 ≤ k.sendCtr ∧ k.exhausted = none then { k with exhausted := some s.dev.time } else k))
    ∧ (let up := k.st = 2 ∨ k.st = 3
       let key := s.dev.flitKey l f.world f.ks f.src s.dev.peerId
       let iv := flitIv k.recvCtr f.src l s.dev.peerId
       let good := f.gcmTag = Config.gcmTag key iv (flitHeader f ++ f.payload)
       let left := dropAcked f.ack k.unacked
       let next := linked { k with
         recvCtr := k.recvCtr + 1, unacked := left, acked := if left.length < k.unacked.length then s.dev.time else k.acked }
       let discarded := linked { k with crcFails := (k.crcFails ++ [s.dev.time]).filter (fun t => decide (s.dev.time < t + micros 1000)) }
       (¬ up → NotDue s (.flitReceive l f))
       ∧ (up → flitCrcOk f = false → Makes s (.flitReceive l f) discarded)
       ∧ (up → flitCrcOk f = true → f.seq ≠ k.recvCtr % 65536 → NotDue s (.flitReceive l f))
       ∧ (up → flitCrcOk f = true → f.seq = k.recvCtr % 65536 →
           (¬ good → (∀ x, s.dev.worldSession f.src f.world = some x → x.2.st ≠ .run) → Makes s (.flitReceive l f) discarded)
           ∧ (∀ x, ¬ good → s.dev.worldSession f.src f.world = some x → x.2.st = .run → Makes s (.flitReceive l f) (discarded.errorSession x.1))
           ∧ (good → s.dev.passes l f.vc f.src f.world = false → Makes s (.flitReceive l f) (next.modLink l (fun x => x.take f.vc)))
           ∧ (good → s.dev.passes l f.vc f.src f.world = true → Makes s (.flitReceive l f) (next.readFlit l f (cipher key iv f.payload)))))
    ∧ (s.dev.replayDue l = true → replays (.retryReplayTimeout l) { k with acked := s.dev.time } id)
    ∧ (s.dev.replayDue l = false → NotDue s (.retryReplayTimeout l))
    ∧ (let trains (lanes : BitVec 16) : Dev := linked { k with st := 3, lanes := lanes, retrains := min (k.retrains + 1) 255 }
       let loses := k.lanes.getLsbD lane = true ∧ (k.st = 2 ∨ k.st = 3)
       let noisy := k.lanes.getLsbD lane = true ∧ k.st = 2 ∧ s.dev.param 5 < n
       (loses → Makes s (.laneLockLoss l lane) (trains (k.lanes &&& ~~~(BitVec.ofNat 16 (2 ^ lane))))) ∧ (¬ loses → NotDue s (.laneLockLoss l lane))
       ∧ (noisy → Makes s (.correctedSymbolThreshold l lane n) (trains k.lanes)) ∧ (¬ noisy → NotDue s (.correctedSymbolThreshold l lane n)))
    ∧ (let lanes := s.dev.keepLanes (trained &&& (if k.st = 1 then s.dev.goodLanes l else k.lanes))
       let due := k.st = 1 ∨ k.st = 3
       let x := { k with st := 2, lanes := lanes, acked := s.dev.time }
       (¬ due → NotDue s (.retrainStepComplete l trained))
       ∧ (due → lanes = 0 → Makes s (.retrainStepComplete l trained) (s.dev.linkDown l))
       ∧ (due → lanes ≠ 0 → replays (.retrainStepComplete l trained) x Dev.flushStranded))
    ∧ Makes s (.keyUpdate l secret) (linked { k with secret := secret, sendCtr := 0, recvCtr := 0, exhausted := none })
    ∧ (k.exhausted = none → NotDue s (.linkSecretTimeout l))
    ∧ (∀ z, k.exhausted = some z → s.dev.time < z + micros 100000 → NotDue s (.linkSecretTimeout l))
    ∧ (∀ z, k.exhausted = some z → z + micros 100000 ≤ s.dev.time →
        let lost := s.dev.unackedRequests l
        let gone (m : Msg) : Bool := decide (m.kind ≤ 2 ∧ ∃ r ∈ lost, m.tag = r.1 % 65536 ∧ m.peer = r.2.peer)
        let torn : Dev := { s.dev with sessions := Tab.mapV s.dev.sessions (fun _ x =>
          if x.port.any (fun p => (s.dev.portsOf l).contains p) then { x with st := .error } else x) }
        let d1 := { torn with links := Tab.insert torn.links l { k with
          unacked := k.unacked.map (fun (u : Flit × List Msg) => (u.1, u.2.filter (fun m => !gone m)))
          started := k.started.filter (fun x => !gone x.2.1) } }
        Makes s (.linkSecretTimeout l) ((lost.foldl (fun (d : Dev) (r : Nat × Request) => (d.dropRequest r.1).failOp r.2.op
          (((d.op? r.2.op).map (fun o => (o.parts.getD r.2.part default).addr)).getD 0) (mkTicket 5 r.2.peer 0)) d1).linkDown l))

/-- R299, R304, R387 to R394: sessions are set up, locked, run and stopped; heartbeats; keys move on; evidence. A step that is not due changes nothing (log entry 5). -/
def Obligations.SessionSteps : Prop :=
  ∀ (s : State) (n slot world port : Nat) (key : BitVec 256) (nonce : BitVec 384) (e m : Bool),
    (let x := (Tab.find s.dev.sessions n).getD (newSession n)
     let ok := sessionNumber n = true ∧ slot / 2 = x.world ∧ x.st ≠ .error
     (¬ ok → NotDue s (.keyExchange n slot key))
     ∧ (ok → ∃ u, exec (.keyExchange n slot key) s = .next u ∧ u = { s with dev := { s.dev with keys := Tab.insert s.dev.keys slot key, sessions := u.dev.sessions } }
         ∧ Tab.find u.dev.sessions n = some x))
    ∧ (Tab.find s.dev.sessions n = none → NotDue s (.finish n) ∧ NotDue s (.endSession n) ∧ NotDue s (.start n e m) ∧ NotDue s (.stop n)
        ∧ NotDue s (.heartbeatSend n) ∧ NotDue s (.heartbeatTimeout n) ∧ NotDue s (.lock n) ∧ NotDue s (.sessionConfigWrite n) ∧ NotDue s (.heartbeat n))
    ∧ (∀ x, Tab.find s.dev.sessions n = some x →
        let put (y : Session) : Dev := { s.dev with sessions := Tab.insert s.dev.sessions n y }
        (Tab.find s.dev.keys (2 * x.world) = none → NotDue s (.finish n))
        ∧ (Tab.find s.dev.keys (2 * x.world) ≠ none → x.port = none → Makes s (.finish n) (put { x with keyed := true }))
        ∧ (∀ p, Tab.find s.dev.keys (2 * x.world) ≠ none → x.port = some p → x.st ≠ .run → Makes s (.finish n)
            ((put { x with keyed := true }).modLink (s.dev.linkOfPort p) (fun k => { k with sendCtr := 0, recvCtr := 0, exhausted := none })))
        ∧ (∀ p, Tab.find s.dev.keys (2 * x.world) ≠ none → x.port = some p → x.st = .run → Makes s (.finish n) (put { x with keyed := true }))
        ∧ (let d : Dev := { s.dev with sessions := Tab.erase s.dev.sessions n }
           Makes s (.endSession n) (if d.sessions.any (fun y => decide (y.1 ≠ n ∧ y.2.world = x.world)) then d else d.eraseKeys x.world).flushStranded)
        ∧ (x.st = .unlocked → Makes s (.lock n) (put { x with st := .locked })) ∧ (x.st ≠ .unlocked → Makes s (.lock n) (put x))
        ∧ (let ok := x.st = .locked ∧ x.keyed = true ∧ evidencePasses s.dev.policy e m = true
           let d := put { x with st := .run, lastBeat := s.dev.time, lastSent := s.dev.time }
           (¬ ok → NotDue s (.start n e m))
           ∧ (ok → x.port = none → Makes s (.start n e m) ({ d with expelled := d.expelled.filter (fun w => decide (w ≠ x.world)) }.withdrawAll (expelMark x.world)))
           ∧ (∀ p, ok → x.port = some p → Makes s (.start n e m)
               (d.modLink (d.linkOfPort p) (fun k => { k with peerDecodes := decide (x.peer ≠ 2047) })).flushStranded))
        ∧ (x.st ≠ .error → NotDue s (.stop n))
        ∧ (x.st = .error →
            let d0 := put { x with st := .unlocked, keyed := false }
            let d := match x.port with
              | some p => d0.modLink (d0.linkOfPort p) (fun k => { k with secret := 0 })
              | none => d0
            Makes s (.stop n) (if d.otherSession n x.world (fun y => y.keyed) then d else d.eraseKeys x.world).flushStranded)
        ∧ (x.st = .locked ∨ x.st = .run → let d := put { x with st := .error }
            (x.port = none → Makes s (.sessionConfigWrite n) d)
            ∧ (∀ p, x.port = some p → Makes s (.sessionConfigWrite n) (d.linkLost (d.linkOfPort p))))
        ∧ (x.st ≠ .locked → x.st ≠ .run → NotDue s (.sessionConfigWrite n))
        ∧ (x.st = .run → Makes s (.heartbeat n) (put { x with lastBeat := s.dev.time }))
        ∧ (x.st ≠ .run → Makes s (.heartbeat n) (put x))
        ∧ (let due := x.port = none ∧ x.st = .run ∧ x.lastSent + 100 * usTime ≤ s.dev.time
           let msg : Msg :=
             { kind := 8, win := 0, va := 0, tag := 0, len := 0, op := 0, scope := 0, tkt := 0, data := [], peer := x.peer, world := x.world }
           (¬ due → NotDue s (.heartbeatSend n))
           ∧ (due → x.peer = 2047 → Makes s (.heartbeatSend n) (put { x with lastSent := s.dev.time }))
           ∧ (due → x.peer ≠ 2047 → Makes s (.heartbeatSend n) ((put { x with lastSent := s.dev.time }).sendMsg 3 msg)))
        ∧ (let due := x.port = none ∧ x.st = .run ∧ x.lastBeat + s.dev.param 3 * usTime ≤ s.dev.time
           (due → Makes s (.heartbeatTimeout n) ((put { x with st := .error }).expel x.world)) ∧ (¬ due → NotDue s (.heartbeatTimeout n))))
    ∧ (let due := port < s.dev.linkCount ∧ s.dev.oldFlits world = false ∧ s.dev.sweeping world = false
       (¬ due → NotDue s (.keyPromote world port))
       ∧ (∀ k, due → Tab.find s.dev.keys (2 * world + 1) = some k →
           Makes s (.keyPromote world port) { s.dev with keys := Tab.erase (Tab.insert s.dev.keys (2 * world) k) (2 * world + 1) })
       ∧ (due → Tab.find s.dev.keys (2 * world + 1) = none → NotDue s (.keyPromote world port)))
    ∧ (let k := 256 * port + world
       let line := Tab.get 0 s.dev.sweeps k
       let last := Config.cxlLines world port ≤ line
       let swept := Tab.find s.dev.keys (2 * world + 1) ≠ none ∧ world < 256 ∧ port = 0
       (¬ swept → NotDue s (.reencryptionSweep world port))
       ∧ (swept → last → s.dev.oldFlits world = true → NotDue s (.reencryptionSweep world port))
       ∧ (swept → last → s.dev.oldFlits world = false →
           Makes s (.reencryptionSweep world port) (({ s.dev with sweeps := Tab.erase s.dev.sweeps k }).promote world))
       ∧ (swept → ¬ last → s.dev.budgetLeft 1 port 128 = false → NotDue s (.reencryptionSweep world port))
       ∧ (swept → ¬ last → s.dev.budgetLeft 1 port 128 = true →
           Makes s (.reencryptionSweep world port) ((({ s.dev with sweeps := Tab.insert s.dev.sweeps k (line + 1) } : Dev).countWrites { sp := .cxl, own := 0, a := 128 * line } 128).spend 1 port 128)))
    ∧ (let items := s.dev.evidenceItems world
       let x := Config.digest (digestWords nonce ++ items)
       Makes s (.getMeasurements nonce world) { s.dev with evidence := some (nonce, items, Config.sign false x, Config.sign true x) })

/-! ## Life, clocks, errors, management -/

/-- R12, R350 to R355, R359, R362, R363, R382: samples, commits of records, the end of grants, call-ups and fallow. A measured rate lies within 2^-13 of the
formula's; what it is within that is free (log entry 20). A step that is not due changes nothing (log entry 5). -/
def Obligations.LifeSteps : Prop :=
  ∀ (s : State) (n watts : Nat) (inputs : List UnitSample) (pass : Bool),
    (let ten := 10000000 * usTime
     let old := (s.dev.wearOf n).ctime + ten
     let due := n < unitCount ∧ ∃ t, (Tab.find s.dev.commitDue n = some t ∨ (Tab.find s.dev.commitDue n = none ∧ t = old ∧ old ≤ s.dev.time))
       ∧ (s.dev.budgetLeft 3 0 1 = true ∨ t + ten ≤ s.dev.time)
     let w := { s.dev.wearOf n with ctime := s.dev.time, cseq := (s.dev.wearOf n).cseq + 1 }
     (due → ∃ u old, exec (.recordCommit n) s = .next u ∧ u.iss = s.iss ∧ u.dev.wearOf n = w ∧ Tab.find u.dev.wearMram n = some (old, w)
        ∧ (∀ a b, Tab.find s.dev.wearMram n = some (a, b) → old = b) ∧ Tab.find u.dev.commitDue n = none ∧ ∀ k, k ≠ n → u.dev.wearOf k = s.dev.wearOf k)
     ∧ (¬ due → NotDue s (.recordCommit n)))
    ∧ (Tab.find s.dev.grants n = none → NotDue s (.boostGrantEnd n))
    ∧ (∀ g c, Tab.find s.dev.grants n = some g → g.start = some c →
        (s.dev.time < c + g.ms * 1000 * usTime → NotDue s (.boostGrantEnd n))
        ∧ (c + g.ms * 1000 * usTime ≤ s.dev.time → Makes s (.boostGrantEnd n) ((s.dev.endGrants g.clusters).scheduleChange g.clusters 0).1))
    ∧ (let d2 := (inputs.foldl Dev.stressUnit ((List.range unitCount).foldl Dev.retireUnit ((List.range 4).foldl Dev.nextRetirement s.dev))).recoverAll
       let d3 := d2.grants.foldl (fun d g => d.drawGrant g.1 g.2) d2
       (s.dev.time < s.dev.sampledAt + 1000 * usTime → NotDue s (.wearSample inputs watts))
       ∧ (s.dev.sampledAt + 1000 * usTime ≤ s.dev.time → Makes s (.wearSample inputs watts)
           { (d3.heat inputs).markOld with serviceMs := d3.serviceMs + 1, powerW := watts, lifeNow := d3.target }.sampleOver))
    ∧ (∀ x : UnitSample, x.unit < unitCount → (s.dev.wearOf x.unit).st = 0 ∨ (s.dev.wearOf x.unit).st = 4 →
        let w := s.dev.wearOf x.unit
        let v := (s.dev.stressUnit x).wearOf x.unit
        ∃ r0 r1 r2, (∀ p ∈ [(r0, 0), (r1, 1), (r2, 2)], let r := stressRate x (s.dev.switching x) (s.dev.voltage x) p.2
            r * (2 ^ 32 - 2 ^ 19) / 2 ^ 32 ≤ p.1 ∧ p.1 ≤ r * (2 ^ 32 + 2 ^ 19) / 2 ^ 32)
          ∧ v.bti = (accrue w.bti w.resid.1 r0).1 ∧ v.hci = (accrue w.hci w.resid.2.1 r1).1 ∧ v.em = (accrue w.em w.resid.2.2 r2).1
          ∧ v.pool = w.pool + (v.bti - w.bti) * 3 / 10 ∧ v.drift = x.drift)
    ∧ (let x := s.dev.die n
       let stage (d : Dev) (old slot k : Nat) : Dev := { d.markDue (d.withSpares (slotClusters n slot) (pairUnits n old)) with
         dies := Tab.insert d.dies n { d.die n with callup := some (old, slot, k) } }
       (x.callup = none → NotDue s (.callupPowerupDone n) ∧ NotDue s (.callupSelftestDone n pass) ∧ NotDue s (.callupSave n) ∧ NotDue s (.callupMapUpdate n))
       ∧ (∀ old slot, x.callup = some (old, slot, 0) → Makes s (.callupPowerupDone n) (stage s.dev old slot 1))
       ∧ (∀ old slot p, x.callup = some (old, slot, 1) → s.dev.granary n = some p →
           Makes s (.callupSelftestDone n true) (stage s.dev old slot 2)
           ∧ Makes s (.callupSelftestDone n false) ((s.dev.setStates (pairUnits n p) 6).callStage n 4))
       ∧ (∀ old slot k, x.callup = some (old, slot, k) → k = 2 ∨ k = 4 →
           let held := (slotClusters n slot).filter (fun c => s.dev.holdsWork c)
           Makes s (.callupSave n) ((stage s.dev old slot (k + 1)).beginSave ((s.dev.saveClosure 32 held).filter (fun c => !(s.dev.cluster c).clearing))))
       ∧ (∀ old slot k, x.callup = some (old, slot, k) → (k ≠ 3 ∧ k ≠ 5) ∨ s.dev.slotEmpty n slot = false → NotDue s (.callupMapUpdate n))
       ∧ (∀ old slot k, x.callup = some (old, slot, k) → k = 3 ∨ k = 5 → s.dev.slotEmpty n slot = true →
           ∃ u, exec (.callupMapUpdate n) s = .next u ∧ u.iss = s.iss ∧ (u.dev.die n).callup = none))
    ∧ (let k := s.dev.cluster n
       let die := dieOfCluster n
       let rivals := ((List.range 8).map (fun i => 8 * die + i)).filter s.dev.idleCluster
       let due := s.dev.idleCluster n = true ∧ s.dev.budgetLeft 5 die 1 = true ∧ ∀ c ∈ rivals, s.dev.largestPool c ≤ s.dev.largestPool n
       let us := s.dev.unitsOfCluster n
       (due → Makes s (.fallowEntry n) (({ s.dev with clusters := Tab.insert s.dev.clusters n { k with gating := some (s.dev.time + usTime) } }).spend 5 die 1))
       ∧ (¬ due → NotDue s (.fallowEntry n))
       ∧ (k.gating = none → NotDue s (.gatingCommitWindowEnd n)) ∧ (∀ z, k.gating = some z → s.dev.time < z → NotDue s (.gatingCommitWindowEnd n))
       ∧ (∀ z, k.gating = some z → z ≤ s.dev.time → ∃ u, exec (.gatingCommitWindowEnd n) s = .next u ∧ u.iss = s.iss
           ∧ (let st := if (s.dev.target).any (fun t => bit (t.words.getD 0 0).toNat 3) then 2 else 1
              u.dev.cluster n = { k with gating := none, fallow := st, idleSince := s.dev.time, filler := 0, halfRate := false }
              ∧ (let o := if n % 2 = 0 then n + 1 else n - 1
                 u.dev.cluster o = { s.dev.cluster o with filler := 0, halfRate := false })
              ∧ (∀ v ∈ us, (u.dev.wearOf v).st = st)
              ∧ ∀ v, v ∉ us → u.dev.wearOf v = s.dev.wearOf v))
       ∧ (k.waking = false ∨ k.fallow = 0 → NotDue s (.fallowWake n))
       ∧ (k.waking = true → k.fallow ≠ 0 → ∃ u, exec (.fallowWake n) s = .next u ∧ u.iss = s.iss ∧ (∀ v ∈ us, (u.dev.wearOf v).st = 0)
           ∧ u.dev.cluster n = { k with fallow := 0, waking := false, woke := some s.dev.time, idleSince := s.dev.time, filler := 1 }))

/-- R235, R370 to R381: balance of stacked pairs, changes of frequency, the time base, budgets and quotas, fast throttle and the loss of supply. A step that is not due changes nothing (log entry 5). -/
def Obligations.ClockSteps : Prop :=
  ∀ (s : State) (n ia ib fill : Nat) (uj : EnergyUse),
    (16 ≤ n → NotDue s (.currentWindow n ia ib))
    ∧ (n < 16 →
        let d := (s.dev.modCluster (2 * n) (fun k => { k with current := ia })).modCluster (2 * n + 1) (fun k => { k with current := ib })
        let whole (k : Cluster) : Prop := k.fallow = 0 ∧ ∀ z, k.woke = some z → z + 16000 ≤ s.dev.time
        let serving := whole (s.dev.cluster (2 * n)) ∧ whole (s.dev.cluster (2 * n + 1))
        (¬ serving → Makes s (.currentWindow n ia ib) d)
        ∧ (serving → ia ≤ ib → Makes s (.currentWindow n ia ib) (d.balance (2 * n) (2 * n + 1) ia ib))
        ∧ (serving → ib < ia → Makes s (.currentWindow n ia ib) (d.balance (2 * n + 1) (2 * n) ia ib)))
    ∧ (Tab.find s.dev.changes n = none → NotDue s (.drainWindowOpen n) ∧ NotDue s (.frequencySwitch n) ∧ NotDue s (.frequencyResume n))
    ∧ (∀ x, Tab.find s.dev.changes n = some x →
        (x.switched = true ∨ s.dev.time + 32000 < x.count → NotDue s (.drainWindowOpen n))
        ∧ (x.switched = false → x.count ≤ s.dev.time + 32000 → ∃ u, exec (.drainWindowOpen n) s = .next u ∧ u.iss = s.iss
            ∧ u.dev = { s.dev with clusters := u.dev.clusters }
            ∧ ∀ c, u.dev.cluster c = (if c ∈ x.clusters ∧ (s.dev.cluster c).drain = none then { s.dev.cluster c with drain := some n } else s.dev.cluster c))
        ∧ (x.switched = true ∨ s.dev.time < x.count → NotDue s (.frequencySwitch n))
        ∧ (x.switched = false → x.count ≤ s.dev.time → ∃ u, exec (.frequencySwitch n) s = .next u ∧ u.iss = s.iss
            ∧ u.dev = { s.dev with
                clusters := u.dev.clusters
                changes := Tab.insert s.dev.changes n { x with switched := true }
                throttled := s.dev.throttled && !decide (s.dev.throttleClear = some x.count) }
            ∧ ∀ c ∈ x.clusters, (u.dev.cluster c).level = x.level ∧ (u.dev.cluster c).settling = some n)
        ∧ (x.switched = false ∨ s.dev.time < x.count + 8000 → NotDue s (.frequencyResume n))
        ∧ (x.switched = true → x.count + 8000 ≤ s.dev.time →
            let d := ((x.clusters.filter (fun c => decide ((s.dev.cluster c).settling = some n))).foldl Dev.settled s.dev).endDrain x.clusters n
            Makes s (.frequencyResume n) { d with changes := Tab.erase d.changes n }))
    ∧ Makes s .fastThrottleAlarm { s.dev.markClocks with throttled := true, throttleClear := none, alarmAt := s.dev.time }
    ∧ (let stands := 3300 < s.dev.powerW ∨ ∃ c ∈ s.dev.clusters, 105 ≤ c.2.celsius
       s.dev.throttled = false ∨ s.dev.throttleClear ≠ none ∨ stands ∨ s.dev.time < s.dev.alarmAt + 100 * usTime → NotDue s .fastThrottleClear)
    ∧ (s.dev.throttled = true → s.dev.throttleClear = none → s.dev.powerW ≤ 3300 → (∀ c ∈ s.dev.clusters, c.2.celsius < 105) →
        s.dev.alarmAt + 100 * usTime ≤ s.dev.time → ∃ u, exec .fastThrottleClear s = .next u ∧ u.iss = s.iss
        ∧ u.dev = { s.dev with changes := u.dev.changes, nextChange := u.dev.nextChange, throttleClear := some s.dev.changeCount })
    ∧ (s.dev.time % 16000 ≠ 0 → NotDue s .timeSyncPulse)
    ∧ (s.dev.time % 16000 = 0 → ∃ u, exec .timeSyncPulse s = .next u ∧ u.iss = s.iss ∧ u.dev = { s.dev with clusters := u.dev.clusters }
        ∧ ∀ c, c < 32 → u.dev.regionTime c / 2 ^ 24 = max (s.dev.regionTime c / 2 ^ 24) s.dev.time)
    ∧ (let ts := (s.dev.tasks.filter (fun t => t.2.resident && decide (clusterOf t.2.core = n))).map (fun t =>
         (t.2.queue, ((s.dev.grid? t.2.grid).map (fun g => g.fraction)).getD 0))
       let all := (ts.map Prod.snd).foldl (· + ·) 0
       let works := uj.engines.filterMap (fun e => (s.dev.task? e.1).map (fun t => (t.queue, e.2)))
       let d := works.foldl (fun (d : Dev) e => d.charge e.1 e.2) s.dev
       let rest := uj.total - s.dev.fillerEnergy n fill - (uj.engines.map Prod.snd).foldl (· + ·) 0
       (all = 0 → Makes s (.energyMeasure n uj fill) d)
       ∧ (all ≠ 0 → Makes s (.energyMeasure n uj fill) (ts.foldl (fun (d : Dev) t => d.charge t.1 (rest * t.2 / all)) d)))
    ∧ (s.dev.time / 1600000 ≤ s.dev.period → NotDue s .timeBudgetPeriod)
    ∧ (s.dev.period < s.dev.time / 1600000 → ∃ u, exec .timeBudgetPeriod s = .next u ∧ u.iss = s.iss ∧ u.dev.period = s.dev.time / 1600000 ∧ u.dev.spent = []
        ∧ ∀ q x, Tab.find s.dev.queues q = some x →
            let debt := if x.equota = 0 then 0 else x.used + x.debt - x.equota
            Tab.find u.dev.queues q = some { x with used := 0, copied := 0, debt := debt, spent := decide (x.equota ≠ 0 ∧ x.equota ≤ debt) })
    ∧ (s.dev.stopped = true → NotDue s .supplyLossWarning)
    ∧ (s.dev.stopped = false → ∃ u, exec .supplyLossWarning s = .next u ∧ u.iss = Issue.closed ∧ u.dev.stopped = true ∧ u.dev.ops = []
        ∧ u.dev.marker = some (s.dev.time, s.dev.nextLaunch, Config.digest [BitVec.ofNat 64 s.dev.time, BitVec.ofNat 64 s.dev.nextLaunch])
        ∧ (s.agenda = [] → step u = .fault .supplyLost))

/-- R280, R282, R285, R298, R301, R305, R329, R338, R346, R376, R385, R394, R396 to R401, R409 to R415: errors and tests, the host port, the command slot
and its ops, reset and bring-up. A step that is not due changes nothing (log entry 5). -/
def Obligations.ErrorAndManagementSteps : Prop :=
  ∀ (s : State) (x : ErrSite) (n failed : Nat) (m : HostReq) (c : Cmd),
    let w1 := c.w1.toNat
    let w2 := c.w2.toNat
    let takes (i : Instr) (cst : Nat) (d : Dev) (out : Option (List W64)) : Prop := Makes s i { d with mgmt := { d.mgmt with
      running := some (c.seq % 2 ^ 48, cst), result := (out.map (fun l => l ++ List.replicate (7 - l.length) 0)).getD d.mgmt.result } }
    let ready := c.world = 0 ∧ s.dev.mgmt.running = none ∧ stageStatus s.dev.mgmt.stage c.op = none ∧ c.zero = 0
    let cmds : List (Instr × Bool) :=
      [(.mgmtReadAbjstat c, decide (c.op = 0 ∧ w1 / 2 ^ 56 = 0)), (.mgmtReadErrorLog c, decide (c.op = 0 ∧ w1 / 2 ^ 56 = 1)),
       (.mgmtReadTimeBudget c, decide (c.op = 0 ∧ w1 / 2 ^ 56 = 2)), (.mgmtReadMixedAtomicCounter c, decide (c.op = 0 ∧ w1 / 2 ^ 56 = 3)),
       (.mgmtReadParameter c, decide (c.op = 0 ∧ w1 / 2 ^ 56 = 4)), (.mgmtReadFrameWorldEntry c, decide (c.op = 0 ∧ w1 / 2 ^ 56 = 5)),
       (.mgmtReadRouteEntry c, decide (c.op = 0 ∧ w1 / 2 ^ 56 = 6)), (.setTimeBudget c, decide (c.op = 1)),
       (.frameAssign c, decide (c.op = 2) && bit w2 8), (.frameUnassign c, decide (c.op = 2) && !bit w2 8), (.setHandlerTableEntry c, decide (c.op = 3)),
       (.killWaitCycle c, decide (c.op = 4)), (.reformatFrameGranule c, decide (c.op = 5)), (.setRouteTable c, decide (c.op = 6 ∧ w1 / 2 ^ 56 = 0)),
       (.setAttestationPolicy c, decide (c.op = 6 ∧ w1 / 2 ^ 56 = 1)), (.setOwnerWindow c, decide (c.op = 6 ∧ w1 / 2 ^ 56 = 2)),
       (.setPortConfiguration c, decide (c.op = 6 ∧ w1 / 2 ^ 56 = 3)), (.postTicketOutcome c, decide (c.op = 7)), (.installBootBinding c, decide (c.op = 8)),
       (.setParameter c, decide (c.op = 9)), (.mgmtPreemptionRequest c, decide (c.op = 10) && !bit w1 16),
       (.mgmtPreemptionWithdraw c, decide (c.op = 10) && bit w1 16), (.resetPort c, decide (c.op = 11)),
       (.mgmtUnassignedOp c, decide ((12 ≤ c.op ∧ c.op < 256) ∨ (c.op = 0 ∧ 6 < w1 / 2 ^ 56) ∨ (c.op = 6 ∧ 3 < w1 / 2 ^ 56)))]
    (∀ p ∈ cmds, (c.world ≠ 0 ∨ p.2 = false → NotDue s p.1)
      ∧ (c.world = 0 → p.2 = true → s.dev.mgmt.running ≠ none →
          Makes s p.1 { s.dev with mgmt := { s.dev.mgmt with cst := 3, cseq := c.seq % 2 ^ 48 } })
      ∧ (∀ st, c.world = 0 → p.2 = true → s.dev.mgmt.running = none → stageStatus s.dev.mgmt.stage c.op = some st → takes p.1 st s.dev none)
      ∧ (c.world = 0 → p.2 = true → s.dev.mgmt.running = none → stageStatus s.dev.mgmt.stage c.op = none → c.zero ≠ 0 → takes p.1 1 s.dev none))
    ∧ (s.dev.mgmt.running = none → NotDue s .commandComplete)
    ∧ (∀ seq cst, s.dev.mgmt.running = some (seq, cst) →
        Makes s .commandComplete { s.dev with mgmt := { s.dev.mgmt with cst := cst, cseq := seq, running := none } })
    ∧ (ready → c.op = 0 →
        let kind := w1 / 2 ^ 56
        let ix := w1 % 2 ^ 32
        let clean := w1 / 2 ^ 33 % 2 ^ 23 = 0
        let gives (i : Instr) (v : Nat) : Prop := takes i 0 s.dev (some [BitVec.ofNat 64 v])
        (kind = 0 → (clean → ix < 72 → gives (.mgmtReadAbjstat c) (s.dev.abjstat ix)) ∧ (¬ clean ∨ 72 ≤ ix → takes (.mgmtReadAbjstat c) 1 s.dev none))
        ∧ (kind = 1 → clean → (∀ e, s.dev.log[ix]? = some e → takes (.mgmtReadErrorLog c) 0 s.dev (some e.words))
            ∧ (s.dev.log[ix]? = none → takes (.mgmtReadErrorLog c) 0 s.dev (some [BitVec.allOnes 64])))
        ∧ (kind = 2 → clean → ix < 65536 → ix % 256 < instances (ix / 256) →
            gives (.mgmtReadTimeBudget c) (if ix / 256 = 7 then (s.dev.queue (ix % 256)).cbud else s.dev.budget (ix / 256) (ix % 256)))
        ∧ (kind = 3 → clean → ix < 4 → takes (.mgmtReadMixedAtomicCounter c) 0
            (if bit w1 32 then s.dev.modDie ix (fun y => { y with mixed := 0 }) else s.dev) (some [BitVec.ofNat 64 (s.dev.die ix).mixed]))
        ∧ (kind = 4 → clean → ix < 8 → gives (.mgmtReadParameter c) (s.dev.param ix))
        ∧ (kind = 5 → clean → ix < 2 ^ 23 → gives (.mgmtReadFrameWorldEntry c) (s.dev.frame ix).entry)
        ∧ (kind = 6 → clean → ix < 1536 → gives (.mgmtReadRouteEntry c) (Tab.get 0 s.dev.routes ix).toNat))
    ∧ (ready → c.op = 1 → w1 < 2 ^ 16 → w1 % 256 < instances (w1 / 256) → (w1 / 256 = 7 → w2 < 2 ^ 32 →
          takes (.setTimeBudget c) 0 (s.dev.modQueue (w1 % 256) (fun q => { q with cbud := w2 })) none)
        ∧ (w1 / 256 ≠ 7 → takes (.setTimeBudget c) 0 { s.dev with budgets := Tab.insert s.dev.budgets w1 w2 } none))
    ∧ (ready → c.op = 2 → w1 < 2 ^ 23 → w2 < 2 ^ 10 →
        (bit w2 8 = true → takes (.frameAssign c) 0 (s.dev.frameCmd w1 (bit w2 9) true (w2 % 256)) none)
        ∧ (bit w2 8 = false → takes (.frameUnassign c) 0 (s.dev.frameCmd w1 (bit w2 9) false (w2 % 256)) none))
    ∧ (ready → c.op = 3 → w1 < 256 → w2 < 2 ^ 54 → takes (.setHandlerTableEntry c) 0 { s.dev with handlers := Tab.set 0 s.dev.handlers w1 w2 } none)
    ∧ (ready → c.op = 4 → w1 < 2 ^ 56 → w2 < 2 ^ 13 → s.dev.hasGroup (w2 % 256) (w2 / 256) = true →
        (∀ t, s.dev.task? (s.dev.group (w2 % 256) (w2 / 256)).task = some t → t.grid = w1 →
          takes (.killWaitCycle c) 0 (s.dev.killTask (s.dev.group (w2 % 256) (w2 / 256)).task) none))
    ∧ (ready → c.op = 5 → 2 ^ 23 ≤ w1 → takes (.reformatFrameGranule c) 1 s.dev none)
    ∧ (ready → c.op = 5 → w1 < 2 ^ 23 → w2 < 4 → (s.dev.frame w1).reserved = true → takes (.reformatFrameGranule c) 2 s.dev none)
    ∧ (ready → c.op = 5 → w1 < 2 ^ 23 → w2 < 4 → (s.dev.frame w1).reserved = false → ∃ d, takes (.reformatFrameGranule c) 0 d none ∧ (d.frame w1).gran = w2 ∧ (noPartials s.dev → SameMemory s.dev d))
    ∧ (ready → c.op = 6 → w1 / 2 ^ 16 % 2 ^ 40 = 0 →
        (w1 / 2 ^ 56 = 0 → w1 % 2 ^ 16 < 1536 → w2 < 2 ^ 18 →
          takes (.setRouteTable c) 0 ({ s.dev with routes := Tab.insert s.dev.routes (w1 % 2 ^ 16) (BitVec.ofNat 18 w2) }).flushStranded none)
        ∧ (w1 / 2 ^ 56 = 1 → w1 % 2 ^ 16 = 0 → 0 < w2 → w2 < 4 → takes (.setAttestationPolicy c) 0 { s.dev with policy := BitVec.ofNat 2 w2 } none)
        ∧ (w1 / 2 ^ 56 = 1 → w2 = 0 → takes (.setAttestationPolicy c) 1 s.dev none)
        ∧ (w1 / 2 ^ 56 = 2 → w1 % 2 ^ 16 < 32 → bits w2 61 52 = 0 → w2 % 2 ^ 13 = 0 → c.w3.toNat % 2 ^ 10 = 0 → c.w4.toNat < 2 ^ 52 → c.w4.toNat % 8 = 0 →
            let w := windowOf w2 c.w3.toNat c.w4.toNat
            let free : Prop := s.dev.hedge w.post w.world = true ∧ ∀ y ∈ s.dev.windows, y.1 ≠ w1 % 2 ^ 16 → y.2.post ≠ w.post
            (free → takes (.setOwnerWindow c) 0 (({ s.dev with windows := Tab.insert s.dev.windows (w1 % 2 ^ 16) w }).recallAll (w.post / 128)) none)
            ∧ (¬ free → takes (.setOwnerWindow c) 1 s.dev none))
        ∧ (w1 / 2 ^ 56 = 3 → w1 % 2 ^ 16 < 72 → w2 < 2 → (∀ y ∈ s.dev.sessions, y.2.port = some (w1 % 2 ^ 16) → y.2.st = .unlocked) →
            takes (.setPortConfiguration c) 0 (s.dev.modLink (s.dev.linkOfPort (w1 % 2 ^ 16)) (fun k =>
              let b := BitVec.ofNat 4 (2 ^ s.dev.portPlace (w1 % 2 ^ 16))
              { k with compress := if bit w2 0 then k.compress ||| b else k.compress &&& ~~~b })) none))
    ∧ (ready → c.op = 7 → bits w1 60 16 = 0 → takes (.postTicketOutcome c) 0 (s.dev.closeTicket (w1 % 2 ^ 16) (w1 / 2 ^ 61)) none)
    ∧ (ready → c.op = 8 → let r := s.dev.bootCmd c; takes (.installBootBinding c) r.cst r.dev r.out)
    ∧ (ready → c.op = 9 → w1 < 8 → paramOk w1 w2 = true → (w1 = 7 → bit w2 12 = false) →
        takes (.setParameter c) 0 { s.dev with params := Tab.insert s.dev.params w1 w2 } none)
    ∧ (ready → c.op = 10 → w1 < 2 ^ 17 → bits w1 15 10 = 0 →
        (bit w1 16 = false → takes (.mgmtPreemptionRequest c) 0 (s.dev.requestPreempt (w1 % 256) (bits w1 9 8) 0) none)
        ∧ (bit w1 16 = true → takes (.mgmtPreemptionWithdraw c) 0 (s.dev.withdrawBy (w1 % 256) (bits w1 9 8) 0) none))
    ∧ (ready → c.op = 11 → w1 < 72 → takes (.resetPort c) 0 (s.dev.retrain (s.dev.linkOfPort w1) (s.dev.goodLanes (s.dev.linkOfPort w1))) none)
    ∧ (ready → (12 ≤ c.op ∧ c.op < 256) ∨ (c.op = 0 ∧ 6 < w1 / 2 ^ 56) ∨ (c.op = 6 ∧ 3 < w1 / 2 ^ 56) → takes (.mgmtUnassignedOp c) 1 s.dev none)
    ∧ (let here : Loc := if m.own = true then { sp := .cxl, own := 0, a := m.pa } else hbmAt m.pa
       let served (n : Nat) : Prop := m.bar0 = false
         ∧ (if m.own = true then 0 < n else (∀ k, m.stream = some k → k < 256) ∧ s.dev.hostMay (hostWorld m) m.pa n = true)
       let answers (i : Instr) (d : Dev) (y : Option (List Byte)) : Prop := Makes s i { d with host := { d.host with reply := y, aborted := y.isNone } }
       (∀ bs, m.wr = some bs → (bs.length ≤ 512 → served bs.length → answers (.hostMemoryRequest m) (s.dev.hostWrite here bs false) (some []))
         ∧ (512 < bs.length ∨ (m.bar0 = false ∧ ¬ served bs.length) → answers (.hostMemoryRequest m) s.dev none))
       ∧ (m.wr = none → (m.len ≤ 4096 → served m.len →
             let d := (watchLines here m.len).foldl (fun d l => d.shareOthers 256 l.line) (s.dev.combineRange here m.len)
             answers (.hostMemoryRequest m) (if m.keep ∧ m.own = false then d.hostTakes m.pa m.len else d) (some (d.readBytes here m.len)))
         ∧ (4096 < m.len ∨ (m.bar0 = false ∧ ¬ served m.len) → answers (.hostMemoryRequest m) s.dev none))
       ∧ (m.bar0 = true →
           let open_ := s.dev.host.trained = true ∧ s.dev.hostRuns 0 = true ∧ ∀ k, m.stream = some k → k < 256 ∧ Config.streamWorld k = 0
           (¬ open_ → answers (.hostMemoryRequest m) s.dev none)
           ∧ (open_ → m.wr = none → m.len ≤ 4096 → ∃ u l, exec (.hostMemoryRequest m) s = .next u ∧ u.iss = s.iss
               ∧ u.dev = { s.dev with host := { s.dev.host with reply := some l, aborted := false }, fresh := u.dev.fresh } ∧ l.length = m.len
               ∧ (∀ i, i < m.len → m.pa + i < 8 → l[i]? = (Bytes.ofNat 8 s.dev.mgmt.word)[m.pa + i]?)
               ∧ (∀ i, i < m.len → 64 ≤ m.pa + i → m.pa + i < 128 →
                   l[i]? = ((s.dev.mgmt.word0 :: s.dev.mgmt.result).flatMap (fun w => Bytes.ofNat 8 w.toNat)).getD (m.pa + i - 64) 0))
           ∧ (∀ bs, open_ → m.wr = some bs → bs.length ≤ 512 →
               let w := (s.modDev (fun d => d.slotWrite m.pa bs)).modDev (fun d => { d with host := { d.host with reply := some [], aborted := false } })
               exec (.hostMemoryRequest m) s = (if m.pa ≤ 64 ∧ 72 ≤ m.pa + bs.length then
                 execCommand (cmdOf (w.dev.mgmt.word0 :: w.dev.mgmt.result)) w else .next w)))
       ∧ (∀ op, let l := m.wr.getD []
           let fits := (m.len = 4 ∨ m.len = 8) ∧ m.pa % m.len = 0 ∧ l.length = (if op = .cas then 2 * m.len else m.len) ∧ served m.len
           let d := s.dev.combineRange here m.len
           let old := d.readNat here m.len
           let a := Bytes.toNat (l.take m.len)
           let new := match op with
             | .fetchAdd => (old + a) % 256 ^ m.len
             | .swap => a
             | .cas => if old = a then Bytes.toNat ((l.drop m.len).take m.len) else old
           (¬ fits → answers (.hostAtomicop m op) s.dev none)
           ∧ (fits → (op = .cas ∧ old ≠ a → answers (.hostAtomicop m op) (d.hostRead { m with keep := false }) (some (Bytes.ofNat m.len old)))
             ∧ (op ≠ .cas ∨ old = a → answers (.hostAtomicop m op) (d.hostWrite here (Bytes.ofNat m.len new) true) (some (Bytes.ofNat m.len old)))))
       ∧ (∀ fn reg wr, let fits := s.dev.host.up = true ∧ fn < 256 ∧ reg < 1024
           (¬ fits → answers (.hostConfigRequest fn reg wr) s.dev none)
           ∧ (∀ v, fits → wr = some v → answers (.hostConfigRequest fn reg wr)
               { s.dev with host := { s.dev.host with cfg := Tab.insert s.dev.host.cfg (1024 * fn + reg) v } } (some []))
           ∧ (fits → wr = none → answers (.hostConfigRequest fn reg wr) s.dev
               (some (Bytes.ofNat 4 ((Tab.find s.dev.host.cfg (1024 * fn + reg)).getD (Config.cfgSpace fn reg)).toNat))))
       ∧ (∀ width gts, let ok := s.dev.host.up = true ∧ width ∈ [16, 8, 4, 1] ∧ width ≤ s.dev.host.width ∧ gts ∈ [128, 64, 32, 16, 8, 5, 2] ∧ gts ≤ s.dev.host.gts
           (ok → Makes s (.hostLinkRecovery width gts) { s.dev with host := { s.dev.host with width := width, gts := gts } })
           ∧ (¬ ok → NotDue s (.hostLinkRecovery width gts))))
    ∧ (let world := s.dev.errWorld x
       let logged (kind : Nat) : Dev := s.dev.logError kind x.cls x.unit x.pa world
       let sram := x.kind = .sram ∨ x.kind = .hbm
       (∀ k, x.kind = .icache k →
           Makes s (.correctedError x) (s.dev.modCore k (fun y => { y with icache := [] })) ∧ Makes s (.uncorrectableError x) (s.dev.modCore k (fun y => { y with icache := [] })))
       ∧ ((∀ k, x.kind ≠ .icache k) → ∃ u, exec (.correctedError x) s = .next u ∧ u.iss = s.iss ∧ u.dev.log = (logged 1).log ∧ SameMemory s.dev u.dev
           ∧ Tab.get 0 u.dev.logCounts (siteCount x) = Tab.get 0 s.dev.logCounts (siteCount x) + 1
           ∧ (u.dev.die (s.dev.errDie x)).tests = (let l := (s.dev.die (s.dev.errDie x)).tests; if l.length < 256 then l ++ [x] else l))
       ∧ (sram → x.group = none → Makes s (.uncorrectableError x) (s.dev.poisonAt x))
       ∧ (∀ k sl, sram → x.group = some (k, sl) → Makes s (.uncorrectableError x) ((logged 2).groupError k sl))
       ∧ (∀ k, x.kind = .lane k → NotDue s (.uncorrectableError x)))
    ∧ (let tests := (s.dev.die n).tests
       let left := s.dev.budgetLeft 2 n 1
       (tests = [] ∨ 16 < failed ∨ left = false → NotDue s (.targetedSelfTest n failed))
       ∧ (∀ y l, tests = y :: l → failed ≤ 16 → left = true → ∃ d, Makes s (.targetedSelfTest n failed) (d.repairSite y failed)
           ∧ d.log = s.dev.log ++ [{ kind := 4, cls := y.cls, unit := y.unit, pa := y.pa, world := s.dev.errWorld y, time := s.dev.time }]
           ∧ (d.die n).tests = l ∧ SameMemory s.dev d))
    ∧ (8 ≤ n ∨ s.dev.budgetLeft 0 n 128 = false → NotDue s (.scrub n))
    ∧ (n < 8 → s.dev.budgetLeft 0 n 128 = true →
        let k := Tab.get 0 s.dev.scrubAt n
        let d := ({ s.dev with scrubAt := Tab.insert s.dev.scrubAt n ((k + 1) % 2 ^ 29) }).spend 0 n 128
        Makes s (.scrub n) ((d.rawIn (n * 2 ^ 29 + k)).foldl Dev.scrubWord d))
    ∧ (7 ≤ s.dev.mgmt.stage → NotDue s (.bringupStageComplete true) ∧ NotDue s (.bringupStageComplete false))
    ∧ (s.dev.mgmt.stage < 7 →
        let fails := s.dev.mgmt.stage = 1 ∨ s.dev.mgmt.stage = 3 ∨ s.dev.mgmt.stage = 4
        (¬ fails → exec (.bringupStageComplete false) s = exec (.bringupStageComplete true) s)
        ∧ (∃ u, exec (.bringupStageComplete true) s = .next u ∧ u.iss = s.iss ∧ u.dev.mgmt.stage = s.dev.mgmt.stage + 1
          ∧ (s.dev.mgmt.stage = 4 → u.dev.host.up = true ∧ u.dev.host.width = 16 ∧ u.dev.host.gts = 128)
          ∧ (s.dev.mgmt.stage = 5 → u.dev.host.trained = true ∧ u.dev.hostRuns 0 = true)
          ∧ (s.dev.mgmt.stage = 3 → u.dev.hbm = [])
          ∧ (s.dev.mgmt.stage = 5 → u.dev.gangMode = Config.fabric.1 ∧ ∀ l, l < u.dev.linkCount → (u.dev.link l).st = 1))
        ∧ (fails → ∃ u, exec (.bringupStageComplete false) s = .next u ∧ u.iss = s.iss ∧ u.dev.mgmt.stage = 255 ∧ SameMemory s.dev u.dev
            ∧ ∃ e l, u.dev.log = s.dev.log ++ e :: l ∧ e.kind = 6))
    ∧ (∃ u, exec .reset s = .next u ∧ u.iss = State.reset.iss ∧ u.dev.mgmt = State.reset.dev.mgmt ∧ u.dev.groups = [] ∧ u.dev.tasks = [] ∧ u.dev.ops = []
        ∧ u.dev.target = s.dev.target ∧ u.dev.wearMram = s.dev.wearMram ∧ u.dev.repairs = s.dev.repairs ∧ u.dev.marker = s.dev.marker)

/-! ## The machine as a whole -/

/-- R94, R326, R328 to R331, R337: a trap undoes its issue group, writes the trap record, stops the group and waits for the handler; a trap in the handler
slot is a handler fault. TRET ends the activation: the workgroup's held groups go on, traps still recorded wait again, and the handler's registers stay. -/
def Obligations.TakingATrapAndReturning : Prop :=
  (∀ (s : State) (t : TrapInfo),
    let core := s.iss.core
    let slot := s.iss.slot
    let b := s.rollback
    let g := b.group core slot
    let task := b.task? g.task
    let r : TrapRec :=
      { slot := slot, split := s.iss.split, mask := s.iss.mask, pos := s.iss.pos, cause := t.cause, sub := t.sub, tcode := t.tcode, kind := t.kind,
        orig := t.orig, addr := t.addr, tkt := t.tkt, lane := t.lane, launch := (task.map (fun k => k.grid)).getD 0, queue := (task.map (fun k => k.queue)).getD 0
        raised := b.now (clusterOf core) }
    let u := s.takeTrap t
    u.iss = Issue.closed ∧ u.agenda = s.agenda ∧ b.groups = s.iss.base.groups ∧ b.tasks = s.iss.base.tasks ∧ b.ops = s.iss.base.ops
    ∧ (slot = handlerSlot → u.dev = b.handlerFault core)
    ∧ (slot ≠ handlerSlot → b.hasGroup core slot = true →
        u.dev = { b with groups := u.dev.groups, cores := u.dev.cores } ∧ u.dev.group core slot = { g with trap := some r, probed := false }
        ∧ (∃ l m, (b.core core).waiting = l ++ m ∧ u.dev.core core = { b.core core with waiting := l ++ r :: m }
            ∧ (m = [] ∨ (m.headD r).raised = r.raised ∧ r.slot < (m.headD r).slot) ∧ ∀ x ∈ l, x.raised ≠ r.raised ∨ x.slot ≤ r.slot)
        ∧ (∀ k, k ≠ gkey core slot → Tab.find u.dev.groups k = Tab.find b.groups k) ∧ (∀ c, c ≠ core → u.dev.core c = b.core c)
        ∧ u.dev.groupRuns core slot = false))
  ∧ (∀ (d : Dev) (core : Nat) (t : Nat) (r : TrapRec), (d.core core).serving = some (t, r) →
      let e := d.trapReturn core
      let still := (d.groups.filter (fun x => decide (x.1 / 64 = core ∧ x.2.task = t ∧ x.2.trap.isSome = true ∧ x.1 % 64 ≠ handlerSlot))).filterMap
        (fun x => x.2.trap)
      e = { d with groups := e.groups, cores := e.cores }
      ∧ e.core core = { d.core core with serving := none, waiting := (d.core core).waiting.filter (fun x => !still.contains x) ++ still }
      ∧ e.group core handlerSlot = { Group.empty with regs := (d.group core handlerSlot).regs }
      ∧ ∀ k g, k ≠ gkey core handlerSlot → Tab.find d.groups k = some g →
          Tab.find e.groups k = some (if k / 64 = core ∧ k % 64 ≠ handlerSlot ∧ g.task = t then { g with held := false } else g))

/-- R53, R54, R57, R81 to R83: a step in which a port issues reads the packet at the position of the split it chooses, and runs the words that decode from
it, one after another, from the split's word to the first without a chain bit; then the issue group closes. For one word i, the step is exec of i, with the
modifier taken away and the split moved on. How a port is chosen is the model's own (log entry 3). -/
def Obligations.AStepRunsTheDecodedInstructions : Prop :=
  ∀ (s v : State) (port : Nat),
    let core := port / 4
    let w : State := v.takeTurn port
    let cands := (w.dev.portSplits core (port % 4)).filter (fun c => w.dev.ready core c.1 c.2.2)
    (w.dev.portOpen core (port % 4) = false → s.nextStep = v.issueFrom port → step s = .next w)
    ∧ (∀ p, s.dev.stopped = false → s.pick = some p → s.nextStep = { s with pick := none }.issueFrom p)
    ∧ (s.dev.stopped = false → s.pick = none → s.agenda = [] → firstChange s s.dev.candidates = none → s.dev.nextPort = some port →
        s.nextStep = s.issueFrom port)
    ∧ (s.nextStep = v.issueFrom port → w.dev.portOpen core (port % 4) = true → ∀ slot split x, w.dev.firstRanked core cands = some (slot, split, x) →
        let d := w.dev.issued core (port % 4) slot split
        let pl := d.plan core slot x
        let opened (pos : Pos) (raw : List W32) : State :=
          let e := (if x.skip = true then pl.1.moveSplit core slot split pos else pl.1).meetRegs core slot ((raw.filterMap decoded).flatMap sourcesOf)
          { w with dev := e, iss := openIssue e core slot split x pos raw }
        (pl.1.group core slot).poisoned = false →
          (∀ pos t, pl.2 = .trap pos t → step s = .next ((opened pos []).takeTrap t))
          ∧ (∀ pos f, pl.2 = .failed pos f → step s = .next ((opened pos []).takeFailure f))
          ∧ (∀ pos raw, pl.2 = .go pos raw →
              let u := (opened pos raw).enterGroup raw
              step s = u.runWords (u.iss.words.length + 1)
              ∧ (u.iss.open_ = true → u.iss.words = raw.filterMap decoded ∧ u.iss.mask = x.mask ∧ u.iss.pos = pos ∧ u.iss.fall = pos.after raw.length)
              ∧ (∀ r i t, raw = [r] → decodeWord r = .ok i → u.iss.open_ = true → exec i { u with iss := { u.iss with words := [] } } = .next t →
                  t.iss.words = [] →
                    let t1 : State := if isModifier i then t else { t with iss := { t.iss with mod := none } }
                    step s = .next (if t.iss.open_ = true then t1.closeIssue else t1))))
    ∧ (∀ (d e : Dev) (slot : Nat) (x : Split) (ws : List W32), x.skip = false → d.fetchPacket core slot x.pos.pc = (e, .ok ws) →
        (e.missing core slot x.pos.pc = [] → d.plan core slot x = (e, e.planGroup core slot x.pos ws))
        ∧ (e.missing core slot x.pos.pc ≠ [] → d.plan core slot x = (e, .notReady))
        ∧ ∀ pos raw, e.planGroup core slot x.pos ws = .go pos raw → pos = x.pos ∧ raw = runOf (ws.drop pos.word) ∧ ∀ r ∈ raw, ∃ i, decodeWord r = .ok i)
    ∧ (∀ (d : Dev) (slot va : Nat) (p : Placed), let r := d.translate (d.slotCtx core slot) .fetch va
        r.out = .ok p → r.dev.poisoned p.loc 4 = false →
          (d.fetchWord core slot va).2 = .ok (BitVec.ofNat 32 ((r.dev.combineRange p.loc 4).readNat p.loc 4)))

/-- R53, R59, R70: words written out from the encodings decode to the instructions they stand for. -/
def Obligations.WrittenOutWordsDecode : Prop :=
  decodeTableWord 32 0x36610286 = some (.ffma 4 5 6) ∧ decodeTableWord 32 0x04200006 = some (.brv 0 1 6)
  ∧ decodeTableWord 32 0x20020409 = some (.iadd 8 8 9) ∧ decodeTableWord 32 0x121000FF = some (.saddi 2 0 255)
  ∧ decodeTableWord 32 0x660146FE = some (.ldu 5 6) ∧ decodeTableWord 32 0x00E00150 = some (.trap 42)
  ∧ decodeTableWord 32 0x6A40850F = some (.mlda 2 10 15) ∧ decodeTableWord 32 0x70014300 = some (.lnch 5 6)
  ∧ decodeTableWord 32 0x72600280 = some (.gresume 5 0) ∧ decodeTableWord 32 0x74010286 = some (.boostGrant 4 5 6)

/-- R53 to R74: decoding the word of a well-formed instruction gives it back, whatever the chain bit, and a word that decodes is the word of what it decodes
to: no bit of a word is lost and none is read twice. Rows of the table that share one word, told apart by an S register at run time, decode to the first of them. -/
def Obligations.DecodingAndEncodingAgree : Prop :=
  (∀ (i : Instr) (c : BitVec 1) (w : W32), i.wf = true → encodeWord c i = some w → decodeWord w = .ok (firstOfRow i) ∧ chainBit w = c.getLsbD 0)
  ∧ (∀ (w : W32) (i : Instr), decodeWord w = .ok i → i.wf = true ∧ encodeWord (w.extractLsb' 31 1) i = some w)

/-- R54, R57: no step leaves an issue group in progress: one that a step opens, that step runs to its close, or to the trap or the stall that ends it. -/
def Obligations.StepsLeaveNoIssueGroupOpen : Prop :=
  ∀ s t : State, s.settled = true → step s = .next t → t.settled = true

/-- R329, R413, R414: what reset leaves, of what the spec gives a value: bring-up stands at stage 1, parameters at their defaults, the handler table and
the handler slots' registers are zero, no queue is enabled, no mailbox bound, no key installed; and no issue group is open. -/
def Obligations.ResetValues : Prop :=
  State.reset.settled = true ∧ State.reset.dev.memWf = true ∧ State.reset.dev.mgmt.stage = 1
  ∧ (List.range 8).map State.reset.dev.param = [2 ^ 20, 50000, 10000, 10000, 10000, 1024, 95, 0]
  ∧ (∀ core, (State.reset.dev.group core handlerSlot).regs = Regs.zero) ∧ (∀ w, Tab.get 0 State.reset.dev.handlers w = 0)
  ∧ (∀ q, (State.reset.dev.queue q).en = false) ∧ (∀ b, (State.reset.dev.box b).bound = false) ∧ State.reset.dev.keys = []
end

