-- ==== Sys2Proof/Laws/Exec.lean ====
section
/-! SUPPORT. Each arm of exec as an equation, so that no proof unfolds the whole of it. -/

namespace Sys2Proof.Machine

@[simp] theorem exec_modArithmetic (g : BitVec 3) (e : BitVec 1) (r : BitVec 2) (t : BitVec 1) (l : BitVec 2) (n : BitVec 1) (m : BitVec 1) (a : BitVec 1) (b : BitVec 1) (k : BitVec 5) (s : State) : exec (.modArithmetic g e r t l n m a b k) s = execModArithmetic g e r t l n m a b k s := rfl
@[simp] theorem exec_modMemory (g : BitVec 3) (e : BitVec 1) (sr : BitVec 3) (h : BitVec 2) (o : BitVec 15) (s : State) : exec (.modMemory g e sr h o) s = execModMemory g e sr h o s := rfl
@[simp] theorem exec_jmpi (a : SReg) (s : State) : exec (.jmpi a) s = execJmpi a s := rfl
@[simp] theorem exec_calli (a : SReg) (s : State) : exec (.calli a) s = execCalli a s := rfl
@[simp] theorem exec_trap (t : BitVec 12) (s : State) : exec (.trap t) s = execTrap t s := rfl
@[simp] theorem exec_elect (d : SReg) (s : State) : exec (.elect d) s = execElect d s := rfl
@[simp] theorem exec_probe (d : SReg) (s : State) : exec (.probe d) s = execProbe d s := rfl
@[simp] theorem exec_brf (sr : BitVec 1) (f : FReg) (o : BitVec 21) (s : State) : exec (.brf sr f o) s = execBrf sr f o s := rfl
@[simp] theorem exec_bra (o : BitVec 21) (s : State) : exec (.bra o) s = execBra o s := rfl
@[simp] theorem exec_brv (sr : BitVec 1) (p : PReg) (o : BitVec 21) (s : State) : exec (.brv sr p o) s = execBrv sr p o s := rfl
@[simp] theorem exec_call (o : BitVec 21) (s : State) : exec (.call o) s = execCall o s := rfl
@[simp] theorem exec_loop (d : SReg) (im : BitVec 13) (s : State) : exec (.loop d im) s = execLoop d im s := rfl
@[simp] theorem exec_waitc (l : BitVec 6) (sr : BitVec 6) (p : BitVec 6) (t : BitVec 6) (s : State) : exec (.waitc l sr p t) s = execWaitc l sr p t s := rfl
@[simp] theorem exec_sadd (d : SReg) (a : SReg) (b : SReg) (s : State) : exec (.sadd d a b) s = execSadd d a b s := rfl
@[simp] theorem exec_ssub (d : SReg) (a : SReg) (b : SReg) (s : State) : exec (.ssub d a b) s = execSsub d a b s := rfl
@[simp] theorem exec_smul (d : SReg) (a : SReg) (b : SReg) (s : State) : exec (.smul d a b) s = execSmul d a b s := rfl
@[simp] theorem exec_sand (d : SReg) (a : SReg) (b : SReg) (s : State) : exec (.sand d a b) s = execSand d a b s := rfl
@[simp] theorem exec_sor (d : SReg) (a : SReg) (b : SReg) (s : State) : exec (.sor d a b) s = execSor d a b s := rfl
@[simp] theorem exec_sxor (d : SReg) (a : SReg) (b : SReg) (s : State) : exec (.sxor d a b) s = execSxor d a b s := rfl
@[simp] theorem exec_sandn (d : SReg) (a : SReg) (b : SReg) (s : State) : exec (.sandn d a b) s = execSandn d a b s := rfl
@[simp] theorem exec_sshl (d : SReg) (a : SReg) (b : SReg) (s : State) : exec (.sshl d a b) s = execSshl d a b s := rfl
@[simp] theorem exec_sshr (d : SReg) (a : SReg) (b : SReg) (s : State) : exec (.sshr d a b) s = execSshr d a b s := rfl
@[simp] theorem exec_ssra (d : SReg) (a : SReg) (b : SReg) (s : State) : exec (.ssra d a b) s = execSsra d a b s := rfl
@[simp] theorem exec_smin (d : SReg) (a : SReg) (b : SReg) (s : State) : exec (.smin d a b) s = execSmin d a b s := rfl
@[simp] theorem exec_smax (d : SReg) (a : SReg) (b : SReg) (s : State) : exec (.smax d a b) s = execSmax d a b s := rfl
@[simp] theorem exec_smov (d : SReg) (a : SReg) (s : State) : exec (.smov d a) s = execSmov d a s := rfl
@[simp] theorem exec_ssel (d : SReg) (a : SReg) (b : SReg) (f : FReg) (s : State) : exec (.ssel d a b f) s = execSsel d a b f s := rfl
@[simp] theorem exec_sli (d : SReg) (k : BitVec 2) (im : BitVec 16) (s : State) : exec (.sli d k im) s = execSli d k im s := rfl
@[simp] theorem exec_scmp (n : BitVec 4) (f : FReg) (a : SReg) (b : SReg) (s : State) : exec (.scmp n f a b) s = execScmp n f a b s := rfl
@[simp] theorem exec_saddi (d : SReg) (a : SReg) (im : BitVec 13) (s : State) : exec (.saddi d a im) s = execSaddi d a im s := rfl
@[simp] theorem exec_rdspc (d : SReg) (n : BitVec 8) (s : State) : exec (.rdspc d n) s = execRdspc d n s := rfl
@[simp] theorem exec_wrspc (a : SReg) (n : BitVec 8) (s : State) : exec (.wrspc a n) s = execWrspc a n s := rfl
@[simp] theorem exec_vtos (d : SReg) (p : PReg) (s : State) : exec (.vtos d p) s = execVtos d p s := rfl
@[simp] theorem exec_stov (p : PReg) (a : SReg) (s : State) : exec (.stov p a) s = execStov p a s := rfl
@[simp] theorem exec_ballot (d : SReg) (p : PReg) (s : State) : exec (.ballot d p) s = execBallot d p s := rfl
@[simp] theorem exec_vote (f : FReg) (p : PReg) (m : BitVec 6) (s : State) : exec (.vote f p m) s = execVote f p m s := rfl
@[simp] theorem exec_sigchk (im : BitVec 16) (s : State) : exec (.sigchk im) s = execSigchk im s := rfl
@[simp] theorem exec_iadd (d : VReg) (a : VReg) (b : VReg) (s : State) : exec (.iadd d a b) s = execIadd d a b s := rfl
@[simp] theorem exec_isub (d : VReg) (a : VReg) (b : VReg) (s : State) : exec (.isub d a b) s = execIsub d a b s := rfl
@[simp] theorem exec_iaddc (d : VReg) (a : VReg) (b : VReg) (s : State) : exec (.iaddc d a b) s = execIaddc d a b s := rfl
@[simp] theorem exec_isubb (d : VReg) (a : VReg) (b : VReg) (s : State) : exec (.isubb d a b) s = execIsubb d a b s := rfl
@[simp] theorem exec_imul (d : VReg) (a : VReg) (b : VReg) (s : State) : exec (.imul d a b) s = execImul d a b s := rfl
@[simp] theorem exec_imulhI (d : VReg) (a : VReg) (b : VReg) (s : State) : exec (.imulhI d a b) s = execImulhI d a b s := rfl
@[simp] theorem exec_imulhN (d : VReg) (a : VReg) (b : VReg) (s : State) : exec (.imulhN d a b) s = execImulhN d a b s := rfl
@[simp] theorem exec_imad (d : VReg) (a : VReg) (b : VReg) (s : State) : exec (.imad d a b) s = execImad d a b s := rfl
@[simp] theorem exec_iminI (d : VReg) (a : VReg) (b : VReg) (s : State) : exec (.iminI d a b) s = execIminI d a b s := rfl
@[simp] theorem exec_iminN (d : VReg) (a : VReg) (b : VReg) (s : State) : exec (.iminN d a b) s = execIminN d a b s := rfl
@[simp] theorem exec_imaxI (d : VReg) (a : VReg) (b : VReg) (s : State) : exec (.imaxI d a b) s = execImaxI d a b s := rfl
@[simp] theorem exec_imaxN (d : VReg) (a : VReg) (b : VReg) (s : State) : exec (.imaxN d a b) s = execImaxN d a b s := rfl
@[simp] theorem exec_iabsd (d : VReg) (a : VReg) (b : VReg) (s : State) : exec (.iabsd d a b) s = execIabsd d a b s := rfl
@[simp] theorem exec_popc (d : VReg) (a : VReg) (s : State) : exec (.popc d a) s = execPopc d a s := rfl
@[simp] theorem exec_clz (d : VReg) (a : VReg) (s : State) : exec (.clz d a) s = execClz d a s := rfl
@[simp] theorem exec_brev (d : VReg) (a : VReg) (s : State) : exec (.brev d a) s = execBrev d a s := rfl
@[simp] theorem exec_and (d : VReg) (a : VReg) (b : VReg) (s : State) : exec (.and d a b) s = execAnd d a b s := rfl
@[simp] theorem exec_or (d : VReg) (a : VReg) (b : VReg) (s : State) : exec (.or d a b) s = execOr d a b s := rfl
@[simp] theorem exec_xor (d : VReg) (a : VReg) (b : VReg) (s : State) : exec (.xor d a b) s = execXor d a b s := rfl
@[simp] theorem exec_andn (d : VReg) (a : VReg) (b : VReg) (s : State) : exec (.andn d a b) s = execAndn d a b s := rfl
@[simp] theorem exec_orn (d : VReg) (a : VReg) (b : VReg) (s : State) : exec (.orn d a b) s = execOrn d a b s := rfl
@[simp] theorem exec_xnor (d : VReg) (a : VReg) (b : VReg) (s : State) : exec (.xnor d a b) s = execXnor d a b s := rfl
@[simp] theorem exec_shl (d : VReg) (a : VReg) (b : VReg) (s : State) : exec (.shl d a b) s = execShl d a b s := rfl
@[simp] theorem exec_shr (d : VReg) (a : VReg) (b : VReg) (s : State) : exec (.shr d a b) s = execShr d a b s := rfl
@[simp] theorem exec_sra (d : VReg) (a : VReg) (b : VReg) (s : State) : exec (.sra d a b) s = execSra d a b s := rfl
@[simp] theorem exec_rotl (d : VReg) (a : VReg) (b : VReg) (s : State) : exec (.rotl d a b) s = execRotl d a b s := rfl
@[simp] theorem exec_bfeI (d : VReg) (a : VReg) (b : VReg) (s : State) : exec (.bfeI d a b) s = execBfeI d a b s := rfl
@[simp] theorem exec_bfeN (d : VReg) (a : VReg) (b : VReg) (s : State) : exec (.bfeN d a b) s = execBfeN d a b s := rfl
@[simp] theorem exec_bfi (d : VReg) (a : VReg) (b : VReg) (s : State) : exec (.bfi d a b) s = execBfi d a b s := rfl
@[simp] theorem exec_mov (d : VReg) (a : VReg) (s : State) : exec (.mov d a) s = execMov d a s := rfl
@[simp] theorem exec_iaddi (d : VReg) (a : VReg) (im : BitVec 11) (s : State) : exec (.iaddi d a im) s = execIaddi d a im s := rfl
@[simp] theorem exec_imuli (d : VReg) (a : VReg) (im : BitVec 11) (s : State) : exec (.imuli d a im) s = execImuli d a im s := rfl
@[simp] theorem exec_andi (d : VReg) (a : VReg) (im : BitVec 11) (s : State) : exec (.andi d a im) s = execAndi d a im s := rfl
@[simp] theorem exec_ori (d : VReg) (a : VReg) (im : BitVec 11) (s : State) : exec (.ori d a im) s = execOri d a im s := rfl
@[simp] theorem exec_xori (d : VReg) (a : VReg) (im : BitVec 11) (s : State) : exec (.xori d a im) s = execXori d a im s := rfl
@[simp] theorem exec_shli (d : VReg) (a : VReg) (sr : BitVec 5) (s : State) : exec (.shli d a sr) s = execShli d a sr s := rfl
@[simp] theorem exec_shri (d : VReg) (a : VReg) (sr : BitVec 5) (s : State) : exec (.shri d a sr) s = execShri d a sr s := rfl
@[simp] theorem exec_srai (d : VReg) (a : VReg) (sr : BitVec 5) (s : State) : exec (.srai d a sr) s = execSrai d a sr s := rfl
@[simp] theorem exec_rotli (d : VReg) (a : VReg) (sr : BitVec 5) (s : State) : exec (.rotli d a sr) s = execRotli d a sr s := rfl
@[simp] theorem exec_icmp (n : BitVec 4) (p : PReg) (a : VReg) (b : VReg) (s : State) : exec (.icmp n p a b) s = execIcmp n p a b s := rfl
@[simp] theorem exec_fcmp (n : BitVec 3) (p : PReg) (a : VReg) (b : VReg) (s : State) : exec (.fcmp n p a b) s = execFcmp n p a b s := rfl
@[simp] theorem exec_movi (d : VReg) (im : BitVec 16) (s : State) : exec (.movi d im) s = execMovi d im s := rfl
@[simp] theorem exec_moviHi (d : VReg) (im : BitVec 16) (s : State) : exec (.moviHi d im) s = execMoviHi d im s := rfl
@[simp] theorem exec_moviF16 (d : VReg) (im : BitVec 16) (s : State) : exec (.moviF16 d im) s = execMoviF16 d im s := rfl
@[simp] theorem exec_moviBf16 (d : VReg) (im : BitVec 16) (s : State) : exec (.moviBf16 d im) s = execMoviBf16 d im s := rfl
@[simp] theorem exec_fadd (d : VReg) (a : VReg) (b : VReg) (s : State) : exec (.fadd d a b) s = execFadd d a b s := rfl
@[simp] theorem exec_fsub (d : VReg) (a : VReg) (b : VReg) (s : State) : exec (.fsub d a b) s = execFsub d a b s := rfl
@[simp] theorem exec_fmul (d : VReg) (a : VReg) (b : VReg) (s : State) : exec (.fmul d a b) s = execFmul d a b s := rfl
@[simp] theorem exec_ffma (d : VReg) (a : VReg) (b : VReg) (s : State) : exec (.ffma d a b) s = execFfma d a b s := rfl
@[simp] theorem exec_fmin (d : VReg) (a : VReg) (b : VReg) (s : State) : exec (.fmin d a b) s = execFmin d a b s := rfl
@[simp] theorem exec_fmax (d : VReg) (a : VReg) (b : VReg) (s : State) : exec (.fmax d a b) s = execFmax d a b s := rfl
@[simp] theorem exec_fminm (d : VReg) (a : VReg) (b : VReg) (s : State) : exec (.fminm d a b) s = execFminm d a b s := rfl
@[simp] theorem exec_fmaxm (d : VReg) (a : VReg) (b : VReg) (s : State) : exec (.fmaxm d a b) s = execFmaxm d a b s := rfl
@[simp] theorem exec_fclass (d : VReg) (a : VReg) (s : State) : exec (.fclass d a) s = execFclass d a s := rfl
@[simp] theorem exec_frcp (d : VReg) (a : VReg) (s : State) : exec (.frcp d a) s = execFrcp d a s := rfl
@[simp] theorem exec_fsqrt (d : VReg) (a : VReg) (s : State) : exec (.fsqrt d a) s = execFsqrt d a s := rfl
@[simp] theorem exec_frsq (d : VReg) (a : VReg) (s : State) : exec (.frsq d a) s = execFrsq d a s := rfl
@[simp] theorem exec_fexp2 (d : VReg) (a : VReg) (s : State) : exec (.fexp2 d a) s = execFexp2 d a s := rfl
@[simp] theorem exec_flog2 (d : VReg) (a : VReg) (s : State) : exec (.flog2 d a) s = execFlog2 d a s := rfl
@[simp] theorem exec_faddF16x2 (d : VReg) (a : VReg) (b : VReg) (s : State) : exec (.faddF16x2 d a b) s = execFaddF16x2 d a b s := rfl
@[simp] theorem exec_faddBf16x2 (d : VReg) (a : VReg) (b : VReg) (s : State) : exec (.faddBf16x2 d a b) s = execFaddBf16x2 d a b s := rfl
@[simp] theorem exec_fsubF16x2 (d : VReg) (a : VReg) (b : VReg) (s : State) : exec (.fsubF16x2 d a b) s = execFsubF16x2 d a b s := rfl
@[simp] theorem exec_fsubBf16x2 (d : VReg) (a : VReg) (b : VReg) (s : State) : exec (.fsubBf16x2 d a b) s = execFsubBf16x2 d a b s := rfl
@[simp] theorem exec_fmulF16x2 (d : VReg) (a : VReg) (b : VReg) (s : State) : exec (.fmulF16x2 d a b) s = execFmulF16x2 d a b s := rfl
@[simp] theorem exec_fmulBf16x2 (d : VReg) (a : VReg) (b : VReg) (s : State) : exec (.fmulBf16x2 d a b) s = execFmulBf16x2 d a b s := rfl
@[simp] theorem exec_ffmaF16x2 (d : VReg) (a : VReg) (b : VReg) (s : State) : exec (.ffmaF16x2 d a b) s = execFfmaF16x2 d a b s := rfl
@[simp] theorem exec_ffmaBf16x2 (d : VReg) (a : VReg) (b : VReg) (s : State) : exec (.ffmaBf16x2 d a b) s = execFfmaBf16x2 d a b s := rfl
@[simp] theorem exec_fminF16x2 (d : VReg) (a : VReg) (b : VReg) (s : State) : exec (.fminF16x2 d a b) s = execFminF16x2 d a b s := rfl
@[simp] theorem exec_fminBf16x2 (d : VReg) (a : VReg) (b : VReg) (s : State) : exec (.fminBf16x2 d a b) s = execFminBf16x2 d a b s := rfl
@[simp] theorem exec_fmaxF16x2 (d : VReg) (a : VReg) (b : VReg) (s : State) : exec (.fmaxF16x2 d a b) s = execFmaxF16x2 d a b s := rfl
@[simp] theorem exec_fmaxBf16x2 (d : VReg) (a : VReg) (b : VReg) (s : State) : exec (.fmaxBf16x2 d a b) s = execFmaxBf16x2 d a b s := rfl
@[simp] theorem exec_idot4I8 (d : VReg) (a : VReg) (b : VReg) (s : State) : exec (.idot4I8 d a b) s = execIdot4I8 d a b s := rfl
@[simp] theorem exec_idot4N8 (d : VReg) (a : VReg) (b : VReg) (s : State) : exec (.idot4N8 d a b) s = execIdot4N8 d a b s := rfl
@[simp] theorem exec_idot4In (d : VReg) (a : VReg) (b : VReg) (s : State) : exec (.idot4In d a b) s = execIdot4In d a b s := rfl
@[simp] theorem exec_fdot2F16 (d : VReg) (a : VReg) (b : VReg) (s : State) : exec (.fdot2F16 d a b) s = execFdot2F16 d a b s := rfl
@[simp] theorem exec_fdot2Bf16 (d : VReg) (a : VReg) (b : VReg) (s : State) : exec (.fdot2Bf16 d a b) s = execFdot2Bf16 d a b s := rfl
@[simp] theorem exec_ldot4L6 (d : VReg) (a : VReg) (b : VReg) (s : State) : exec (.ldot4L6 d a b) s = execLdot4L6 d a b s := rfl
@[simp] theorem exec_cvt (x : BitVec 4) (d : VReg) (a : VReg) (sr : BitVec 4) (s : State) : exec (.cvt x d a sr) s = execCvt x d a sr s := rfl
@[simp] theorem exec_cvtsF32F8a (d : VReg) (a : VReg) (b : SReg) (s : State) : exec (.cvtsF32F8a d a b) s = execCvtsF32F8a d a b s := rfl
@[simp] theorem exec_cvtsF32F8b (d : VReg) (a : VReg) (b : SReg) (s : State) : exec (.cvtsF32F8b d a b) s = execCvtsF32F8b d a b s := rfl
@[simp] theorem exec_cvtsF32L6 (d : VReg) (a : VReg) (b : SReg) (s : State) : exec (.cvtsF32L6 d a b) s = execCvtsF32L6 d a b s := rfl
@[simp] theorem exec_cvtsF8aF32 (d : VReg) (a : VReg) (b : SReg) (s : State) : exec (.cvtsF8aF32 d a b) s = execCvtsF8aF32 d a b s := rfl
@[simp] theorem exec_cvtsF8bF32 (d : VReg) (a : VReg) (b : SReg) (s : State) : exec (.cvtsF8bF32 d a b) s = execCvtsF8bF32 d a b s := rfl
@[simp] theorem exec_cvtsL6F32 (d : VReg) (a : VReg) (b : SReg) (s : State) : exec (.cvtsL6F32 d a b) s = execCvtsL6F32 d a b s := rfl
@[simp] theorem exec_sel (d : VReg) (a : VReg) (b : VReg) (s : State) : exec (.sel d a b) s = execSel d a b s := rfl
@[simp] theorem exec_pand (d : PReg) (a : PReg) (b : PReg) (s : State) : exec (.pand d a b) s = execPand d a b s := rfl
@[simp] theorem exec_por (d : PReg) (a : PReg) (b : PReg) (s : State) : exec (.por d a b) s = execPor d a b s := rfl
@[simp] theorem exec_pxor (d : PReg) (a : PReg) (b : PReg) (s : State) : exec (.pxor d a b) s = execPxor d a b s := rfl
@[simp] theorem exec_pnot (d : PReg) (a : PReg) (s : State) : exec (.pnot d a) s = execPnot d a s := rfl
@[simp] theorem exec_pmov (d : PReg) (a : PReg) (s : State) : exec (.pmov d a) s = execPmov d a s := rfl
@[simp] theorem exec_lxchPick (d : VReg) (a : VReg) (b : VReg) (s : State) : exec (.lxchPick d a b) s = execLxchPick d a b s := rfl
@[simp] theorem exec_lxchRot (d : VReg) (a : VReg) (b : VReg) (s : State) : exec (.lxchRot d a b) s = execLxchRot d a b s := rfl
@[simp] theorem exec_lxchSlide (d : VReg) (a : VReg) (b : VReg) (s : State) : exec (.lxchSlide d a b) s = execLxchSlide d a b s := rfl
@[simp] theorem exec_lxchRev (d : VReg) (a : VReg) (b : VReg) (s : State) : exec (.lxchRev d a b) s = execLxchRev d a b s := rfl
@[simp] theorem exec_qswx (d : VReg) (a : VReg) (s : State) : exec (.qswx d a) s = execQswx d a s := rfl
@[simp] theorem exec_qswy (d : VReg) (a : VReg) (s : State) : exec (.qswy d a) s = execQswy d a s := rfl
@[simp] theorem exec_qswd (d : VReg) (a : VReg) (s : State) : exec (.qswd d a) s = execQswd d a s := rfl
@[simp] theorem exec_qbcast (d : VReg) (a : VReg) (n : BitVec 2) (s : State) : exec (.qbcast d a n) s = execQbcast d a n s := rfl
@[simp] theorem exec_gredAddI (d : VReg) (a : VReg) (s : State) : exec (.gredAddI d a) s = execGredAddI d a s := rfl
@[simp] theorem exec_gredAddF (d : VReg) (a : VReg) (s : State) : exec (.gredAddF d a) s = execGredAddF d a s := rfl
@[simp] theorem exec_gredMinI (d : VReg) (a : VReg) (s : State) : exec (.gredMinI d a) s = execGredMinI d a s := rfl
@[simp] theorem exec_gredMinF (d : VReg) (a : VReg) (s : State) : exec (.gredMinF d a) s = execGredMinF d a s := rfl
@[simp] theorem exec_gredMaxI (d : VReg) (a : VReg) (s : State) : exec (.gredMaxI d a) s = execGredMaxI d a s := rfl
@[simp] theorem exec_gredMaxF (d : VReg) (a : VReg) (s : State) : exec (.gredMaxF d a) s = execGredMaxF d a s := rfl
@[simp] theorem exec_gscanAddI (d : VReg) (a : VReg) (s : State) : exec (.gscanAddI d a) s = execGscanAddI d a s := rfl
@[simp] theorem exec_gscanAddF (d : VReg) (a : VReg) (s : State) : exec (.gscanAddF d a) s = execGscanAddF d a s := rfl
@[simp] theorem exec_xferGet (d : SReg) (a : VReg) (b : SReg) (s : State) : exec (.xferGet d a b) s = execXferGet d a b s := rfl
@[simp] theorem exec_xferFirst (d : SReg) (a : VReg) (s : State) : exec (.xferFirst d a) s = execXferFirst d a s := rfl
@[simp] theorem exec_xferPut (d : VReg) (a : SReg) (n : BitVec 5) (s : State) : exec (.xferPut d a n) s = execXferPut d a n s := rfl
@[simp] theorem exec_ldP (z : BitVec 4) (d : VReg) (sr : SReg) (v : VReg) (x : BitVec 1) (s : State) : exec (.ldP z d sr v x) s = execLdP z d sr v x s := rfl
@[simp] theorem exec_stP (z : BitVec 4) (d : VReg) (sr : SReg) (v : VReg) (x : BitVec 1) (s : State) : exec (.stP z d sr v x) s = execStP z d sr v x s := rfl
@[simp] theorem exec_ldS (z : BitVec 4) (d : VReg) (sr : SReg) (v : VReg) (x : BitVec 1) (s : State) : exec (.ldS z d sr v x) s = execLdS z d sr v x s := rfl
@[simp] theorem exec_stS (z : BitVec 4) (d : VReg) (sr : SReg) (v : VReg) (x : BitVec 1) (s : State) : exec (.stS z d sr v x) s = execStS z d sr v x s := rfl
@[simp] theorem exec_ldC (z : BitVec 4) (d : VReg) (sr : SReg) (v : VReg) (x : BitVec 1) (s : State) : exec (.ldC z d sr v x) s = execLdC z d sr v x s := rfl
@[simp] theorem exec_stC (z : BitVec 4) (d : VReg) (sr : SReg) (v : VReg) (x : BitVec 1) (s : State) : exec (.stC z d sr v x) s = execStC z d sr v x s := rfl
@[simp] theorem exec_ldK (z : BitVec 4) (d : VReg) (sr : SReg) (v : VReg) (x : BitVec 1) (s : State) : exec (.ldK z d sr v x) s = execLdK z d sr v x s := rfl
@[simp] theorem exec_stK (z : BitVec 4) (d : VReg) (sr : SReg) (v : VReg) (x : BitVec 1) (s : State) : exec (.stK z d sr v x) s = execStK z d sr v x s := rfl
@[simp] theorem exec_ldG (z : BitVec 4) (d : VReg) (sr : SReg) (v : VReg) (x : BitVec 1) (s : State) : exec (.ldG z d sr v x) s = execLdG z d sr v x s := rfl
@[simp] theorem exec_stG (z : BitVec 4) (d : VReg) (sr : SReg) (v : VReg) (x : BitVec 1) (s : State) : exec (.stG z d sr v x) s = execStG z d sr v x s := rfl
@[simp] theorem exec_atomAdd (d : VReg) (sr : SReg) (v : VReg) (s : State) : exec (.atomAdd d sr v) s = execAtomAdd d sr v s := rfl
@[simp] theorem exec_atomMinI (d : VReg) (sr : SReg) (v : VReg) (s : State) : exec (.atomMinI d sr v) s = execAtomMinI d sr v s := rfl
@[simp] theorem exec_atomMinN (d : VReg) (sr : SReg) (v : VReg) (s : State) : exec (.atomMinN d sr v) s = execAtomMinN d sr v s := rfl
@[simp] theorem exec_atomMaxI (d : VReg) (sr : SReg) (v : VReg) (s : State) : exec (.atomMaxI d sr v) s = execAtomMaxI d sr v s := rfl
@[simp] theorem exec_atomMaxN (d : VReg) (sr : SReg) (v : VReg) (s : State) : exec (.atomMaxN d sr v) s = execAtomMaxN d sr v s := rfl
@[simp] theorem exec_atomAnd (d : VReg) (sr : SReg) (v : VReg) (s : State) : exec (.atomAnd d sr v) s = execAtomAnd d sr v s := rfl
@[simp] theorem exec_atomOr (d : VReg) (sr : SReg) (v : VReg) (s : State) : exec (.atomOr d sr v) s = execAtomOr d sr v s := rfl
@[simp] theorem exec_atomXor (d : VReg) (sr : SReg) (v : VReg) (s : State) : exec (.atomXor d sr v) s = execAtomXor d sr v s := rfl
@[simp] theorem exec_atomXchg (d : VReg) (sr : SReg) (v : VReg) (s : State) : exec (.atomXchg d sr v) s = execAtomXchg d sr v s := rfl
@[simp] theorem exec_atomAddF32 (d : VReg) (sr : SReg) (v : VReg) (s : State) : exec (.atomAddF32 d sr v) s = execAtomAddF32 d sr v s := rfl
@[simp] theorem exec_atomCas (d : SReg) (sr : SReg) (v : VReg) (s : State) : exec (.atomCas d sr v) s = execAtomCas d sr v s := rfl
@[simp] theorem exec_redAdd (d : VReg) (sr : SReg) (v : VReg) (s : State) : exec (.redAdd d sr v) s = execRedAdd d sr v s := rfl
@[simp] theorem exec_redMinI (d : VReg) (sr : SReg) (v : VReg) (s : State) : exec (.redMinI d sr v) s = execRedMinI d sr v s := rfl
@[simp] theorem exec_redMinN (d : VReg) (sr : SReg) (v : VReg) (s : State) : exec (.redMinN d sr v) s = execRedMinN d sr v s := rfl
@[simp] theorem exec_redMaxI (d : VReg) (sr : SReg) (v : VReg) (s : State) : exec (.redMaxI d sr v) s = execRedMaxI d sr v s := rfl
@[simp] theorem exec_redMaxN (d : VReg) (sr : SReg) (v : VReg) (s : State) : exec (.redMaxN d sr v) s = execRedMaxN d sr v s := rfl
@[simp] theorem exec_redAnd (d : VReg) (sr : SReg) (v : VReg) (s : State) : exec (.redAnd d sr v) s = execRedAnd d sr v s := rfl
@[simp] theorem exec_redOr (d : VReg) (sr : SReg) (v : VReg) (s : State) : exec (.redOr d sr v) s = execRedOr d sr v s := rfl
@[simp] theorem exec_redXor (d : VReg) (sr : SReg) (v : VReg) (s : State) : exec (.redXor d sr v) s = execRedXor d sr v s := rfl
@[simp] theorem exec_redAddF32 (d : VReg) (sr : SReg) (v : VReg) (s : State) : exec (.redAddF32 d sr v) s = execRedAddF32 d sr v s := rfl
@[simp] theorem exec_ldu (d : SReg) (sr : SReg) (s : State) : exec (.ldu d sr) s = execLdu d sr s := rfl
@[simp] theorem exec_stu (d : SReg) (sr : SReg) (s : State) : exec (.stu d sr) s = execStu d sr s := rfl
@[simp] theorem exec_lda (d : VReg) (sr : SReg) (v : VReg) (x : BitVec 1) (s : State) : exec (.lda d sr v x) s = execLda d sr v x s := rfl
@[simp] theorem exec_sta (d : VReg) (sr : SReg) (v : VReg) (x : BitVec 1) (s : State) : exec (.sta d sr v x) s = execSta d sr v x s := rfl
@[simp] theorem exec_prefL1 (sr : SReg) (v : VReg) (x : BitVec 1) (s : State) : exec (.prefL1 sr v x) s = execPrefL1 sr v x s := rfl
@[simp] theorem exec_prefL2 (sr : SReg) (v : VReg) (x : BitVec 1) (s : State) : exec (.prefL2 sr v x) s = execPrefL2 sr v x s := rfl
@[simp] theorem exec_acqld (d : VReg) (sr : SReg) (v : VReg) (x : BitVec 1) (s : State) : exec (.acqld d sr v x) s = execAcqld d sr v x s := rfl
@[simp] theorem exec_relst (d : VReg) (sr : SReg) (v : VReg) (x : BitVec 1) (s : State) : exec (.relst d sr v x) s = execRelst d sr v x s := rfl
@[simp] theorem exec_barw (sr : SReg) (s : State) : exec (.barw sr) s = execBarw sr s := rfl
@[simp] theorem exec_bara (d : SReg) (sr : SReg) (s : State) : exec (.bara d sr) s = execBara d sr s := rfl
@[simp] theorem exec_bart (a : SReg) (sr : SReg) (s : State) : exec (.bart a sr) s = execBart a sr s := rfl
@[simp] theorem exec_marm (sr : SReg) (s : State) : exec (.marm sr) s = execMarm sr s := rfl
@[simp] theorem exec_mwaitNe (d : SReg) (sr : SReg) (s : State) : exec (.mwaitNe d sr) s = execMwaitNe d sr s := rfl
@[simp] theorem exec_mwaitGe (d : SReg) (sr : SReg) (s : State) : exec (.mwaitGe d sr) s = execMwaitGe d sr s := rfl
@[simp] theorem exec_adecl (im : BitVec 4) (sr : SReg) (l : SReg) (s : State) : exec (.adecl im sr l) s = execAdecl im sr l s := rfl
@[simp] theorem exec_astat (d : SReg) (s : State) : exec (.astat d) s = execAstat d s := rfl
@[simp] theorem exec_mma (t : BitVec 2) (a : BitVec 4) (b : BitVec 4) (n : BitVec 1) (m : BitVec 1) (e : BitVec 1) (sr : BitVec 4) (r : BitVec 4) (s : State) : exec (.mma t a b n m e sr r) s = execMma t a b n m e sr r s := rfl
@[simp] theorem exec_mres (d : SReg) (a : SReg) (h : BitVec 4) (s : State) : exec (.mres d a h) s = execMres d a h s := rfl
@[simp] theorem exec_mrel (h : BitVec 4) (s : State) : exec (.mrel h) s = execMrel h s := rfl
@[simp] theorem exec_mlda (h : BitVec 4) (a : SReg) (b : SReg) (s : State) : exec (.mlda h a b) s = execMlda h a b s := rfl
@[simp] theorem exec_mldb (h : BitVec 4) (a : SReg) (b : SReg) (s : State) : exec (.mldb h a b) s = execMldb h a b s := rfl
@[simp] theorem exec_mshape (sr : BitVec 4) (a : SReg) (s : State) : exec (.mshape sr a) s = execMshape sr a s := rfl
@[simp] theorem exec_mzero (t : BitVec 2) (s : State) : exec (.mzero t) s = execMzero t s := rfl
@[simp] theorem exec_mtld (t : BitVec 2) (a : SReg) (b : SReg) (s : State) : exec (.mtld t a b) s = execMtld t a b s := rfl
@[simp] theorem exec_mtst (t : BitVec 2) (a : SReg) (b : SReg) (s : State) : exec (.mtst t a b) s = execMtst t a b s := rfl
@[simp] theorem exec_mtrv (d : VReg) (t : BitVec 2) (b : SReg) (s : State) : exec (.mtrv d t b) s = execMtrv d t b s := rfl
@[simp] theorem exec_mtwv (t : BitVec 2) (a : VReg) (b : SReg) (s : State) : exec (.mtwv t a b) s = execMtwv t a b s := rfl
@[simp] theorem exec_mhint (a : SReg) (s : State) : exec (.mhint a) s = execMhint a s := rfl
@[simp] theorem exec_mxcntExceptions (d : SReg) (r : BitVec 1) (s : State) : exec (.mxcntExceptions d r) s = execMxcntExceptions d r s := rfl
@[simp] theorem exec_mxcntPrune (d : SReg) (r : BitVec 1) (s : State) : exec (.mxcntPrune d r) s = execMxcntPrune d r s := rfl
@[simp] theorem exec_mpair (d : SReg) (s : State) : exec (.mpair d) s = execMpair d s := rfl
@[simp] theorem exec_cqinit (d : SReg) (a : SReg) (s : State) : exec (.cqinit d a) s = execCqinit d a s := rfl
@[simp] theorem exec_cqpush (d : SReg) (a : BitVec 4) (s : State) : exec (.cqpush d a) s = execCqpush d a s := rfl
@[simp] theorem exec_cqpub (d : SReg) (a : SReg) (s : State) : exec (.cqpub d a) s = execCqpub d a s := rfl
@[simp] theorem exec_cqstage (a : SReg) (s : State) : exec (.cqstage a) s = execCqstage a s := rfl
@[simp] theorem exec_cqwptr (d : SReg) (a : SReg) (s : State) : exec (.cqwptr d a) s = execCqwptr d a s := rfl
@[simp] theorem exec_cqstat (d : SReg) (s : State) : exec (.cqstat d) s = execCqstat d s := rfl
@[simp] theorem exec_lprog (d : SReg) (a : SReg) (n : BitVec 4) (s : State) : exec (.lprog d a n) s = execLprog d a n s := rfl
@[simp] theorem exec_sopen (d : SReg) (a : SReg) (n : BitVec 4) (s : State) : exec (.sopen d a n) s = execSopen d a n s := rfl
@[simp] theorem exec_sclose (n : BitVec 4) (s : State) : exec (.sclose n) s = execSclose n s := rfl
@[simp] theorem exec_sskip (a : SReg) (n : BitVec 4) (s : State) : exec (.sskip a n) s = execSskip a n s := rfl
@[simp] theorem exec_sstat (d : SReg) (n : BitVec 4) (s : State) : exec (.sstat d n) s = execSstat d n s := rfl
@[simp] theorem exec_lnch (d : SReg) (a : SReg) (s : State) : exec (.lnch d a) s = execLnch d a s := rfl
@[simp] theorem exec_mbindBind (d : SReg) (a : SReg) (b : SReg) (s : State) : exec (.mbindBind d a b) s = execMbindBind d a b s := rfl
@[simp] theorem exec_mboxqRead (d : SReg) (a : SReg) (s : State) : exec (.mboxqRead d a) s = execMboxqRead d a s := rfl
@[simp] theorem exec_qcfgConfigure (d : SReg) (a : SReg) (b : SReg) (s : State) : exec (.qcfgConfigure d a b) s = execQcfgConfigure d a b s := rfl
@[simp] theorem exec_grd (d : SReg) (a : SReg) (s : State) : exec (.grd d a) s = execGrd d a s := rfl
@[simp] theorem exec_gwr (a : SReg) (b : SReg) (s : State) : exec (.gwr a b) s = execGwr a b s := rfl
@[simp] theorem exec_gstat (d : SReg) (a : SReg) (s : State) : exec (.gstat d a) s = execGstat d a s := rfl
@[simp] theorem exec_gresume (a : SReg) (b : SReg) (s : State) : exec (.gresume a b) s = execGresume a b s := rfl
@[simp] theorem exec_gkill (a : SReg) (s : State) : exec (.gkill a) s = execGkill a s := rfl
@[simp] theorem exec_tlbiPage (a : SReg) (b : SReg) (s : State) : exec (.tlbiPage a b) s = execTlbiPage a b s := rfl
@[simp] theorem exec_tkstat (d : SReg) (a : SReg) (s : State) : exec (.tkstat d a) s = execTkstat d a s := rfl
@[simp] theorem exec_wlatchRead (d : SReg) (a : SReg) (s : State) : exec (.wlatchRead d a) s = execWlatchRead d a s := rfl
@[simp] theorem exec_diagst (k : SReg) (a : SReg) (b : SReg) (s : State) : exec (.diagst k a b) s = execDiagst k a b s := rfl
@[simp] theorem exec_diagld (d : SReg) (a : SReg) (s : State) : exec (.diagld d a) s = execDiagld d a s := rfl
@[simp] theorem exec_boostGrant (d : SReg) (a : SReg) (b : SReg) (s : State) : exec (.boostGrant d a b) s = execBoostGrant d a b s := rfl
@[simp] theorem exec_lbrd (d : SReg) (a : SReg) (s : State) : exec (.lbrd d a) s = execLbrd d a s := rfl
@[simp] theorem exec_wrecrd (d : SReg) (a : SReg) (s : State) : exec (.wrecrd d a) s = execWrecrd d a s := rfl
@[simp] theorem exec_lifeset (d : SReg) (a : SReg) (s : State) : exec (.lifeset d a) s = execLifeset d a s := rfl
@[simp] theorem exec_eqrd (d : SReg) (a : SReg) (s : State) : exec (.eqrd d a) s = execEqrd d a s := rfl
@[simp] theorem exec_rdnBegin (d : SReg) (s : State) : exec (.rdnBegin d) s = execRdnBegin d s := rfl
@[simp] theorem exec_sigrd (d : SReg) (a : SReg) (s : State) : exec (.sigrd d a) s = execSigrd d a s := rfl
@[simp] theorem exec_nop (s : State) : exec (.nop) s = execNop s := rfl
@[simp] theorem exec_exit (s : State) : exec (.exit) s = execExit s := rfl
@[simp] theorem exec_ret (s : State) : exec (.ret) s = execRet s := rfl
@[simp] theorem exec_join (s : State) : exec (.join) s = execJoin s := rfl
@[simp] theorem exec_yld (s : State) : exec (.yld) s = execYld s := rfl
@[simp] theorem exec_tret (s : State) : exec (.tret) s = execTret s := rfl
@[simp] theorem exec_airrev (s : State) : exec (.airrev) s = execAirrev s := rfl
@[simp] theorem exec_rdnCkpt (s : State) : exec (.rdnCkpt) s = execRdnCkpt s := rfl
@[simp] theorem exec_rdnEnd (s : State) : exec (.rdnEnd) s = execRdnEnd s := rfl
@[simp] theorem exec_mbindUnbind (d : SReg) (a : SReg) (b : SReg) (s : State) : exec (.mbindUnbind d a b) s = execMbindUnbind d a b s := rfl
@[simp] theorem exec_mboxqClearOverflow (d : SReg) (a : SReg) (s : State) : exec (.mboxqClearOverflow d a) s = execMboxqClearOverflow d a s := rfl
@[simp] theorem exec_mboxqDiscardPending (d : SReg) (a : SReg) (s : State) : exec (.mboxqDiscardPending d a) s = execMboxqDiscardPending d a s := rfl
@[simp] theorem exec_qcfgDisable (d : SReg) (a : SReg) (b : SReg) (s : State) : exec (.qcfgDisable d a b) s = execQcfgDisable d a b s := rfl
@[simp] theorem exec_qcfgMask (d : SReg) (a : SReg) (b : SReg) (s : State) : exec (.qcfgMask d a b) s = execQcfgMask d a b s := rfl
@[simp] theorem exec_qcfgRead (d : SReg) (a : SReg) (b : SReg) (s : State) : exec (.qcfgRead d a b) s = execQcfgRead d a b s := rfl
@[simp] theorem exec_tlbiAsn (a : SReg) (b : SReg) (s : State) : exec (.tlbiAsn a b) s = execTlbiAsn a b s := rfl
@[simp] theorem exec_tlbiWorld (a : SReg) (b : SReg) (s : State) : exec (.tlbiWorld a b) s = execTlbiWorld a b s := rfl
@[simp] theorem exec_tlbiAll (a : SReg) (b : SReg) (s : State) : exec (.tlbiAll a b) s = execTlbiAll a b s := rfl
@[simp] theorem exec_wlatchSet (d : SReg) (a : SReg) (s : State) : exec (.wlatchSet d a) s = execWlatchSet d a s := rfl
@[simp] theorem exec_boostEnd (d : SReg) (a : SReg) (b : SReg) (s : State) : exec (.boostEnd d a b) s = execBoostEnd d a b s := rfl
@[simp] theorem exec_issueGroup (core : Nat) (port : Nat) (s : State) : exec (.issueGroup core port) s = execIssueGroup core port s := rfl
@[simp] theorem exec_waitCountPromotion (core : Nat) (slot : Nat) (split : Nat) (s : State) : exec (.waitCountPromotion core slot split) s = execWaitCountPromotion core slot split s := rfl
@[simp] theorem exec_reconvergenceStackPop (core : Nat) (slot : Nat) (s : State) : exec (.reconvergenceStackPop core slot) s = execReconvergenceStackPop core slot s := rfl
@[simp] theorem exec_splitMerge (core : Nat) (slot : Nat) (s : State) : exec (.splitMerge core slot) s = execSplitMerge core slot s := rfl
@[simp] theorem exec_joinRelease (core : Nat) (slot : Nat) (s : State) : exec (.joinRelease core slot) s = execJoinRelease core slot s := rfl
@[simp] theorem exec_groupSlotRelease (core : Nat) (slot : Nat) (s : State) : exec (.groupSlotRelease core slot) s = execGroupSlotRelease core slot s := rfl
@[simp] theorem exec_loadValueBound (op : Nat) (s : State) : exec (.loadValueBound op) s = execLoadValueBound op s := rfl
@[simp] theorem exec_storePerformed (op : Nat) (s : State) : exec (.storePerformed op) s = execStorePerformed op s := rfl
@[simp] theorem exec_counterEnd (core : Nat) (slot : Nat) (ctr : Ctr) (s : State) : exec (.counterEnd core slot ctr) s = execCounterEnd core slot ctr s := rfl
@[simp] theorem exec_waitcRelease (core : Nat) (slot : Nat) (split : Nat) (s : State) : exec (.waitcRelease core slot split) s = execWaitcRelease core slot split s := rfl
@[simp] theorem exec_barrierRelease (core : Nat) (slot : Nat) (split : Nat) (s : State) : exec (.barrierRelease core slot split) s = execBarrierRelease core slot split s := rfl
@[simp] theorem exec_monitorWake (core : Nat) (slot : Nat) (split : Nat) (s : State) : exec (.monitorWake core slot split) s = execMonitorWake core slot split s := rfl
@[simp] theorem exec_monitorRemoteReread (core : Nat) (slot : Nat) (split : Nat) (s : State) : exec (.monitorRemoteReread core slot split) s = execMonitorRemoteReread core slot split s := rfl
@[simp] theorem exec_engineRecall (cluster : Nat) (chan : Nat) (s : State) : exec (.engineRecall cluster chan) s = execEngineRecall cluster chan s := rfl
@[simp] theorem exec_atomicSetWaitAcquire (task : Nat) (s : State) : exec (.atomicSetWaitAcquire task) s = execAtomicSetWaitAcquire task s := rfl
@[simp] theorem exec_taskRestart (task : Nat) (s : State) : exec (.taskRestart task) s = execTaskRestart task s := rfl
@[simp] theorem exec_taskCommit (task : Nat) (s : State) : exec (.taskCommit task) s = execTaskCommit task s := rfl
@[simp] theorem exec_irrevocableTokenGrant (world : Nat) (s : State) : exec (.irrevocableTokenGrant world) s = execIrrevocableTokenGrant world s := rfl
@[simp] theorem exec_activeSetEntryFree (task : Nat) (s : State) : exec (.activeSetEntryFree task) s = execActiveSetEntryFree task s := rfl
@[simp] theorem exec_matrixEntryStart (core : Nat) (entry : Nat) (s : State) : exec (.matrixEntryStart core entry) s = execMatrixEntryStart core entry s := rfl
@[simp] theorem exec_pairArbiterGrant (pair : Nat) (s : State) : exec (.pairArbiterGrant pair) s = execPairArbiterGrant pair s := rfl
@[simp] theorem exec_mmaOccupancyEnd (pair : Nat) (s : State) : exec (.mmaOccupancyEnd pair) s = execMmaOccupancyEnd pair s := rfl
@[simp] theorem exec_mmaRetire (core : Nat) (entry : Nat) (s : State) : exec (.mmaRetire core entry) s = execMmaRetire core entry s := rfl
@[simp] theorem exec_tileOpRetire (core : Nat) (entry : Nat) (s : State) : exec (.tileOpRetire core entry) s = execTileOpRetire core entry s := rfl
@[simp] theorem exec_reservationClearDone (core : Nat) (s : State) : exec (.reservationClearDone core) s = execReservationClearDone core s := rfl
@[simp] theorem exec_hintRequestTime (pair : Nat) (s : State) : exec (.hintRequestTime pair) s = execHintRequestTime pair s := rfl
@[simp] theorem exec_slewWindowBegin (cluster : Nat) (s : State) : exec (.slewWindowBegin cluster) s = execSlewWindowBegin cluster s := rfl
@[simp] theorem exec_rampStepEnd (pair : Nat) (s : State) : exec (.rampStepEnd pair) s = execRampStepEnd pair s := rfl
@[simp] theorem exec_holdExpiry (pair : Nat) (s : State) : exec (.holdExpiry pair) s = execHoldExpiry pair s := rfl
@[simp] theorem exec_copyAccept (cluster : Nat) (s : State) : exec (.copyAccept cluster) s = execCopyAccept cluster s := rfl
@[simp] theorem exec_copyComplete (cluster : Nat) (chan : Nat) (s : State) : exec (.copyComplete cluster chan) s = execCopyComplete cluster chan s := rfl
@[simp] theorem exec_streamFill (task : Nat) (ctx : Nat) (s : State) : exec (.streamFill task ctx) s = execStreamFill task ctx s := rfl
@[simp] theorem exec_streamReload (task : Nat) (ctx : Nat) (s : State) : exec (.streamReload task ctx) s = execStreamReload task ctx s := rfl
@[simp] theorem exec_pageWalk (core : Nat) (slot : Nat) (va : Nat) (kind : AccKind) (s : State) : exec (.pageWalk core slot va kind) s = execPageWalk core slot va kind s := rfl
@[simp] theorem exec_remoteAccessArrival (m : RemoteMsg) (s : State) : exec (.remoteAccessArrival m) s = execRemoteAccessArrival m s := rfl
@[simp] theorem exec_readData (tag : Nat) (data : List (BitVec 8)) (s : State) : exec (.readData tag data) s = execReadData tag data s := rfl
@[simp] theorem exec_writeAck (tag : Nat) (s : State) : exec (.writeAck tag) s = execWriteAck tag s := rfl
@[simp] theorem exec_ticketReply (tag : Nat) (tkt : BitVec 32) (s : State) : exec (.ticketReply tag tkt) s = execTicketReply tag tkt s := rfl
@[simp] theorem exec_busy (tag : Nat) (s : State) : exec (.busy tag) s = execBusy tag s := rfl
@[simp] theorem exec_busyResend (tag : Nat) (s : State) : exec (.busyResend tag) s = execBusyResend tag s := rfl
@[simp] theorem exec_ticketTableFullResend (tag : Nat) (s : State) : exec (.ticketTableFullResend tag) s = execTicketTableFullResend tag s := rfl
@[simp] theorem exec_ticketPost (win : Nat) (word : BitVec 64) (s : State) : exec (.ticketPost win word) s = execTicketPost win word s := rfl
@[simp] theorem exec_replayNotice (tkt : BitVec 32) (s : State) : exec (.replayNotice tkt) s = execReplayNotice tkt s := rfl
@[simp] theorem exec_requesterTicketTimeout (die : Nat) (entry : Nat) (s : State) : exec (.requesterTicketTimeout die entry) s = execRequesterTicketTimeout die entry s := rfl
@[simp] theorem exec_ownerTicketTimeout (id : Nat) (s : State) : exec (.ownerTicketTimeout id) s = execOwnerTicketTimeout id s := rfl
@[simp] theorem exec_remoteResponseTimeout (tag : Nat) (s : State) : exec (.remoteResponseTimeout tag) s = execRemoteResponseTimeout tag s := rfl
@[simp] theorem exec_noticeRetentionExpiry (tkt : BitVec 32) (s : State) : exec (.noticeRetentionExpiry tkt) s = execNoticeRetentionExpiry tkt s := rfl
@[simp] theorem exec_tagRetentionExpiry (peer : Nat) (tag : Nat) (s : State) : exec (.tagRetentionExpiry peer tag) s = execTagRetentionExpiry peer tag s := rfl
@[simp] theorem exec_flitTransmit (link : Nat) (vc : Nat) (s : State) : exec (.flitTransmit link vc) s = execFlitTransmit link vc s := rfl
@[simp] theorem exec_flitReceive (link : Nat) (f : Flit) (s : State) : exec (.flitReceive link f) s = execFlitReceive link f s := rfl
@[simp] theorem exec_creditReturn (link : Nat) (vc : Nat) (n : Nat) (s : State) : exec (.creditReturn link vc n) s = execCreditReturn link vc n s := rfl
@[simp] theorem exec_filler (link : Nat) (s : State) : exec (.filler link) s = execFiller link s := rfl
@[simp] theorem exec_retryReplayTimeout (link : Nat) (s : State) : exec (.retryReplayTimeout link) s = execRetryReplayTimeout link s := rfl
@[simp] theorem exec_laneLockLoss (link : Nat) (lane : Nat) (s : State) : exec (.laneLockLoss link lane) s = execLaneLockLoss link lane s := rfl
@[simp] theorem exec_correctedSymbolThreshold (link : Nat) (lane : Nat) (rate : Nat) (s : State) : exec (.correctedSymbolThreshold link lane rate) s = execCorrectedSymbolThreshold link lane rate s := rfl
@[simp] theorem exec_retrainStepComplete (link : Nat) (trained : BitVec 16) (s : State) : exec (.retrainStepComplete link trained) s = execRetrainStepComplete link trained s := rfl
@[simp] theorem exec_heartbeatSend (session : Nat) (s : State) : exec (.heartbeatSend session) s = execHeartbeatSend session s := rfl
@[simp] theorem exec_heartbeat (session : Nat) (s : State) : exec (.heartbeat session) s = execHeartbeat session s := rfl
@[simp] theorem exec_heartbeatTimeout (session : Nat) (s : State) : exec (.heartbeatTimeout session) s = execHeartbeatTimeout session s := rfl
@[simp] theorem exec_flitCounterExhaustion (link : Nat) (s : State) : exec (.flitCounterExhaustion link) s = execFlitCounterExhaustion link s := rfl
@[simp] theorem exec_linkSecretTimeout (link : Nat) (s : State) : exec (.linkSecretTimeout link) s = execLinkSecretTimeout link s := rfl
@[simp] theorem exec_keyPromote (world : Nat) (link : Nat) (s : State) : exec (.keyPromote world link) s = execKeyPromote world link s := rfl
@[simp] theorem exec_reencryptionSweep (world : Nat) (port : Nat) (s : State) : exec (.reencryptionSweep world port) s = execReencryptionSweep world port s := rfl
@[simp] theorem exec_dispatch (s : State) : exec (.dispatch) s = execDispatch s := rfl
@[simp] theorem exec_dependenceCheck (grid : Nat) (s : State) : exec (.dependenceCheck grid) s = execDependenceCheck grid s := rfl
@[simp] theorem exec_gridDoneWrite (grid : Nat) (s : State) : exec (.gridDoneWrite grid) s = execGridDoneWrite grid s := rfl
@[simp] theorem exec_mailboxArrival (binding : Nat) (s : State) : exec (.mailboxArrival binding) s = execMailboxArrival binding s := rfl
@[simp] theorem exec_handlerAccept (binding : Nat) (s : State) : exec (.handlerAccept binding) s = execHandlerAccept binding s := rfl
@[simp] theorem exec_migrationPeriodEnd (s : State) : exec (.migrationPeriodEnd) s = execMigrationPeriodEnd s := rfl
@[simp] theorem exec_lineMigrate (frame : Nat) (s : State) : exec (.lineMigrate frame) s = execLineMigrate frame s := rfl
@[simp] theorem exec_handlerActivation (core : Nat) (s : State) : exec (.handlerActivation core) s = execHandlerActivation core s := rfl
@[simp] theorem exec_preemptionDeadline (task : Nat) (s : State) : exec (.preemptionDeadline task) s = execPreemptionDeadline task s := rfl
@[simp] theorem exec_cooperativeSave (task : Nat) (s : State) : exec (.cooperativeSave task) s = execCooperativeSave task s := rfl
@[simp] theorem exec_forcedSaveComplete (cluster : Nat) (s : State) : exec (.forcedSaveComplete cluster) s = execForcedSaveComplete cluster s := rfl
@[simp] theorem exec_shadowPlaceRelease (die : Nat) (place : Nat) (s : State) : exec (.shadowPlaceRelease die place) s = execShadowPlaceRelease die place s := rfl
@[simp] theorem exec_waitProbe (core : Nat) (slot : Nat) (split : Nat) (s : State) : exec (.waitProbe core slot split) s = execWaitProbe core slot split s := rfl
@[simp] theorem exec_probeForward (probe : Nat) (s : State) : exec (.probeForward probe) s = execProbeForward probe s := rfl
@[simp] theorem exec_wearSample (inputs : List UnitSample) (watts : Nat) (s : State) : exec (.wearSample inputs watts) s = execWearSample inputs watts s := rfl
@[simp] theorem exec_recordCommit (unit : Nat) (s : State) : exec (.recordCommit unit) s = execRecordCommit unit s := rfl
@[simp] theorem exec_fallowEntry (cluster : Nat) (s : State) : exec (.fallowEntry cluster) s = execFallowEntry cluster s := rfl
@[simp] theorem exec_fallowWake (cluster : Nat) (s : State) : exec (.fallowWake cluster) s = execFallowWake cluster s := rfl
@[simp] theorem exec_callupPowerupDone (die : Nat) (s : State) : exec (.callupPowerupDone die) s = execCallupPowerupDone die s := rfl
@[simp] theorem exec_callupSelftestDone (die : Nat) (pass : Bool) (s : State) : exec (.callupSelftestDone die pass) s = execCallupSelftestDone die pass s := rfl
@[simp] theorem exec_callupSave (die : Nat) (s : State) : exec (.callupSave die) s = execCallupSave die s := rfl
@[simp] theorem exec_callupMapUpdate (die : Nat) (s : State) : exec (.callupMapUpdate die) s = execCallupMapUpdate die s := rfl
@[simp] theorem exec_boostGrantEnd (grant : Nat) (s : State) : exec (.boostGrantEnd grant) s = execBoostGrantEnd grant s := rfl
@[simp] theorem exec_drainWindowOpen (change : Nat) (s : State) : exec (.drainWindowOpen change) s = execDrainWindowOpen change s := rfl
@[simp] theorem exec_frequencySwitch (change : Nat) (s : State) : exec (.frequencySwitch change) s = execFrequencySwitch change s := rfl
@[simp] theorem exec_frequencyResume (change : Nat) (s : State) : exec (.frequencyResume change) s = execFrequencyResume change s := rfl
@[simp] theorem exec_timeSyncPulse (s : State) : exec (.timeSyncPulse) s = execTimeSyncPulse s := rfl
@[simp] theorem exec_currentWindow (pair : Nat) (ia : Nat) (ib : Nat) (s : State) : exec (.currentWindow pair ia ib) s = execCurrentWindow pair ia ib s := rfl
@[simp] theorem exec_energyMeasure (cluster : Nat) (uj : EnergyUse) (fillerUj : Nat) (s : State) : exec (.energyMeasure cluster uj fillerUj) s = execEnergyMeasure cluster uj fillerUj s := rfl
@[simp] theorem exec_timeBudgetPeriod (s : State) : exec (.timeBudgetPeriod) s = execTimeBudgetPeriod s := rfl
@[simp] theorem exec_supplyLossWarning (s : State) : exec (.supplyLossWarning) s = execSupplyLossWarning s := rfl
@[simp] theorem exec_fastThrottleAlarm (s : State) : exec (.fastThrottleAlarm) s = execFastThrottleAlarm s := rfl
@[simp] theorem exec_fastThrottleClear (s : State) : exec (.fastThrottleClear) s = execFastThrottleClear s := rfl
@[simp] theorem exec_gatingCommitWindowEnd (cluster : Nat) (s : State) : exec (.gatingCommitWindowEnd cluster) s = execGatingCommitWindowEnd cluster s := rfl
@[simp] theorem exec_worldLatchClearDone (core : Nat) (s : State) : exec (.worldLatchClearDone core) s = execWorldLatchClearDone core s := rfl
@[simp] theorem exec_correctedError (site : ErrSite) (s : State) : exec (.correctedError site) s = execCorrectedError site s := rfl
@[simp] theorem exec_targetedSelfTest (die : Nat) (failed : Nat) (s : State) : exec (.targetedSelfTest die failed) s = execTargetedSelfTest die failed s := rfl
@[simp] theorem exec_uncorrectableError (site : ErrSite) (s : State) : exec (.uncorrectableError site) s = execUncorrectableError site s := rfl
@[simp] theorem exec_scrub (stack : Nat) (s : State) : exec (.scrub stack) s = execScrub stack s := rfl
@[simp] theorem exec_checkpoint (core : Nat) (slot : Nat) (s : State) : exec (.checkpoint core slot) s = execCheckpoint core slot s := rfl
@[simp] theorem exec_reset (s : State) : exec (.reset) s = execReset s := rfl
@[simp] theorem exec_bringupStageComplete (ok : Bool) (s : State) : exec (.bringupStageComplete ok) s = execBringupStageComplete ok s := rfl
@[simp] theorem exec_hostMemoryRequest (m : HostReq) (s : State) : exec (.hostMemoryRequest m) s = execHostMemoryRequest m s := rfl
@[simp] theorem exec_hostAtomicop (m : HostReq) (op : HostAtomic) (s : State) : exec (.hostAtomicop m op) s = execHostAtomicop m op s := rfl
@[simp] theorem exec_hostConfigRequest (fn : Nat) (reg : Nat) (wr : Option (BitVec 32)) (s : State) : exec (.hostConfigRequest fn reg wr) s = execHostConfigRequest fn reg wr s := rfl
@[simp] theorem exec_getMeasurements (nonce : BitVec 384) (world : Nat) (s : State) : exec (.getMeasurements nonce world) s = execGetMeasurements nonce world s := rfl
@[simp] theorem exec_keyExchange (session : Nat) (slot : Nat) (key : BitVec 256) (s : State) : exec (.keyExchange session slot key) s = execKeyExchange session slot key s := rfl
@[simp] theorem exec_finish (session : Nat) (s : State) : exec (.finish session) s = execFinish session s := rfl
@[simp] theorem exec_keyUpdate (link : Nat) (secret : BitVec 384) (s : State) : exec (.keyUpdate link secret) s = execKeyUpdate link secret s := rfl
@[simp] theorem exec_endSession (session : Nat) (s : State) : exec (.endSession session) s = execEndSession session s := rfl
@[simp] theorem exec_lock (session : Nat) (s : State) : exec (.lock session) s = execLock session s := rfl
@[simp] theorem exec_start (session : Nat) (ecdsaOk : Bool) (mldsaOk : Bool) (s : State) : exec (.start session ecdsaOk mldsaOk) s = execStart session ecdsaOk mldsaOk s := rfl
@[simp] theorem exec_stop (session : Nat) (s : State) : exec (.stop session) s = execStop session s := rfl
@[simp] theorem exec_sessionConfigWrite (session : Nat) (s : State) : exec (.sessionConfigWrite session) s = execSessionConfigWrite session s := rfl
@[simp] theorem exec_mgmtReadAbjstat (c : Cmd) (s : State) : exec (.mgmtReadAbjstat c) s = execMgmtReadAbjstat c s := rfl
@[simp] theorem exec_mgmtReadErrorLog (c : Cmd) (s : State) : exec (.mgmtReadErrorLog c) s = execMgmtReadErrorLog c s := rfl
@[simp] theorem exec_mgmtReadTimeBudget (c : Cmd) (s : State) : exec (.mgmtReadTimeBudget c) s = execMgmtReadTimeBudget c s := rfl
@[simp] theorem exec_mgmtReadMixedAtomicCounter (c : Cmd) (s : State) : exec (.mgmtReadMixedAtomicCounter c) s = execMgmtReadMixedAtomicCounter c s := rfl
@[simp] theorem exec_mgmtReadParameter (c : Cmd) (s : State) : exec (.mgmtReadParameter c) s = execMgmtReadParameter c s := rfl
@[simp] theorem exec_mgmtReadFrameWorldEntry (c : Cmd) (s : State) : exec (.mgmtReadFrameWorldEntry c) s = execMgmtReadFrameWorldEntry c s := rfl
@[simp] theorem exec_mgmtReadRouteEntry (c : Cmd) (s : State) : exec (.mgmtReadRouteEntry c) s = execMgmtReadRouteEntry c s := rfl
@[simp] theorem exec_setTimeBudget (c : Cmd) (s : State) : exec (.setTimeBudget c) s = execSetTimeBudget c s := rfl
@[simp] theorem exec_frameAssign (c : Cmd) (s : State) : exec (.frameAssign c) s = execFrameAssign c s := rfl
@[simp] theorem exec_frameUnassign (c : Cmd) (s : State) : exec (.frameUnassign c) s = execFrameUnassign c s := rfl
@[simp] theorem exec_setHandlerTableEntry (c : Cmd) (s : State) : exec (.setHandlerTableEntry c) s = execSetHandlerTableEntry c s := rfl
@[simp] theorem exec_killWaitCycle (c : Cmd) (s : State) : exec (.killWaitCycle c) s = execKillWaitCycle c s := rfl
@[simp] theorem exec_reformatFrameGranule (c : Cmd) (s : State) : exec (.reformatFrameGranule c) s = execReformatFrameGranule c s := rfl
@[simp] theorem exec_setRouteTable (c : Cmd) (s : State) : exec (.setRouteTable c) s = execSetRouteTable c s := rfl
@[simp] theorem exec_setAttestationPolicy (c : Cmd) (s : State) : exec (.setAttestationPolicy c) s = execSetAttestationPolicy c s := rfl
@[simp] theorem exec_setOwnerWindow (c : Cmd) (s : State) : exec (.setOwnerWindow c) s = execSetOwnerWindow c s := rfl
@[simp] theorem exec_setPortConfiguration (c : Cmd) (s : State) : exec (.setPortConfiguration c) s = execSetPortConfiguration c s := rfl
@[simp] theorem exec_postTicketOutcome (c : Cmd) (s : State) : exec (.postTicketOutcome c) s = execPostTicketOutcome c s := rfl
@[simp] theorem exec_installBootBinding (c : Cmd) (s : State) : exec (.installBootBinding c) s = execInstallBootBinding c s := rfl
@[simp] theorem exec_setParameter (c : Cmd) (s : State) : exec (.setParameter c) s = execSetParameter c s := rfl
@[simp] theorem exec_mgmtPreemptionRequest (c : Cmd) (s : State) : exec (.mgmtPreemptionRequest c) s = execMgmtPreemptionRequest c s := rfl
@[simp] theorem exec_mgmtPreemptionWithdraw (c : Cmd) (s : State) : exec (.mgmtPreemptionWithdraw c) s = execMgmtPreemptionWithdraw c s := rfl
@[simp] theorem exec_resetPort (c : Cmd) (s : State) : exec (.resetPort c) s = execResetPort c s := rfl
@[simp] theorem exec_mgmtUnassignedOp (c : Cmd) (s : State) : exec (.mgmtUnassignedOp c) s = execMgmtUnassignedOp c s := rfl
@[simp] theorem exec_instructionFetch (core : Nat) (pa : Nat) (spec : Bool) (s : State) : exec (.instructionFetch core pa spec) s = execInstructionFetch core pa spec s := rfl
@[simp] theorem exec_cxlCompleterAck (op : Nat) (s : State) : exec (.cxlCompleterAck op) s = execCxlCompleterAck op s := rfl
@[simp] theorem exec_allotmentClearDone (task : Nat) (s : State) : exec (.allotmentClearDone task) s = execAllotmentClearDone task s := rfl
@[simp] theorem exec_contextRestoreComplete (cluster : Nat) (s : State) : exec (.contextRestoreComplete cluster) s = execContextRestoreComplete cluster s := rfl
@[simp] theorem exec_commandComplete (s : State) : exec (.commandComplete) s = execCommandComplete s := rfl
@[simp] theorem exec_hostLinkRecovery (width : Nat) (gts : Nat) (s : State) : exec (.hostLinkRecovery width gts) s = execHostLinkRecovery width gts s := rfl

end Sys2Proof.Machine
end

