-- ==== Sys2Proof/Laws/State.lean ====
section
/-! SUPPORT. What each update of the state leaves and sets, field by field; every line holds by rfl. -/

namespace Sys2Proof.Machine

/-! ## The whole state -/

@[simp] theorem State.modDev_dev (s : State) (f : Dev → Dev) : (s.modDev f).dev = f s.dev := rfl
@[simp] theorem State.modIss_dev (s : State) (f : Issue → Issue) : (s.modIss f).dev = s.dev := rfl
@[simp] theorem State.modGrp_dev (s : State) (f : Group → Group) : (s.modGrp f).dev = s.dev.modGroup s.iss.core s.iss.slot f := rfl
@[simp] theorem State.wrS_dev (s : State) (r : SReg) (x : W64) : (s.wrS r x).dev = s.dev.modGroup s.iss.core s.iss.slot (fun g => { g with regs := g.regs.writeS r.toNat x }) := rfl
@[simp] theorem State.wrF_dev (s : State) (r : FReg) (b : Bool) : (s.wrF r b).dev = s.dev.modGroup s.iss.core s.iss.slot (fun g => { g with regs := g.regs.writeF r.toNat b }) := rfl
@[simp] theorem State.wrP_dev (s : State) (r : PReg) (m v : W32) : (s.wrP r m v).dev = s.dev.modGroup s.iss.core s.iss.slot (fun g => { g with regs := g.regs.writePLanes r.toNat m v }) := rfl
@[simp] theorem State.wrV_dev (s : State) (r : VReg) (m : W32) (f : Nat → W32) : (s.wrV r m f).dev = s.dev.modGroup s.iss.core s.iss.slot (fun g => { g with regs := g.regs.writeVLanes r.toNat (lanesOf m) f }) := rfl
@[simp] theorem State.raiseFlags_dev (s : State) (x : Flags) : (s.raiseFlags x).dev = s.dev := rfl
@[simp] theorem State.park_dev (s : State) (p : Park) : (s.park p).dev = s.dev := rfl
@[simp] theorem State.modDev_iss (s : State) (f : Dev → Dev) : (s.modDev f).iss = s.iss := rfl
@[simp] theorem State.modIss_iss (s : State) (f : Issue → Issue) : (s.modIss f).iss = f s.iss := rfl
@[simp] theorem State.modGrp_iss (s : State) (f : Group → Group) : (s.modGrp f).iss = s.iss := rfl
@[simp] theorem State.wrS_iss (s : State) (r : SReg) (x : W64) : (s.wrS r x).iss = s.iss := rfl
@[simp] theorem State.wrF_iss (s : State) (r : FReg) (b : Bool) : (s.wrF r b).iss = s.iss := rfl
@[simp] theorem State.wrP_iss (s : State) (r : PReg) (m v : W32) : (s.wrP r m v).iss = s.iss := rfl
@[simp] theorem State.wrV_iss (s : State) (r : VReg) (m : W32) (f : Nat → W32) : (s.wrV r m f).iss = s.iss := rfl
@[simp] theorem State.modDev_agenda (s : State) (f : Dev → Dev) : (s.modDev f).agenda = s.agenda := rfl
@[simp] theorem State.modIss_agenda (s : State) (f : Issue → Issue) : (s.modIss f).agenda = s.agenda := rfl
@[simp] theorem State.modGrp_agenda (s : State) (f : Group → Group) : (s.modGrp f).agenda = s.agenda := rfl
@[simp] theorem State.wrS_agenda (s : State) (r : SReg) (x : W64) : (s.wrS r x).agenda = s.agenda := rfl
@[simp] theorem State.wrF_agenda (s : State) (r : FReg) (b : Bool) : (s.wrF r b).agenda = s.agenda := rfl
@[simp] theorem State.wrP_agenda (s : State) (r : PReg) (m v : W32) : (s.wrP r m v).agenda = s.agenda := rfl
@[simp] theorem State.wrV_agenda (s : State) (r : VReg) (m : W32) (f : Nat → W32) : (s.wrV r m f).agenda = s.agenda := rfl
@[simp] theorem State.raiseFlags_agenda (s : State) (x : Flags) : (s.raiseFlags x).agenda = s.agenda := rfl
@[simp] theorem State.park_agenda (s : State) (p : Park) : (s.park p).agenda = s.agenda := rfl
@[simp] theorem State.modDev_pick (s : State) (f : Dev → Dev) : (s.modDev f).pick = s.pick := rfl
@[simp] theorem State.modIss_pick (s : State) (f : Issue → Issue) : (s.modIss f).pick = s.pick := rfl
@[simp] theorem State.modGrp_pick (s : State) (f : Group → Group) : (s.modGrp f).pick = s.pick := rfl
@[simp] theorem State.wrS_pick (s : State) (r : SReg) (x : W64) : (s.wrS r x).pick = s.pick := rfl
@[simp] theorem State.wrF_pick (s : State) (r : FReg) (b : Bool) : (s.wrF r b).pick = s.pick := rfl
@[simp] theorem State.wrP_pick (s : State) (r : PReg) (m v : W32) : (s.wrP r m v).pick = s.pick := rfl
@[simp] theorem State.wrV_pick (s : State) (r : VReg) (m : W32) (f : Nat → W32) : (s.wrV r m f).pick = s.pick := rfl
@[simp] theorem State.raiseFlags_pick (s : State) (x : Flags) : (s.raiseFlags x).pick = s.pick := rfl
@[simp] theorem State.park_pick (s : State) (p : Park) : (s.park p).pick = s.pick := rfl
@[simp] theorem State.raiseFlags_iss (s : State) (x : Flags) : (s.raiseFlags x).iss = { s.iss with raised := s.iss.raised ||| x } := rfl
@[simp] theorem State.park_iss (s : State) (p : Park) : (s.park p).iss = { s.iss with parks := s.iss.parks ++ [p] } := rfl
@[simp] theorem State.takeTrap_agenda (s : State) (t : TrapInfo) : (s.takeTrap t).agenda = s.agenda := rfl
@[simp] theorem State.stall_agenda (s : State) (p : Park) (f : Dev → Dev) : (s.stall p f).agenda = s.agenda := rfl
@[simp] theorem State.takeTrap_pick (s : State) (t : TrapInfo) : (s.takeTrap t).pick = s.pick := rfl
@[simp] theorem State.stall_pick (s : State) (p : Park) (f : Dev → Dev) : (s.stall p f).pick = s.pick := rfl
@[simp] theorem State.takeTrap_iss (s : State) (t : TrapInfo) : (s.takeTrap t).iss = Issue.closed := rfl
@[simp] theorem State.takeTrap_dev (s : State) (t : TrapInfo) : (s.takeTrap t).dev = s.rollback.raiseTrap s.iss.core s.iss.slot s.iss.split s.iss.mask s.iss.pos t := rfl
@[simp] theorem State.stall_iss (s : State) (p : Park) (f : Dev → Dev) : (s.stall p f).iss = Issue.closed := rfl

/-! ## The device -/

@[simp] theorem Dev.setGroup_time (d : Dev) (c sl : Nat) (g : Group) : (d.setGroup c sl g).time = d.time := rfl
@[simp] theorem Dev.setGroup_groups (d : Dev) (c sl : Nat) (g : Group) : (d.setGroup c sl g).groups = Tab.insert d.groups (gkey c sl) g := rfl
@[simp] theorem Dev.setGroup_tasks (d : Dev) (c sl : Nat) (g : Group) : (d.setGroup c sl g).tasks = d.tasks := rfl
@[simp] theorem Dev.setGroup_grids (d : Dev) (c sl : Nat) (g : Group) : (d.setGroup c sl g).grids = d.grids := rfl
@[simp] theorem Dev.setGroup_gangs (d : Dev) (c sl : Nat) (g : Group) : (d.setGroup c sl g).gangs = d.gangs := rfl
@[simp] theorem Dev.setGroup_ops (d : Dev) (c sl : Nat) (g : Group) : (d.setGroup c sl g).ops = d.ops := rfl
@[simp] theorem Dev.setGroup_cores (d : Dev) (c sl : Nat) (g : Group) : (d.setGroup c sl g).cores = d.cores := rfl
@[simp] theorem Dev.setGroup_pairs (d : Dev) (c sl : Nat) (g : Group) : (d.setGroup c sl g).pairs = d.pairs := rfl
@[simp] theorem Dev.setGroup_clusters (d : Dev) (c sl : Nat) (g : Group) : (d.setGroup c sl g).clusters = d.clusters := rfl
@[simp] theorem Dev.setGroup_dies (d : Dev) (c sl : Nat) (g : Group) : (d.setGroup c sl g).dies = d.dies := rfl
@[simp] theorem Dev.setGroup_hbm (d : Dev) (c sl : Nat) (g : Group) : (d.setGroup c sl g).hbm = d.hbm := rfl
@[simp] theorem Dev.setGroup_cxl (d : Dev) (c sl : Nat) (g : Group) : (d.setGroup c sl g).cxl = d.cxl := rfl
@[simp] theorem Dev.setGroup_kmem (d : Dev) (c sl : Nat) (g : Group) : (d.setGroup c sl g).kmem = d.kmem := rfl
@[simp] theorem Dev.setGroup_frames (d : Dev) (c sl : Nat) (g : Group) : (d.setGroup c sl g).frames = d.frames := rfl
@[simp] theorem Dev.setGroup_kframes (d : Dev) (c sl : Nat) (g : Group) : (d.setGroup c sl g).kframes = d.kframes := rfl
@[simp] theorem Dev.setGroup_poison (d : Dev) (c sl : Nat) (g : Group) : (d.setGroup c sl g).poison = d.poison := rfl
@[simp] theorem Dev.setGroup_raw (d : Dev) (c sl : Nat) (g : Group) : (d.setGroup c sl g).raw = d.raw := rfl
@[simp] theorem Dev.setGroup_lineWriter (d : Dev) (c sl : Nat) (g : Group) : (d.setGroup c sl g).lineWriter = d.lineWriter := rfl
@[simp] theorem Dev.setGroup_queues (d : Dev) (c sl : Nat) (g : Group) : (d.setGroup c sl g).queues = d.queues := rfl
@[simp] theorem Dev.setGroup_boxes (d : Dev) (c sl : Nat) (g : Group) : (d.setGroup c sl g).boxes = d.boxes := rfl
@[simp] theorem Dev.setGroup_tokens (d : Dev) (c sl : Nat) (g : Group) : (d.setGroup c sl g).tokens = d.tokens := rfl
@[simp] theorem Dev.setGroup_keys (d : Dev) (c sl : Nat) (g : Group) : (d.setGroup c sl g).keys = d.keys := rfl
@[simp] theorem Dev.setGroup_links (d : Dev) (c sl : Nat) (g : Group) : (d.setGroup c sl g).links = d.links := rfl
@[simp] theorem Dev.setGroup_sessions (d : Dev) (c sl : Nat) (g : Group) : (d.setGroup c sl g).sessions = d.sessions := rfl
@[simp] theorem Dev.setGroup_windows (d : Dev) (c sl : Nat) (g : Group) : (d.setGroup c sl g).windows = d.windows := rfl
@[simp] theorem Dev.setGroup_owned (d : Dev) (c sl : Nat) (g : Group) : (d.setGroup c sl g).owned = d.owned := rfl
@[simp] theorem Dev.setGroup_posted (d : Dev) (c sl : Nat) (g : Group) : (d.setGroup c sl g).posted = d.posted := rfl
@[simp] theorem Dev.setGroup_requests (d : Dev) (c sl : Nat) (g : Group) : (d.setGroup c sl g).requests = d.requests := rfl
@[simp] theorem Dev.setGroup_performedTags (d : Dev) (c sl : Nat) (g : Group) : (d.setGroup c sl g).performedTags = d.performedTags := rfl
@[simp] theorem Dev.setGroup_stranded (d : Dev) (c sl : Nat) (g : Group) : (d.setGroup c sl g).stranded = d.stranded := rfl
@[simp] theorem Dev.setGroup_routes (d : Dev) (c sl : Nat) (g : Group) : (d.setGroup c sl g).routes = d.routes := rfl
@[simp] theorem Dev.setGroup_policy (d : Dev) (c sl : Nat) (g : Group) : (d.setGroup c sl g).policy = d.policy := rfl
@[simp] theorem Dev.setGroup_scrubAt (d : Dev) (c sl : Nat) (g : Group) : (d.setGroup c sl g).scrubAt = d.scrubAt := rfl
@[simp] theorem Dev.setGroup_gangMode (d : Dev) (c sl : Nat) (g : Group) : (d.setGroup c sl g).gangMode = d.gangMode := rfl
@[simp] theorem Dev.setGroup_peerId (d : Dev) (c sl : Nat) (g : Group) : (d.setGroup c sl g).peerId = d.peerId := rfl
@[simp] theorem Dev.setGroup_sweeps (d : Dev) (c sl : Nat) (g : Group) : (d.setGroup c sl g).sweeps = d.sweeps := rfl
@[simp] theorem Dev.setGroup_expelled (d : Dev) (c sl : Nat) (g : Group) : (d.setGroup c sl g).expelled = d.expelled := rfl
@[simp] theorem Dev.setGroup_wear (d : Dev) (c sl : Nat) (g : Group) : (d.setGroup c sl g).wear = d.wear := rfl
@[simp] theorem Dev.setGroup_wearMram (d : Dev) (c sl : Nat) (g : Group) : (d.setGroup c sl g).wearMram = d.wearMram := rfl
@[simp] theorem Dev.setGroup_commitDue (d : Dev) (c sl : Nat) (g : Group) : (d.setGroup c sl g).commitDue = d.commitDue := rfl
@[simp] theorem Dev.setGroup_target (d : Dev) (c sl : Nat) (g : Group) : (d.setGroup c sl g).target = d.target := rfl
@[simp] theorem Dev.setGroup_lifeNow (d : Dev) (c sl : Nat) (g : Group) : (d.setGroup c sl g).lifeNow = d.lifeNow := rfl
@[simp] theorem Dev.setGroup_serviceMs (d : Dev) (c sl : Nat) (g : Group) : (d.setGroup c sl g).serviceMs = d.serviceMs := rfl
@[simp] theorem Dev.setGroup_grants (d : Dev) (c sl : Nat) (g : Group) : (d.setGroup c sl g).grants = d.grants := rfl
@[simp] theorem Dev.setGroup_lastGrant (d : Dev) (c sl : Nat) (g : Group) : (d.setGroup c sl g).lastGrant = d.lastGrant := rfl
@[simp] theorem Dev.setGroup_changes (d : Dev) (c sl : Nat) (g : Group) : (d.setGroup c sl g).changes = d.changes := rfl
@[simp] theorem Dev.setGroup_throttled (d : Dev) (c sl : Nat) (g : Group) : (d.setGroup c sl g).throttled = d.throttled := rfl
@[simp] theorem Dev.setGroup_throttleClear (d : Dev) (c sl : Nat) (g : Group) : (d.setGroup c sl g).throttleClear = d.throttleClear := rfl
@[simp] theorem Dev.setGroup_powerW (d : Dev) (c sl : Nat) (g : Group) : (d.setGroup c sl g).powerW = d.powerW := rfl
@[simp] theorem Dev.setGroup_budgets (d : Dev) (c sl : Nat) (g : Group) : (d.setGroup c sl g).budgets = d.budgets := rfl
@[simp] theorem Dev.setGroup_spent (d : Dev) (c sl : Nat) (g : Group) : (d.setGroup c sl g).spent = d.spent := rfl
@[simp] theorem Dev.setGroup_period (d : Dev) (c sl : Nat) (g : Group) : (d.setGroup c sl g).period = d.period := rfl
@[simp] theorem Dev.setGroup_params (d : Dev) (c sl : Nat) (g : Group) : (d.setGroup c sl g).params = d.params := rfl
@[simp] theorem Dev.setGroup_handlers (d : Dev) (c sl : Nat) (g : Group) : (d.setGroup c sl g).handlers = d.handlers := rfl
@[simp] theorem Dev.setGroup_log (d : Dev) (c sl : Nat) (g : Group) : (d.setGroup c sl g).log = d.log := rfl
@[simp] theorem Dev.setGroup_logCounts (d : Dev) (c sl : Nat) (g : Group) : (d.setGroup c sl g).logCounts = d.logCounts := rfl
@[simp] theorem Dev.setGroup_repairs (d : Dev) (c sl : Nat) (g : Group) : (d.setGroup c sl g).repairs = d.repairs := rfl
@[simp] theorem Dev.setGroup_remapped (d : Dev) (c sl : Nat) (g : Group) : (d.setGroup c sl g).remapped = d.remapped := rfl
@[simp] theorem Dev.setGroup_probes (d : Dev) (c sl : Nat) (g : Group) : (d.setGroup c sl g).probes = d.probes := rfl
@[simp] theorem Dev.setGroup_mgmt (d : Dev) (c sl : Nat) (g : Group) : (d.setGroup c sl g).mgmt = d.mgmt := rfl
@[simp] theorem Dev.setGroup_host (d : Dev) (c sl : Nat) (g : Group) : (d.setGroup c sl g).host = d.host := rfl
@[simp] theorem Dev.setGroup_marker (d : Dev) (c sl : Nat) (g : Group) : (d.setGroup c sl g).marker = d.marker := rfl
@[simp] theorem Dev.setGroup_stopped (d : Dev) (c sl : Nat) (g : Group) : (d.setGroup c sl g).stopped = d.stopped := rfl
@[simp] theorem Dev.setGroup_evidence (d : Dev) (c sl : Nat) (g : Group) : (d.setGroup c sl g).evidence = d.evidence := rfl
@[simp] theorem Dev.setGroup_nextLaunch (d : Dev) (c sl : Nat) (g : Group) : (d.setGroup c sl g).nextLaunch = d.nextLaunch := rfl
@[simp] theorem Dev.setGroup_nextTask (d : Dev) (c sl : Nat) (g : Group) : (d.setGroup c sl g).nextTask = d.nextTask := rfl
@[simp] theorem Dev.setGroup_nextOp (d : Dev) (c sl : Nat) (g : Group) : (d.setGroup c sl g).nextOp = d.nextOp := rfl
@[simp] theorem Dev.setGroup_nextTag (d : Dev) (c sl : Nat) (g : Group) : (d.setGroup c sl g).nextTag = d.nextTag := rfl
@[simp] theorem Dev.setGroup_nextTicket (d : Dev) (c sl : Nat) (g : Group) : (d.setGroup c sl g).nextTicket = d.nextTicket := rfl
@[simp] theorem Dev.setGroup_moves (d : Dev) (c sl : Nat) (g : Group) : (d.setGroup c sl g).moves = d.moves := rfl
@[simp] theorem Dev.setGroup_l2 (d : Dev) (c sl : Nat) (g : Group) : (d.setGroup c sl g).l2 = d.l2 := rfl
@[simp] theorem Dev.setGroup_hostCopies (d : Dev) (c sl : Nat) (g : Group) : (d.setGroup c sl g).hostCopies = d.hostCopies := rfl
@[simp] theorem Dev.setGroup_lastTicket (d : Dev) (c sl : Nat) (g : Group) : (d.setGroup c sl g).lastTicket = d.lastTicket := rfl
@[simp] theorem Dev.setGroup_nextOrder (d : Dev) (c sl : Nat) (g : Group) : (d.setGroup c sl g).nextOrder = d.nextOrder := rfl
@[simp] theorem Dev.setGroup_nextProbe (d : Dev) (c sl : Nat) (g : Group) : (d.setGroup c sl g).nextProbe = d.nextProbe := rfl
@[simp] theorem Dev.setGroup_nextChange (d : Dev) (c sl : Nat) (g : Group) : (d.setGroup c sl g).nextChange = d.nextChange := rfl
@[simp] theorem Dev.setGroup_nextEntry (d : Dev) (c sl : Nat) (g : Group) : (d.setGroup c sl g).nextEntry = d.nextEntry := rfl
@[simp] theorem Dev.setGroup_ageTime (d : Dev) (c sl : Nat) (g : Group) : (d.setGroup c sl g).ageTime = d.ageTime := rfl
@[simp] theorem Dev.setGroup_ageSeq (d : Dev) (c sl : Nat) (g : Group) : (d.setGroup c sl g).ageSeq = d.ageSeq := rfl
@[simp] theorem Dev.setGroup_turn (d : Dev) (c sl : Nat) (g : Group) : (d.setGroup c sl g).turn = d.turn := rfl
@[simp] theorem Dev.setGroup_alarmAt (d : Dev) (c sl : Nat) (g : Group) : (d.setGroup c sl g).alarmAt = d.alarmAt := rfl
@[simp] theorem Dev.setGroup_busy (d : Dev) (c sl : Nat) (g : Group) : (d.setGroup c sl g).busy = d.busy := rfl
@[simp] theorem Dev.setGroup_sampled (d : Dev) (c sl : Nat) (g : Group) : (d.setGroup c sl g).sampled = d.sampled := rfl
@[simp] theorem Dev.setGroup_sampledAt (d : Dev) (c sl : Nat) (g : Group) : (d.setGroup c sl g).sampledAt = d.sampledAt := rfl
@[simp] theorem Dev.setGroup_cxlCounts (d : Dev) (c sl : Nat) (g : Group) : (d.setGroup c sl g).cxlCounts = d.cxlCounts := rfl
@[simp] theorem Dev.setGroup_fresh (d : Dev) (c sl : Nat) (g : Group) : (d.setGroup c sl g).fresh = d.fresh := rfl
@[simp] theorem Dev.modGroup_time (d : Dev) (c sl : Nat) (f : Group → Group) : (d.modGroup c sl f).time = d.time := rfl
@[simp] theorem Dev.modGroup_groups (d : Dev) (c sl : Nat) (f : Group → Group) : (d.modGroup c sl f).groups = Tab.modify d.groups (gkey c sl) f := rfl
@[simp] theorem Dev.modGroup_tasks (d : Dev) (c sl : Nat) (f : Group → Group) : (d.modGroup c sl f).tasks = d.tasks := rfl
@[simp] theorem Dev.modGroup_grids (d : Dev) (c sl : Nat) (f : Group → Group) : (d.modGroup c sl f).grids = d.grids := rfl
@[simp] theorem Dev.modGroup_gangs (d : Dev) (c sl : Nat) (f : Group → Group) : (d.modGroup c sl f).gangs = d.gangs := rfl
@[simp] theorem Dev.modGroup_ops (d : Dev) (c sl : Nat) (f : Group → Group) : (d.modGroup c sl f).ops = d.ops := rfl
@[simp] theorem Dev.modGroup_cores (d : Dev) (c sl : Nat) (f : Group → Group) : (d.modGroup c sl f).cores = d.cores := rfl
@[simp] theorem Dev.modGroup_pairs (d : Dev) (c sl : Nat) (f : Group → Group) : (d.modGroup c sl f).pairs = d.pairs := rfl
@[simp] theorem Dev.modGroup_clusters (d : Dev) (c sl : Nat) (f : Group → Group) : (d.modGroup c sl f).clusters = d.clusters := rfl
@[simp] theorem Dev.modGroup_dies (d : Dev) (c sl : Nat) (f : Group → Group) : (d.modGroup c sl f).dies = d.dies := rfl
@[simp] theorem Dev.modGroup_hbm (d : Dev) (c sl : Nat) (f : Group → Group) : (d.modGroup c sl f).hbm = d.hbm := rfl
@[simp] theorem Dev.modGroup_cxl (d : Dev) (c sl : Nat) (f : Group → Group) : (d.modGroup c sl f).cxl = d.cxl := rfl
@[simp] theorem Dev.modGroup_kmem (d : Dev) (c sl : Nat) (f : Group → Group) : (d.modGroup c sl f).kmem = d.kmem := rfl
@[simp] theorem Dev.modGroup_frames (d : Dev) (c sl : Nat) (f : Group → Group) : (d.modGroup c sl f).frames = d.frames := rfl
@[simp] theorem Dev.modGroup_kframes (d : Dev) (c sl : Nat) (f : Group → Group) : (d.modGroup c sl f).kframes = d.kframes := rfl
@[simp] theorem Dev.modGroup_poison (d : Dev) (c sl : Nat) (f : Group → Group) : (d.modGroup c sl f).poison = d.poison := rfl
@[simp] theorem Dev.modGroup_raw (d : Dev) (c sl : Nat) (f : Group → Group) : (d.modGroup c sl f).raw = d.raw := rfl
@[simp] theorem Dev.modGroup_lineWriter (d : Dev) (c sl : Nat) (f : Group → Group) : (d.modGroup c sl f).lineWriter = d.lineWriter := rfl
@[simp] theorem Dev.modGroup_queues (d : Dev) (c sl : Nat) (f : Group → Group) : (d.modGroup c sl f).queues = d.queues := rfl
@[simp] theorem Dev.modGroup_boxes (d : Dev) (c sl : Nat) (f : Group → Group) : (d.modGroup c sl f).boxes = d.boxes := rfl
@[simp] theorem Dev.modGroup_tokens (d : Dev) (c sl : Nat) (f : Group → Group) : (d.modGroup c sl f).tokens = d.tokens := rfl
@[simp] theorem Dev.modGroup_keys (d : Dev) (c sl : Nat) (f : Group → Group) : (d.modGroup c sl f).keys = d.keys := rfl
@[simp] theorem Dev.modGroup_links (d : Dev) (c sl : Nat) (f : Group → Group) : (d.modGroup c sl f).links = d.links := rfl
@[simp] theorem Dev.modGroup_sessions (d : Dev) (c sl : Nat) (f : Group → Group) : (d.modGroup c sl f).sessions = d.sessions := rfl
@[simp] theorem Dev.modGroup_windows (d : Dev) (c sl : Nat) (f : Group → Group) : (d.modGroup c sl f).windows = d.windows := rfl
@[simp] theorem Dev.modGroup_owned (d : Dev) (c sl : Nat) (f : Group → Group) : (d.modGroup c sl f).owned = d.owned := rfl
@[simp] theorem Dev.modGroup_posted (d : Dev) (c sl : Nat) (f : Group → Group) : (d.modGroup c sl f).posted = d.posted := rfl
@[simp] theorem Dev.modGroup_requests (d : Dev) (c sl : Nat) (f : Group → Group) : (d.modGroup c sl f).requests = d.requests := rfl
@[simp] theorem Dev.modGroup_performedTags (d : Dev) (c sl : Nat) (f : Group → Group) : (d.modGroup c sl f).performedTags = d.performedTags := rfl
@[simp] theorem Dev.modGroup_stranded (d : Dev) (c sl : Nat) (f : Group → Group) : (d.modGroup c sl f).stranded = d.stranded := rfl
@[simp] theorem Dev.modGroup_routes (d : Dev) (c sl : Nat) (f : Group → Group) : (d.modGroup c sl f).routes = d.routes := rfl
@[simp] theorem Dev.modGroup_policy (d : Dev) (c sl : Nat) (f : Group → Group) : (d.modGroup c sl f).policy = d.policy := rfl
@[simp] theorem Dev.modGroup_scrubAt (d : Dev) (c sl : Nat) (f : Group → Group) : (d.modGroup c sl f).scrubAt = d.scrubAt := rfl
@[simp] theorem Dev.modGroup_gangMode (d : Dev) (c sl : Nat) (f : Group → Group) : (d.modGroup c sl f).gangMode = d.gangMode := rfl
@[simp] theorem Dev.modGroup_peerId (d : Dev) (c sl : Nat) (f : Group → Group) : (d.modGroup c sl f).peerId = d.peerId := rfl
@[simp] theorem Dev.modGroup_sweeps (d : Dev) (c sl : Nat) (f : Group → Group) : (d.modGroup c sl f).sweeps = d.sweeps := rfl
@[simp] theorem Dev.modGroup_expelled (d : Dev) (c sl : Nat) (f : Group → Group) : (d.modGroup c sl f).expelled = d.expelled := rfl
@[simp] theorem Dev.modGroup_wear (d : Dev) (c sl : Nat) (f : Group → Group) : (d.modGroup c sl f).wear = d.wear := rfl
@[simp] theorem Dev.modGroup_wearMram (d : Dev) (c sl : Nat) (f : Group → Group) : (d.modGroup c sl f).wearMram = d.wearMram := rfl
@[simp] theorem Dev.modGroup_commitDue (d : Dev) (c sl : Nat) (f : Group → Group) : (d.modGroup c sl f).commitDue = d.commitDue := rfl
@[simp] theorem Dev.modGroup_target (d : Dev) (c sl : Nat) (f : Group → Group) : (d.modGroup c sl f).target = d.target := rfl
@[simp] theorem Dev.modGroup_lifeNow (d : Dev) (c sl : Nat) (f : Group → Group) : (d.modGroup c sl f).lifeNow = d.lifeNow := rfl
@[simp] theorem Dev.modGroup_serviceMs (d : Dev) (c sl : Nat) (f : Group → Group) : (d.modGroup c sl f).serviceMs = d.serviceMs := rfl
@[simp] theorem Dev.modGroup_grants (d : Dev) (c sl : Nat) (f : Group → Group) : (d.modGroup c sl f).grants = d.grants := rfl
@[simp] theorem Dev.modGroup_lastGrant (d : Dev) (c sl : Nat) (f : Group → Group) : (d.modGroup c sl f).lastGrant = d.lastGrant := rfl
@[simp] theorem Dev.modGroup_changes (d : Dev) (c sl : Nat) (f : Group → Group) : (d.modGroup c sl f).changes = d.changes := rfl
@[simp] theorem Dev.modGroup_throttled (d : Dev) (c sl : Nat) (f : Group → Group) : (d.modGroup c sl f).throttled = d.throttled := rfl
@[simp] theorem Dev.modGroup_throttleClear (d : Dev) (c sl : Nat) (f : Group → Group) : (d.modGroup c sl f).throttleClear = d.throttleClear := rfl
@[simp] theorem Dev.modGroup_powerW (d : Dev) (c sl : Nat) (f : Group → Group) : (d.modGroup c sl f).powerW = d.powerW := rfl
@[simp] theorem Dev.modGroup_budgets (d : Dev) (c sl : Nat) (f : Group → Group) : (d.modGroup c sl f).budgets = d.budgets := rfl
@[simp] theorem Dev.modGroup_spent (d : Dev) (c sl : Nat) (f : Group → Group) : (d.modGroup c sl f).spent = d.spent := rfl
@[simp] theorem Dev.modGroup_period (d : Dev) (c sl : Nat) (f : Group → Group) : (d.modGroup c sl f).period = d.period := rfl
@[simp] theorem Dev.modGroup_params (d : Dev) (c sl : Nat) (f : Group → Group) : (d.modGroup c sl f).params = d.params := rfl
@[simp] theorem Dev.modGroup_handlers (d : Dev) (c sl : Nat) (f : Group → Group) : (d.modGroup c sl f).handlers = d.handlers := rfl
@[simp] theorem Dev.modGroup_log (d : Dev) (c sl : Nat) (f : Group → Group) : (d.modGroup c sl f).log = d.log := rfl
@[simp] theorem Dev.modGroup_logCounts (d : Dev) (c sl : Nat) (f : Group → Group) : (d.modGroup c sl f).logCounts = d.logCounts := rfl
@[simp] theorem Dev.modGroup_repairs (d : Dev) (c sl : Nat) (f : Group → Group) : (d.modGroup c sl f).repairs = d.repairs := rfl
@[simp] theorem Dev.modGroup_remapped (d : Dev) (c sl : Nat) (f : Group → Group) : (d.modGroup c sl f).remapped = d.remapped := rfl
@[simp] theorem Dev.modGroup_probes (d : Dev) (c sl : Nat) (f : Group → Group) : (d.modGroup c sl f).probes = d.probes := rfl
@[simp] theorem Dev.modGroup_mgmt (d : Dev) (c sl : Nat) (f : Group → Group) : (d.modGroup c sl f).mgmt = d.mgmt := rfl
@[simp] theorem Dev.modGroup_host (d : Dev) (c sl : Nat) (f : Group → Group) : (d.modGroup c sl f).host = d.host := rfl
@[simp] theorem Dev.modGroup_marker (d : Dev) (c sl : Nat) (f : Group → Group) : (d.modGroup c sl f).marker = d.marker := rfl
@[simp] theorem Dev.modGroup_stopped (d : Dev) (c sl : Nat) (f : Group → Group) : (d.modGroup c sl f).stopped = d.stopped := rfl
@[simp] theorem Dev.modGroup_evidence (d : Dev) (c sl : Nat) (f : Group → Group) : (d.modGroup c sl f).evidence = d.evidence := rfl
@[simp] theorem Dev.modGroup_nextLaunch (d : Dev) (c sl : Nat) (f : Group → Group) : (d.modGroup c sl f).nextLaunch = d.nextLaunch := rfl
@[simp] theorem Dev.modGroup_nextTask (d : Dev) (c sl : Nat) (f : Group → Group) : (d.modGroup c sl f).nextTask = d.nextTask := rfl
@[simp] theorem Dev.modGroup_nextOp (d : Dev) (c sl : Nat) (f : Group → Group) : (d.modGroup c sl f).nextOp = d.nextOp := rfl
@[simp] theorem Dev.modGroup_nextTag (d : Dev) (c sl : Nat) (f : Group → Group) : (d.modGroup c sl f).nextTag = d.nextTag := rfl
@[simp] theorem Dev.modGroup_nextTicket (d : Dev) (c sl : Nat) (f : Group → Group) : (d.modGroup c sl f).nextTicket = d.nextTicket := rfl
@[simp] theorem Dev.modGroup_moves (d : Dev) (c sl : Nat) (f : Group → Group) : (d.modGroup c sl f).moves = d.moves := rfl
@[simp] theorem Dev.modGroup_l2 (d : Dev) (c sl : Nat) (f : Group → Group) : (d.modGroup c sl f).l2 = d.l2 := rfl
@[simp] theorem Dev.modGroup_hostCopies (d : Dev) (c sl : Nat) (f : Group → Group) : (d.modGroup c sl f).hostCopies = d.hostCopies := rfl
@[simp] theorem Dev.modGroup_lastTicket (d : Dev) (c sl : Nat) (f : Group → Group) : (d.modGroup c sl f).lastTicket = d.lastTicket := rfl
@[simp] theorem Dev.modGroup_nextOrder (d : Dev) (c sl : Nat) (f : Group → Group) : (d.modGroup c sl f).nextOrder = d.nextOrder := rfl
@[simp] theorem Dev.modGroup_nextProbe (d : Dev) (c sl : Nat) (f : Group → Group) : (d.modGroup c sl f).nextProbe = d.nextProbe := rfl
@[simp] theorem Dev.modGroup_nextChange (d : Dev) (c sl : Nat) (f : Group → Group) : (d.modGroup c sl f).nextChange = d.nextChange := rfl
@[simp] theorem Dev.modGroup_nextEntry (d : Dev) (c sl : Nat) (f : Group → Group) : (d.modGroup c sl f).nextEntry = d.nextEntry := rfl
@[simp] theorem Dev.modGroup_ageTime (d : Dev) (c sl : Nat) (f : Group → Group) : (d.modGroup c sl f).ageTime = d.ageTime := rfl
@[simp] theorem Dev.modGroup_ageSeq (d : Dev) (c sl : Nat) (f : Group → Group) : (d.modGroup c sl f).ageSeq = d.ageSeq := rfl
@[simp] theorem Dev.modGroup_turn (d : Dev) (c sl : Nat) (f : Group → Group) : (d.modGroup c sl f).turn = d.turn := rfl
@[simp] theorem Dev.modGroup_alarmAt (d : Dev) (c sl : Nat) (f : Group → Group) : (d.modGroup c sl f).alarmAt = d.alarmAt := rfl
@[simp] theorem Dev.modGroup_busy (d : Dev) (c sl : Nat) (f : Group → Group) : (d.modGroup c sl f).busy = d.busy := rfl
@[simp] theorem Dev.modGroup_sampled (d : Dev) (c sl : Nat) (f : Group → Group) : (d.modGroup c sl f).sampled = d.sampled := rfl
@[simp] theorem Dev.modGroup_sampledAt (d : Dev) (c sl : Nat) (f : Group → Group) : (d.modGroup c sl f).sampledAt = d.sampledAt := rfl
@[simp] theorem Dev.modGroup_cxlCounts (d : Dev) (c sl : Nat) (f : Group → Group) : (d.modGroup c sl f).cxlCounts = d.cxlCounts := rfl
@[simp] theorem Dev.modGroup_fresh (d : Dev) (c sl : Nat) (f : Group → Group) : (d.modGroup c sl f).fresh = d.fresh := rfl
@[simp] theorem Dev.mapGroups_time (d : Dev) (f : Group → Group) : (d.mapGroups f).time = d.time := rfl
@[simp] theorem Dev.mapGroups_groups (d : Dev) (f : Group → Group) : (d.mapGroups f).groups = Tab.mapV d.groups (fun _ g => f g) := rfl
@[simp] theorem Dev.mapGroups_tasks (d : Dev) (f : Group → Group) : (d.mapGroups f).tasks = d.tasks := rfl
@[simp] theorem Dev.mapGroups_grids (d : Dev) (f : Group → Group) : (d.mapGroups f).grids = d.grids := rfl
@[simp] theorem Dev.mapGroups_gangs (d : Dev) (f : Group → Group) : (d.mapGroups f).gangs = d.gangs := rfl
@[simp] theorem Dev.mapGroups_ops (d : Dev) (f : Group → Group) : (d.mapGroups f).ops = d.ops := rfl
@[simp] theorem Dev.mapGroups_cores (d : Dev) (f : Group → Group) : (d.mapGroups f).cores = d.cores := rfl
@[simp] theorem Dev.mapGroups_pairs (d : Dev) (f : Group → Group) : (d.mapGroups f).pairs = d.pairs := rfl
@[simp] theorem Dev.mapGroups_clusters (d : Dev) (f : Group → Group) : (d.mapGroups f).clusters = d.clusters := rfl
@[simp] theorem Dev.mapGroups_dies (d : Dev) (f : Group → Group) : (d.mapGroups f).dies = d.dies := rfl
@[simp] theorem Dev.mapGroups_hbm (d : Dev) (f : Group → Group) : (d.mapGroups f).hbm = d.hbm := rfl
@[simp] theorem Dev.mapGroups_cxl (d : Dev) (f : Group → Group) : (d.mapGroups f).cxl = d.cxl := rfl
@[simp] theorem Dev.mapGroups_kmem (d : Dev) (f : Group → Group) : (d.mapGroups f).kmem = d.kmem := rfl
@[simp] theorem Dev.mapGroups_frames (d : Dev) (f : Group → Group) : (d.mapGroups f).frames = d.frames := rfl
@[simp] theorem Dev.mapGroups_kframes (d : Dev) (f : Group → Group) : (d.mapGroups f).kframes = d.kframes := rfl
@[simp] theorem Dev.mapGroups_poison (d : Dev) (f : Group → Group) : (d.mapGroups f).poison = d.poison := rfl
@[simp] theorem Dev.mapGroups_raw (d : Dev) (f : Group → Group) : (d.mapGroups f).raw = d.raw := rfl
@[simp] theorem Dev.mapGroups_lineWriter (d : Dev) (f : Group → Group) : (d.mapGroups f).lineWriter = d.lineWriter := rfl
@[simp] theorem Dev.mapGroups_queues (d : Dev) (f : Group → Group) : (d.mapGroups f).queues = d.queues := rfl
@[simp] theorem Dev.mapGroups_boxes (d : Dev) (f : Group → Group) : (d.mapGroups f).boxes = d.boxes := rfl
@[simp] theorem Dev.mapGroups_tokens (d : Dev) (f : Group → Group) : (d.mapGroups f).tokens = d.tokens := rfl
@[simp] theorem Dev.mapGroups_keys (d : Dev) (f : Group → Group) : (d.mapGroups f).keys = d.keys := rfl
@[simp] theorem Dev.mapGroups_links (d : Dev) (f : Group → Group) : (d.mapGroups f).links = d.links := rfl
@[simp] theorem Dev.mapGroups_sessions (d : Dev) (f : Group → Group) : (d.mapGroups f).sessions = d.sessions := rfl
@[simp] theorem Dev.mapGroups_windows (d : Dev) (f : Group → Group) : (d.mapGroups f).windows = d.windows := rfl
@[simp] theorem Dev.mapGroups_owned (d : Dev) (f : Group → Group) : (d.mapGroups f).owned = d.owned := rfl
@[simp] theorem Dev.mapGroups_posted (d : Dev) (f : Group → Group) : (d.mapGroups f).posted = d.posted := rfl
@[simp] theorem Dev.mapGroups_requests (d : Dev) (f : Group → Group) : (d.mapGroups f).requests = d.requests := rfl
@[simp] theorem Dev.mapGroups_performedTags (d : Dev) (f : Group → Group) : (d.mapGroups f).performedTags = d.performedTags := rfl
@[simp] theorem Dev.mapGroups_stranded (d : Dev) (f : Group → Group) : (d.mapGroups f).stranded = d.stranded := rfl
@[simp] theorem Dev.mapGroups_routes (d : Dev) (f : Group → Group) : (d.mapGroups f).routes = d.routes := rfl
@[simp] theorem Dev.mapGroups_policy (d : Dev) (f : Group → Group) : (d.mapGroups f).policy = d.policy := rfl
@[simp] theorem Dev.mapGroups_scrubAt (d : Dev) (f : Group → Group) : (d.mapGroups f).scrubAt = d.scrubAt := rfl
@[simp] theorem Dev.mapGroups_gangMode (d : Dev) (f : Group → Group) : (d.mapGroups f).gangMode = d.gangMode := rfl
@[simp] theorem Dev.mapGroups_peerId (d : Dev) (f : Group → Group) : (d.mapGroups f).peerId = d.peerId := rfl
@[simp] theorem Dev.mapGroups_sweeps (d : Dev) (f : Group → Group) : (d.mapGroups f).sweeps = d.sweeps := rfl
@[simp] theorem Dev.mapGroups_expelled (d : Dev) (f : Group → Group) : (d.mapGroups f).expelled = d.expelled := rfl
@[simp] theorem Dev.mapGroups_wear (d : Dev) (f : Group → Group) : (d.mapGroups f).wear = d.wear := rfl
@[simp] theorem Dev.mapGroups_wearMram (d : Dev) (f : Group → Group) : (d.mapGroups f).wearMram = d.wearMram := rfl
@[simp] theorem Dev.mapGroups_commitDue (d : Dev) (f : Group → Group) : (d.mapGroups f).commitDue = d.commitDue := rfl
@[simp] theorem Dev.mapGroups_target (d : Dev) (f : Group → Group) : (d.mapGroups f).target = d.target := rfl
@[simp] theorem Dev.mapGroups_lifeNow (d : Dev) (f : Group → Group) : (d.mapGroups f).lifeNow = d.lifeNow := rfl
@[simp] theorem Dev.mapGroups_serviceMs (d : Dev) (f : Group → Group) : (d.mapGroups f).serviceMs = d.serviceMs := rfl
@[simp] theorem Dev.mapGroups_grants (d : Dev) (f : Group → Group) : (d.mapGroups f).grants = d.grants := rfl
@[simp] theorem Dev.mapGroups_lastGrant (d : Dev) (f : Group → Group) : (d.mapGroups f).lastGrant = d.lastGrant := rfl
@[simp] theorem Dev.mapGroups_changes (d : Dev) (f : Group → Group) : (d.mapGroups f).changes = d.changes := rfl
@[simp] theorem Dev.mapGroups_throttled (d : Dev) (f : Group → Group) : (d.mapGroups f).throttled = d.throttled := rfl
@[simp] theorem Dev.mapGroups_throttleClear (d : Dev) (f : Group → Group) : (d.mapGroups f).throttleClear = d.throttleClear := rfl
@[simp] theorem Dev.mapGroups_powerW (d : Dev) (f : Group → Group) : (d.mapGroups f).powerW = d.powerW := rfl
@[simp] theorem Dev.mapGroups_budgets (d : Dev) (f : Group → Group) : (d.mapGroups f).budgets = d.budgets := rfl
@[simp] theorem Dev.mapGroups_spent (d : Dev) (f : Group → Group) : (d.mapGroups f).spent = d.spent := rfl
@[simp] theorem Dev.mapGroups_period (d : Dev) (f : Group → Group) : (d.mapGroups f).period = d.period := rfl
@[simp] theorem Dev.mapGroups_params (d : Dev) (f : Group → Group) : (d.mapGroups f).params = d.params := rfl
@[simp] theorem Dev.mapGroups_handlers (d : Dev) (f : Group → Group) : (d.mapGroups f).handlers = d.handlers := rfl
@[simp] theorem Dev.mapGroups_log (d : Dev) (f : Group → Group) : (d.mapGroups f).log = d.log := rfl
@[simp] theorem Dev.mapGroups_logCounts (d : Dev) (f : Group → Group) : (d.mapGroups f).logCounts = d.logCounts := rfl
@[simp] theorem Dev.mapGroups_repairs (d : Dev) (f : Group → Group) : (d.mapGroups f).repairs = d.repairs := rfl
@[simp] theorem Dev.mapGroups_remapped (d : Dev) (f : Group → Group) : (d.mapGroups f).remapped = d.remapped := rfl
@[simp] theorem Dev.mapGroups_probes (d : Dev) (f : Group → Group) : (d.mapGroups f).probes = d.probes := rfl
@[simp] theorem Dev.mapGroups_mgmt (d : Dev) (f : Group → Group) : (d.mapGroups f).mgmt = d.mgmt := rfl
@[simp] theorem Dev.mapGroups_host (d : Dev) (f : Group → Group) : (d.mapGroups f).host = d.host := rfl
@[simp] theorem Dev.mapGroups_marker (d : Dev) (f : Group → Group) : (d.mapGroups f).marker = d.marker := rfl
@[simp] theorem Dev.mapGroups_stopped (d : Dev) (f : Group → Group) : (d.mapGroups f).stopped = d.stopped := rfl
@[simp] theorem Dev.mapGroups_evidence (d : Dev) (f : Group → Group) : (d.mapGroups f).evidence = d.evidence := rfl
@[simp] theorem Dev.mapGroups_nextLaunch (d : Dev) (f : Group → Group) : (d.mapGroups f).nextLaunch = d.nextLaunch := rfl
@[simp] theorem Dev.mapGroups_nextTask (d : Dev) (f : Group → Group) : (d.mapGroups f).nextTask = d.nextTask := rfl
@[simp] theorem Dev.mapGroups_nextOp (d : Dev) (f : Group → Group) : (d.mapGroups f).nextOp = d.nextOp := rfl
@[simp] theorem Dev.mapGroups_nextTag (d : Dev) (f : Group → Group) : (d.mapGroups f).nextTag = d.nextTag := rfl
@[simp] theorem Dev.mapGroups_nextTicket (d : Dev) (f : Group → Group) : (d.mapGroups f).nextTicket = d.nextTicket := rfl
@[simp] theorem Dev.mapGroups_moves (d : Dev) (f : Group → Group) : (d.mapGroups f).moves = d.moves := rfl
@[simp] theorem Dev.mapGroups_l2 (d : Dev) (f : Group → Group) : (d.mapGroups f).l2 = d.l2 := rfl
@[simp] theorem Dev.mapGroups_hostCopies (d : Dev) (f : Group → Group) : (d.mapGroups f).hostCopies = d.hostCopies := rfl
@[simp] theorem Dev.mapGroups_lastTicket (d : Dev) (f : Group → Group) : (d.mapGroups f).lastTicket = d.lastTicket := rfl
@[simp] theorem Dev.mapGroups_nextOrder (d : Dev) (f : Group → Group) : (d.mapGroups f).nextOrder = d.nextOrder := rfl
@[simp] theorem Dev.mapGroups_nextProbe (d : Dev) (f : Group → Group) : (d.mapGroups f).nextProbe = d.nextProbe := rfl
@[simp] theorem Dev.mapGroups_nextChange (d : Dev) (f : Group → Group) : (d.mapGroups f).nextChange = d.nextChange := rfl
@[simp] theorem Dev.mapGroups_nextEntry (d : Dev) (f : Group → Group) : (d.mapGroups f).nextEntry = d.nextEntry := rfl
@[simp] theorem Dev.mapGroups_ageTime (d : Dev) (f : Group → Group) : (d.mapGroups f).ageTime = d.ageTime := rfl
@[simp] theorem Dev.mapGroups_ageSeq (d : Dev) (f : Group → Group) : (d.mapGroups f).ageSeq = d.ageSeq := rfl
@[simp] theorem Dev.mapGroups_turn (d : Dev) (f : Group → Group) : (d.mapGroups f).turn = d.turn := rfl
@[simp] theorem Dev.mapGroups_alarmAt (d : Dev) (f : Group → Group) : (d.mapGroups f).alarmAt = d.alarmAt := rfl
@[simp] theorem Dev.mapGroups_busy (d : Dev) (f : Group → Group) : (d.mapGroups f).busy = d.busy := rfl
@[simp] theorem Dev.mapGroups_sampled (d : Dev) (f : Group → Group) : (d.mapGroups f).sampled = d.sampled := rfl
@[simp] theorem Dev.mapGroups_sampledAt (d : Dev) (f : Group → Group) : (d.mapGroups f).sampledAt = d.sampledAt := rfl
@[simp] theorem Dev.mapGroups_cxlCounts (d : Dev) (f : Group → Group) : (d.mapGroups f).cxlCounts = d.cxlCounts := rfl
@[simp] theorem Dev.mapGroups_fresh (d : Dev) (f : Group → Group) : (d.mapGroups f).fresh = d.fresh := rfl
@[simp] theorem Dev.modCore_time (d : Dev) (c : Nat) (f : Core → Core) : (d.modCore c f).time = d.time := rfl
@[simp] theorem Dev.modCore_groups (d : Dev) (c : Nat) (f : Core → Core) : (d.modCore c f).groups = d.groups := rfl
@[simp] theorem Dev.modCore_tasks (d : Dev) (c : Nat) (f : Core → Core) : (d.modCore c f).tasks = d.tasks := rfl
@[simp] theorem Dev.modCore_grids (d : Dev) (c : Nat) (f : Core → Core) : (d.modCore c f).grids = d.grids := rfl
@[simp] theorem Dev.modCore_gangs (d : Dev) (c : Nat) (f : Core → Core) : (d.modCore c f).gangs = d.gangs := rfl
@[simp] theorem Dev.modCore_ops (d : Dev) (c : Nat) (f : Core → Core) : (d.modCore c f).ops = d.ops := rfl
@[simp] theorem Dev.modCore_cores (d : Dev) (c : Nat) (f : Core → Core) : (d.modCore c f).cores = Tab.insert d.cores c (f (d.core c)) := rfl
@[simp] theorem Dev.modCore_pairs (d : Dev) (c : Nat) (f : Core → Core) : (d.modCore c f).pairs = d.pairs := rfl
@[simp] theorem Dev.modCore_clusters (d : Dev) (c : Nat) (f : Core → Core) : (d.modCore c f).clusters = d.clusters := rfl
@[simp] theorem Dev.modCore_dies (d : Dev) (c : Nat) (f : Core → Core) : (d.modCore c f).dies = d.dies := rfl
@[simp] theorem Dev.modCore_hbm (d : Dev) (c : Nat) (f : Core → Core) : (d.modCore c f).hbm = d.hbm := rfl
@[simp] theorem Dev.modCore_cxl (d : Dev) (c : Nat) (f : Core → Core) : (d.modCore c f).cxl = d.cxl := rfl
@[simp] theorem Dev.modCore_kmem (d : Dev) (c : Nat) (f : Core → Core) : (d.modCore c f).kmem = d.kmem := rfl
@[simp] theorem Dev.modCore_frames (d : Dev) (c : Nat) (f : Core → Core) : (d.modCore c f).frames = d.frames := rfl
@[simp] theorem Dev.modCore_kframes (d : Dev) (c : Nat) (f : Core → Core) : (d.modCore c f).kframes = d.kframes := rfl
@[simp] theorem Dev.modCore_poison (d : Dev) (c : Nat) (f : Core → Core) : (d.modCore c f).poison = d.poison := rfl
@[simp] theorem Dev.modCore_raw (d : Dev) (c : Nat) (f : Core → Core) : (d.modCore c f).raw = d.raw := rfl
@[simp] theorem Dev.modCore_lineWriter (d : Dev) (c : Nat) (f : Core → Core) : (d.modCore c f).lineWriter = d.lineWriter := rfl
@[simp] theorem Dev.modCore_queues (d : Dev) (c : Nat) (f : Core → Core) : (d.modCore c f).queues = d.queues := rfl
@[simp] theorem Dev.modCore_boxes (d : Dev) (c : Nat) (f : Core → Core) : (d.modCore c f).boxes = d.boxes := rfl
@[simp] theorem Dev.modCore_tokens (d : Dev) (c : Nat) (f : Core → Core) : (d.modCore c f).tokens = d.tokens := rfl
@[simp] theorem Dev.modCore_keys (d : Dev) (c : Nat) (f : Core → Core) : (d.modCore c f).keys = d.keys := rfl
@[simp] theorem Dev.modCore_links (d : Dev) (c : Nat) (f : Core → Core) : (d.modCore c f).links = d.links := rfl
@[simp] theorem Dev.modCore_sessions (d : Dev) (c : Nat) (f : Core → Core) : (d.modCore c f).sessions = d.sessions := rfl
@[simp] theorem Dev.modCore_windows (d : Dev) (c : Nat) (f : Core → Core) : (d.modCore c f).windows = d.windows := rfl
@[simp] theorem Dev.modCore_owned (d : Dev) (c : Nat) (f : Core → Core) : (d.modCore c f).owned = d.owned := rfl
@[simp] theorem Dev.modCore_posted (d : Dev) (c : Nat) (f : Core → Core) : (d.modCore c f).posted = d.posted := rfl
@[simp] theorem Dev.modCore_requests (d : Dev) (c : Nat) (f : Core → Core) : (d.modCore c f).requests = d.requests := rfl
@[simp] theorem Dev.modCore_performedTags (d : Dev) (c : Nat) (f : Core → Core) : (d.modCore c f).performedTags = d.performedTags := rfl
@[simp] theorem Dev.modCore_stranded (d : Dev) (c : Nat) (f : Core → Core) : (d.modCore c f).stranded = d.stranded := rfl
@[simp] theorem Dev.modCore_routes (d : Dev) (c : Nat) (f : Core → Core) : (d.modCore c f).routes = d.routes := rfl
@[simp] theorem Dev.modCore_policy (d : Dev) (c : Nat) (f : Core → Core) : (d.modCore c f).policy = d.policy := rfl
@[simp] theorem Dev.modCore_scrubAt (d : Dev) (c : Nat) (f : Core → Core) : (d.modCore c f).scrubAt = d.scrubAt := rfl
@[simp] theorem Dev.modCore_gangMode (d : Dev) (c : Nat) (f : Core → Core) : (d.modCore c f).gangMode = d.gangMode := rfl
@[simp] theorem Dev.modCore_peerId (d : Dev) (c : Nat) (f : Core → Core) : (d.modCore c f).peerId = d.peerId := rfl
@[simp] theorem Dev.modCore_sweeps (d : Dev) (c : Nat) (f : Core → Core) : (d.modCore c f).sweeps = d.sweeps := rfl
@[simp] theorem Dev.modCore_expelled (d : Dev) (c : Nat) (f : Core → Core) : (d.modCore c f).expelled = d.expelled := rfl
@[simp] theorem Dev.modCore_wear (d : Dev) (c : Nat) (f : Core → Core) : (d.modCore c f).wear = d.wear := rfl
@[simp] theorem Dev.modCore_wearMram (d : Dev) (c : Nat) (f : Core → Core) : (d.modCore c f).wearMram = d.wearMram := rfl
@[simp] theorem Dev.modCore_commitDue (d : Dev) (c : Nat) (f : Core → Core) : (d.modCore c f).commitDue = d.commitDue := rfl
@[simp] theorem Dev.modCore_target (d : Dev) (c : Nat) (f : Core → Core) : (d.modCore c f).target = d.target := rfl
@[simp] theorem Dev.modCore_lifeNow (d : Dev) (c : Nat) (f : Core → Core) : (d.modCore c f).lifeNow = d.lifeNow := rfl
@[simp] theorem Dev.modCore_serviceMs (d : Dev) (c : Nat) (f : Core → Core) : (d.modCore c f).serviceMs = d.serviceMs := rfl
@[simp] theorem Dev.modCore_grants (d : Dev) (c : Nat) (f : Core → Core) : (d.modCore c f).grants = d.grants := rfl
@[simp] theorem Dev.modCore_lastGrant (d : Dev) (c : Nat) (f : Core → Core) : (d.modCore c f).lastGrant = d.lastGrant := rfl
@[simp] theorem Dev.modCore_changes (d : Dev) (c : Nat) (f : Core → Core) : (d.modCore c f).changes = d.changes := rfl
@[simp] theorem Dev.modCore_throttled (d : Dev) (c : Nat) (f : Core → Core) : (d.modCore c f).throttled = d.throttled := rfl
@[simp] theorem Dev.modCore_throttleClear (d : Dev) (c : Nat) (f : Core → Core) : (d.modCore c f).throttleClear = d.throttleClear := rfl
@[simp] theorem Dev.modCore_powerW (d : Dev) (c : Nat) (f : Core → Core) : (d.modCore c f).powerW = d.powerW := rfl
@[simp] theorem Dev.modCore_budgets (d : Dev) (c : Nat) (f : Core → Core) : (d.modCore c f).budgets = d.budgets := rfl
@[simp] theorem Dev.modCore_spent (d : Dev) (c : Nat) (f : Core → Core) : (d.modCore c f).spent = d.spent := rfl
@[simp] theorem Dev.modCore_period (d : Dev) (c : Nat) (f : Core → Core) : (d.modCore c f).period = d.period := rfl
@[simp] theorem Dev.modCore_params (d : Dev) (c : Nat) (f : Core → Core) : (d.modCore c f).params = d.params := rfl
@[simp] theorem Dev.modCore_handlers (d : Dev) (c : Nat) (f : Core → Core) : (d.modCore c f).handlers = d.handlers := rfl
@[simp] theorem Dev.modCore_log (d : Dev) (c : Nat) (f : Core → Core) : (d.modCore c f).log = d.log := rfl
@[simp] theorem Dev.modCore_logCounts (d : Dev) (c : Nat) (f : Core → Core) : (d.modCore c f).logCounts = d.logCounts := rfl
@[simp] theorem Dev.modCore_repairs (d : Dev) (c : Nat) (f : Core → Core) : (d.modCore c f).repairs = d.repairs := rfl
@[simp] theorem Dev.modCore_remapped (d : Dev) (c : Nat) (f : Core → Core) : (d.modCore c f).remapped = d.remapped := rfl
@[simp] theorem Dev.modCore_probes (d : Dev) (c : Nat) (f : Core → Core) : (d.modCore c f).probes = d.probes := rfl
@[simp] theorem Dev.modCore_mgmt (d : Dev) (c : Nat) (f : Core → Core) : (d.modCore c f).mgmt = d.mgmt := rfl
@[simp] theorem Dev.modCore_host (d : Dev) (c : Nat) (f : Core → Core) : (d.modCore c f).host = d.host := rfl
@[simp] theorem Dev.modCore_marker (d : Dev) (c : Nat) (f : Core → Core) : (d.modCore c f).marker = d.marker := rfl
@[simp] theorem Dev.modCore_stopped (d : Dev) (c : Nat) (f : Core → Core) : (d.modCore c f).stopped = d.stopped := rfl
@[simp] theorem Dev.modCore_evidence (d : Dev) (c : Nat) (f : Core → Core) : (d.modCore c f).evidence = d.evidence := rfl
@[simp] theorem Dev.modCore_nextLaunch (d : Dev) (c : Nat) (f : Core → Core) : (d.modCore c f).nextLaunch = d.nextLaunch := rfl
@[simp] theorem Dev.modCore_nextTask (d : Dev) (c : Nat) (f : Core → Core) : (d.modCore c f).nextTask = d.nextTask := rfl
@[simp] theorem Dev.modCore_nextOp (d : Dev) (c : Nat) (f : Core → Core) : (d.modCore c f).nextOp = d.nextOp := rfl
@[simp] theorem Dev.modCore_nextTag (d : Dev) (c : Nat) (f : Core → Core) : (d.modCore c f).nextTag = d.nextTag := rfl
@[simp] theorem Dev.modCore_nextTicket (d : Dev) (c : Nat) (f : Core → Core) : (d.modCore c f).nextTicket = d.nextTicket := rfl
@[simp] theorem Dev.modCore_moves (d : Dev) (c : Nat) (f : Core → Core) : (d.modCore c f).moves = d.moves := rfl
@[simp] theorem Dev.modCore_l2 (d : Dev) (c : Nat) (f : Core → Core) : (d.modCore c f).l2 = d.l2 := rfl
@[simp] theorem Dev.modCore_hostCopies (d : Dev) (c : Nat) (f : Core → Core) : (d.modCore c f).hostCopies = d.hostCopies := rfl
@[simp] theorem Dev.modCore_lastTicket (d : Dev) (c : Nat) (f : Core → Core) : (d.modCore c f).lastTicket = d.lastTicket := rfl
@[simp] theorem Dev.modCore_nextOrder (d : Dev) (c : Nat) (f : Core → Core) : (d.modCore c f).nextOrder = d.nextOrder := rfl
@[simp] theorem Dev.modCore_nextProbe (d : Dev) (c : Nat) (f : Core → Core) : (d.modCore c f).nextProbe = d.nextProbe := rfl
@[simp] theorem Dev.modCore_nextChange (d : Dev) (c : Nat) (f : Core → Core) : (d.modCore c f).nextChange = d.nextChange := rfl
@[simp] theorem Dev.modCore_nextEntry (d : Dev) (c : Nat) (f : Core → Core) : (d.modCore c f).nextEntry = d.nextEntry := rfl
@[simp] theorem Dev.modCore_ageTime (d : Dev) (c : Nat) (f : Core → Core) : (d.modCore c f).ageTime = d.ageTime := rfl
@[simp] theorem Dev.modCore_ageSeq (d : Dev) (c : Nat) (f : Core → Core) : (d.modCore c f).ageSeq = d.ageSeq := rfl
@[simp] theorem Dev.modCore_turn (d : Dev) (c : Nat) (f : Core → Core) : (d.modCore c f).turn = d.turn := rfl
@[simp] theorem Dev.modCore_alarmAt (d : Dev) (c : Nat) (f : Core → Core) : (d.modCore c f).alarmAt = d.alarmAt := rfl
@[simp] theorem Dev.modCore_busy (d : Dev) (c : Nat) (f : Core → Core) : (d.modCore c f).busy = d.busy := rfl
@[simp] theorem Dev.modCore_sampled (d : Dev) (c : Nat) (f : Core → Core) : (d.modCore c f).sampled = d.sampled := rfl
@[simp] theorem Dev.modCore_sampledAt (d : Dev) (c : Nat) (f : Core → Core) : (d.modCore c f).sampledAt = d.sampledAt := rfl
@[simp] theorem Dev.modCore_cxlCounts (d : Dev) (c : Nat) (f : Core → Core) : (d.modCore c f).cxlCounts = d.cxlCounts := rfl
@[simp] theorem Dev.modCore_fresh (d : Dev) (c : Nat) (f : Core → Core) : (d.modCore c f).fresh = d.fresh := rfl
@[simp] theorem Dev.modPair_time (d : Dev) (c : Nat) (f : Pair → Pair) : (d.modPair c f).time = d.time := rfl
@[simp] theorem Dev.modPair_groups (d : Dev) (c : Nat) (f : Pair → Pair) : (d.modPair c f).groups = d.groups := rfl
@[simp] theorem Dev.modPair_tasks (d : Dev) (c : Nat) (f : Pair → Pair) : (d.modPair c f).tasks = d.tasks := rfl
@[simp] theorem Dev.modPair_grids (d : Dev) (c : Nat) (f : Pair → Pair) : (d.modPair c f).grids = d.grids := rfl
@[simp] theorem Dev.modPair_gangs (d : Dev) (c : Nat) (f : Pair → Pair) : (d.modPair c f).gangs = d.gangs := rfl
@[simp] theorem Dev.modPair_ops (d : Dev) (c : Nat) (f : Pair → Pair) : (d.modPair c f).ops = d.ops := rfl
@[simp] theorem Dev.modPair_cores (d : Dev) (c : Nat) (f : Pair → Pair) : (d.modPair c f).cores = d.cores := rfl
@[simp] theorem Dev.modPair_pairs (d : Dev) (c : Nat) (f : Pair → Pair) : (d.modPair c f).pairs = Tab.insert d.pairs c (f (d.pair c)) := rfl
@[simp] theorem Dev.modPair_clusters (d : Dev) (c : Nat) (f : Pair → Pair) : (d.modPair c f).clusters = d.clusters := rfl
@[simp] theorem Dev.modPair_dies (d : Dev) (c : Nat) (f : Pair → Pair) : (d.modPair c f).dies = d.dies := rfl
@[simp] theorem Dev.modPair_hbm (d : Dev) (c : Nat) (f : Pair → Pair) : (d.modPair c f).hbm = d.hbm := rfl
@[simp] theorem Dev.modPair_cxl (d : Dev) (c : Nat) (f : Pair → Pair) : (d.modPair c f).cxl = d.cxl := rfl
@[simp] theorem Dev.modPair_kmem (d : Dev) (c : Nat) (f : Pair → Pair) : (d.modPair c f).kmem = d.kmem := rfl
@[simp] theorem Dev.modPair_frames (d : Dev) (c : Nat) (f : Pair → Pair) : (d.modPair c f).frames = d.frames := rfl
@[simp] theorem Dev.modPair_kframes (d : Dev) (c : Nat) (f : Pair → Pair) : (d.modPair c f).kframes = d.kframes := rfl
@[simp] theorem Dev.modPair_poison (d : Dev) (c : Nat) (f : Pair → Pair) : (d.modPair c f).poison = d.poison := rfl
@[simp] theorem Dev.modPair_raw (d : Dev) (c : Nat) (f : Pair → Pair) : (d.modPair c f).raw = d.raw := rfl
@[simp] theorem Dev.modPair_lineWriter (d : Dev) (c : Nat) (f : Pair → Pair) : (d.modPair c f).lineWriter = d.lineWriter := rfl
@[simp] theorem Dev.modPair_queues (d : Dev) (c : Nat) (f : Pair → Pair) : (d.modPair c f).queues = d.queues := rfl
@[simp] theorem Dev.modPair_boxes (d : Dev) (c : Nat) (f : Pair → Pair) : (d.modPair c f).boxes = d.boxes := rfl
@[simp] theorem Dev.modPair_tokens (d : Dev) (c : Nat) (f : Pair → Pair) : (d.modPair c f).tokens = d.tokens := rfl
@[simp] theorem Dev.modPair_keys (d : Dev) (c : Nat) (f : Pair → Pair) : (d.modPair c f).keys = d.keys := rfl
@[simp] theorem Dev.modPair_links (d : Dev) (c : Nat) (f : Pair → Pair) : (d.modPair c f).links = d.links := rfl
@[simp] theorem Dev.modPair_sessions (d : Dev) (c : Nat) (f : Pair → Pair) : (d.modPair c f).sessions = d.sessions := rfl
@[simp] theorem Dev.modPair_windows (d : Dev) (c : Nat) (f : Pair → Pair) : (d.modPair c f).windows = d.windows := rfl
@[simp] theorem Dev.modPair_owned (d : Dev) (c : Nat) (f : Pair → Pair) : (d.modPair c f).owned = d.owned := rfl
@[simp] theorem Dev.modPair_posted (d : Dev) (c : Nat) (f : Pair → Pair) : (d.modPair c f).posted = d.posted := rfl
@[simp] theorem Dev.modPair_requests (d : Dev) (c : Nat) (f : Pair → Pair) : (d.modPair c f).requests = d.requests := rfl
@[simp] theorem Dev.modPair_performedTags (d : Dev) (c : Nat) (f : Pair → Pair) : (d.modPair c f).performedTags = d.performedTags := rfl
@[simp] theorem Dev.modPair_stranded (d : Dev) (c : Nat) (f : Pair → Pair) : (d.modPair c f).stranded = d.stranded := rfl
@[simp] theorem Dev.modPair_routes (d : Dev) (c : Nat) (f : Pair → Pair) : (d.modPair c f).routes = d.routes := rfl
@[simp] theorem Dev.modPair_policy (d : Dev) (c : Nat) (f : Pair → Pair) : (d.modPair c f).policy = d.policy := rfl
@[simp] theorem Dev.modPair_scrubAt (d : Dev) (c : Nat) (f : Pair → Pair) : (d.modPair c f).scrubAt = d.scrubAt := rfl
@[simp] theorem Dev.modPair_gangMode (d : Dev) (c : Nat) (f : Pair → Pair) : (d.modPair c f).gangMode = d.gangMode := rfl
@[simp] theorem Dev.modPair_peerId (d : Dev) (c : Nat) (f : Pair → Pair) : (d.modPair c f).peerId = d.peerId := rfl
@[simp] theorem Dev.modPair_sweeps (d : Dev) (c : Nat) (f : Pair → Pair) : (d.modPair c f).sweeps = d.sweeps := rfl
@[simp] theorem Dev.modPair_expelled (d : Dev) (c : Nat) (f : Pair → Pair) : (d.modPair c f).expelled = d.expelled := rfl
@[simp] theorem Dev.modPair_wear (d : Dev) (c : Nat) (f : Pair → Pair) : (d.modPair c f).wear = d.wear := rfl
@[simp] theorem Dev.modPair_wearMram (d : Dev) (c : Nat) (f : Pair → Pair) : (d.modPair c f).wearMram = d.wearMram := rfl
@[simp] theorem Dev.modPair_commitDue (d : Dev) (c : Nat) (f : Pair → Pair) : (d.modPair c f).commitDue = d.commitDue := rfl
@[simp] theorem Dev.modPair_target (d : Dev) (c : Nat) (f : Pair → Pair) : (d.modPair c f).target = d.target := rfl
@[simp] theorem Dev.modPair_lifeNow (d : Dev) (c : Nat) (f : Pair → Pair) : (d.modPair c f).lifeNow = d.lifeNow := rfl
@[simp] theorem Dev.modPair_serviceMs (d : Dev) (c : Nat) (f : Pair → Pair) : (d.modPair c f).serviceMs = d.serviceMs := rfl
@[simp] theorem Dev.modPair_grants (d : Dev) (c : Nat) (f : Pair → Pair) : (d.modPair c f).grants = d.grants := rfl
@[simp] theorem Dev.modPair_lastGrant (d : Dev) (c : Nat) (f : Pair → Pair) : (d.modPair c f).lastGrant = d.lastGrant := rfl
@[simp] theorem Dev.modPair_changes (d : Dev) (c : Nat) (f : Pair → Pair) : (d.modPair c f).changes = d.changes := rfl
@[simp] theorem Dev.modPair_throttled (d : Dev) (c : Nat) (f : Pair → Pair) : (d.modPair c f).throttled = d.throttled := rfl
@[simp] theorem Dev.modPair_throttleClear (d : Dev) (c : Nat) (f : Pair → Pair) : (d.modPair c f).throttleClear = d.throttleClear := rfl
@[simp] theorem Dev.modPair_powerW (d : Dev) (c : Nat) (f : Pair → Pair) : (d.modPair c f).powerW = d.powerW := rfl
@[simp] theorem Dev.modPair_budgets (d : Dev) (c : Nat) (f : Pair → Pair) : (d.modPair c f).budgets = d.budgets := rfl
@[simp] theorem Dev.modPair_spent (d : Dev) (c : Nat) (f : Pair → Pair) : (d.modPair c f).spent = d.spent := rfl
@[simp] theorem Dev.modPair_period (d : Dev) (c : Nat) (f : Pair → Pair) : (d.modPair c f).period = d.period := rfl
@[simp] theorem Dev.modPair_params (d : Dev) (c : Nat) (f : Pair → Pair) : (d.modPair c f).params = d.params := rfl
@[simp] theorem Dev.modPair_handlers (d : Dev) (c : Nat) (f : Pair → Pair) : (d.modPair c f).handlers = d.handlers := rfl
@[simp] theorem Dev.modPair_log (d : Dev) (c : Nat) (f : Pair → Pair) : (d.modPair c f).log = d.log := rfl
@[simp] theorem Dev.modPair_logCounts (d : Dev) (c : Nat) (f : Pair → Pair) : (d.modPair c f).logCounts = d.logCounts := rfl
@[simp] theorem Dev.modPair_repairs (d : Dev) (c : Nat) (f : Pair → Pair) : (d.modPair c f).repairs = d.repairs := rfl
@[simp] theorem Dev.modPair_remapped (d : Dev) (c : Nat) (f : Pair → Pair) : (d.modPair c f).remapped = d.remapped := rfl
@[simp] theorem Dev.modPair_probes (d : Dev) (c : Nat) (f : Pair → Pair) : (d.modPair c f).probes = d.probes := rfl
@[simp] theorem Dev.modPair_mgmt (d : Dev) (c : Nat) (f : Pair → Pair) : (d.modPair c f).mgmt = d.mgmt := rfl
@[simp] theorem Dev.modPair_host (d : Dev) (c : Nat) (f : Pair → Pair) : (d.modPair c f).host = d.host := rfl
@[simp] theorem Dev.modPair_marker (d : Dev) (c : Nat) (f : Pair → Pair) : (d.modPair c f).marker = d.marker := rfl
@[simp] theorem Dev.modPair_stopped (d : Dev) (c : Nat) (f : Pair → Pair) : (d.modPair c f).stopped = d.stopped := rfl
@[simp] theorem Dev.modPair_evidence (d : Dev) (c : Nat) (f : Pair → Pair) : (d.modPair c f).evidence = d.evidence := rfl
@[simp] theorem Dev.modPair_nextLaunch (d : Dev) (c : Nat) (f : Pair → Pair) : (d.modPair c f).nextLaunch = d.nextLaunch := rfl
@[simp] theorem Dev.modPair_nextTask (d : Dev) (c : Nat) (f : Pair → Pair) : (d.modPair c f).nextTask = d.nextTask := rfl
@[simp] theorem Dev.modPair_nextOp (d : Dev) (c : Nat) (f : Pair → Pair) : (d.modPair c f).nextOp = d.nextOp := rfl
@[simp] theorem Dev.modPair_nextTag (d : Dev) (c : Nat) (f : Pair → Pair) : (d.modPair c f).nextTag = d.nextTag := rfl
@[simp] theorem Dev.modPair_nextTicket (d : Dev) (c : Nat) (f : Pair → Pair) : (d.modPair c f).nextTicket = d.nextTicket := rfl
@[simp] theorem Dev.modPair_moves (d : Dev) (c : Nat) (f : Pair → Pair) : (d.modPair c f).moves = d.moves := rfl
@[simp] theorem Dev.modPair_l2 (d : Dev) (c : Nat) (f : Pair → Pair) : (d.modPair c f).l2 = d.l2 := rfl
@[simp] theorem Dev.modPair_hostCopies (d : Dev) (c : Nat) (f : Pair → Pair) : (d.modPair c f).hostCopies = d.hostCopies := rfl
@[simp] theorem Dev.modPair_lastTicket (d : Dev) (c : Nat) (f : Pair → Pair) : (d.modPair c f).lastTicket = d.lastTicket := rfl
@[simp] theorem Dev.modPair_nextOrder (d : Dev) (c : Nat) (f : Pair → Pair) : (d.modPair c f).nextOrder = d.nextOrder := rfl
@[simp] theorem Dev.modPair_nextProbe (d : Dev) (c : Nat) (f : Pair → Pair) : (d.modPair c f).nextProbe = d.nextProbe := rfl
@[simp] theorem Dev.modPair_nextChange (d : Dev) (c : Nat) (f : Pair → Pair) : (d.modPair c f).nextChange = d.nextChange := rfl
@[simp] theorem Dev.modPair_nextEntry (d : Dev) (c : Nat) (f : Pair → Pair) : (d.modPair c f).nextEntry = d.nextEntry := rfl
@[simp] theorem Dev.modPair_ageTime (d : Dev) (c : Nat) (f : Pair → Pair) : (d.modPair c f).ageTime = d.ageTime := rfl
@[simp] theorem Dev.modPair_ageSeq (d : Dev) (c : Nat) (f : Pair → Pair) : (d.modPair c f).ageSeq = d.ageSeq := rfl
@[simp] theorem Dev.modPair_turn (d : Dev) (c : Nat) (f : Pair → Pair) : (d.modPair c f).turn = d.turn := rfl
@[simp] theorem Dev.modPair_alarmAt (d : Dev) (c : Nat) (f : Pair → Pair) : (d.modPair c f).alarmAt = d.alarmAt := rfl
@[simp] theorem Dev.modPair_busy (d : Dev) (c : Nat) (f : Pair → Pair) : (d.modPair c f).busy = d.busy := rfl
@[simp] theorem Dev.modPair_sampled (d : Dev) (c : Nat) (f : Pair → Pair) : (d.modPair c f).sampled = d.sampled := rfl
@[simp] theorem Dev.modPair_sampledAt (d : Dev) (c : Nat) (f : Pair → Pair) : (d.modPair c f).sampledAt = d.sampledAt := rfl
@[simp] theorem Dev.modPair_cxlCounts (d : Dev) (c : Nat) (f : Pair → Pair) : (d.modPair c f).cxlCounts = d.cxlCounts := rfl
@[simp] theorem Dev.modPair_fresh (d : Dev) (c : Nat) (f : Pair → Pair) : (d.modPair c f).fresh = d.fresh := rfl
@[simp] theorem Dev.modCluster_time (d : Dev) (c : Nat) (f : Cluster → Cluster) : (d.modCluster c f).time = d.time := rfl
@[simp] theorem Dev.modCluster_groups (d : Dev) (c : Nat) (f : Cluster → Cluster) : (d.modCluster c f).groups = d.groups := rfl
@[simp] theorem Dev.modCluster_tasks (d : Dev) (c : Nat) (f : Cluster → Cluster) : (d.modCluster c f).tasks = d.tasks := rfl
@[simp] theorem Dev.modCluster_grids (d : Dev) (c : Nat) (f : Cluster → Cluster) : (d.modCluster c f).grids = d.grids := rfl
@[simp] theorem Dev.modCluster_gangs (d : Dev) (c : Nat) (f : Cluster → Cluster) : (d.modCluster c f).gangs = d.gangs := rfl
@[simp] theorem Dev.modCluster_ops (d : Dev) (c : Nat) (f : Cluster → Cluster) : (d.modCluster c f).ops = d.ops := rfl
@[simp] theorem Dev.modCluster_cores (d : Dev) (c : Nat) (f : Cluster → Cluster) : (d.modCluster c f).cores = d.cores := rfl
@[simp] theorem Dev.modCluster_pairs (d : Dev) (c : Nat) (f : Cluster → Cluster) : (d.modCluster c f).pairs = d.pairs := rfl
@[simp] theorem Dev.modCluster_clusters (d : Dev) (c : Nat) (f : Cluster → Cluster) : (d.modCluster c f).clusters = Tab.insert d.clusters c (f (d.cluster c)) := rfl
@[simp] theorem Dev.modCluster_dies (d : Dev) (c : Nat) (f : Cluster → Cluster) : (d.modCluster c f).dies = d.dies := rfl
@[simp] theorem Dev.modCluster_hbm (d : Dev) (c : Nat) (f : Cluster → Cluster) : (d.modCluster c f).hbm = d.hbm := rfl
@[simp] theorem Dev.modCluster_cxl (d : Dev) (c : Nat) (f : Cluster → Cluster) : (d.modCluster c f).cxl = d.cxl := rfl
@[simp] theorem Dev.modCluster_kmem (d : Dev) (c : Nat) (f : Cluster → Cluster) : (d.modCluster c f).kmem = d.kmem := rfl
@[simp] theorem Dev.modCluster_frames (d : Dev) (c : Nat) (f : Cluster → Cluster) : (d.modCluster c f).frames = d.frames := rfl
@[simp] theorem Dev.modCluster_kframes (d : Dev) (c : Nat) (f : Cluster → Cluster) : (d.modCluster c f).kframes = d.kframes := rfl
@[simp] theorem Dev.modCluster_poison (d : Dev) (c : Nat) (f : Cluster → Cluster) : (d.modCluster c f).poison = d.poison := rfl
@[simp] theorem Dev.modCluster_raw (d : Dev) (c : Nat) (f : Cluster → Cluster) : (d.modCluster c f).raw = d.raw := rfl
@[simp] theorem Dev.modCluster_lineWriter (d : Dev) (c : Nat) (f : Cluster → Cluster) : (d.modCluster c f).lineWriter = d.lineWriter := rfl
@[simp] theorem Dev.modCluster_queues (d : Dev) (c : Nat) (f : Cluster → Cluster) : (d.modCluster c f).queues = d.queues := rfl
@[simp] theorem Dev.modCluster_boxes (d : Dev) (c : Nat) (f : Cluster → Cluster) : (d.modCluster c f).boxes = d.boxes := rfl
@[simp] theorem Dev.modCluster_tokens (d : Dev) (c : Nat) (f : Cluster → Cluster) : (d.modCluster c f).tokens = d.tokens := rfl
@[simp] theorem Dev.modCluster_keys (d : Dev) (c : Nat) (f : Cluster → Cluster) : (d.modCluster c f).keys = d.keys := rfl
@[simp] theorem Dev.modCluster_links (d : Dev) (c : Nat) (f : Cluster → Cluster) : (d.modCluster c f).links = d.links := rfl
@[simp] theorem Dev.modCluster_sessions (d : Dev) (c : Nat) (f : Cluster → Cluster) : (d.modCluster c f).sessions = d.sessions := rfl
@[simp] theorem Dev.modCluster_windows (d : Dev) (c : Nat) (f : Cluster → Cluster) : (d.modCluster c f).windows = d.windows := rfl
@[simp] theorem Dev.modCluster_owned (d : Dev) (c : Nat) (f : Cluster → Cluster) : (d.modCluster c f).owned = d.owned := rfl
@[simp] theorem Dev.modCluster_posted (d : Dev) (c : Nat) (f : Cluster → Cluster) : (d.modCluster c f).posted = d.posted := rfl
@[simp] theorem Dev.modCluster_requests (d : Dev) (c : Nat) (f : Cluster → Cluster) : (d.modCluster c f).requests = d.requests := rfl
@[simp] theorem Dev.modCluster_performedTags (d : Dev) (c : Nat) (f : Cluster → Cluster) : (d.modCluster c f).performedTags = d.performedTags := rfl
@[simp] theorem Dev.modCluster_stranded (d : Dev) (c : Nat) (f : Cluster → Cluster) : (d.modCluster c f).stranded = d.stranded := rfl
@[simp] theorem Dev.modCluster_routes (d : Dev) (c : Nat) (f : Cluster → Cluster) : (d.modCluster c f).routes = d.routes := rfl
@[simp] theorem Dev.modCluster_policy (d : Dev) (c : Nat) (f : Cluster → Cluster) : (d.modCluster c f).policy = d.policy := rfl
@[simp] theorem Dev.modCluster_scrubAt (d : Dev) (c : Nat) (f : Cluster → Cluster) : (d.modCluster c f).scrubAt = d.scrubAt := rfl
@[simp] theorem Dev.modCluster_gangMode (d : Dev) (c : Nat) (f : Cluster → Cluster) : (d.modCluster c f).gangMode = d.gangMode := rfl
@[simp] theorem Dev.modCluster_peerId (d : Dev) (c : Nat) (f : Cluster → Cluster) : (d.modCluster c f).peerId = d.peerId := rfl
@[simp] theorem Dev.modCluster_sweeps (d : Dev) (c : Nat) (f : Cluster → Cluster) : (d.modCluster c f).sweeps = d.sweeps := rfl
@[simp] theorem Dev.modCluster_expelled (d : Dev) (c : Nat) (f : Cluster → Cluster) : (d.modCluster c f).expelled = d.expelled := rfl
@[simp] theorem Dev.modCluster_wear (d : Dev) (c : Nat) (f : Cluster → Cluster) : (d.modCluster c f).wear = d.wear := rfl
@[simp] theorem Dev.modCluster_wearMram (d : Dev) (c : Nat) (f : Cluster → Cluster) : (d.modCluster c f).wearMram = d.wearMram := rfl
@[simp] theorem Dev.modCluster_commitDue (d : Dev) (c : Nat) (f : Cluster → Cluster) : (d.modCluster c f).commitDue = d.commitDue := rfl
@[simp] theorem Dev.modCluster_target (d : Dev) (c : Nat) (f : Cluster → Cluster) : (d.modCluster c f).target = d.target := rfl
@[simp] theorem Dev.modCluster_lifeNow (d : Dev) (c : Nat) (f : Cluster → Cluster) : (d.modCluster c f).lifeNow = d.lifeNow := rfl
@[simp] theorem Dev.modCluster_serviceMs (d : Dev) (c : Nat) (f : Cluster → Cluster) : (d.modCluster c f).serviceMs = d.serviceMs := rfl
@[simp] theorem Dev.modCluster_grants (d : Dev) (c : Nat) (f : Cluster → Cluster) : (d.modCluster c f).grants = d.grants := rfl
@[simp] theorem Dev.modCluster_lastGrant (d : Dev) (c : Nat) (f : Cluster → Cluster) : (d.modCluster c f).lastGrant = d.lastGrant := rfl
@[simp] theorem Dev.modCluster_changes (d : Dev) (c : Nat) (f : Cluster → Cluster) : (d.modCluster c f).changes = d.changes := rfl
@[simp] theorem Dev.modCluster_throttled (d : Dev) (c : Nat) (f : Cluster → Cluster) : (d.modCluster c f).throttled = d.throttled := rfl
@[simp] theorem Dev.modCluster_throttleClear (d : Dev) (c : Nat) (f : Cluster → Cluster) : (d.modCluster c f).throttleClear = d.throttleClear := rfl
@[simp] theorem Dev.modCluster_powerW (d : Dev) (c : Nat) (f : Cluster → Cluster) : (d.modCluster c f).powerW = d.powerW := rfl
@[simp] theorem Dev.modCluster_budgets (d : Dev) (c : Nat) (f : Cluster → Cluster) : (d.modCluster c f).budgets = d.budgets := rfl
@[simp] theorem Dev.modCluster_spent (d : Dev) (c : Nat) (f : Cluster → Cluster) : (d.modCluster c f).spent = d.spent := rfl
@[simp] theorem Dev.modCluster_period (d : Dev) (c : Nat) (f : Cluster → Cluster) : (d.modCluster c f).period = d.period := rfl
@[simp] theorem Dev.modCluster_params (d : Dev) (c : Nat) (f : Cluster → Cluster) : (d.modCluster c f).params = d.params := rfl
@[simp] theorem Dev.modCluster_handlers (d : Dev) (c : Nat) (f : Cluster → Cluster) : (d.modCluster c f).handlers = d.handlers := rfl
@[simp] theorem Dev.modCluster_log (d : Dev) (c : Nat) (f : Cluster → Cluster) : (d.modCluster c f).log = d.log := rfl
@[simp] theorem Dev.modCluster_logCounts (d : Dev) (c : Nat) (f : Cluster → Cluster) : (d.modCluster c f).logCounts = d.logCounts := rfl
@[simp] theorem Dev.modCluster_repairs (d : Dev) (c : Nat) (f : Cluster → Cluster) : (d.modCluster c f).repairs = d.repairs := rfl
@[simp] theorem Dev.modCluster_remapped (d : Dev) (c : Nat) (f : Cluster → Cluster) : (d.modCluster c f).remapped = d.remapped := rfl
@[simp] theorem Dev.modCluster_probes (d : Dev) (c : Nat) (f : Cluster → Cluster) : (d.modCluster c f).probes = d.probes := rfl
@[simp] theorem Dev.modCluster_mgmt (d : Dev) (c : Nat) (f : Cluster → Cluster) : (d.modCluster c f).mgmt = d.mgmt := rfl
@[simp] theorem Dev.modCluster_host (d : Dev) (c : Nat) (f : Cluster → Cluster) : (d.modCluster c f).host = d.host := rfl
@[simp] theorem Dev.modCluster_marker (d : Dev) (c : Nat) (f : Cluster → Cluster) : (d.modCluster c f).marker = d.marker := rfl
@[simp] theorem Dev.modCluster_stopped (d : Dev) (c : Nat) (f : Cluster → Cluster) : (d.modCluster c f).stopped = d.stopped := rfl
@[simp] theorem Dev.modCluster_evidence (d : Dev) (c : Nat) (f : Cluster → Cluster) : (d.modCluster c f).evidence = d.evidence := rfl
@[simp] theorem Dev.modCluster_nextLaunch (d : Dev) (c : Nat) (f : Cluster → Cluster) : (d.modCluster c f).nextLaunch = d.nextLaunch := rfl
@[simp] theorem Dev.modCluster_nextTask (d : Dev) (c : Nat) (f : Cluster → Cluster) : (d.modCluster c f).nextTask = d.nextTask := rfl
@[simp] theorem Dev.modCluster_nextOp (d : Dev) (c : Nat) (f : Cluster → Cluster) : (d.modCluster c f).nextOp = d.nextOp := rfl
@[simp] theorem Dev.modCluster_nextTag (d : Dev) (c : Nat) (f : Cluster → Cluster) : (d.modCluster c f).nextTag = d.nextTag := rfl
@[simp] theorem Dev.modCluster_nextTicket (d : Dev) (c : Nat) (f : Cluster → Cluster) : (d.modCluster c f).nextTicket = d.nextTicket := rfl
@[simp] theorem Dev.modCluster_moves (d : Dev) (c : Nat) (f : Cluster → Cluster) : (d.modCluster c f).moves = d.moves := rfl
@[simp] theorem Dev.modCluster_l2 (d : Dev) (c : Nat) (f : Cluster → Cluster) : (d.modCluster c f).l2 = d.l2 := rfl
@[simp] theorem Dev.modCluster_hostCopies (d : Dev) (c : Nat) (f : Cluster → Cluster) : (d.modCluster c f).hostCopies = d.hostCopies := rfl
@[simp] theorem Dev.modCluster_lastTicket (d : Dev) (c : Nat) (f : Cluster → Cluster) : (d.modCluster c f).lastTicket = d.lastTicket := rfl
@[simp] theorem Dev.modCluster_nextOrder (d : Dev) (c : Nat) (f : Cluster → Cluster) : (d.modCluster c f).nextOrder = d.nextOrder := rfl
@[simp] theorem Dev.modCluster_nextProbe (d : Dev) (c : Nat) (f : Cluster → Cluster) : (d.modCluster c f).nextProbe = d.nextProbe := rfl
@[simp] theorem Dev.modCluster_nextChange (d : Dev) (c : Nat) (f : Cluster → Cluster) : (d.modCluster c f).nextChange = d.nextChange := rfl
@[simp] theorem Dev.modCluster_nextEntry (d : Dev) (c : Nat) (f : Cluster → Cluster) : (d.modCluster c f).nextEntry = d.nextEntry := rfl
@[simp] theorem Dev.modCluster_ageTime (d : Dev) (c : Nat) (f : Cluster → Cluster) : (d.modCluster c f).ageTime = d.ageTime := rfl
@[simp] theorem Dev.modCluster_ageSeq (d : Dev) (c : Nat) (f : Cluster → Cluster) : (d.modCluster c f).ageSeq = d.ageSeq := rfl
@[simp] theorem Dev.modCluster_turn (d : Dev) (c : Nat) (f : Cluster → Cluster) : (d.modCluster c f).turn = d.turn := rfl
@[simp] theorem Dev.modCluster_alarmAt (d : Dev) (c : Nat) (f : Cluster → Cluster) : (d.modCluster c f).alarmAt = d.alarmAt := rfl
@[simp] theorem Dev.modCluster_busy (d : Dev) (c : Nat) (f : Cluster → Cluster) : (d.modCluster c f).busy = d.busy := rfl
@[simp] theorem Dev.modCluster_sampled (d : Dev) (c : Nat) (f : Cluster → Cluster) : (d.modCluster c f).sampled = d.sampled := rfl
@[simp] theorem Dev.modCluster_sampledAt (d : Dev) (c : Nat) (f : Cluster → Cluster) : (d.modCluster c f).sampledAt = d.sampledAt := rfl
@[simp] theorem Dev.modCluster_cxlCounts (d : Dev) (c : Nat) (f : Cluster → Cluster) : (d.modCluster c f).cxlCounts = d.cxlCounts := rfl
@[simp] theorem Dev.modCluster_fresh (d : Dev) (c : Nat) (f : Cluster → Cluster) : (d.modCluster c f).fresh = d.fresh := rfl
@[simp] theorem Dev.modDie_time (d : Dev) (c : Nat) (f : Die → Die) : (d.modDie c f).time = d.time := rfl
@[simp] theorem Dev.modDie_groups (d : Dev) (c : Nat) (f : Die → Die) : (d.modDie c f).groups = d.groups := rfl
@[simp] theorem Dev.modDie_tasks (d : Dev) (c : Nat) (f : Die → Die) : (d.modDie c f).tasks = d.tasks := rfl
@[simp] theorem Dev.modDie_grids (d : Dev) (c : Nat) (f : Die → Die) : (d.modDie c f).grids = d.grids := rfl
@[simp] theorem Dev.modDie_gangs (d : Dev) (c : Nat) (f : Die → Die) : (d.modDie c f).gangs = d.gangs := rfl
@[simp] theorem Dev.modDie_ops (d : Dev) (c : Nat) (f : Die → Die) : (d.modDie c f).ops = d.ops := rfl
@[simp] theorem Dev.modDie_cores (d : Dev) (c : Nat) (f : Die → Die) : (d.modDie c f).cores = d.cores := rfl
@[simp] theorem Dev.modDie_pairs (d : Dev) (c : Nat) (f : Die → Die) : (d.modDie c f).pairs = d.pairs := rfl
@[simp] theorem Dev.modDie_clusters (d : Dev) (c : Nat) (f : Die → Die) : (d.modDie c f).clusters = d.clusters := rfl
@[simp] theorem Dev.modDie_dies (d : Dev) (c : Nat) (f : Die → Die) : (d.modDie c f).dies = Tab.insert d.dies c (f (d.die c)) := rfl
@[simp] theorem Dev.modDie_hbm (d : Dev) (c : Nat) (f : Die → Die) : (d.modDie c f).hbm = d.hbm := rfl
@[simp] theorem Dev.modDie_cxl (d : Dev) (c : Nat) (f : Die → Die) : (d.modDie c f).cxl = d.cxl := rfl
@[simp] theorem Dev.modDie_kmem (d : Dev) (c : Nat) (f : Die → Die) : (d.modDie c f).kmem = d.kmem := rfl
@[simp] theorem Dev.modDie_frames (d : Dev) (c : Nat) (f : Die → Die) : (d.modDie c f).frames = d.frames := rfl
@[simp] theorem Dev.modDie_kframes (d : Dev) (c : Nat) (f : Die → Die) : (d.modDie c f).kframes = d.kframes := rfl
@[simp] theorem Dev.modDie_poison (d : Dev) (c : Nat) (f : Die → Die) : (d.modDie c f).poison = d.poison := rfl
@[simp] theorem Dev.modDie_raw (d : Dev) (c : Nat) (f : Die → Die) : (d.modDie c f).raw = d.raw := rfl
@[simp] theorem Dev.modDie_lineWriter (d : Dev) (c : Nat) (f : Die → Die) : (d.modDie c f).lineWriter = d.lineWriter := rfl
@[simp] theorem Dev.modDie_queues (d : Dev) (c : Nat) (f : Die → Die) : (d.modDie c f).queues = d.queues := rfl
@[simp] theorem Dev.modDie_boxes (d : Dev) (c : Nat) (f : Die → Die) : (d.modDie c f).boxes = d.boxes := rfl
@[simp] theorem Dev.modDie_tokens (d : Dev) (c : Nat) (f : Die → Die) : (d.modDie c f).tokens = d.tokens := rfl
@[simp] theorem Dev.modDie_keys (d : Dev) (c : Nat) (f : Die → Die) : (d.modDie c f).keys = d.keys := rfl
@[simp] theorem Dev.modDie_links (d : Dev) (c : Nat) (f : Die → Die) : (d.modDie c f).links = d.links := rfl
@[simp] theorem Dev.modDie_sessions (d : Dev) (c : Nat) (f : Die → Die) : (d.modDie c f).sessions = d.sessions := rfl
@[simp] theorem Dev.modDie_windows (d : Dev) (c : Nat) (f : Die → Die) : (d.modDie c f).windows = d.windows := rfl
@[simp] theorem Dev.modDie_owned (d : Dev) (c : Nat) (f : Die → Die) : (d.modDie c f).owned = d.owned := rfl
@[simp] theorem Dev.modDie_posted (d : Dev) (c : Nat) (f : Die → Die) : (d.modDie c f).posted = d.posted := rfl
@[simp] theorem Dev.modDie_requests (d : Dev) (c : Nat) (f : Die → Die) : (d.modDie c f).requests = d.requests := rfl
@[simp] theorem Dev.modDie_performedTags (d : Dev) (c : Nat) (f : Die → Die) : (d.modDie c f).performedTags = d.performedTags := rfl
@[simp] theorem Dev.modDie_stranded (d : Dev) (c : Nat) (f : Die → Die) : (d.modDie c f).stranded = d.stranded := rfl
@[simp] theorem Dev.modDie_routes (d : Dev) (c : Nat) (f : Die → Die) : (d.modDie c f).routes = d.routes := rfl
@[simp] theorem Dev.modDie_policy (d : Dev) (c : Nat) (f : Die → Die) : (d.modDie c f).policy = d.policy := rfl
@[simp] theorem Dev.modDie_scrubAt (d : Dev) (c : Nat) (f : Die → Die) : (d.modDie c f).scrubAt = d.scrubAt := rfl
@[simp] theorem Dev.modDie_gangMode (d : Dev) (c : Nat) (f : Die → Die) : (d.modDie c f).gangMode = d.gangMode := rfl
@[simp] theorem Dev.modDie_peerId (d : Dev) (c : Nat) (f : Die → Die) : (d.modDie c f).peerId = d.peerId := rfl
@[simp] theorem Dev.modDie_sweeps (d : Dev) (c : Nat) (f : Die → Die) : (d.modDie c f).sweeps = d.sweeps := rfl
@[simp] theorem Dev.modDie_expelled (d : Dev) (c : Nat) (f : Die → Die) : (d.modDie c f).expelled = d.expelled := rfl
@[simp] theorem Dev.modDie_wear (d : Dev) (c : Nat) (f : Die → Die) : (d.modDie c f).wear = d.wear := rfl
@[simp] theorem Dev.modDie_wearMram (d : Dev) (c : Nat) (f : Die → Die) : (d.modDie c f).wearMram = d.wearMram := rfl
@[simp] theorem Dev.modDie_commitDue (d : Dev) (c : Nat) (f : Die → Die) : (d.modDie c f).commitDue = d.commitDue := rfl
@[simp] theorem Dev.modDie_target (d : Dev) (c : Nat) (f : Die → Die) : (d.modDie c f).target = d.target := rfl
@[simp] theorem Dev.modDie_lifeNow (d : Dev) (c : Nat) (f : Die → Die) : (d.modDie c f).lifeNow = d.lifeNow := rfl
@[simp] theorem Dev.modDie_serviceMs (d : Dev) (c : Nat) (f : Die → Die) : (d.modDie c f).serviceMs = d.serviceMs := rfl
@[simp] theorem Dev.modDie_grants (d : Dev) (c : Nat) (f : Die → Die) : (d.modDie c f).grants = d.grants := rfl
@[simp] theorem Dev.modDie_lastGrant (d : Dev) (c : Nat) (f : Die → Die) : (d.modDie c f).lastGrant = d.lastGrant := rfl
@[simp] theorem Dev.modDie_changes (d : Dev) (c : Nat) (f : Die → Die) : (d.modDie c f).changes = d.changes := rfl
@[simp] theorem Dev.modDie_throttled (d : Dev) (c : Nat) (f : Die → Die) : (d.modDie c f).throttled = d.throttled := rfl
@[simp] theorem Dev.modDie_throttleClear (d : Dev) (c : Nat) (f : Die → Die) : (d.modDie c f).throttleClear = d.throttleClear := rfl
@[simp] theorem Dev.modDie_powerW (d : Dev) (c : Nat) (f : Die → Die) : (d.modDie c f).powerW = d.powerW := rfl
@[simp] theorem Dev.modDie_budgets (d : Dev) (c : Nat) (f : Die → Die) : (d.modDie c f).budgets = d.budgets := rfl
@[simp] theorem Dev.modDie_spent (d : Dev) (c : Nat) (f : Die → Die) : (d.modDie c f).spent = d.spent := rfl
@[simp] theorem Dev.modDie_period (d : Dev) (c : Nat) (f : Die → Die) : (d.modDie c f).period = d.period := rfl
@[simp] theorem Dev.modDie_params (d : Dev) (c : Nat) (f : Die → Die) : (d.modDie c f).params = d.params := rfl
@[simp] theorem Dev.modDie_handlers (d : Dev) (c : Nat) (f : Die → Die) : (d.modDie c f).handlers = d.handlers := rfl
@[simp] theorem Dev.modDie_log (d : Dev) (c : Nat) (f : Die → Die) : (d.modDie c f).log = d.log := rfl
@[simp] theorem Dev.modDie_logCounts (d : Dev) (c : Nat) (f : Die → Die) : (d.modDie c f).logCounts = d.logCounts := rfl
@[simp] theorem Dev.modDie_repairs (d : Dev) (c : Nat) (f : Die → Die) : (d.modDie c f).repairs = d.repairs := rfl
@[simp] theorem Dev.modDie_remapped (d : Dev) (c : Nat) (f : Die → Die) : (d.modDie c f).remapped = d.remapped := rfl
@[simp] theorem Dev.modDie_probes (d : Dev) (c : Nat) (f : Die → Die) : (d.modDie c f).probes = d.probes := rfl
@[simp] theorem Dev.modDie_mgmt (d : Dev) (c : Nat) (f : Die → Die) : (d.modDie c f).mgmt = d.mgmt := rfl
@[simp] theorem Dev.modDie_host (d : Dev) (c : Nat) (f : Die → Die) : (d.modDie c f).host = d.host := rfl
@[simp] theorem Dev.modDie_marker (d : Dev) (c : Nat) (f : Die → Die) : (d.modDie c f).marker = d.marker := rfl
@[simp] theorem Dev.modDie_stopped (d : Dev) (c : Nat) (f : Die → Die) : (d.modDie c f).stopped = d.stopped := rfl
@[simp] theorem Dev.modDie_evidence (d : Dev) (c : Nat) (f : Die → Die) : (d.modDie c f).evidence = d.evidence := rfl
@[simp] theorem Dev.modDie_nextLaunch (d : Dev) (c : Nat) (f : Die → Die) : (d.modDie c f).nextLaunch = d.nextLaunch := rfl
@[simp] theorem Dev.modDie_nextTask (d : Dev) (c : Nat) (f : Die → Die) : (d.modDie c f).nextTask = d.nextTask := rfl
@[simp] theorem Dev.modDie_nextOp (d : Dev) (c : Nat) (f : Die → Die) : (d.modDie c f).nextOp = d.nextOp := rfl
@[simp] theorem Dev.modDie_nextTag (d : Dev) (c : Nat) (f : Die → Die) : (d.modDie c f).nextTag = d.nextTag := rfl
@[simp] theorem Dev.modDie_nextTicket (d : Dev) (c : Nat) (f : Die → Die) : (d.modDie c f).nextTicket = d.nextTicket := rfl
@[simp] theorem Dev.modDie_moves (d : Dev) (c : Nat) (f : Die → Die) : (d.modDie c f).moves = d.moves := rfl
@[simp] theorem Dev.modDie_l2 (d : Dev) (c : Nat) (f : Die → Die) : (d.modDie c f).l2 = d.l2 := rfl
@[simp] theorem Dev.modDie_hostCopies (d : Dev) (c : Nat) (f : Die → Die) : (d.modDie c f).hostCopies = d.hostCopies := rfl
@[simp] theorem Dev.modDie_lastTicket (d : Dev) (c : Nat) (f : Die → Die) : (d.modDie c f).lastTicket = d.lastTicket := rfl
@[simp] theorem Dev.modDie_nextOrder (d : Dev) (c : Nat) (f : Die → Die) : (d.modDie c f).nextOrder = d.nextOrder := rfl
@[simp] theorem Dev.modDie_nextProbe (d : Dev) (c : Nat) (f : Die → Die) : (d.modDie c f).nextProbe = d.nextProbe := rfl
@[simp] theorem Dev.modDie_nextChange (d : Dev) (c : Nat) (f : Die → Die) : (d.modDie c f).nextChange = d.nextChange := rfl
@[simp] theorem Dev.modDie_nextEntry (d : Dev) (c : Nat) (f : Die → Die) : (d.modDie c f).nextEntry = d.nextEntry := rfl
@[simp] theorem Dev.modDie_ageTime (d : Dev) (c : Nat) (f : Die → Die) : (d.modDie c f).ageTime = d.ageTime := rfl
@[simp] theorem Dev.modDie_ageSeq (d : Dev) (c : Nat) (f : Die → Die) : (d.modDie c f).ageSeq = d.ageSeq := rfl
@[simp] theorem Dev.modDie_turn (d : Dev) (c : Nat) (f : Die → Die) : (d.modDie c f).turn = d.turn := rfl
@[simp] theorem Dev.modDie_alarmAt (d : Dev) (c : Nat) (f : Die → Die) : (d.modDie c f).alarmAt = d.alarmAt := rfl
@[simp] theorem Dev.modDie_busy (d : Dev) (c : Nat) (f : Die → Die) : (d.modDie c f).busy = d.busy := rfl
@[simp] theorem Dev.modDie_sampled (d : Dev) (c : Nat) (f : Die → Die) : (d.modDie c f).sampled = d.sampled := rfl
@[simp] theorem Dev.modDie_sampledAt (d : Dev) (c : Nat) (f : Die → Die) : (d.modDie c f).sampledAt = d.sampledAt := rfl
@[simp] theorem Dev.modDie_cxlCounts (d : Dev) (c : Nat) (f : Die → Die) : (d.modDie c f).cxlCounts = d.cxlCounts := rfl
@[simp] theorem Dev.modDie_fresh (d : Dev) (c : Nat) (f : Die → Die) : (d.modDie c f).fresh = d.fresh := rfl
@[simp] theorem Dev.modQueue_time (d : Dev) (c : Nat) (f : Queue → Queue) : (d.modQueue c f).time = d.time := rfl
@[simp] theorem Dev.modQueue_groups (d : Dev) (c : Nat) (f : Queue → Queue) : (d.modQueue c f).groups = d.groups := rfl
@[simp] theorem Dev.modQueue_tasks (d : Dev) (c : Nat) (f : Queue → Queue) : (d.modQueue c f).tasks = d.tasks := rfl
@[simp] theorem Dev.modQueue_grids (d : Dev) (c : Nat) (f : Queue → Queue) : (d.modQueue c f).grids = d.grids := rfl
@[simp] theorem Dev.modQueue_gangs (d : Dev) (c : Nat) (f : Queue → Queue) : (d.modQueue c f).gangs = d.gangs := rfl
@[simp] theorem Dev.modQueue_ops (d : Dev) (c : Nat) (f : Queue → Queue) : (d.modQueue c f).ops = d.ops := rfl
@[simp] theorem Dev.modQueue_cores (d : Dev) (c : Nat) (f : Queue → Queue) : (d.modQueue c f).cores = d.cores := rfl
@[simp] theorem Dev.modQueue_pairs (d : Dev) (c : Nat) (f : Queue → Queue) : (d.modQueue c f).pairs = d.pairs := rfl
@[simp] theorem Dev.modQueue_clusters (d : Dev) (c : Nat) (f : Queue → Queue) : (d.modQueue c f).clusters = d.clusters := rfl
@[simp] theorem Dev.modQueue_dies (d : Dev) (c : Nat) (f : Queue → Queue) : (d.modQueue c f).dies = d.dies := rfl
@[simp] theorem Dev.modQueue_hbm (d : Dev) (c : Nat) (f : Queue → Queue) : (d.modQueue c f).hbm = d.hbm := rfl
@[simp] theorem Dev.modQueue_cxl (d : Dev) (c : Nat) (f : Queue → Queue) : (d.modQueue c f).cxl = d.cxl := rfl
@[simp] theorem Dev.modQueue_kmem (d : Dev) (c : Nat) (f : Queue → Queue) : (d.modQueue c f).kmem = d.kmem := rfl
@[simp] theorem Dev.modQueue_frames (d : Dev) (c : Nat) (f : Queue → Queue) : (d.modQueue c f).frames = d.frames := rfl
@[simp] theorem Dev.modQueue_kframes (d : Dev) (c : Nat) (f : Queue → Queue) : (d.modQueue c f).kframes = d.kframes := rfl
@[simp] theorem Dev.modQueue_poison (d : Dev) (c : Nat) (f : Queue → Queue) : (d.modQueue c f).poison = d.poison := rfl
@[simp] theorem Dev.modQueue_raw (d : Dev) (c : Nat) (f : Queue → Queue) : (d.modQueue c f).raw = d.raw := rfl
@[simp] theorem Dev.modQueue_lineWriter (d : Dev) (c : Nat) (f : Queue → Queue) : (d.modQueue c f).lineWriter = d.lineWriter := rfl
@[simp] theorem Dev.modQueue_queues (d : Dev) (c : Nat) (f : Queue → Queue) : (d.modQueue c f).queues = Tab.insert d.queues c (f (d.queue c)) := rfl
@[simp] theorem Dev.modQueue_boxes (d : Dev) (c : Nat) (f : Queue → Queue) : (d.modQueue c f).boxes = d.boxes := rfl
@[simp] theorem Dev.modQueue_tokens (d : Dev) (c : Nat) (f : Queue → Queue) : (d.modQueue c f).tokens = d.tokens := rfl
@[simp] theorem Dev.modQueue_keys (d : Dev) (c : Nat) (f : Queue → Queue) : (d.modQueue c f).keys = d.keys := rfl
@[simp] theorem Dev.modQueue_links (d : Dev) (c : Nat) (f : Queue → Queue) : (d.modQueue c f).links = d.links := rfl
@[simp] theorem Dev.modQueue_sessions (d : Dev) (c : Nat) (f : Queue → Queue) : (d.modQueue c f).sessions = d.sessions := rfl
@[simp] theorem Dev.modQueue_windows (d : Dev) (c : Nat) (f : Queue → Queue) : (d.modQueue c f).windows = d.windows := rfl
@[simp] theorem Dev.modQueue_owned (d : Dev) (c : Nat) (f : Queue → Queue) : (d.modQueue c f).owned = d.owned := rfl
@[simp] theorem Dev.modQueue_posted (d : Dev) (c : Nat) (f : Queue → Queue) : (d.modQueue c f).posted = d.posted := rfl
@[simp] theorem Dev.modQueue_requests (d : Dev) (c : Nat) (f : Queue → Queue) : (d.modQueue c f).requests = d.requests := rfl
@[simp] theorem Dev.modQueue_performedTags (d : Dev) (c : Nat) (f : Queue → Queue) : (d.modQueue c f).performedTags = d.performedTags := rfl
@[simp] theorem Dev.modQueue_stranded (d : Dev) (c : Nat) (f : Queue → Queue) : (d.modQueue c f).stranded = d.stranded := rfl
@[simp] theorem Dev.modQueue_routes (d : Dev) (c : Nat) (f : Queue → Queue) : (d.modQueue c f).routes = d.routes := rfl
@[simp] theorem Dev.modQueue_policy (d : Dev) (c : Nat) (f : Queue → Queue) : (d.modQueue c f).policy = d.policy := rfl
@[simp] theorem Dev.modQueue_scrubAt (d : Dev) (c : Nat) (f : Queue → Queue) : (d.modQueue c f).scrubAt = d.scrubAt := rfl
@[simp] theorem Dev.modQueue_gangMode (d : Dev) (c : Nat) (f : Queue → Queue) : (d.modQueue c f).gangMode = d.gangMode := rfl
@[simp] theorem Dev.modQueue_peerId (d : Dev) (c : Nat) (f : Queue → Queue) : (d.modQueue c f).peerId = d.peerId := rfl
@[simp] theorem Dev.modQueue_sweeps (d : Dev) (c : Nat) (f : Queue → Queue) : (d.modQueue c f).sweeps = d.sweeps := rfl
@[simp] theorem Dev.modQueue_expelled (d : Dev) (c : Nat) (f : Queue → Queue) : (d.modQueue c f).expelled = d.expelled := rfl
@[simp] theorem Dev.modQueue_wear (d : Dev) (c : Nat) (f : Queue → Queue) : (d.modQueue c f).wear = d.wear := rfl
@[simp] theorem Dev.modQueue_wearMram (d : Dev) (c : Nat) (f : Queue → Queue) : (d.modQueue c f).wearMram = d.wearMram := rfl
@[simp] theorem Dev.modQueue_commitDue (d : Dev) (c : Nat) (f : Queue → Queue) : (d.modQueue c f).commitDue = d.commitDue := rfl
@[simp] theorem Dev.modQueue_target (d : Dev) (c : Nat) (f : Queue → Queue) : (d.modQueue c f).target = d.target := rfl
@[simp] theorem Dev.modQueue_lifeNow (d : Dev) (c : Nat) (f : Queue → Queue) : (d.modQueue c f).lifeNow = d.lifeNow := rfl
@[simp] theorem Dev.modQueue_serviceMs (d : Dev) (c : Nat) (f : Queue → Queue) : (d.modQueue c f).serviceMs = d.serviceMs := rfl
@[simp] theorem Dev.modQueue_grants (d : Dev) (c : Nat) (f : Queue → Queue) : (d.modQueue c f).grants = d.grants := rfl
@[simp] theorem Dev.modQueue_lastGrant (d : Dev) (c : Nat) (f : Queue → Queue) : (d.modQueue c f).lastGrant = d.lastGrant := rfl
@[simp] theorem Dev.modQueue_changes (d : Dev) (c : Nat) (f : Queue → Queue) : (d.modQueue c f).changes = d.changes := rfl
@[simp] theorem Dev.modQueue_throttled (d : Dev) (c : Nat) (f : Queue → Queue) : (d.modQueue c f).throttled = d.throttled := rfl
@[simp] theorem Dev.modQueue_throttleClear (d : Dev) (c : Nat) (f : Queue → Queue) : (d.modQueue c f).throttleClear = d.throttleClear := rfl
@[simp] theorem Dev.modQueue_powerW (d : Dev) (c : Nat) (f : Queue → Queue) : (d.modQueue c f).powerW = d.powerW := rfl
@[simp] theorem Dev.modQueue_budgets (d : Dev) (c : Nat) (f : Queue → Queue) : (d.modQueue c f).budgets = d.budgets := rfl
@[simp] theorem Dev.modQueue_spent (d : Dev) (c : Nat) (f : Queue → Queue) : (d.modQueue c f).spent = d.spent := rfl
@[simp] theorem Dev.modQueue_period (d : Dev) (c : Nat) (f : Queue → Queue) : (d.modQueue c f).period = d.period := rfl
@[simp] theorem Dev.modQueue_params (d : Dev) (c : Nat) (f : Queue → Queue) : (d.modQueue c f).params = d.params := rfl
@[simp] theorem Dev.modQueue_handlers (d : Dev) (c : Nat) (f : Queue → Queue) : (d.modQueue c f).handlers = d.handlers := rfl
@[simp] theorem Dev.modQueue_log (d : Dev) (c : Nat) (f : Queue → Queue) : (d.modQueue c f).log = d.log := rfl
@[simp] theorem Dev.modQueue_logCounts (d : Dev) (c : Nat) (f : Queue → Queue) : (d.modQueue c f).logCounts = d.logCounts := rfl
@[simp] theorem Dev.modQueue_repairs (d : Dev) (c : Nat) (f : Queue → Queue) : (d.modQueue c f).repairs = d.repairs := rfl
@[simp] theorem Dev.modQueue_remapped (d : Dev) (c : Nat) (f : Queue → Queue) : (d.modQueue c f).remapped = d.remapped := rfl
@[simp] theorem Dev.modQueue_probes (d : Dev) (c : Nat) (f : Queue → Queue) : (d.modQueue c f).probes = d.probes := rfl
@[simp] theorem Dev.modQueue_mgmt (d : Dev) (c : Nat) (f : Queue → Queue) : (d.modQueue c f).mgmt = d.mgmt := rfl
@[simp] theorem Dev.modQueue_host (d : Dev) (c : Nat) (f : Queue → Queue) : (d.modQueue c f).host = d.host := rfl
@[simp] theorem Dev.modQueue_marker (d : Dev) (c : Nat) (f : Queue → Queue) : (d.modQueue c f).marker = d.marker := rfl
@[simp] theorem Dev.modQueue_stopped (d : Dev) (c : Nat) (f : Queue → Queue) : (d.modQueue c f).stopped = d.stopped := rfl
@[simp] theorem Dev.modQueue_evidence (d : Dev) (c : Nat) (f : Queue → Queue) : (d.modQueue c f).evidence = d.evidence := rfl
@[simp] theorem Dev.modQueue_nextLaunch (d : Dev) (c : Nat) (f : Queue → Queue) : (d.modQueue c f).nextLaunch = d.nextLaunch := rfl
@[simp] theorem Dev.modQueue_nextTask (d : Dev) (c : Nat) (f : Queue → Queue) : (d.modQueue c f).nextTask = d.nextTask := rfl
@[simp] theorem Dev.modQueue_nextOp (d : Dev) (c : Nat) (f : Queue → Queue) : (d.modQueue c f).nextOp = d.nextOp := rfl
@[simp] theorem Dev.modQueue_nextTag (d : Dev) (c : Nat) (f : Queue → Queue) : (d.modQueue c f).nextTag = d.nextTag := rfl
@[simp] theorem Dev.modQueue_nextTicket (d : Dev) (c : Nat) (f : Queue → Queue) : (d.modQueue c f).nextTicket = d.nextTicket := rfl
@[simp] theorem Dev.modQueue_moves (d : Dev) (c : Nat) (f : Queue → Queue) : (d.modQueue c f).moves = d.moves := rfl
@[simp] theorem Dev.modQueue_l2 (d : Dev) (c : Nat) (f : Queue → Queue) : (d.modQueue c f).l2 = d.l2 := rfl
@[simp] theorem Dev.modQueue_hostCopies (d : Dev) (c : Nat) (f : Queue → Queue) : (d.modQueue c f).hostCopies = d.hostCopies := rfl
@[simp] theorem Dev.modQueue_lastTicket (d : Dev) (c : Nat) (f : Queue → Queue) : (d.modQueue c f).lastTicket = d.lastTicket := rfl
@[simp] theorem Dev.modQueue_nextOrder (d : Dev) (c : Nat) (f : Queue → Queue) : (d.modQueue c f).nextOrder = d.nextOrder := rfl
@[simp] theorem Dev.modQueue_nextProbe (d : Dev) (c : Nat) (f : Queue → Queue) : (d.modQueue c f).nextProbe = d.nextProbe := rfl
@[simp] theorem Dev.modQueue_nextChange (d : Dev) (c : Nat) (f : Queue → Queue) : (d.modQueue c f).nextChange = d.nextChange := rfl
@[simp] theorem Dev.modQueue_nextEntry (d : Dev) (c : Nat) (f : Queue → Queue) : (d.modQueue c f).nextEntry = d.nextEntry := rfl
@[simp] theorem Dev.modQueue_ageTime (d : Dev) (c : Nat) (f : Queue → Queue) : (d.modQueue c f).ageTime = d.ageTime := rfl
@[simp] theorem Dev.modQueue_ageSeq (d : Dev) (c : Nat) (f : Queue → Queue) : (d.modQueue c f).ageSeq = d.ageSeq := rfl
@[simp] theorem Dev.modQueue_turn (d : Dev) (c : Nat) (f : Queue → Queue) : (d.modQueue c f).turn = d.turn := rfl
@[simp] theorem Dev.modQueue_alarmAt (d : Dev) (c : Nat) (f : Queue → Queue) : (d.modQueue c f).alarmAt = d.alarmAt := rfl
@[simp] theorem Dev.modQueue_busy (d : Dev) (c : Nat) (f : Queue → Queue) : (d.modQueue c f).busy = d.busy := rfl
@[simp] theorem Dev.modQueue_sampled (d : Dev) (c : Nat) (f : Queue → Queue) : (d.modQueue c f).sampled = d.sampled := rfl
@[simp] theorem Dev.modQueue_sampledAt (d : Dev) (c : Nat) (f : Queue → Queue) : (d.modQueue c f).sampledAt = d.sampledAt := rfl
@[simp] theorem Dev.modQueue_cxlCounts (d : Dev) (c : Nat) (f : Queue → Queue) : (d.modQueue c f).cxlCounts = d.cxlCounts := rfl
@[simp] theorem Dev.modQueue_fresh (d : Dev) (c : Nat) (f : Queue → Queue) : (d.modQueue c f).fresh = d.fresh := rfl
@[simp] theorem Dev.modBox_time (d : Dev) (c : Nat) (f : Mailbox → Mailbox) : (d.modBox c f).time = d.time := rfl
@[simp] theorem Dev.modBox_groups (d : Dev) (c : Nat) (f : Mailbox → Mailbox) : (d.modBox c f).groups = d.groups := rfl
@[simp] theorem Dev.modBox_tasks (d : Dev) (c : Nat) (f : Mailbox → Mailbox) : (d.modBox c f).tasks = d.tasks := rfl
@[simp] theorem Dev.modBox_grids (d : Dev) (c : Nat) (f : Mailbox → Mailbox) : (d.modBox c f).grids = d.grids := rfl
@[simp] theorem Dev.modBox_gangs (d : Dev) (c : Nat) (f : Mailbox → Mailbox) : (d.modBox c f).gangs = d.gangs := rfl
@[simp] theorem Dev.modBox_ops (d : Dev) (c : Nat) (f : Mailbox → Mailbox) : (d.modBox c f).ops = d.ops := rfl
@[simp] theorem Dev.modBox_cores (d : Dev) (c : Nat) (f : Mailbox → Mailbox) : (d.modBox c f).cores = d.cores := rfl
@[simp] theorem Dev.modBox_pairs (d : Dev) (c : Nat) (f : Mailbox → Mailbox) : (d.modBox c f).pairs = d.pairs := rfl
@[simp] theorem Dev.modBox_clusters (d : Dev) (c : Nat) (f : Mailbox → Mailbox) : (d.modBox c f).clusters = d.clusters := rfl
@[simp] theorem Dev.modBox_dies (d : Dev) (c : Nat) (f : Mailbox → Mailbox) : (d.modBox c f).dies = d.dies := rfl
@[simp] theorem Dev.modBox_hbm (d : Dev) (c : Nat) (f : Mailbox → Mailbox) : (d.modBox c f).hbm = d.hbm := rfl
@[simp] theorem Dev.modBox_cxl (d : Dev) (c : Nat) (f : Mailbox → Mailbox) : (d.modBox c f).cxl = d.cxl := rfl
@[simp] theorem Dev.modBox_kmem (d : Dev) (c : Nat) (f : Mailbox → Mailbox) : (d.modBox c f).kmem = d.kmem := rfl
@[simp] theorem Dev.modBox_frames (d : Dev) (c : Nat) (f : Mailbox → Mailbox) : (d.modBox c f).frames = d.frames := rfl
@[simp] theorem Dev.modBox_kframes (d : Dev) (c : Nat) (f : Mailbox → Mailbox) : (d.modBox c f).kframes = d.kframes := rfl
@[simp] theorem Dev.modBox_poison (d : Dev) (c : Nat) (f : Mailbox → Mailbox) : (d.modBox c f).poison = d.poison := rfl
@[simp] theorem Dev.modBox_raw (d : Dev) (c : Nat) (f : Mailbox → Mailbox) : (d.modBox c f).raw = d.raw := rfl
@[simp] theorem Dev.modBox_lineWriter (d : Dev) (c : Nat) (f : Mailbox → Mailbox) : (d.modBox c f).lineWriter = d.lineWriter := rfl
@[simp] theorem Dev.modBox_queues (d : Dev) (c : Nat) (f : Mailbox → Mailbox) : (d.modBox c f).queues = d.queues := rfl
@[simp] theorem Dev.modBox_boxes (d : Dev) (c : Nat) (f : Mailbox → Mailbox) : (d.modBox c f).boxes = Tab.insert d.boxes c (f (d.box c)) := rfl
@[simp] theorem Dev.modBox_tokens (d : Dev) (c : Nat) (f : Mailbox → Mailbox) : (d.modBox c f).tokens = d.tokens := rfl
@[simp] theorem Dev.modBox_keys (d : Dev) (c : Nat) (f : Mailbox → Mailbox) : (d.modBox c f).keys = d.keys := rfl
@[simp] theorem Dev.modBox_links (d : Dev) (c : Nat) (f : Mailbox → Mailbox) : (d.modBox c f).links = d.links := rfl
@[simp] theorem Dev.modBox_sessions (d : Dev) (c : Nat) (f : Mailbox → Mailbox) : (d.modBox c f).sessions = d.sessions := rfl
@[simp] theorem Dev.modBox_windows (d : Dev) (c : Nat) (f : Mailbox → Mailbox) : (d.modBox c f).windows = d.windows := rfl
@[simp] theorem Dev.modBox_owned (d : Dev) (c : Nat) (f : Mailbox → Mailbox) : (d.modBox c f).owned = d.owned := rfl
@[simp] theorem Dev.modBox_posted (d : Dev) (c : Nat) (f : Mailbox → Mailbox) : (d.modBox c f).posted = d.posted := rfl
@[simp] theorem Dev.modBox_requests (d : Dev) (c : Nat) (f : Mailbox → Mailbox) : (d.modBox c f).requests = d.requests := rfl
@[simp] theorem Dev.modBox_performedTags (d : Dev) (c : Nat) (f : Mailbox → Mailbox) : (d.modBox c f).performedTags = d.performedTags := rfl
@[simp] theorem Dev.modBox_stranded (d : Dev) (c : Nat) (f : Mailbox → Mailbox) : (d.modBox c f).stranded = d.stranded := rfl
@[simp] theorem Dev.modBox_routes (d : Dev) (c : Nat) (f : Mailbox → Mailbox) : (d.modBox c f).routes = d.routes := rfl
@[simp] theorem Dev.modBox_policy (d : Dev) (c : Nat) (f : Mailbox → Mailbox) : (d.modBox c f).policy = d.policy := rfl
@[simp] theorem Dev.modBox_scrubAt (d : Dev) (c : Nat) (f : Mailbox → Mailbox) : (d.modBox c f).scrubAt = d.scrubAt := rfl
@[simp] theorem Dev.modBox_gangMode (d : Dev) (c : Nat) (f : Mailbox → Mailbox) : (d.modBox c f).gangMode = d.gangMode := rfl
@[simp] theorem Dev.modBox_peerId (d : Dev) (c : Nat) (f : Mailbox → Mailbox) : (d.modBox c f).peerId = d.peerId := rfl
@[simp] theorem Dev.modBox_sweeps (d : Dev) (c : Nat) (f : Mailbox → Mailbox) : (d.modBox c f).sweeps = d.sweeps := rfl
@[simp] theorem Dev.modBox_expelled (d : Dev) (c : Nat) (f : Mailbox → Mailbox) : (d.modBox c f).expelled = d.expelled := rfl
@[simp] theorem Dev.modBox_wear (d : Dev) (c : Nat) (f : Mailbox → Mailbox) : (d.modBox c f).wear = d.wear := rfl
@[simp] theorem Dev.modBox_wearMram (d : Dev) (c : Nat) (f : Mailbox → Mailbox) : (d.modBox c f).wearMram = d.wearMram := rfl
@[simp] theorem Dev.modBox_commitDue (d : Dev) (c : Nat) (f : Mailbox → Mailbox) : (d.modBox c f).commitDue = d.commitDue := rfl
@[simp] theorem Dev.modBox_target (d : Dev) (c : Nat) (f : Mailbox → Mailbox) : (d.modBox c f).target = d.target := rfl
@[simp] theorem Dev.modBox_lifeNow (d : Dev) (c : Nat) (f : Mailbox → Mailbox) : (d.modBox c f).lifeNow = d.lifeNow := rfl
@[simp] theorem Dev.modBox_serviceMs (d : Dev) (c : Nat) (f : Mailbox → Mailbox) : (d.modBox c f).serviceMs = d.serviceMs := rfl
@[simp] theorem Dev.modBox_grants (d : Dev) (c : Nat) (f : Mailbox → Mailbox) : (d.modBox c f).grants = d.grants := rfl
@[simp] theorem Dev.modBox_lastGrant (d : Dev) (c : Nat) (f : Mailbox → Mailbox) : (d.modBox c f).lastGrant = d.lastGrant := rfl
@[simp] theorem Dev.modBox_changes (d : Dev) (c : Nat) (f : Mailbox → Mailbox) : (d.modBox c f).changes = d.changes := rfl
@[simp] theorem Dev.modBox_throttled (d : Dev) (c : Nat) (f : Mailbox → Mailbox) : (d.modBox c f).throttled = d.throttled := rfl
@[simp] theorem Dev.modBox_throttleClear (d : Dev) (c : Nat) (f : Mailbox → Mailbox) : (d.modBox c f).throttleClear = d.throttleClear := rfl
@[simp] theorem Dev.modBox_powerW (d : Dev) (c : Nat) (f : Mailbox → Mailbox) : (d.modBox c f).powerW = d.powerW := rfl
@[simp] theorem Dev.modBox_budgets (d : Dev) (c : Nat) (f : Mailbox → Mailbox) : (d.modBox c f).budgets = d.budgets := rfl
@[simp] theorem Dev.modBox_spent (d : Dev) (c : Nat) (f : Mailbox → Mailbox) : (d.modBox c f).spent = d.spent := rfl
@[simp] theorem Dev.modBox_period (d : Dev) (c : Nat) (f : Mailbox → Mailbox) : (d.modBox c f).period = d.period := rfl
@[simp] theorem Dev.modBox_params (d : Dev) (c : Nat) (f : Mailbox → Mailbox) : (d.modBox c f).params = d.params := rfl
@[simp] theorem Dev.modBox_handlers (d : Dev) (c : Nat) (f : Mailbox → Mailbox) : (d.modBox c f).handlers = d.handlers := rfl
@[simp] theorem Dev.modBox_log (d : Dev) (c : Nat) (f : Mailbox → Mailbox) : (d.modBox c f).log = d.log := rfl
@[simp] theorem Dev.modBox_logCounts (d : Dev) (c : Nat) (f : Mailbox → Mailbox) : (d.modBox c f).logCounts = d.logCounts := rfl
@[simp] theorem Dev.modBox_repairs (d : Dev) (c : Nat) (f : Mailbox → Mailbox) : (d.modBox c f).repairs = d.repairs := rfl
@[simp] theorem Dev.modBox_remapped (d : Dev) (c : Nat) (f : Mailbox → Mailbox) : (d.modBox c f).remapped = d.remapped := rfl
@[simp] theorem Dev.modBox_probes (d : Dev) (c : Nat) (f : Mailbox → Mailbox) : (d.modBox c f).probes = d.probes := rfl
@[simp] theorem Dev.modBox_mgmt (d : Dev) (c : Nat) (f : Mailbox → Mailbox) : (d.modBox c f).mgmt = d.mgmt := rfl
@[simp] theorem Dev.modBox_host (d : Dev) (c : Nat) (f : Mailbox → Mailbox) : (d.modBox c f).host = d.host := rfl
@[simp] theorem Dev.modBox_marker (d : Dev) (c : Nat) (f : Mailbox → Mailbox) : (d.modBox c f).marker = d.marker := rfl
@[simp] theorem Dev.modBox_stopped (d : Dev) (c : Nat) (f : Mailbox → Mailbox) : (d.modBox c f).stopped = d.stopped := rfl
@[simp] theorem Dev.modBox_evidence (d : Dev) (c : Nat) (f : Mailbox → Mailbox) : (d.modBox c f).evidence = d.evidence := rfl
@[simp] theorem Dev.modBox_nextLaunch (d : Dev) (c : Nat) (f : Mailbox → Mailbox) : (d.modBox c f).nextLaunch = d.nextLaunch := rfl
@[simp] theorem Dev.modBox_nextTask (d : Dev) (c : Nat) (f : Mailbox → Mailbox) : (d.modBox c f).nextTask = d.nextTask := rfl
@[simp] theorem Dev.modBox_nextOp (d : Dev) (c : Nat) (f : Mailbox → Mailbox) : (d.modBox c f).nextOp = d.nextOp := rfl
@[simp] theorem Dev.modBox_nextTag (d : Dev) (c : Nat) (f : Mailbox → Mailbox) : (d.modBox c f).nextTag = d.nextTag := rfl
@[simp] theorem Dev.modBox_nextTicket (d : Dev) (c : Nat) (f : Mailbox → Mailbox) : (d.modBox c f).nextTicket = d.nextTicket := rfl
@[simp] theorem Dev.modBox_moves (d : Dev) (c : Nat) (f : Mailbox → Mailbox) : (d.modBox c f).moves = d.moves := rfl
@[simp] theorem Dev.modBox_l2 (d : Dev) (c : Nat) (f : Mailbox → Mailbox) : (d.modBox c f).l2 = d.l2 := rfl
@[simp] theorem Dev.modBox_hostCopies (d : Dev) (c : Nat) (f : Mailbox → Mailbox) : (d.modBox c f).hostCopies = d.hostCopies := rfl
@[simp] theorem Dev.modBox_lastTicket (d : Dev) (c : Nat) (f : Mailbox → Mailbox) : (d.modBox c f).lastTicket = d.lastTicket := rfl
@[simp] theorem Dev.modBox_nextOrder (d : Dev) (c : Nat) (f : Mailbox → Mailbox) : (d.modBox c f).nextOrder = d.nextOrder := rfl
@[simp] theorem Dev.modBox_nextProbe (d : Dev) (c : Nat) (f : Mailbox → Mailbox) : (d.modBox c f).nextProbe = d.nextProbe := rfl
@[simp] theorem Dev.modBox_nextChange (d : Dev) (c : Nat) (f : Mailbox → Mailbox) : (d.modBox c f).nextChange = d.nextChange := rfl
@[simp] theorem Dev.modBox_nextEntry (d : Dev) (c : Nat) (f : Mailbox → Mailbox) : (d.modBox c f).nextEntry = d.nextEntry := rfl
@[simp] theorem Dev.modBox_ageTime (d : Dev) (c : Nat) (f : Mailbox → Mailbox) : (d.modBox c f).ageTime = d.ageTime := rfl
@[simp] theorem Dev.modBox_ageSeq (d : Dev) (c : Nat) (f : Mailbox → Mailbox) : (d.modBox c f).ageSeq = d.ageSeq := rfl
@[simp] theorem Dev.modBox_turn (d : Dev) (c : Nat) (f : Mailbox → Mailbox) : (d.modBox c f).turn = d.turn := rfl
@[simp] theorem Dev.modBox_alarmAt (d : Dev) (c : Nat) (f : Mailbox → Mailbox) : (d.modBox c f).alarmAt = d.alarmAt := rfl
@[simp] theorem Dev.modBox_busy (d : Dev) (c : Nat) (f : Mailbox → Mailbox) : (d.modBox c f).busy = d.busy := rfl
@[simp] theorem Dev.modBox_sampled (d : Dev) (c : Nat) (f : Mailbox → Mailbox) : (d.modBox c f).sampled = d.sampled := rfl
@[simp] theorem Dev.modBox_sampledAt (d : Dev) (c : Nat) (f : Mailbox → Mailbox) : (d.modBox c f).sampledAt = d.sampledAt := rfl
@[simp] theorem Dev.modBox_cxlCounts (d : Dev) (c : Nat) (f : Mailbox → Mailbox) : (d.modBox c f).cxlCounts = d.cxlCounts := rfl
@[simp] theorem Dev.modBox_fresh (d : Dev) (c : Nat) (f : Mailbox → Mailbox) : (d.modBox c f).fresh = d.fresh := rfl
@[simp] theorem Dev.modLink_time (d : Dev) (c : Nat) (f : Link → Link) : (d.modLink c f).time = d.time := rfl
@[simp] theorem Dev.modLink_groups (d : Dev) (c : Nat) (f : Link → Link) : (d.modLink c f).groups = d.groups := rfl
@[simp] theorem Dev.modLink_tasks (d : Dev) (c : Nat) (f : Link → Link) : (d.modLink c f).tasks = d.tasks := rfl
@[simp] theorem Dev.modLink_grids (d : Dev) (c : Nat) (f : Link → Link) : (d.modLink c f).grids = d.grids := rfl
@[simp] theorem Dev.modLink_gangs (d : Dev) (c : Nat) (f : Link → Link) : (d.modLink c f).gangs = d.gangs := rfl
@[simp] theorem Dev.modLink_ops (d : Dev) (c : Nat) (f : Link → Link) : (d.modLink c f).ops = d.ops := rfl
@[simp] theorem Dev.modLink_cores (d : Dev) (c : Nat) (f : Link → Link) : (d.modLink c f).cores = d.cores := rfl
@[simp] theorem Dev.modLink_pairs (d : Dev) (c : Nat) (f : Link → Link) : (d.modLink c f).pairs = d.pairs := rfl
@[simp] theorem Dev.modLink_clusters (d : Dev) (c : Nat) (f : Link → Link) : (d.modLink c f).clusters = d.clusters := rfl
@[simp] theorem Dev.modLink_dies (d : Dev) (c : Nat) (f : Link → Link) : (d.modLink c f).dies = d.dies := rfl
@[simp] theorem Dev.modLink_hbm (d : Dev) (c : Nat) (f : Link → Link) : (d.modLink c f).hbm = d.hbm := rfl
@[simp] theorem Dev.modLink_cxl (d : Dev) (c : Nat) (f : Link → Link) : (d.modLink c f).cxl = d.cxl := rfl
@[simp] theorem Dev.modLink_kmem (d : Dev) (c : Nat) (f : Link → Link) : (d.modLink c f).kmem = d.kmem := rfl
@[simp] theorem Dev.modLink_frames (d : Dev) (c : Nat) (f : Link → Link) : (d.modLink c f).frames = d.frames := rfl
@[simp] theorem Dev.modLink_kframes (d : Dev) (c : Nat) (f : Link → Link) : (d.modLink c f).kframes = d.kframes := rfl
@[simp] theorem Dev.modLink_poison (d : Dev) (c : Nat) (f : Link → Link) : (d.modLink c f).poison = d.poison := rfl
@[simp] theorem Dev.modLink_raw (d : Dev) (c : Nat) (f : Link → Link) : (d.modLink c f).raw = d.raw := rfl
@[simp] theorem Dev.modLink_lineWriter (d : Dev) (c : Nat) (f : Link → Link) : (d.modLink c f).lineWriter = d.lineWriter := rfl
@[simp] theorem Dev.modLink_queues (d : Dev) (c : Nat) (f : Link → Link) : (d.modLink c f).queues = d.queues := rfl
@[simp] theorem Dev.modLink_boxes (d : Dev) (c : Nat) (f : Link → Link) : (d.modLink c f).boxes = d.boxes := rfl
@[simp] theorem Dev.modLink_tokens (d : Dev) (c : Nat) (f : Link → Link) : (d.modLink c f).tokens = d.tokens := rfl
@[simp] theorem Dev.modLink_keys (d : Dev) (c : Nat) (f : Link → Link) : (d.modLink c f).keys = d.keys := rfl
@[simp] theorem Dev.modLink_links (d : Dev) (c : Nat) (f : Link → Link) : (d.modLink c f).links = Tab.insert d.links c (f (d.link c)) := rfl
@[simp] theorem Dev.modLink_sessions (d : Dev) (c : Nat) (f : Link → Link) : (d.modLink c f).sessions = d.sessions := rfl
@[simp] theorem Dev.modLink_windows (d : Dev) (c : Nat) (f : Link → Link) : (d.modLink c f).windows = d.windows := rfl
@[simp] theorem Dev.modLink_owned (d : Dev) (c : Nat) (f : Link → Link) : (d.modLink c f).owned = d.owned := rfl
@[simp] theorem Dev.modLink_posted (d : Dev) (c : Nat) (f : Link → Link) : (d.modLink c f).posted = d.posted := rfl
@[simp] theorem Dev.modLink_requests (d : Dev) (c : Nat) (f : Link → Link) : (d.modLink c f).requests = d.requests := rfl
@[simp] theorem Dev.modLink_performedTags (d : Dev) (c : Nat) (f : Link → Link) : (d.modLink c f).performedTags = d.performedTags := rfl
@[simp] theorem Dev.modLink_stranded (d : Dev) (c : Nat) (f : Link → Link) : (d.modLink c f).stranded = d.stranded := rfl
@[simp] theorem Dev.modLink_routes (d : Dev) (c : Nat) (f : Link → Link) : (d.modLink c f).routes = d.routes := rfl
@[simp] theorem Dev.modLink_policy (d : Dev) (c : Nat) (f : Link → Link) : (d.modLink c f).policy = d.policy := rfl
@[simp] theorem Dev.modLink_scrubAt (d : Dev) (c : Nat) (f : Link → Link) : (d.modLink c f).scrubAt = d.scrubAt := rfl
@[simp] theorem Dev.modLink_gangMode (d : Dev) (c : Nat) (f : Link → Link) : (d.modLink c f).gangMode = d.gangMode := rfl
@[simp] theorem Dev.modLink_peerId (d : Dev) (c : Nat) (f : Link → Link) : (d.modLink c f).peerId = d.peerId := rfl
@[simp] theorem Dev.modLink_sweeps (d : Dev) (c : Nat) (f : Link → Link) : (d.modLink c f).sweeps = d.sweeps := rfl
@[simp] theorem Dev.modLink_expelled (d : Dev) (c : Nat) (f : Link → Link) : (d.modLink c f).expelled = d.expelled := rfl
@[simp] theorem Dev.modLink_wear (d : Dev) (c : Nat) (f : Link → Link) : (d.modLink c f).wear = d.wear := rfl
@[simp] theorem Dev.modLink_wearMram (d : Dev) (c : Nat) (f : Link → Link) : (d.modLink c f).wearMram = d.wearMram := rfl
@[simp] theorem Dev.modLink_commitDue (d : Dev) (c : Nat) (f : Link → Link) : (d.modLink c f).commitDue = d.commitDue := rfl
@[simp] theorem Dev.modLink_target (d : Dev) (c : Nat) (f : Link → Link) : (d.modLink c f).target = d.target := rfl
@[simp] theorem Dev.modLink_lifeNow (d : Dev) (c : Nat) (f : Link → Link) : (d.modLink c f).lifeNow = d.lifeNow := rfl
@[simp] theorem Dev.modLink_serviceMs (d : Dev) (c : Nat) (f : Link → Link) : (d.modLink c f).serviceMs = d.serviceMs := rfl
@[simp] theorem Dev.modLink_grants (d : Dev) (c : Nat) (f : Link → Link) : (d.modLink c f).grants = d.grants := rfl
@[simp] theorem Dev.modLink_lastGrant (d : Dev) (c : Nat) (f : Link → Link) : (d.modLink c f).lastGrant = d.lastGrant := rfl
@[simp] theorem Dev.modLink_changes (d : Dev) (c : Nat) (f : Link → Link) : (d.modLink c f).changes = d.changes := rfl
@[simp] theorem Dev.modLink_throttled (d : Dev) (c : Nat) (f : Link → Link) : (d.modLink c f).throttled = d.throttled := rfl
@[simp] theorem Dev.modLink_throttleClear (d : Dev) (c : Nat) (f : Link → Link) : (d.modLink c f).throttleClear = d.throttleClear := rfl
@[simp] theorem Dev.modLink_powerW (d : Dev) (c : Nat) (f : Link → Link) : (d.modLink c f).powerW = d.powerW := rfl
@[simp] theorem Dev.modLink_budgets (d : Dev) (c : Nat) (f : Link → Link) : (d.modLink c f).budgets = d.budgets := rfl
@[simp] theorem Dev.modLink_spent (d : Dev) (c : Nat) (f : Link → Link) : (d.modLink c f).spent = d.spent := rfl
@[simp] theorem Dev.modLink_period (d : Dev) (c : Nat) (f : Link → Link) : (d.modLink c f).period = d.period := rfl
@[simp] theorem Dev.modLink_params (d : Dev) (c : Nat) (f : Link → Link) : (d.modLink c f).params = d.params := rfl
@[simp] theorem Dev.modLink_handlers (d : Dev) (c : Nat) (f : Link → Link) : (d.modLink c f).handlers = d.handlers := rfl
@[simp] theorem Dev.modLink_log (d : Dev) (c : Nat) (f : Link → Link) : (d.modLink c f).log = d.log := rfl
@[simp] theorem Dev.modLink_logCounts (d : Dev) (c : Nat) (f : Link → Link) : (d.modLink c f).logCounts = d.logCounts := rfl
@[simp] theorem Dev.modLink_repairs (d : Dev) (c : Nat) (f : Link → Link) : (d.modLink c f).repairs = d.repairs := rfl
@[simp] theorem Dev.modLink_remapped (d : Dev) (c : Nat) (f : Link → Link) : (d.modLink c f).remapped = d.remapped := rfl
@[simp] theorem Dev.modLink_probes (d : Dev) (c : Nat) (f : Link → Link) : (d.modLink c f).probes = d.probes := rfl
@[simp] theorem Dev.modLink_mgmt (d : Dev) (c : Nat) (f : Link → Link) : (d.modLink c f).mgmt = d.mgmt := rfl
@[simp] theorem Dev.modLink_host (d : Dev) (c : Nat) (f : Link → Link) : (d.modLink c f).host = d.host := rfl
@[simp] theorem Dev.modLink_marker (d : Dev) (c : Nat) (f : Link → Link) : (d.modLink c f).marker = d.marker := rfl
@[simp] theorem Dev.modLink_stopped (d : Dev) (c : Nat) (f : Link → Link) : (d.modLink c f).stopped = d.stopped := rfl
@[simp] theorem Dev.modLink_evidence (d : Dev) (c : Nat) (f : Link → Link) : (d.modLink c f).evidence = d.evidence := rfl
@[simp] theorem Dev.modLink_nextLaunch (d : Dev) (c : Nat) (f : Link → Link) : (d.modLink c f).nextLaunch = d.nextLaunch := rfl
@[simp] theorem Dev.modLink_nextTask (d : Dev) (c : Nat) (f : Link → Link) : (d.modLink c f).nextTask = d.nextTask := rfl
@[simp] theorem Dev.modLink_nextOp (d : Dev) (c : Nat) (f : Link → Link) : (d.modLink c f).nextOp = d.nextOp := rfl
@[simp] theorem Dev.modLink_nextTag (d : Dev) (c : Nat) (f : Link → Link) : (d.modLink c f).nextTag = d.nextTag := rfl
@[simp] theorem Dev.modLink_nextTicket (d : Dev) (c : Nat) (f : Link → Link) : (d.modLink c f).nextTicket = d.nextTicket := rfl
@[simp] theorem Dev.modLink_moves (d : Dev) (c : Nat) (f : Link → Link) : (d.modLink c f).moves = d.moves := rfl
@[simp] theorem Dev.modLink_l2 (d : Dev) (c : Nat) (f : Link → Link) : (d.modLink c f).l2 = d.l2 := rfl
@[simp] theorem Dev.modLink_hostCopies (d : Dev) (c : Nat) (f : Link → Link) : (d.modLink c f).hostCopies = d.hostCopies := rfl
@[simp] theorem Dev.modLink_lastTicket (d : Dev) (c : Nat) (f : Link → Link) : (d.modLink c f).lastTicket = d.lastTicket := rfl
@[simp] theorem Dev.modLink_nextOrder (d : Dev) (c : Nat) (f : Link → Link) : (d.modLink c f).nextOrder = d.nextOrder := rfl
@[simp] theorem Dev.modLink_nextProbe (d : Dev) (c : Nat) (f : Link → Link) : (d.modLink c f).nextProbe = d.nextProbe := rfl
@[simp] theorem Dev.modLink_nextChange (d : Dev) (c : Nat) (f : Link → Link) : (d.modLink c f).nextChange = d.nextChange := rfl
@[simp] theorem Dev.modLink_nextEntry (d : Dev) (c : Nat) (f : Link → Link) : (d.modLink c f).nextEntry = d.nextEntry := rfl
@[simp] theorem Dev.modLink_ageTime (d : Dev) (c : Nat) (f : Link → Link) : (d.modLink c f).ageTime = d.ageTime := rfl
@[simp] theorem Dev.modLink_ageSeq (d : Dev) (c : Nat) (f : Link → Link) : (d.modLink c f).ageSeq = d.ageSeq := rfl
@[simp] theorem Dev.modLink_turn (d : Dev) (c : Nat) (f : Link → Link) : (d.modLink c f).turn = d.turn := rfl
@[simp] theorem Dev.modLink_alarmAt (d : Dev) (c : Nat) (f : Link → Link) : (d.modLink c f).alarmAt = d.alarmAt := rfl
@[simp] theorem Dev.modLink_busy (d : Dev) (c : Nat) (f : Link → Link) : (d.modLink c f).busy = d.busy := rfl
@[simp] theorem Dev.modLink_sampled (d : Dev) (c : Nat) (f : Link → Link) : (d.modLink c f).sampled = d.sampled := rfl
@[simp] theorem Dev.modLink_sampledAt (d : Dev) (c : Nat) (f : Link → Link) : (d.modLink c f).sampledAt = d.sampledAt := rfl
@[simp] theorem Dev.modLink_cxlCounts (d : Dev) (c : Nat) (f : Link → Link) : (d.modLink c f).cxlCounts = d.cxlCounts := rfl
@[simp] theorem Dev.modLink_fresh (d : Dev) (c : Nat) (f : Link → Link) : (d.modLink c f).fresh = d.fresh := rfl
@[simp] theorem Dev.modFrame_time (d : Dev) (c : Nat) (f : Frame → Frame) : (d.modFrame c f).time = d.time := rfl
@[simp] theorem Dev.modFrame_groups (d : Dev) (c : Nat) (f : Frame → Frame) : (d.modFrame c f).groups = d.groups := rfl
@[simp] theorem Dev.modFrame_tasks (d : Dev) (c : Nat) (f : Frame → Frame) : (d.modFrame c f).tasks = d.tasks := rfl
@[simp] theorem Dev.modFrame_grids (d : Dev) (c : Nat) (f : Frame → Frame) : (d.modFrame c f).grids = d.grids := rfl
@[simp] theorem Dev.modFrame_gangs (d : Dev) (c : Nat) (f : Frame → Frame) : (d.modFrame c f).gangs = d.gangs := rfl
@[simp] theorem Dev.modFrame_ops (d : Dev) (c : Nat) (f : Frame → Frame) : (d.modFrame c f).ops = d.ops := rfl
@[simp] theorem Dev.modFrame_cores (d : Dev) (c : Nat) (f : Frame → Frame) : (d.modFrame c f).cores = d.cores := rfl
@[simp] theorem Dev.modFrame_pairs (d : Dev) (c : Nat) (f : Frame → Frame) : (d.modFrame c f).pairs = d.pairs := rfl
@[simp] theorem Dev.modFrame_clusters (d : Dev) (c : Nat) (f : Frame → Frame) : (d.modFrame c f).clusters = d.clusters := rfl
@[simp] theorem Dev.modFrame_dies (d : Dev) (c : Nat) (f : Frame → Frame) : (d.modFrame c f).dies = d.dies := rfl
@[simp] theorem Dev.modFrame_hbm (d : Dev) (c : Nat) (f : Frame → Frame) : (d.modFrame c f).hbm = d.hbm := rfl
@[simp] theorem Dev.modFrame_cxl (d : Dev) (c : Nat) (f : Frame → Frame) : (d.modFrame c f).cxl = d.cxl := rfl
@[simp] theorem Dev.modFrame_kmem (d : Dev) (c : Nat) (f : Frame → Frame) : (d.modFrame c f).kmem = d.kmem := rfl
@[simp] theorem Dev.modFrame_frames (d : Dev) (c : Nat) (f : Frame → Frame) : (d.modFrame c f).frames = Tab.insert d.frames c (f (d.frame c)) := rfl
@[simp] theorem Dev.modFrame_kframes (d : Dev) (c : Nat) (f : Frame → Frame) : (d.modFrame c f).kframes = d.kframes := rfl
@[simp] theorem Dev.modFrame_poison (d : Dev) (c : Nat) (f : Frame → Frame) : (d.modFrame c f).poison = d.poison := rfl
@[simp] theorem Dev.modFrame_raw (d : Dev) (c : Nat) (f : Frame → Frame) : (d.modFrame c f).raw = d.raw := rfl
@[simp] theorem Dev.modFrame_lineWriter (d : Dev) (c : Nat) (f : Frame → Frame) : (d.modFrame c f).lineWriter = d.lineWriter := rfl
@[simp] theorem Dev.modFrame_queues (d : Dev) (c : Nat) (f : Frame → Frame) : (d.modFrame c f).queues = d.queues := rfl
@[simp] theorem Dev.modFrame_boxes (d : Dev) (c : Nat) (f : Frame → Frame) : (d.modFrame c f).boxes = d.boxes := rfl
@[simp] theorem Dev.modFrame_tokens (d : Dev) (c : Nat) (f : Frame → Frame) : (d.modFrame c f).tokens = d.tokens := rfl
@[simp] theorem Dev.modFrame_keys (d : Dev) (c : Nat) (f : Frame → Frame) : (d.modFrame c f).keys = d.keys := rfl
@[simp] theorem Dev.modFrame_links (d : Dev) (c : Nat) (f : Frame → Frame) : (d.modFrame c f).links = d.links := rfl
@[simp] theorem Dev.modFrame_sessions (d : Dev) (c : Nat) (f : Frame → Frame) : (d.modFrame c f).sessions = d.sessions := rfl
@[simp] theorem Dev.modFrame_windows (d : Dev) (c : Nat) (f : Frame → Frame) : (d.modFrame c f).windows = d.windows := rfl
@[simp] theorem Dev.modFrame_owned (d : Dev) (c : Nat) (f : Frame → Frame) : (d.modFrame c f).owned = d.owned := rfl
@[simp] theorem Dev.modFrame_posted (d : Dev) (c : Nat) (f : Frame → Frame) : (d.modFrame c f).posted = d.posted := rfl
@[simp] theorem Dev.modFrame_requests (d : Dev) (c : Nat) (f : Frame → Frame) : (d.modFrame c f).requests = d.requests := rfl
@[simp] theorem Dev.modFrame_performedTags (d : Dev) (c : Nat) (f : Frame → Frame) : (d.modFrame c f).performedTags = d.performedTags := rfl
@[simp] theorem Dev.modFrame_stranded (d : Dev) (c : Nat) (f : Frame → Frame) : (d.modFrame c f).stranded = d.stranded := rfl
@[simp] theorem Dev.modFrame_routes (d : Dev) (c : Nat) (f : Frame → Frame) : (d.modFrame c f).routes = d.routes := rfl
@[simp] theorem Dev.modFrame_policy (d : Dev) (c : Nat) (f : Frame → Frame) : (d.modFrame c f).policy = d.policy := rfl
@[simp] theorem Dev.modFrame_scrubAt (d : Dev) (c : Nat) (f : Frame → Frame) : (d.modFrame c f).scrubAt = d.scrubAt := rfl
@[simp] theorem Dev.modFrame_gangMode (d : Dev) (c : Nat) (f : Frame → Frame) : (d.modFrame c f).gangMode = d.gangMode := rfl
@[simp] theorem Dev.modFrame_peerId (d : Dev) (c : Nat) (f : Frame → Frame) : (d.modFrame c f).peerId = d.peerId := rfl
@[simp] theorem Dev.modFrame_sweeps (d : Dev) (c : Nat) (f : Frame → Frame) : (d.modFrame c f).sweeps = d.sweeps := rfl
@[simp] theorem Dev.modFrame_expelled (d : Dev) (c : Nat) (f : Frame → Frame) : (d.modFrame c f).expelled = d.expelled := rfl
@[simp] theorem Dev.modFrame_wear (d : Dev) (c : Nat) (f : Frame → Frame) : (d.modFrame c f).wear = d.wear := rfl
@[simp] theorem Dev.modFrame_wearMram (d : Dev) (c : Nat) (f : Frame → Frame) : (d.modFrame c f).wearMram = d.wearMram := rfl
@[simp] theorem Dev.modFrame_commitDue (d : Dev) (c : Nat) (f : Frame → Frame) : (d.modFrame c f).commitDue = d.commitDue := rfl
@[simp] theorem Dev.modFrame_target (d : Dev) (c : Nat) (f : Frame → Frame) : (d.modFrame c f).target = d.target := rfl
@[simp] theorem Dev.modFrame_lifeNow (d : Dev) (c : Nat) (f : Frame → Frame) : (d.modFrame c f).lifeNow = d.lifeNow := rfl
@[simp] theorem Dev.modFrame_serviceMs (d : Dev) (c : Nat) (f : Frame → Frame) : (d.modFrame c f).serviceMs = d.serviceMs := rfl
@[simp] theorem Dev.modFrame_grants (d : Dev) (c : Nat) (f : Frame → Frame) : (d.modFrame c f).grants = d.grants := rfl
@[simp] theorem Dev.modFrame_lastGrant (d : Dev) (c : Nat) (f : Frame → Frame) : (d.modFrame c f).lastGrant = d.lastGrant := rfl
@[simp] theorem Dev.modFrame_changes (d : Dev) (c : Nat) (f : Frame → Frame) : (d.modFrame c f).changes = d.changes := rfl
@[simp] theorem Dev.modFrame_throttled (d : Dev) (c : Nat) (f : Frame → Frame) : (d.modFrame c f).throttled = d.throttled := rfl
@[simp] theorem Dev.modFrame_throttleClear (d : Dev) (c : Nat) (f : Frame → Frame) : (d.modFrame c f).throttleClear = d.throttleClear := rfl
@[simp] theorem Dev.modFrame_powerW (d : Dev) (c : Nat) (f : Frame → Frame) : (d.modFrame c f).powerW = d.powerW := rfl
@[simp] theorem Dev.modFrame_budgets (d : Dev) (c : Nat) (f : Frame → Frame) : (d.modFrame c f).budgets = d.budgets := rfl
@[simp] theorem Dev.modFrame_spent (d : Dev) (c : Nat) (f : Frame → Frame) : (d.modFrame c f).spent = d.spent := rfl
@[simp] theorem Dev.modFrame_period (d : Dev) (c : Nat) (f : Frame → Frame) : (d.modFrame c f).period = d.period := rfl
@[simp] theorem Dev.modFrame_params (d : Dev) (c : Nat) (f : Frame → Frame) : (d.modFrame c f).params = d.params := rfl
@[simp] theorem Dev.modFrame_handlers (d : Dev) (c : Nat) (f : Frame → Frame) : (d.modFrame c f).handlers = d.handlers := rfl
@[simp] theorem Dev.modFrame_log (d : Dev) (c : Nat) (f : Frame → Frame) : (d.modFrame c f).log = d.log := rfl
@[simp] theorem Dev.modFrame_logCounts (d : Dev) (c : Nat) (f : Frame → Frame) : (d.modFrame c f).logCounts = d.logCounts := rfl
@[simp] theorem Dev.modFrame_repairs (d : Dev) (c : Nat) (f : Frame → Frame) : (d.modFrame c f).repairs = d.repairs := rfl
@[simp] theorem Dev.modFrame_remapped (d : Dev) (c : Nat) (f : Frame → Frame) : (d.modFrame c f).remapped = d.remapped := rfl
@[simp] theorem Dev.modFrame_probes (d : Dev) (c : Nat) (f : Frame → Frame) : (d.modFrame c f).probes = d.probes := rfl
@[simp] theorem Dev.modFrame_mgmt (d : Dev) (c : Nat) (f : Frame → Frame) : (d.modFrame c f).mgmt = d.mgmt := rfl
@[simp] theorem Dev.modFrame_host (d : Dev) (c : Nat) (f : Frame → Frame) : (d.modFrame c f).host = d.host := rfl
@[simp] theorem Dev.modFrame_marker (d : Dev) (c : Nat) (f : Frame → Frame) : (d.modFrame c f).marker = d.marker := rfl
@[simp] theorem Dev.modFrame_stopped (d : Dev) (c : Nat) (f : Frame → Frame) : (d.modFrame c f).stopped = d.stopped := rfl
@[simp] theorem Dev.modFrame_evidence (d : Dev) (c : Nat) (f : Frame → Frame) : (d.modFrame c f).evidence = d.evidence := rfl
@[simp] theorem Dev.modFrame_nextLaunch (d : Dev) (c : Nat) (f : Frame → Frame) : (d.modFrame c f).nextLaunch = d.nextLaunch := rfl
@[simp] theorem Dev.modFrame_nextTask (d : Dev) (c : Nat) (f : Frame → Frame) : (d.modFrame c f).nextTask = d.nextTask := rfl
@[simp] theorem Dev.modFrame_nextOp (d : Dev) (c : Nat) (f : Frame → Frame) : (d.modFrame c f).nextOp = d.nextOp := rfl
@[simp] theorem Dev.modFrame_nextTag (d : Dev) (c : Nat) (f : Frame → Frame) : (d.modFrame c f).nextTag = d.nextTag := rfl
@[simp] theorem Dev.modFrame_nextTicket (d : Dev) (c : Nat) (f : Frame → Frame) : (d.modFrame c f).nextTicket = d.nextTicket := rfl
@[simp] theorem Dev.modFrame_moves (d : Dev) (c : Nat) (f : Frame → Frame) : (d.modFrame c f).moves = d.moves := rfl
@[simp] theorem Dev.modFrame_l2 (d : Dev) (c : Nat) (f : Frame → Frame) : (d.modFrame c f).l2 = d.l2 := rfl
@[simp] theorem Dev.modFrame_hostCopies (d : Dev) (c : Nat) (f : Frame → Frame) : (d.modFrame c f).hostCopies = d.hostCopies := rfl
@[simp] theorem Dev.modFrame_lastTicket (d : Dev) (c : Nat) (f : Frame → Frame) : (d.modFrame c f).lastTicket = d.lastTicket := rfl
@[simp] theorem Dev.modFrame_nextOrder (d : Dev) (c : Nat) (f : Frame → Frame) : (d.modFrame c f).nextOrder = d.nextOrder := rfl
@[simp] theorem Dev.modFrame_nextProbe (d : Dev) (c : Nat) (f : Frame → Frame) : (d.modFrame c f).nextProbe = d.nextProbe := rfl
@[simp] theorem Dev.modFrame_nextChange (d : Dev) (c : Nat) (f : Frame → Frame) : (d.modFrame c f).nextChange = d.nextChange := rfl
@[simp] theorem Dev.modFrame_nextEntry (d : Dev) (c : Nat) (f : Frame → Frame) : (d.modFrame c f).nextEntry = d.nextEntry := rfl
@[simp] theorem Dev.modFrame_ageTime (d : Dev) (c : Nat) (f : Frame → Frame) : (d.modFrame c f).ageTime = d.ageTime := rfl
@[simp] theorem Dev.modFrame_ageSeq (d : Dev) (c : Nat) (f : Frame → Frame) : (d.modFrame c f).ageSeq = d.ageSeq := rfl
@[simp] theorem Dev.modFrame_turn (d : Dev) (c : Nat) (f : Frame → Frame) : (d.modFrame c f).turn = d.turn := rfl
@[simp] theorem Dev.modFrame_alarmAt (d : Dev) (c : Nat) (f : Frame → Frame) : (d.modFrame c f).alarmAt = d.alarmAt := rfl
@[simp] theorem Dev.modFrame_busy (d : Dev) (c : Nat) (f : Frame → Frame) : (d.modFrame c f).busy = d.busy := rfl
@[simp] theorem Dev.modFrame_sampled (d : Dev) (c : Nat) (f : Frame → Frame) : (d.modFrame c f).sampled = d.sampled := rfl
@[simp] theorem Dev.modFrame_sampledAt (d : Dev) (c : Nat) (f : Frame → Frame) : (d.modFrame c f).sampledAt = d.sampledAt := rfl
@[simp] theorem Dev.modFrame_cxlCounts (d : Dev) (c : Nat) (f : Frame → Frame) : (d.modFrame c f).cxlCounts = d.cxlCounts := rfl
@[simp] theorem Dev.modFrame_fresh (d : Dev) (c : Nat) (f : Frame → Frame) : (d.modFrame c f).fresh = d.fresh := rfl
@[simp] theorem Dev.modTask_time (d : Dev) (c : Nat) (f : Task → Task) : (d.modTask c f).time = d.time := rfl
@[simp] theorem Dev.modTask_groups (d : Dev) (c : Nat) (f : Task → Task) : (d.modTask c f).groups = d.groups := rfl
@[simp] theorem Dev.modTask_tasks (d : Dev) (c : Nat) (f : Task → Task) : (d.modTask c f).tasks = Tab.modify d.tasks c f := rfl
@[simp] theorem Dev.modTask_grids (d : Dev) (c : Nat) (f : Task → Task) : (d.modTask c f).grids = d.grids := rfl
@[simp] theorem Dev.modTask_gangs (d : Dev) (c : Nat) (f : Task → Task) : (d.modTask c f).gangs = d.gangs := rfl
@[simp] theorem Dev.modTask_ops (d : Dev) (c : Nat) (f : Task → Task) : (d.modTask c f).ops = d.ops := rfl
@[simp] theorem Dev.modTask_cores (d : Dev) (c : Nat) (f : Task → Task) : (d.modTask c f).cores = d.cores := rfl
@[simp] theorem Dev.modTask_pairs (d : Dev) (c : Nat) (f : Task → Task) : (d.modTask c f).pairs = d.pairs := rfl
@[simp] theorem Dev.modTask_clusters (d : Dev) (c : Nat) (f : Task → Task) : (d.modTask c f).clusters = d.clusters := rfl
@[simp] theorem Dev.modTask_dies (d : Dev) (c : Nat) (f : Task → Task) : (d.modTask c f).dies = d.dies := rfl
@[simp] theorem Dev.modTask_hbm (d : Dev) (c : Nat) (f : Task → Task) : (d.modTask c f).hbm = d.hbm := rfl
@[simp] theorem Dev.modTask_cxl (d : Dev) (c : Nat) (f : Task → Task) : (d.modTask c f).cxl = d.cxl := rfl
@[simp] theorem Dev.modTask_kmem (d : Dev) (c : Nat) (f : Task → Task) : (d.modTask c f).kmem = d.kmem := rfl
@[simp] theorem Dev.modTask_frames (d : Dev) (c : Nat) (f : Task → Task) : (d.modTask c f).frames = d.frames := rfl
@[simp] theorem Dev.modTask_kframes (d : Dev) (c : Nat) (f : Task → Task) : (d.modTask c f).kframes = d.kframes := rfl
@[simp] theorem Dev.modTask_poison (d : Dev) (c : Nat) (f : Task → Task) : (d.modTask c f).poison = d.poison := rfl
@[simp] theorem Dev.modTask_raw (d : Dev) (c : Nat) (f : Task → Task) : (d.modTask c f).raw = d.raw := rfl
@[simp] theorem Dev.modTask_lineWriter (d : Dev) (c : Nat) (f : Task → Task) : (d.modTask c f).lineWriter = d.lineWriter := rfl
@[simp] theorem Dev.modTask_queues (d : Dev) (c : Nat) (f : Task → Task) : (d.modTask c f).queues = d.queues := rfl
@[simp] theorem Dev.modTask_boxes (d : Dev) (c : Nat) (f : Task → Task) : (d.modTask c f).boxes = d.boxes := rfl
@[simp] theorem Dev.modTask_tokens (d : Dev) (c : Nat) (f : Task → Task) : (d.modTask c f).tokens = d.tokens := rfl
@[simp] theorem Dev.modTask_keys (d : Dev) (c : Nat) (f : Task → Task) : (d.modTask c f).keys = d.keys := rfl
@[simp] theorem Dev.modTask_links (d : Dev) (c : Nat) (f : Task → Task) : (d.modTask c f).links = d.links := rfl
@[simp] theorem Dev.modTask_sessions (d : Dev) (c : Nat) (f : Task → Task) : (d.modTask c f).sessions = d.sessions := rfl
@[simp] theorem Dev.modTask_windows (d : Dev) (c : Nat) (f : Task → Task) : (d.modTask c f).windows = d.windows := rfl
@[simp] theorem Dev.modTask_owned (d : Dev) (c : Nat) (f : Task → Task) : (d.modTask c f).owned = d.owned := rfl
@[simp] theorem Dev.modTask_posted (d : Dev) (c : Nat) (f : Task → Task) : (d.modTask c f).posted = d.posted := rfl
@[simp] theorem Dev.modTask_requests (d : Dev) (c : Nat) (f : Task → Task) : (d.modTask c f).requests = d.requests := rfl
@[simp] theorem Dev.modTask_performedTags (d : Dev) (c : Nat) (f : Task → Task) : (d.modTask c f).performedTags = d.performedTags := rfl
@[simp] theorem Dev.modTask_stranded (d : Dev) (c : Nat) (f : Task → Task) : (d.modTask c f).stranded = d.stranded := rfl
@[simp] theorem Dev.modTask_routes (d : Dev) (c : Nat) (f : Task → Task) : (d.modTask c f).routes = d.routes := rfl
@[simp] theorem Dev.modTask_policy (d : Dev) (c : Nat) (f : Task → Task) : (d.modTask c f).policy = d.policy := rfl
@[simp] theorem Dev.modTask_scrubAt (d : Dev) (c : Nat) (f : Task → Task) : (d.modTask c f).scrubAt = d.scrubAt := rfl
@[simp] theorem Dev.modTask_gangMode (d : Dev) (c : Nat) (f : Task → Task) : (d.modTask c f).gangMode = d.gangMode := rfl
@[simp] theorem Dev.modTask_peerId (d : Dev) (c : Nat) (f : Task → Task) : (d.modTask c f).peerId = d.peerId := rfl
@[simp] theorem Dev.modTask_sweeps (d : Dev) (c : Nat) (f : Task → Task) : (d.modTask c f).sweeps = d.sweeps := rfl
@[simp] theorem Dev.modTask_expelled (d : Dev) (c : Nat) (f : Task → Task) : (d.modTask c f).expelled = d.expelled := rfl
@[simp] theorem Dev.modTask_wear (d : Dev) (c : Nat) (f : Task → Task) : (d.modTask c f).wear = d.wear := rfl
@[simp] theorem Dev.modTask_wearMram (d : Dev) (c : Nat) (f : Task → Task) : (d.modTask c f).wearMram = d.wearMram := rfl
@[simp] theorem Dev.modTask_commitDue (d : Dev) (c : Nat) (f : Task → Task) : (d.modTask c f).commitDue = d.commitDue := rfl
@[simp] theorem Dev.modTask_target (d : Dev) (c : Nat) (f : Task → Task) : (d.modTask c f).target = d.target := rfl
@[simp] theorem Dev.modTask_lifeNow (d : Dev) (c : Nat) (f : Task → Task) : (d.modTask c f).lifeNow = d.lifeNow := rfl
@[simp] theorem Dev.modTask_serviceMs (d : Dev) (c : Nat) (f : Task → Task) : (d.modTask c f).serviceMs = d.serviceMs := rfl
@[simp] theorem Dev.modTask_grants (d : Dev) (c : Nat) (f : Task → Task) : (d.modTask c f).grants = d.grants := rfl
@[simp] theorem Dev.modTask_lastGrant (d : Dev) (c : Nat) (f : Task → Task) : (d.modTask c f).lastGrant = d.lastGrant := rfl
@[simp] theorem Dev.modTask_changes (d : Dev) (c : Nat) (f : Task → Task) : (d.modTask c f).changes = d.changes := rfl
@[simp] theorem Dev.modTask_throttled (d : Dev) (c : Nat) (f : Task → Task) : (d.modTask c f).throttled = d.throttled := rfl
@[simp] theorem Dev.modTask_throttleClear (d : Dev) (c : Nat) (f : Task → Task) : (d.modTask c f).throttleClear = d.throttleClear := rfl
@[simp] theorem Dev.modTask_powerW (d : Dev) (c : Nat) (f : Task → Task) : (d.modTask c f).powerW = d.powerW := rfl
@[simp] theorem Dev.modTask_budgets (d : Dev) (c : Nat) (f : Task → Task) : (d.modTask c f).budgets = d.budgets := rfl
@[simp] theorem Dev.modTask_spent (d : Dev) (c : Nat) (f : Task → Task) : (d.modTask c f).spent = d.spent := rfl
@[simp] theorem Dev.modTask_period (d : Dev) (c : Nat) (f : Task → Task) : (d.modTask c f).period = d.period := rfl
@[simp] theorem Dev.modTask_params (d : Dev) (c : Nat) (f : Task → Task) : (d.modTask c f).params = d.params := rfl
@[simp] theorem Dev.modTask_handlers (d : Dev) (c : Nat) (f : Task → Task) : (d.modTask c f).handlers = d.handlers := rfl
@[simp] theorem Dev.modTask_log (d : Dev) (c : Nat) (f : Task → Task) : (d.modTask c f).log = d.log := rfl
@[simp] theorem Dev.modTask_logCounts (d : Dev) (c : Nat) (f : Task → Task) : (d.modTask c f).logCounts = d.logCounts := rfl
@[simp] theorem Dev.modTask_repairs (d : Dev) (c : Nat) (f : Task → Task) : (d.modTask c f).repairs = d.repairs := rfl
@[simp] theorem Dev.modTask_remapped (d : Dev) (c : Nat) (f : Task → Task) : (d.modTask c f).remapped = d.remapped := rfl
@[simp] theorem Dev.modTask_probes (d : Dev) (c : Nat) (f : Task → Task) : (d.modTask c f).probes = d.probes := rfl
@[simp] theorem Dev.modTask_mgmt (d : Dev) (c : Nat) (f : Task → Task) : (d.modTask c f).mgmt = d.mgmt := rfl
@[simp] theorem Dev.modTask_host (d : Dev) (c : Nat) (f : Task → Task) : (d.modTask c f).host = d.host := rfl
@[simp] theorem Dev.modTask_marker (d : Dev) (c : Nat) (f : Task → Task) : (d.modTask c f).marker = d.marker := rfl
@[simp] theorem Dev.modTask_stopped (d : Dev) (c : Nat) (f : Task → Task) : (d.modTask c f).stopped = d.stopped := rfl
@[simp] theorem Dev.modTask_evidence (d : Dev) (c : Nat) (f : Task → Task) : (d.modTask c f).evidence = d.evidence := rfl
@[simp] theorem Dev.modTask_nextLaunch (d : Dev) (c : Nat) (f : Task → Task) : (d.modTask c f).nextLaunch = d.nextLaunch := rfl
@[simp] theorem Dev.modTask_nextTask (d : Dev) (c : Nat) (f : Task → Task) : (d.modTask c f).nextTask = d.nextTask := rfl
@[simp] theorem Dev.modTask_nextOp (d : Dev) (c : Nat) (f : Task → Task) : (d.modTask c f).nextOp = d.nextOp := rfl
@[simp] theorem Dev.modTask_nextTag (d : Dev) (c : Nat) (f : Task → Task) : (d.modTask c f).nextTag = d.nextTag := rfl
@[simp] theorem Dev.modTask_nextTicket (d : Dev) (c : Nat) (f : Task → Task) : (d.modTask c f).nextTicket = d.nextTicket := rfl
@[simp] theorem Dev.modTask_moves (d : Dev) (c : Nat) (f : Task → Task) : (d.modTask c f).moves = d.moves := rfl
@[simp] theorem Dev.modTask_l2 (d : Dev) (c : Nat) (f : Task → Task) : (d.modTask c f).l2 = d.l2 := rfl
@[simp] theorem Dev.modTask_hostCopies (d : Dev) (c : Nat) (f : Task → Task) : (d.modTask c f).hostCopies = d.hostCopies := rfl
@[simp] theorem Dev.modTask_lastTicket (d : Dev) (c : Nat) (f : Task → Task) : (d.modTask c f).lastTicket = d.lastTicket := rfl
@[simp] theorem Dev.modTask_nextOrder (d : Dev) (c : Nat) (f : Task → Task) : (d.modTask c f).nextOrder = d.nextOrder := rfl
@[simp] theorem Dev.modTask_nextProbe (d : Dev) (c : Nat) (f : Task → Task) : (d.modTask c f).nextProbe = d.nextProbe := rfl
@[simp] theorem Dev.modTask_nextChange (d : Dev) (c : Nat) (f : Task → Task) : (d.modTask c f).nextChange = d.nextChange := rfl
@[simp] theorem Dev.modTask_nextEntry (d : Dev) (c : Nat) (f : Task → Task) : (d.modTask c f).nextEntry = d.nextEntry := rfl
@[simp] theorem Dev.modTask_ageTime (d : Dev) (c : Nat) (f : Task → Task) : (d.modTask c f).ageTime = d.ageTime := rfl
@[simp] theorem Dev.modTask_ageSeq (d : Dev) (c : Nat) (f : Task → Task) : (d.modTask c f).ageSeq = d.ageSeq := rfl
@[simp] theorem Dev.modTask_turn (d : Dev) (c : Nat) (f : Task → Task) : (d.modTask c f).turn = d.turn := rfl
@[simp] theorem Dev.modTask_alarmAt (d : Dev) (c : Nat) (f : Task → Task) : (d.modTask c f).alarmAt = d.alarmAt := rfl
@[simp] theorem Dev.modTask_busy (d : Dev) (c : Nat) (f : Task → Task) : (d.modTask c f).busy = d.busy := rfl
@[simp] theorem Dev.modTask_sampled (d : Dev) (c : Nat) (f : Task → Task) : (d.modTask c f).sampled = d.sampled := rfl
@[simp] theorem Dev.modTask_sampledAt (d : Dev) (c : Nat) (f : Task → Task) : (d.modTask c f).sampledAt = d.sampledAt := rfl
@[simp] theorem Dev.modTask_cxlCounts (d : Dev) (c : Nat) (f : Task → Task) : (d.modTask c f).cxlCounts = d.cxlCounts := rfl
@[simp] theorem Dev.modTask_fresh (d : Dev) (c : Nat) (f : Task → Task) : (d.modTask c f).fresh = d.fresh := rfl
@[simp] theorem Dev.modGrid_time (d : Dev) (c : Nat) (f : Grid → Grid) : (d.modGrid c f).time = d.time := rfl
@[simp] theorem Dev.modGrid_groups (d : Dev) (c : Nat) (f : Grid → Grid) : (d.modGrid c f).groups = d.groups := rfl
@[simp] theorem Dev.modGrid_tasks (d : Dev) (c : Nat) (f : Grid → Grid) : (d.modGrid c f).tasks = d.tasks := rfl
@[simp] theorem Dev.modGrid_grids (d : Dev) (c : Nat) (f : Grid → Grid) : (d.modGrid c f).grids = Tab.modify d.grids c f := rfl
@[simp] theorem Dev.modGrid_gangs (d : Dev) (c : Nat) (f : Grid → Grid) : (d.modGrid c f).gangs = d.gangs := rfl
@[simp] theorem Dev.modGrid_ops (d : Dev) (c : Nat) (f : Grid → Grid) : (d.modGrid c f).ops = d.ops := rfl
@[simp] theorem Dev.modGrid_cores (d : Dev) (c : Nat) (f : Grid → Grid) : (d.modGrid c f).cores = d.cores := rfl
@[simp] theorem Dev.modGrid_pairs (d : Dev) (c : Nat) (f : Grid → Grid) : (d.modGrid c f).pairs = d.pairs := rfl
@[simp] theorem Dev.modGrid_clusters (d : Dev) (c : Nat) (f : Grid → Grid) : (d.modGrid c f).clusters = d.clusters := rfl
@[simp] theorem Dev.modGrid_dies (d : Dev) (c : Nat) (f : Grid → Grid) : (d.modGrid c f).dies = d.dies := rfl
@[simp] theorem Dev.modGrid_hbm (d : Dev) (c : Nat) (f : Grid → Grid) : (d.modGrid c f).hbm = d.hbm := rfl
@[simp] theorem Dev.modGrid_cxl (d : Dev) (c : Nat) (f : Grid → Grid) : (d.modGrid c f).cxl = d.cxl := rfl
@[simp] theorem Dev.modGrid_kmem (d : Dev) (c : Nat) (f : Grid → Grid) : (d.modGrid c f).kmem = d.kmem := rfl
@[simp] theorem Dev.modGrid_frames (d : Dev) (c : Nat) (f : Grid → Grid) : (d.modGrid c f).frames = d.frames := rfl
@[simp] theorem Dev.modGrid_kframes (d : Dev) (c : Nat) (f : Grid → Grid) : (d.modGrid c f).kframes = d.kframes := rfl
@[simp] theorem Dev.modGrid_poison (d : Dev) (c : Nat) (f : Grid → Grid) : (d.modGrid c f).poison = d.poison := rfl
@[simp] theorem Dev.modGrid_raw (d : Dev) (c : Nat) (f : Grid → Grid) : (d.modGrid c f).raw = d.raw := rfl
@[simp] theorem Dev.modGrid_lineWriter (d : Dev) (c : Nat) (f : Grid → Grid) : (d.modGrid c f).lineWriter = d.lineWriter := rfl
@[simp] theorem Dev.modGrid_queues (d : Dev) (c : Nat) (f : Grid → Grid) : (d.modGrid c f).queues = d.queues := rfl
@[simp] theorem Dev.modGrid_boxes (d : Dev) (c : Nat) (f : Grid → Grid) : (d.modGrid c f).boxes = d.boxes := rfl
@[simp] theorem Dev.modGrid_tokens (d : Dev) (c : Nat) (f : Grid → Grid) : (d.modGrid c f).tokens = d.tokens := rfl
@[simp] theorem Dev.modGrid_keys (d : Dev) (c : Nat) (f : Grid → Grid) : (d.modGrid c f).keys = d.keys := rfl
@[simp] theorem Dev.modGrid_links (d : Dev) (c : Nat) (f : Grid → Grid) : (d.modGrid c f).links = d.links := rfl
@[simp] theorem Dev.modGrid_sessions (d : Dev) (c : Nat) (f : Grid → Grid) : (d.modGrid c f).sessions = d.sessions := rfl
@[simp] theorem Dev.modGrid_windows (d : Dev) (c : Nat) (f : Grid → Grid) : (d.modGrid c f).windows = d.windows := rfl
@[simp] theorem Dev.modGrid_owned (d : Dev) (c : Nat) (f : Grid → Grid) : (d.modGrid c f).owned = d.owned := rfl
@[simp] theorem Dev.modGrid_posted (d : Dev) (c : Nat) (f : Grid → Grid) : (d.modGrid c f).posted = d.posted := rfl
@[simp] theorem Dev.modGrid_requests (d : Dev) (c : Nat) (f : Grid → Grid) : (d.modGrid c f).requests = d.requests := rfl
@[simp] theorem Dev.modGrid_performedTags (d : Dev) (c : Nat) (f : Grid → Grid) : (d.modGrid c f).performedTags = d.performedTags := rfl
@[simp] theorem Dev.modGrid_stranded (d : Dev) (c : Nat) (f : Grid → Grid) : (d.modGrid c f).stranded = d.stranded := rfl
@[simp] theorem Dev.modGrid_routes (d : Dev) (c : Nat) (f : Grid → Grid) : (d.modGrid c f).routes = d.routes := rfl
@[simp] theorem Dev.modGrid_policy (d : Dev) (c : Nat) (f : Grid → Grid) : (d.modGrid c f).policy = d.policy := rfl
@[simp] theorem Dev.modGrid_scrubAt (d : Dev) (c : Nat) (f : Grid → Grid) : (d.modGrid c f).scrubAt = d.scrubAt := rfl
@[simp] theorem Dev.modGrid_gangMode (d : Dev) (c : Nat) (f : Grid → Grid) : (d.modGrid c f).gangMode = d.gangMode := rfl
@[simp] theorem Dev.modGrid_peerId (d : Dev) (c : Nat) (f : Grid → Grid) : (d.modGrid c f).peerId = d.peerId := rfl
@[simp] theorem Dev.modGrid_sweeps (d : Dev) (c : Nat) (f : Grid → Grid) : (d.modGrid c f).sweeps = d.sweeps := rfl
@[simp] theorem Dev.modGrid_expelled (d : Dev) (c : Nat) (f : Grid → Grid) : (d.modGrid c f).expelled = d.expelled := rfl
@[simp] theorem Dev.modGrid_wear (d : Dev) (c : Nat) (f : Grid → Grid) : (d.modGrid c f).wear = d.wear := rfl
@[simp] theorem Dev.modGrid_wearMram (d : Dev) (c : Nat) (f : Grid → Grid) : (d.modGrid c f).wearMram = d.wearMram := rfl
@[simp] theorem Dev.modGrid_commitDue (d : Dev) (c : Nat) (f : Grid → Grid) : (d.modGrid c f).commitDue = d.commitDue := rfl
@[simp] theorem Dev.modGrid_target (d : Dev) (c : Nat) (f : Grid → Grid) : (d.modGrid c f).target = d.target := rfl
@[simp] theorem Dev.modGrid_lifeNow (d : Dev) (c : Nat) (f : Grid → Grid) : (d.modGrid c f).lifeNow = d.lifeNow := rfl
@[simp] theorem Dev.modGrid_serviceMs (d : Dev) (c : Nat) (f : Grid → Grid) : (d.modGrid c f).serviceMs = d.serviceMs := rfl
@[simp] theorem Dev.modGrid_grants (d : Dev) (c : Nat) (f : Grid → Grid) : (d.modGrid c f).grants = d.grants := rfl
@[simp] theorem Dev.modGrid_lastGrant (d : Dev) (c : Nat) (f : Grid → Grid) : (d.modGrid c f).lastGrant = d.lastGrant := rfl
@[simp] theorem Dev.modGrid_changes (d : Dev) (c : Nat) (f : Grid → Grid) : (d.modGrid c f).changes = d.changes := rfl
@[simp] theorem Dev.modGrid_throttled (d : Dev) (c : Nat) (f : Grid → Grid) : (d.modGrid c f).throttled = d.throttled := rfl
@[simp] theorem Dev.modGrid_throttleClear (d : Dev) (c : Nat) (f : Grid → Grid) : (d.modGrid c f).throttleClear = d.throttleClear := rfl
@[simp] theorem Dev.modGrid_powerW (d : Dev) (c : Nat) (f : Grid → Grid) : (d.modGrid c f).powerW = d.powerW := rfl
@[simp] theorem Dev.modGrid_budgets (d : Dev) (c : Nat) (f : Grid → Grid) : (d.modGrid c f).budgets = d.budgets := rfl
@[simp] theorem Dev.modGrid_spent (d : Dev) (c : Nat) (f : Grid → Grid) : (d.modGrid c f).spent = d.spent := rfl
@[simp] theorem Dev.modGrid_period (d : Dev) (c : Nat) (f : Grid → Grid) : (d.modGrid c f).period = d.period := rfl
@[simp] theorem Dev.modGrid_params (d : Dev) (c : Nat) (f : Grid → Grid) : (d.modGrid c f).params = d.params := rfl
@[simp] theorem Dev.modGrid_handlers (d : Dev) (c : Nat) (f : Grid → Grid) : (d.modGrid c f).handlers = d.handlers := rfl
@[simp] theorem Dev.modGrid_log (d : Dev) (c : Nat) (f : Grid → Grid) : (d.modGrid c f).log = d.log := rfl
@[simp] theorem Dev.modGrid_logCounts (d : Dev) (c : Nat) (f : Grid → Grid) : (d.modGrid c f).logCounts = d.logCounts := rfl
@[simp] theorem Dev.modGrid_repairs (d : Dev) (c : Nat) (f : Grid → Grid) : (d.modGrid c f).repairs = d.repairs := rfl
@[simp] theorem Dev.modGrid_remapped (d : Dev) (c : Nat) (f : Grid → Grid) : (d.modGrid c f).remapped = d.remapped := rfl
@[simp] theorem Dev.modGrid_probes (d : Dev) (c : Nat) (f : Grid → Grid) : (d.modGrid c f).probes = d.probes := rfl
@[simp] theorem Dev.modGrid_mgmt (d : Dev) (c : Nat) (f : Grid → Grid) : (d.modGrid c f).mgmt = d.mgmt := rfl
@[simp] theorem Dev.modGrid_host (d : Dev) (c : Nat) (f : Grid → Grid) : (d.modGrid c f).host = d.host := rfl
@[simp] theorem Dev.modGrid_marker (d : Dev) (c : Nat) (f : Grid → Grid) : (d.modGrid c f).marker = d.marker := rfl
@[simp] theorem Dev.modGrid_stopped (d : Dev) (c : Nat) (f : Grid → Grid) : (d.modGrid c f).stopped = d.stopped := rfl
@[simp] theorem Dev.modGrid_evidence (d : Dev) (c : Nat) (f : Grid → Grid) : (d.modGrid c f).evidence = d.evidence := rfl
@[simp] theorem Dev.modGrid_nextLaunch (d : Dev) (c : Nat) (f : Grid → Grid) : (d.modGrid c f).nextLaunch = d.nextLaunch := rfl
@[simp] theorem Dev.modGrid_nextTask (d : Dev) (c : Nat) (f : Grid → Grid) : (d.modGrid c f).nextTask = d.nextTask := rfl
@[simp] theorem Dev.modGrid_nextOp (d : Dev) (c : Nat) (f : Grid → Grid) : (d.modGrid c f).nextOp = d.nextOp := rfl
@[simp] theorem Dev.modGrid_nextTag (d : Dev) (c : Nat) (f : Grid → Grid) : (d.modGrid c f).nextTag = d.nextTag := rfl
@[simp] theorem Dev.modGrid_nextTicket (d : Dev) (c : Nat) (f : Grid → Grid) : (d.modGrid c f).nextTicket = d.nextTicket := rfl
@[simp] theorem Dev.modGrid_moves (d : Dev) (c : Nat) (f : Grid → Grid) : (d.modGrid c f).moves = d.moves := rfl
@[simp] theorem Dev.modGrid_l2 (d : Dev) (c : Nat) (f : Grid → Grid) : (d.modGrid c f).l2 = d.l2 := rfl
@[simp] theorem Dev.modGrid_hostCopies (d : Dev) (c : Nat) (f : Grid → Grid) : (d.modGrid c f).hostCopies = d.hostCopies := rfl
@[simp] theorem Dev.modGrid_lastTicket (d : Dev) (c : Nat) (f : Grid → Grid) : (d.modGrid c f).lastTicket = d.lastTicket := rfl
@[simp] theorem Dev.modGrid_nextOrder (d : Dev) (c : Nat) (f : Grid → Grid) : (d.modGrid c f).nextOrder = d.nextOrder := rfl
@[simp] theorem Dev.modGrid_nextProbe (d : Dev) (c : Nat) (f : Grid → Grid) : (d.modGrid c f).nextProbe = d.nextProbe := rfl
@[simp] theorem Dev.modGrid_nextChange (d : Dev) (c : Nat) (f : Grid → Grid) : (d.modGrid c f).nextChange = d.nextChange := rfl
@[simp] theorem Dev.modGrid_nextEntry (d : Dev) (c : Nat) (f : Grid → Grid) : (d.modGrid c f).nextEntry = d.nextEntry := rfl
@[simp] theorem Dev.modGrid_ageTime (d : Dev) (c : Nat) (f : Grid → Grid) : (d.modGrid c f).ageTime = d.ageTime := rfl
@[simp] theorem Dev.modGrid_ageSeq (d : Dev) (c : Nat) (f : Grid → Grid) : (d.modGrid c f).ageSeq = d.ageSeq := rfl
@[simp] theorem Dev.modGrid_turn (d : Dev) (c : Nat) (f : Grid → Grid) : (d.modGrid c f).turn = d.turn := rfl
@[simp] theorem Dev.modGrid_alarmAt (d : Dev) (c : Nat) (f : Grid → Grid) : (d.modGrid c f).alarmAt = d.alarmAt := rfl
@[simp] theorem Dev.modGrid_busy (d : Dev) (c : Nat) (f : Grid → Grid) : (d.modGrid c f).busy = d.busy := rfl
@[simp] theorem Dev.modGrid_sampled (d : Dev) (c : Nat) (f : Grid → Grid) : (d.modGrid c f).sampled = d.sampled := rfl
@[simp] theorem Dev.modGrid_sampledAt (d : Dev) (c : Nat) (f : Grid → Grid) : (d.modGrid c f).sampledAt = d.sampledAt := rfl
@[simp] theorem Dev.modGrid_cxlCounts (d : Dev) (c : Nat) (f : Grid → Grid) : (d.modGrid c f).cxlCounts = d.cxlCounts := rfl
@[simp] theorem Dev.modGrid_fresh (d : Dev) (c : Nat) (f : Grid → Grid) : (d.modGrid c f).fresh = d.fresh := rfl
@[simp] theorem Dev.modOp_time (d : Dev) (c : Nat) (f : Op → Op) : (d.modOp c f).time = d.time := rfl
@[simp] theorem Dev.modOp_groups (d : Dev) (c : Nat) (f : Op → Op) : (d.modOp c f).groups = d.groups := rfl
@[simp] theorem Dev.modOp_tasks (d : Dev) (c : Nat) (f : Op → Op) : (d.modOp c f).tasks = d.tasks := rfl
@[simp] theorem Dev.modOp_grids (d : Dev) (c : Nat) (f : Op → Op) : (d.modOp c f).grids = d.grids := rfl
@[simp] theorem Dev.modOp_gangs (d : Dev) (c : Nat) (f : Op → Op) : (d.modOp c f).gangs = d.gangs := rfl
@[simp] theorem Dev.modOp_ops (d : Dev) (c : Nat) (f : Op → Op) : (d.modOp c f).ops = Tab.modify d.ops c f := rfl
@[simp] theorem Dev.modOp_cores (d : Dev) (c : Nat) (f : Op → Op) : (d.modOp c f).cores = d.cores := rfl
@[simp] theorem Dev.modOp_pairs (d : Dev) (c : Nat) (f : Op → Op) : (d.modOp c f).pairs = d.pairs := rfl
@[simp] theorem Dev.modOp_clusters (d : Dev) (c : Nat) (f : Op → Op) : (d.modOp c f).clusters = d.clusters := rfl
@[simp] theorem Dev.modOp_dies (d : Dev) (c : Nat) (f : Op → Op) : (d.modOp c f).dies = d.dies := rfl
@[simp] theorem Dev.modOp_hbm (d : Dev) (c : Nat) (f : Op → Op) : (d.modOp c f).hbm = d.hbm := rfl
@[simp] theorem Dev.modOp_cxl (d : Dev) (c : Nat) (f : Op → Op) : (d.modOp c f).cxl = d.cxl := rfl
@[simp] theorem Dev.modOp_kmem (d : Dev) (c : Nat) (f : Op → Op) : (d.modOp c f).kmem = d.kmem := rfl
@[simp] theorem Dev.modOp_frames (d : Dev) (c : Nat) (f : Op → Op) : (d.modOp c f).frames = d.frames := rfl
@[simp] theorem Dev.modOp_kframes (d : Dev) (c : Nat) (f : Op → Op) : (d.modOp c f).kframes = d.kframes := rfl
@[simp] theorem Dev.modOp_poison (d : Dev) (c : Nat) (f : Op → Op) : (d.modOp c f).poison = d.poison := rfl
@[simp] theorem Dev.modOp_raw (d : Dev) (c : Nat) (f : Op → Op) : (d.modOp c f).raw = d.raw := rfl
@[simp] theorem Dev.modOp_lineWriter (d : Dev) (c : Nat) (f : Op → Op) : (d.modOp c f).lineWriter = d.lineWriter := rfl
@[simp] theorem Dev.modOp_queues (d : Dev) (c : Nat) (f : Op → Op) : (d.modOp c f).queues = d.queues := rfl
@[simp] theorem Dev.modOp_boxes (d : Dev) (c : Nat) (f : Op → Op) : (d.modOp c f).boxes = d.boxes := rfl
@[simp] theorem Dev.modOp_tokens (d : Dev) (c : Nat) (f : Op → Op) : (d.modOp c f).tokens = d.tokens := rfl
@[simp] theorem Dev.modOp_keys (d : Dev) (c : Nat) (f : Op → Op) : (d.modOp c f).keys = d.keys := rfl
@[simp] theorem Dev.modOp_links (d : Dev) (c : Nat) (f : Op → Op) : (d.modOp c f).links = d.links := rfl
@[simp] theorem Dev.modOp_sessions (d : Dev) (c : Nat) (f : Op → Op) : (d.modOp c f).sessions = d.sessions := rfl
@[simp] theorem Dev.modOp_windows (d : Dev) (c : Nat) (f : Op → Op) : (d.modOp c f).windows = d.windows := rfl
@[simp] theorem Dev.modOp_owned (d : Dev) (c : Nat) (f : Op → Op) : (d.modOp c f).owned = d.owned := rfl
@[simp] theorem Dev.modOp_posted (d : Dev) (c : Nat) (f : Op → Op) : (d.modOp c f).posted = d.posted := rfl
@[simp] theorem Dev.modOp_requests (d : Dev) (c : Nat) (f : Op → Op) : (d.modOp c f).requests = d.requests := rfl
@[simp] theorem Dev.modOp_performedTags (d : Dev) (c : Nat) (f : Op → Op) : (d.modOp c f).performedTags = d.performedTags := rfl
@[simp] theorem Dev.modOp_stranded (d : Dev) (c : Nat) (f : Op → Op) : (d.modOp c f).stranded = d.stranded := rfl
@[simp] theorem Dev.modOp_routes (d : Dev) (c : Nat) (f : Op → Op) : (d.modOp c f).routes = d.routes := rfl
@[simp] theorem Dev.modOp_policy (d : Dev) (c : Nat) (f : Op → Op) : (d.modOp c f).policy = d.policy := rfl
@[simp] theorem Dev.modOp_scrubAt (d : Dev) (c : Nat) (f : Op → Op) : (d.modOp c f).scrubAt = d.scrubAt := rfl
@[simp] theorem Dev.modOp_gangMode (d : Dev) (c : Nat) (f : Op → Op) : (d.modOp c f).gangMode = d.gangMode := rfl
@[simp] theorem Dev.modOp_peerId (d : Dev) (c : Nat) (f : Op → Op) : (d.modOp c f).peerId = d.peerId := rfl
@[simp] theorem Dev.modOp_sweeps (d : Dev) (c : Nat) (f : Op → Op) : (d.modOp c f).sweeps = d.sweeps := rfl
@[simp] theorem Dev.modOp_expelled (d : Dev) (c : Nat) (f : Op → Op) : (d.modOp c f).expelled = d.expelled := rfl
@[simp] theorem Dev.modOp_wear (d : Dev) (c : Nat) (f : Op → Op) : (d.modOp c f).wear = d.wear := rfl
@[simp] theorem Dev.modOp_wearMram (d : Dev) (c : Nat) (f : Op → Op) : (d.modOp c f).wearMram = d.wearMram := rfl
@[simp] theorem Dev.modOp_commitDue (d : Dev) (c : Nat) (f : Op → Op) : (d.modOp c f).commitDue = d.commitDue := rfl
@[simp] theorem Dev.modOp_target (d : Dev) (c : Nat) (f : Op → Op) : (d.modOp c f).target = d.target := rfl
@[simp] theorem Dev.modOp_lifeNow (d : Dev) (c : Nat) (f : Op → Op) : (d.modOp c f).lifeNow = d.lifeNow := rfl
@[simp] theorem Dev.modOp_serviceMs (d : Dev) (c : Nat) (f : Op → Op) : (d.modOp c f).serviceMs = d.serviceMs := rfl
@[simp] theorem Dev.modOp_grants (d : Dev) (c : Nat) (f : Op → Op) : (d.modOp c f).grants = d.grants := rfl
@[simp] theorem Dev.modOp_lastGrant (d : Dev) (c : Nat) (f : Op → Op) : (d.modOp c f).lastGrant = d.lastGrant := rfl
@[simp] theorem Dev.modOp_changes (d : Dev) (c : Nat) (f : Op → Op) : (d.modOp c f).changes = d.changes := rfl
@[simp] theorem Dev.modOp_throttled (d : Dev) (c : Nat) (f : Op → Op) : (d.modOp c f).throttled = d.throttled := rfl
@[simp] theorem Dev.modOp_throttleClear (d : Dev) (c : Nat) (f : Op → Op) : (d.modOp c f).throttleClear = d.throttleClear := rfl
@[simp] theorem Dev.modOp_powerW (d : Dev) (c : Nat) (f : Op → Op) : (d.modOp c f).powerW = d.powerW := rfl
@[simp] theorem Dev.modOp_budgets (d : Dev) (c : Nat) (f : Op → Op) : (d.modOp c f).budgets = d.budgets := rfl
@[simp] theorem Dev.modOp_spent (d : Dev) (c : Nat) (f : Op → Op) : (d.modOp c f).spent = d.spent := rfl
@[simp] theorem Dev.modOp_period (d : Dev) (c : Nat) (f : Op → Op) : (d.modOp c f).period = d.period := rfl
@[simp] theorem Dev.modOp_params (d : Dev) (c : Nat) (f : Op → Op) : (d.modOp c f).params = d.params := rfl
@[simp] theorem Dev.modOp_handlers (d : Dev) (c : Nat) (f : Op → Op) : (d.modOp c f).handlers = d.handlers := rfl
@[simp] theorem Dev.modOp_log (d : Dev) (c : Nat) (f : Op → Op) : (d.modOp c f).log = d.log := rfl
@[simp] theorem Dev.modOp_logCounts (d : Dev) (c : Nat) (f : Op → Op) : (d.modOp c f).logCounts = d.logCounts := rfl
@[simp] theorem Dev.modOp_repairs (d : Dev) (c : Nat) (f : Op → Op) : (d.modOp c f).repairs = d.repairs := rfl
@[simp] theorem Dev.modOp_remapped (d : Dev) (c : Nat) (f : Op → Op) : (d.modOp c f).remapped = d.remapped := rfl
@[simp] theorem Dev.modOp_probes (d : Dev) (c : Nat) (f : Op → Op) : (d.modOp c f).probes = d.probes := rfl
@[simp] theorem Dev.modOp_mgmt (d : Dev) (c : Nat) (f : Op → Op) : (d.modOp c f).mgmt = d.mgmt := rfl
@[simp] theorem Dev.modOp_host (d : Dev) (c : Nat) (f : Op → Op) : (d.modOp c f).host = d.host := rfl
@[simp] theorem Dev.modOp_marker (d : Dev) (c : Nat) (f : Op → Op) : (d.modOp c f).marker = d.marker := rfl
@[simp] theorem Dev.modOp_stopped (d : Dev) (c : Nat) (f : Op → Op) : (d.modOp c f).stopped = d.stopped := rfl
@[simp] theorem Dev.modOp_evidence (d : Dev) (c : Nat) (f : Op → Op) : (d.modOp c f).evidence = d.evidence := rfl
@[simp] theorem Dev.modOp_nextLaunch (d : Dev) (c : Nat) (f : Op → Op) : (d.modOp c f).nextLaunch = d.nextLaunch := rfl
@[simp] theorem Dev.modOp_nextTask (d : Dev) (c : Nat) (f : Op → Op) : (d.modOp c f).nextTask = d.nextTask := rfl
@[simp] theorem Dev.modOp_nextOp (d : Dev) (c : Nat) (f : Op → Op) : (d.modOp c f).nextOp = d.nextOp := rfl
@[simp] theorem Dev.modOp_nextTag (d : Dev) (c : Nat) (f : Op → Op) : (d.modOp c f).nextTag = d.nextTag := rfl
@[simp] theorem Dev.modOp_nextTicket (d : Dev) (c : Nat) (f : Op → Op) : (d.modOp c f).nextTicket = d.nextTicket := rfl
@[simp] theorem Dev.modOp_moves (d : Dev) (c : Nat) (f : Op → Op) : (d.modOp c f).moves = d.moves := rfl
@[simp] theorem Dev.modOp_l2 (d : Dev) (c : Nat) (f : Op → Op) : (d.modOp c f).l2 = d.l2 := rfl
@[simp] theorem Dev.modOp_hostCopies (d : Dev) (c : Nat) (f : Op → Op) : (d.modOp c f).hostCopies = d.hostCopies := rfl
@[simp] theorem Dev.modOp_lastTicket (d : Dev) (c : Nat) (f : Op → Op) : (d.modOp c f).lastTicket = d.lastTicket := rfl
@[simp] theorem Dev.modOp_nextOrder (d : Dev) (c : Nat) (f : Op → Op) : (d.modOp c f).nextOrder = d.nextOrder := rfl
@[simp] theorem Dev.modOp_nextProbe (d : Dev) (c : Nat) (f : Op → Op) : (d.modOp c f).nextProbe = d.nextProbe := rfl
@[simp] theorem Dev.modOp_nextChange (d : Dev) (c : Nat) (f : Op → Op) : (d.modOp c f).nextChange = d.nextChange := rfl
@[simp] theorem Dev.modOp_nextEntry (d : Dev) (c : Nat) (f : Op → Op) : (d.modOp c f).nextEntry = d.nextEntry := rfl
@[simp] theorem Dev.modOp_ageTime (d : Dev) (c : Nat) (f : Op → Op) : (d.modOp c f).ageTime = d.ageTime := rfl
@[simp] theorem Dev.modOp_ageSeq (d : Dev) (c : Nat) (f : Op → Op) : (d.modOp c f).ageSeq = d.ageSeq := rfl
@[simp] theorem Dev.modOp_turn (d : Dev) (c : Nat) (f : Op → Op) : (d.modOp c f).turn = d.turn := rfl
@[simp] theorem Dev.modOp_alarmAt (d : Dev) (c : Nat) (f : Op → Op) : (d.modOp c f).alarmAt = d.alarmAt := rfl
@[simp] theorem Dev.modOp_busy (d : Dev) (c : Nat) (f : Op → Op) : (d.modOp c f).busy = d.busy := rfl
@[simp] theorem Dev.modOp_sampled (d : Dev) (c : Nat) (f : Op → Op) : (d.modOp c f).sampled = d.sampled := rfl
@[simp] theorem Dev.modOp_sampledAt (d : Dev) (c : Nat) (f : Op → Op) : (d.modOp c f).sampledAt = d.sampledAt := rfl
@[simp] theorem Dev.modOp_cxlCounts (d : Dev) (c : Nat) (f : Op → Op) : (d.modOp c f).cxlCounts = d.cxlCounts := rfl
@[simp] theorem Dev.modOp_fresh (d : Dev) (c : Nat) (f : Op → Op) : (d.modOp c f).fresh = d.fresh := rfl

end Sys2Proof.Machine
end

