-- ==== Sys2Proof/Laws/Tab.lean ====
section
/-! SUPPORT. Tables and memories: what a key reads after each operation, and that every operation keeps the canonical form. -/

namespace Sys2Proof

variable {α : Type}

/-! ## Reading after an insertion or a change -/

theorem Tab.find_insert (t : Tab α) (k j : Nat) (v : α) :
    Tab.find (Tab.insert t k v) j = if j = k then some v else Tab.find t j := by
  induction t with
  | nil => simp [Tab.insert, Tab.find, eq_comm]
  | cons p t ih =>
    obtain ⟨i, w⟩ := p
    by_cases h : j = k
    · subst h; simp only [Tab.insert]; split_ifs <;> simp_all [Tab.find]
    · have hk : k ≠ j := fun e => h e.symm
      simp only [Tab.insert]; split_ifs <;> simp_all [Tab.find]

theorem Tab.find_modify (t : Tab α) (k j : Nat) (f : α → α) :
    Tab.find (Tab.modify t k f) j = if j = k then (Tab.find t k).map f else Tab.find t j := by
  unfold Tab.modify
  cases h : Tab.find t k with
  | none => by_cases e : j = k <;> simp [e, h]
  | some v => simp [Tab.find_insert]

theorem Tab.get_insert (d : α) (t : Tab α) (k j : Nat) (v : α) :
    Tab.get d (Tab.insert t k v) j = if j = k then v else Tab.get d t j := by
  unfold Tab.get; rw [Tab.find_insert]; split_ifs <;> rfl

/-! ## The sorted form -/

theorem Tab.sorted_tail {p : Nat × α} {t : Tab α} (h : Tab.sorted (p :: t) = true) : Tab.sorted t = true := by
  cases t with
  | nil => rfl
  | cons q t => obtain ⟨i, v⟩ := p; obtain ⟨j, w⟩ := q; simp [Tab.sorted] at h; exact h.2

/-- In a sorted table every key behind the first is above it. -/
theorem Tab.sorted_lt {i : Nat} {v : α} {t : Tab α} (h : Tab.sorted ((i, v) :: t) = true) : ∀ p ∈ t, i < p.1 := by
  induction t generalizing i v with
  | nil => simp
  | cons q t ih =>
    obtain ⟨j, w⟩ := q
    simp only [Tab.sorted, Bool.and_eq_true, decide_eq_true_eq] at h
    intro p hp
    rcases List.mem_cons.1 hp with rfl | hp
    · exact h.1
    · exact Nat.lt_trans h.1 (ih h.2 p hp)

theorem Tab.sorted_cons {i : Nat} {v : α} {t : Tab α} (ht : Tab.sorted t = true) (hi : ∀ p ∈ t, i < p.1) :
    Tab.sorted ((i, v) :: t) = true := by
  cases t with
  | nil => rfl
  | cons q t => obtain ⟨j, w⟩ := q; simp only [Tab.sorted, Bool.and_eq_true, decide_eq_true_eq]; exact ⟨hi _ (List.mem_cons_self ..), ht⟩

theorem Tab.mem_insert {t : Tab α} {k : Nat} {v : α} {p : Nat × α} (h : p ∈ Tab.insert t k v) : p = (k, v) ∨ p ∈ t := by
  induction t with
  | nil => simpa [Tab.insert] using h
  | cons q t ih =>
    obtain ⟨j, w⟩ := q
    simp only [Tab.insert] at h
    split_ifs at h <;> simp at h ⊢ <;> grind

theorem Tab.sorted_insert {t : Tab α} (k : Nat) (v : α) (h : Tab.sorted t = true) : Tab.sorted (Tab.insert t k v) = true := by
  induction t with
  | nil => rfl
  | cons q t ih =>
    obtain ⟨j, w⟩ := q
    have hl := Tab.sorted_lt h
    simp only [Tab.insert]
    split_ifs with h1 h2
    · subst h1; exact Tab.sorted_cons (Tab.sorted_tail h) hl
    · refine Tab.sorted_cons h ?_
      intro p hp
      rcases List.mem_cons.1 hp with rfl | hp
      · exact h2
      · exact Nat.lt_trans h2 (hl p hp)
    · refine Tab.sorted_cons (ih (Tab.sorted_tail h)) ?_
      intro p hp
      rcases Tab.mem_insert hp with rfl | hp
      · simp only; omega
      · exact hl p hp

theorem Tab.mem_erase {t : Tab α} {k : Nat} {p : Nat × α} (h : p ∈ Tab.erase t k) : p ∈ t := (List.mem_filter.1 h).1

/-- What a table lists after a filter that looks at keys alone. -/
theorem Tab.find_filter (t : Tab α) (p : Nat → Bool) (j : Nat) :
    Tab.find (t.filter (fun q => p q.1)) j = if p j = true then Tab.find t j else none := by
  induction t with
  | nil => simp [Tab.find]
  | cons q t ih =>
    obtain ⟨i, w⟩ := q
    rw [List.filter_cons]
    by_cases e : i = j
    · subst e; by_cases h : p i = true <;> simp [h, Tab.find, ih]
    · by_cases h : p i = true <;> simp [h, Tab.find, e, ih]

theorem Tab.find_erase (t : Tab α) (k j : Nat) : Tab.find (Tab.erase t k) j = if j = k then none else Tab.find t j := by
  have h := Tab.find_filter t (fun i => decide (i ≠ k)) j
  unfold Tab.erase
  rw [h]
  by_cases e : j = k <;> simp [e]

theorem Tab.get_set [DecidableEq α] (d : α) (t : Tab α) (k j : Nat) (v : α) :
    Tab.get d (Tab.set d t k v) j = if j = k then v else Tab.get d t j := by
  unfold Tab.set
  split_ifs with h1 h2 h3
  · subst h2; simp [Tab.get, Tab.find_erase, h1]
  · simp [Tab.get, Tab.find_erase, h2]
  · subst h3; simp [Tab.get_insert]
  · simp [Tab.get_insert, h3]

theorem Tab.sorted_filter {t : Tab α} (p : Nat × α → Bool) (h : Tab.sorted t = true) : Tab.sorted (t.filter p) = true := by
  induction t with
  | nil => rfl
  | cons q t ih =>
    obtain ⟨j, w⟩ := q
    have hl := Tab.sorted_lt h
    rw [List.filter_cons]
    split_ifs
    · exact Tab.sorted_cons (ih (Tab.sorted_tail h)) (fun x hx => hl x (List.mem_filter.1 hx).1)
    · exact ih (Tab.sorted_tail h)

theorem Tab.sorted_erase {t : Tab α} (k : Nat) (h : Tab.sorted t = true) : Tab.sorted (Tab.erase t k) = true := Tab.sorted_filter _ h

theorem Tab.sorted_set [DecidableEq α] (d : α) {t : Tab α} (k : Nat) (v : α) (h : Tab.sorted t = true) :
    Tab.sorted (Tab.set d t k v) = true := by
  unfold Tab.set; split_ifs
  · exact Tab.sorted_erase k h
  · exact Tab.sorted_insert k v h

/-! ## Memory -/

theorem Memory.wf_iff {m : List Host.Cell} : Memory.wf m = true ↔ Tab.sorted m = true ∧ ∀ c ∈ m, c.2 ≠ 0 := by
  simp [Memory.wf]

theorem Memory.read_write (m : List Host.Cell) (a x : Nat) (b : Byte) :
    Memory.read (Memory.write m a b) x = if x = a then b else Memory.read m x := Tab.get_set 0 m a x b

theorem Memory.wf_write {m : List Host.Cell} (a : Nat) (b : Byte) (h : Memory.wf m = true) :
    Memory.wf (Memory.write m a b) = true := by
  rw [Memory.wf_iff] at *
  refine ⟨Tab.sorted_set 0 a b h.1, fun c hc => ?_⟩
  unfold Memory.write Tab.set at hc
  split_ifs at hc with hb
  · exact h.2 c (Tab.mem_erase hc)
  · rcases Tab.mem_insert hc with rfl | hc
    · exact hb
    · exact h.2 c hc

theorem Memory.wf_filter {m : List Host.Cell} (p : Host.Cell → Bool) (h : Memory.wf m = true) : Memory.wf (m.filter p) = true := by
  rw [Memory.wf_iff] at *
  exact ⟨Tab.sorted_filter p h.1, fun c hc => h.2 c (List.mem_filter.1 hc).1⟩

theorem Memory.wf_clear {m : List Host.Cell} (a n : Nat) (h : Memory.wf m = true) : Memory.wf (Memory.clear m a n) = true :=
  Memory.wf_filter _ h

theorem Memory.wf_writeL {m : List Host.Cell} (a : Nat) (bs : List Byte) (h : Memory.wf m = true) :
    Memory.wf (Memory.writeL m a bs) = true := by
  induction bs generalizing m a with
  | nil => exact h
  | cons b bs ih => exact ih (a + 1) (Memory.wf_write a b h)

theorem Memory.read_writeL_of_lt (m : List Host.Cell) (a x : Nat) (bs : List Byte) (hx : x < a ∨ a + bs.length ≤ x) :
    Memory.read (Memory.writeL m a bs) x = Memory.read m x := by
  induction bs generalizing m a with
  | nil => rfl
  | cons b bs ih =>
    simp only [List.length_cons] at hx
    rw [Memory.writeL, ih _ (a + 1) (by omega), Memory.read_write, if_neg (by omega)]

end Sys2Proof
end

