-- ==== Sys2Proof/Laws/Regs.lean ====
section
/-! SUPPORT. What the writes of registers do: each says once all that it can do. -/

namespace Sys2Proof.Machine

/-! ## Groups of the device -/

theorem Dev.group_modGroup (d : Dev) (c sl : Nat) (f : Group → Group) (h : d.hasGroup c sl = true) :
    (d.modGroup c sl f).group c sl = f (d.group c sl) := by
  obtain ⟨g, hg⟩ := Option.isSome_iff_exists.1 h
  simp [Dev.group, Tab.get, Tab.find_modify, hg]

theorem Dev.find_modGroup_ne (d : Dev) (c sl k : Nat) (f : Group → Group) (h : k ≠ gkey c sl) :
    Tab.find (d.modGroup c sl f).groups k = Tab.find d.groups k := by
  simp [Tab.find_modify, h]

theorem Dev.hasGroup_modGroup (d : Dev) (c sl c' sl' : Nat) (f : Group → Group) :
    (d.modGroup c sl f).hasGroup c' sl' = d.hasGroup c' sl' := by
  simp only [Dev.hasGroup, Dev.modGroup_groups, Tab.find_modify]
  split_ifs with h
  · rw [h]; simp
  · rfl

theorem State.grp_modGrp (s : State) (f : Group → Group) (h : s.dev.hasGroup s.iss.core s.iss.slot = true) :
    (s.modGrp f).grp = f s.grp := by
  simp only [State.grp, State.modGrp_dev, State.modGrp_iss]
  exact Dev.group_modGroup _ _ _ _ h

/-- A change of registers alone changes nothing else. -/
theorem State.onlyRegs_modGrp (s : State) (f : Regs → Regs) (h : s.dev.hasGroup s.iss.core s.iss.slot = true) :
    OnlyRegs s (s.modGrp (fun g => { g with regs := f g.regs })) where
  iss := rfl
  agenda := rfl
  pick := rfl
  dev := rfl
  others := fun k hk => Dev.find_modGroup_ne _ _ _ _ _ hk
  own := by rw [State.grp_modGrp s _ h]

theorem State.running_hasGroup {s : State} (h : s.running = true) : s.dev.hasGroup s.iss.core s.iss.slot = true :=
  h

/-! ## One register file -/

theorem Regs.readS_writeS (r : Regs) (n m : Nat) (x : W64) :
    (r.writeS n x).readS m = if m = n ∧ m ≠ 0 then x else r.readS m := by
  by_cases hn : n = 0
  · subst hn; by_cases hm : m = 0 <;> simp [Regs.writeS, Regs.readS, hm]
  · by_cases hm : m = 0
    · simp [Regs.readS, hm]
    · simp only [Regs.writeS, Regs.readS, hn, hm, if_false, ne_eq, not_false_eq_true, and_true]; exact Tab.get_set _ _ n m x

theorem Regs.readP_writeP (r : Regs) (n m : Nat) (x : W32) :
    (r.writeP n x).readP m = if m = n ∧ m ≠ 0 then x else r.readP m := by
  by_cases hn : n = 0
  · subst hn; by_cases hm : m = 0 <;> simp [Regs.writeP, Regs.readP, hm]
  · by_cases hm : m = 0
    · simp [Regs.readP, hm]
    · simp only [Regs.writeP, Regs.readP, hn, hm, if_false, ne_eq, not_false_eq_true, and_true]; exact Tab.get_set _ _ n m x

theorem Regs.readF_writeF (r : Regs) (n m : FReg) (b : Bool) :
    (r.writeF n.toNat b).readF m.toNat = if m = n ∧ m ≠ 0 then b else r.readF m.toNat := by
  have key : ∀ (f : BitVec 8) (n m : FReg) (b : Bool),
      (if m.toNat = 0 then true else
        ((if n.toNat = 0 then f else if b then f ||| BitVec.ofNat 8 (2 ^ n.toNat) else f &&& ~~~(BitVec.ofNat 8 (2 ^ n.toNat)))).getLsbD m.toNat)
        = if m = n ∧ m ≠ 0 then b else if m.toNat = 0 then true else f.getLsbD m.toNat := by
    intro f n m b
    have hn : n = 0 ∨ n = 1 ∨ n = 2 ∨ n = 3 ∨ n = 4 ∨ n = 5 ∨ n = 6 ∨ n = 7 := by revert n; decide
    have hm : m = 0 ∨ m = 1 ∨ m = 2 ∨ m = 3 ∨ m = 4 ∨ m = 5 ∨ m = 6 ∨ m = 7 := by revert m; decide
    rcases hn with rfl | rfl | rfl | rfl | rfl | rfl | rfl | rfl <;>
    rcases hm with rfl | rfl | rfl | rfl | rfl | rfl | rfl | rfl <;> cases b <;> simp
  have h := key r.f n m b
  have e : (r.writeF n.toNat b).f =
      if n.toNat = 0 then r.f else if b then r.f ||| BitVec.ofNat 8 (2 ^ n.toNat) else r.f &&& ~~~(BitVec.ofNat 8 (2 ^ n.toNat)) := by
    unfold Regs.writeF; split_ifs <;> rfl
  unfold Regs.readF
  rw [e]
  exact h

theorem Regs.readV_writeV (r : Regs) (n i m j : Nat) (hi : i < 32) (hj : j < 32) (x : W32) :
    (r.writeV n i x).readV m j = if m = n ∧ m ≠ 127 ∧ j = i then x else r.readV m j := by
  by_cases hn : n = 127
  · subst hn
    by_cases hm : m = 127 <;> simp [Regs.writeV, Regs.readV, hm]
  · by_cases hm : m = 127
    · simp [Regs.readV, hm]
    · simp only [Regs.writeV, Regs.readV, hn, hm, if_false, ne_eq, not_false_eq_true, true_and]
      rw [Tab.get_set]
      congr 1
      simp only [eq_iff_iff]
      omega

theorem Regs.writeVLanes_fields (l : List Nat) (r : Regs) (n : Nat) (f : Nat → W32) :
    r.writeVLanes n l f = { r with v := (r.writeVLanes n l f).v } := by
  induction l generalizing r with
  | nil => rfl
  | cons i l ih =>
    have h1 : r.writeVLanes n (i :: l) f = (r.writeV n i (f i)).writeVLanes n l f := rfl
    have h2 : r.writeV n i (f i) = { r with v := (r.writeV n i (f i)).v } := by unfold Regs.writeV; split_ifs <;> rfl
    rw [h1, ih, h2]

theorem Regs.readV_writeVLanes (l : List Nat) (r : Regs) (n m j : Nat) (f : Nat → W32) (hl : ∀ i ∈ l, i < 32)
    (hj : j < 32) :
    (r.writeVLanes n l f).readV m j = if m = n ∧ m ≠ 127 ∧ j ∈ l then f j else r.readV m j := by
  induction l generalizing r with
  | nil => simp [Regs.writeVLanes]
  | cons i l ih =>
    have h1 : r.writeVLanes n (i :: l) f = (r.writeV n i (f i)).writeVLanes n l f := rfl
    rw [h1, ih _ (fun k hk => hl k (List.mem_cons_of_mem _ hk)),
      Regs.readV_writeV _ n i m j (hl i (List.mem_cons_self ..)) hj]
    by_cases e : j = i
    · subst e; simp only [List.mem_cons, true_or, and_true]; split_ifs <;> simp_all
    · simp [e]

theorem mem_lanesOf (m : W32) (i : Nat) : i ∈ lanesOf m ↔ i < 32 ∧ m.getLsbD i = true := by
  simp [lanesOf, laneIn]

/-! ## The four writes of an issuing group -/

theorem State.grp_wrV (s : State) (d : VReg) (m : W32) (f : Nat → W32) (h : s.dev.hasGroup s.iss.core s.iss.slot = true) :
    (s.wrV d m f).grp = { s.grp with regs := s.grp.regs.writeVLanes d.toNat (lanesOf m) f } := State.grp_modGrp s _ h
theorem State.grp_wrS (s : State) (d : SReg) (x : W64) (h : s.dev.hasGroup s.iss.core s.iss.slot = true) :
    (s.wrS d x).grp = { s.grp with regs := s.grp.regs.writeS d.toNat x } := State.grp_modGrp s _ h
theorem State.grp_wrP (s : State) (d : PReg) (l m : W32) (h : s.dev.hasGroup s.iss.core s.iss.slot = true) :
    (s.wrP d l m).grp = { s.grp with regs := s.grp.regs.writePLanes d.toNat l m } := State.grp_modGrp s _ h
theorem State.grp_wrF (s : State) (d : FReg) (b : Bool) (h : s.dev.hasGroup s.iss.core s.iss.slot = true) :
    (s.wrF d b).grp = { s.grp with regs := s.grp.regs.writeF d.toNat b } := State.grp_modGrp s _ h

theorem toNat_ne_iff {n : Nat} (x y : BitVec n) : (x.toNat ≠ y.toNat) = (x ≠ y) := by rw [ne_eq, ne_eq, BitVec.toNat_eq]

theorem State.wrV_written (s : State) (d : VReg) (m : W32) (f : Nat → W32) (h : s.running = true) : VWritten s (s.wrV d m f) d m f 0 :=
  have hg := State.running_hasGroup h
  { State.onlyRegs_modGrp s (fun r => r.writeVLanes d.toNat (lanesOf m) f) hg with
    raised := by simp
    regs := by rw [State.grp_wrV s d m f hg]; exact Regs.writeVLanes_fields _ _ _ _
    val := by
      intro r i hi
      rw [State.grp_wrV s d m f hg]
      show (s.grp.regs.writeVLanes d.toNat (lanesOf m) f).readV r.toNat i = _
      rw [Regs.readV_writeVLanes _ _ _ _ _ _ (fun k hk => ((mem_lanesOf m k).1 hk).1) hi]
      have h2 := toNat_ne_iff r 127
      have h1 : (r.toNat = d.toNat) = (r = d) := by rw [BitVec.toNat_eq]
      simp only [h1, mem_lanesOf, hi, true_and, ← h2]
      rfl }

theorem State.wrS_written (s : State) (d : SReg) (x : W64) (h : s.running = true) : SWritten s (s.wrS d x) d x :=
  have hg := State.running_hasGroup h
  { State.onlyRegs_modGrp s (fun r => r.writeS d.toNat x) hg with
    raised := rfl
    regs := by
      rw [State.grp_wrS s d x hg]
      show s.grp.regs.writeS d.toNat x = { s.grp.regs with s := (s.grp.regs.writeS d.toNat x).s }
      unfold Regs.writeS; split_ifs <;> rfl
    val := by
      intro r
      rw [State.grp_wrS s d x hg]
      show (s.grp.regs.writeS d.toNat x).readS r.toNat = _
      rw [Regs.readS_writeS]
      have h1 : (r.toNat = d.toNat) = (r = d) := by rw [BitVec.toNat_eq]
      simp only [h1, ← toNat_ne_iff r 0]
      rfl }

theorem State.wrP_written (s : State) (d : PReg) (lanes m : W32) (h : s.running = true) : PWritten s (s.wrP d lanes m) d lanes m :=
  have hg := State.running_hasGroup h
  { State.onlyRegs_modGrp s (fun r => r.writePLanes d.toNat lanes m) hg with
    raised := rfl
    regs := by
      rw [State.grp_wrP s d lanes m hg]
      show s.grp.regs.writePLanes d.toNat lanes m = { s.grp.regs with p := (s.grp.regs.writePLanes d.toNat lanes m).p }
      unfold Regs.writePLanes Regs.writeP; split_ifs <;> rfl
    val := by
      intro r
      rw [State.grp_wrP s d lanes m hg]
      show (s.grp.regs.writePLanes d.toNat lanes m).readP r.toNat = _
      unfold Regs.writePLanes
      rw [Regs.readP_writeP]
      have h1 : (r.toNat = d.toNat) = (r = d) := by rw [BitVec.toNat_eq]
      have h2 : (r.toNat ≠ 0) = (r ≠ 0) := toNat_ne_iff r 0
      simp only [h1, h2]
      split_ifs with h3
      · rw [h3.1]
      · rfl }

theorem State.wrF_written (s : State) (d : FReg) (b : Bool) (h : s.running = true) : FWritten s (s.wrF d b) d b :=
  have hg := State.running_hasGroup h
  { State.onlyRegs_modGrp s (fun r => r.writeF d.toNat b) hg with
    raised := rfl
    regs := by
      rw [State.grp_wrF s d b hg]
      show s.grp.regs.writeF d.toNat b = { s.grp.regs with f := (s.grp.regs.writeF d.toNat b).f }
      unfold Regs.writeF; split_ifs <;> rfl
    val := by
      intro r
      rw [State.grp_wrF s d b hg]
      exact Regs.readF_writeF _ _ _ _ }

/-- Flags raised beside a write of V change nothing else. -/
theorem VWritten.raise {s t : State} {d : VReg} {m : W32} {f : Nat → W32} (h : VWritten s t d m f 0) (x : Flags) :
    VWritten s (t.raiseFlags x) d m f x :=
  have hgrp : (t.raiseFlags x).grp = t.grp := rfl
  { iss := by rw [State.raiseFlags_iss, h.iss]
    agenda := h.agenda
    pick := h.pick
    dev := h.dev
    others := h.others
    own := hgrp ▸ h.own
    raised := by rw [State.raiseFlags_iss, h.raised]; simp
    regs := hgrp ▸ h.regs
    val := hgrp ▸ h.val }

end Sys2Proof.Machine
end

