-- ==== Sys2Proof/Tests/Slice0.lean ====
section
/-! SUPPORT. Tests of the model on small states. Each expected value comes from the spec: a word's encoding, a worked example, or a rule applied by hand, named
in the test's comment. The last part shows, for each statement of Obligations.lean, states that meet its hypotheses. -/

set_option Elab.async false

namespace Sys2Proof.Tests

open Sys2Proof.Machine Sys2Proof.Claims

/-! ## A small machine -/

/-- A split of all lanes at packet 0x300. -/
def aSplit : Split :=
  { mask := BitVec.allOnes 32, pos := { pc := 0x300, word := 0 }, park := .running, later := [], skip := false, issued := { pc := 0, word := 0 },
    waitCount := 0, classPromo := none, globalPromo := none, since := 0, probed := false, exiting := false, rest := 0, tried := 0 }

/-- A workgroup of one group on core 0. -/
def aTask : Task :=
  { grid := 0, linear := 0, gang := 1, core := 0, slots := [0], left := [], fixed := none, queue := 0, phase := .running, age := 0, restarts := 0, since := 0, ran := 0, smem := [],
    pmem := [], tent := [], tiles := [], handles := [], shapes := [], mxc := [0, 0, 0, 0, 0], streams := [], cq := CopyQueue.empty, cqFirst := none,
    sets := [], token := .none, killed := false, cyc := false, restart := false, saved := [], savedMx := [], savedBuf := [], deadlineFrom := none, floor := 0 }

/-- Its group. -/
def aGroup : Group := { Group.empty with task := 1, splits := [some aSplit, none, none, none] }

/-- A device that holds it, with the placed grid and a share of cluster memory. -/
def aDev : Dev :=
  { Dev.reset with
    groups := [(0, aGroup)], tasks := [(1, aTask)], grids := [(0, placedGrid)], nextTask := 2, nextLaunch := 1
    gangs := [(1, { cmem := [], extent := 0, share := [], cluster := 0, live := 1 })] }

/-- The device with registers of that group changed. -/
def devWith (f : Regs → Regs) : Dev := { aDev with groups := [(0, { aGroup with regs := f Regs.zero })] }

/-- An issue group of the split in progress over a device. -/
def onDev (d : Dev) : State :=
  { dev := d, agenda := [], pick := none
    iss := { Issue.closed with
      open_ := true, mask := BitVec.allOnes 32, pos := { pc := 0x300, word := 0 }, fall := { pc := 0x300, word := 1 }, base := d } }

/-- The same with some registers. -/
def live (f : Regs → Regs) : State := onDev (devWith f)

/-- The same with a modifier before the word. -/
def modded (m : Mod) (s : State) : State := { s with iss := { s.iss with mod := some m } }

/-- Registers: V r holds x in every lane, or S r, or P r. -/
def setV (r : Nat) (x : W32) (g : Regs) : Regs := (List.range 32).foldl (fun g l => g.writeV r l x) g
def setS (r : Nat) (x : W64) (g : Regs) : Regs := g.writeS r x
def setP (r : Nat) (x : W32) (g : Regs) : Regs := g.writeP r x

/-- What a word leaves, read by f. -/
def after {α : Type} [Inhabited α] (i : Instr) (s : State) (f : State → α) : α := match exec i s with
  | .next t => f t
  | _ => default

/-- Lane l of V r, S r, P r, F r of the group afterwards. -/
def vOf (r l : Nat) (s : State) : W32 := s.grp.regs.readV r l
def sOf (r : Nat) (s : State) : W64 := s.grp.regs.readS r
def pOf (r : Nat) (s : State) : W32 := s.grp.regs.readP r
def fOf (r : Nat) (s : State) : Bool := s.grp.regs.readF r

/-- The cause of the trap that a word's group has. -/
def trapOf (s : State) : Option Nat := (s.dev.group 0 0).trap.map (fun r => r.cause)

/-! ## Decoding -/

theorem test_words_of_majors_00_to_02 : [0x00600000, 0x01000000, 0x00E00150, 0x02000006, 0x02200002, 0x04200006].map (decodeTableWord 32) =
    [some (.join), some (.tret), some (.trap 42), some (.bra 6), some (.brf 0 1 2), some (.brv 0 1 6)] := by decide +kernel

theorem test_words_of_waits : [0x0A07FFFE, 0x0BFFFF80].map (decodeTableWord 32) =
    [some (.waitc 0 63 63 63), some (.waitc 63 63 63 0)] := by decide +kernel

theorem test_words_of_scalars : [0x0C618210, 0x121000FF, 0x0E3093E0, 0x14020680, 0x1400C000, 0x14A10608].map (decodeTableWord 32) =
    [some (.sand 3 1 2), some (.saddi 2 0 255), some (.sli 6 0 0x93E0), some (.rdspc 4 13), some (.rdspc 1 128), some (.vote 2 3 1)] := by decide +kernel

theorem test_words_of_integers : [0x20020409, 0x20428104, 0x2E081C04, 0x24040801, 0x34073F80].map (decodeTableWord 32) =
    [some (.iadd 8 8 9), some (.iaddc 10 2 4), some (.srai 2 3 4), some (.iaddi 1 1 1), some (.moviBf16 1 0x3F80)] := by decide +kernel

theorem test_words_of_floats : [0x36610286, 0x3D60C100].map (decodeTableWord 32) =
    [some (.ffma 4 5 6), some (.cvt 11 3 2 0)] := by decide +kernel

theorem test_words_of_moves : [0x44604103, 0x4081C000].map (decodeTableWord 32) =
    [some (.qbcast 1 2 3), some (.pnot 7 0)] := by decide +kernel

theorem test_words_of_memory : [0x660146FE, 0x56618209, 0x66A085FE, 0x66C044FE, 0x66E003FE].map (decodeTableWord 32) =
    [some (.ldu 5 6), some (.stS 3 6 2 4 1), some (.acqld 2 5 127 0), some (.relst 1 4 127 0), some (.barw 3)] := by decide +kernel

theorem test_words_of_atomics : [0x64010604, 0x65E14605, 0x654206FE].map (decodeTableWord 32) =
    [some (.atomAdd 4 6 2), some (.redAddF32 5 6 2), some (.atomCas 4 6 127)] := by decide +kernel

theorem test_words_of_matrix : [0x68009000, 0x6811C100, 0x6A050200, 0x6A40850F, 0x6AE04910].map (decodeTableWord 32) =
    [some (.mma 0 0 1 0 0 1 0 0), some (.mma 0 2 3 1 0 0 1 0), some (.mres 20 4 0), some (.mlda 2 10 15), some (.mtst 1 18 16)] := by decide +kernel

theorem test_words_of_queues : [0x6C224600, 0x6E00C402, 0x70014300].map (decodeTableWord 32) =
    [some (.cqpush 9 3), some (.sopen 3 8 2), some (.lnch 5 6)] := by decide +kernel

theorem test_words_of_system : [0x72A00205, 0x72C08180, 0x72E08180, 0x72600280, 0x72800380, 0x74010286].map (decodeTableWord 32) =
    [some (.tlbiPage 4 5), some (.tkstat 2 3), some (.wlatchRead 2 3), some (.gresume 5 0), some (.gkill 7), some (.boostGrant 4 5 6)] := by decide +kernel

theorem test_words_of_modifiers : [0xFF080000, 0xFF060010, 0xFE040000].map (decodeTableWord 32) =
    [some (.modMemory 0 0 4 0 0), some (.modMemory 0 0 3 0 16), some (.modArithmetic 0 0 1 0 0 0 0 0 0 0)] := by decide +kernel

/-- R74: a reserved major, an unassigned function, a field that must be zero, and an illegal operand. -/
theorem test_words_refused : [0x18000000, 0x01600000, 0x00600001, 0x20000009 + 124 * 16384].map (decodeTableWord 32) = [none, none, none, none] := by
  decide +kernel

/-! ## Well-formedness: an ill-formed term for each check (R60 to R62, R70 to R74) -/

/-- A destination among the queue heads, V124 to V126 read, an odd pair, P0 and F0 written, a special register that cannot be written. -/
theorem test_register_checks_refuse :
    [Instr.iadd 120 1 2, .iadd 1 124 2, .ldP 3 7 0 127 0, .pand 0 1 2, .vote 0 1 0, .wrspc 3 4].map Instr.wf = List.replicate 6 false := by decide +kernel
/-- A clamp and a scope without meaning, BRF F0 with sense 0, LOOP S0, conditions, special registers, modes, sizes, conversions, CQPUSH of S0 and MWAIT of S0. -/
theorem test_code_checks_refuse :
    [Instr.modArithmetic 0 0 0 0 3 0 0 0 0 0, .modMemory 0 0 6 0 0, .brf 0 0 4, .loop 0 0, .scmp 10 1 1 1, .rdspc 1 20, .vote 1 1 6, .icmp 10 1 1 1,
      .cvt 13 1 1 0, .cvt 3 1 1 3, .cvt 6 1 1 1, .ldP 7 0 0 127 0, .stP 5 0 0 127 0, .ldG 7 0 0 127 0, .stG 5 0 0 127 0, .mwaitNe 0 1, .mwaitGe 0 1,
      .cqpush 1 0].map Instr.wf = List.replicate 18 false := by decide +kernel
theorem test_wellFormed_accepts : [Instr.iadd 119 120 123, .vote 1 0 5, .brf 1 0 4, .ldP 4 8 0 127 0].map Instr.wf = List.replicate 4 true := by decide +kernel

/-! ## Lanes -/

/-- R67's example: IADD.sat.exp+1. -/
theorem test_iadd_sat_exp : after (.iadd 1 2 3) (modded (.arith 0 false 0 0 true false false false false 1)
    (live (setV 2 0x60000000 ∘ setV 3 0x10000000))) (vOf 1 9) = 0x7FFFFFFF := by decide +kernel
theorem test_iadd_exp : after (.iadd 1 2 3) (modded (.arith 0 false 0 0 false false false false false 1)
    (live (setV 2 0x60000000 ∘ setV 3 0x10000000))) (vOf 1 9) = 0xE0000000 := by decide +kernel
/-- The example under R124. -/
theorem test_iabsd : after (.iabsd 1 2 3) (live (setV 2 0x80000000 ∘ setV 3 1)) (vOf 1 0) = 0x80000001 := by decide +kernel
/-- The example under R125: the low words carry into P7. -/
theorem test_iaddc_carries : after (.iaddc 10 2 4) (live (setV 2 0xFFFFFFFF ∘ setV 4 1)) (fun t => (vOf 10 3 t, pOf 7 t)) = (0, 0xFFFFFFFF) := by decide +kernel
theorem test_iaddc_takes_the_carry : after (.iaddc 11 3 5) (live (setV 3 1 ∘ setP 7 0xFFFFFFFF)) (fun t => (vOf 11 3 t, pOf 7 t)) = (2, 0) := by
  decide +kernel
/-- The example under R127: position 7, width 5. -/
theorem test_bfe : after (.bfeI 1 2 3) (live (setV 2 0xF80 ∘ setV 3 (7 + 256 * 5))) (vOf 1 0) = 0xFFFFFFFF := by decide +kernel
theorem test_bfe_unsigned : after (.bfeN 1 2 3) (live (setV 2 0xF80 ∘ setV 3 (7 + 256 * 5))) (vOf 1 0) = 0x1F := by decide +kernel
/-- R126: a shift by 32 or more empties the word. -/
theorem test_shl_by_32 : after (.shl 1 2 3) (live (setV 2 0xFFFFFFFF ∘ setV 3 32)) (vOf 1 0) = 0 := by decide +kernel
/-- A guard leaves the lanes it does not take (R68); V127 discards a write (R61). -/
theorem test_guard : after (.iadd 1 2 3) (modded (.arith 1 false 0 0 false false false false false 0) (live (setV 2 5 ∘ setP 1 2)))
    (fun t => (vOf 1 0 t, vOf 1 1 t)) = (0, 5) := by decide +kernel
theorem test_v127_discards : after (.iadd 127 2 2) (live (setV 2 5)) (vOf 127 0) = 0 := by decide +kernel
/-- R67's example: FFMA.f32.sat.rz.exp-2 V4, -V5, |V6|. -/
theorem test_ffma_modified : after (.ffma 4 5 6) (modded (.arith 0 false 1 0 true true false false true (-2))
    (live (setV 4 0x3E800000 ∘ setV 5 0x3FC00000 ∘ setV 6 0xBF400000))) (fun t => (vOf 4 0 t, t.iss.raised)) = (0xBE600000, 0) := by decide +kernel
/-- The example under R137: an overflow and an exact product, OF and NX raised. -/
theorem test_fmul_f16x2 : after (.fmulF16x2 1 2 3) (live (setV 2 0x3C007BFF ∘ setV 3 0x40004000)) (fun t => (vOf 1 0 t, t.iss.raised)) =
    (0x40007C00, 0b10100) := by decide +kernel
/-- The example under R139, from the example under R44. -/
theorem test_ldot4 : after (.ldot4L6 1 2 3) (live (setV 2 0x3F011016 ∘ setV 3 0x3F221029)) (vOf 1 0) = 0x43352C0C := by decide +kernel
/-- The examples under R39: F32 0.3 and 500 to the small formats, with their flags (bit 2 OF, 3 UF, 4 NX). -/
theorem test_conversions : [(Fmt.bf16, 0x3E99999A), (.f8a, 0x3E99999A), (.f8b, 0x3E99999A), (.f8a, 0x43E60000), (.f8a, 0x43FA0000), (.f16, 0x33C00000)].map
    (fun p => finF p.1 AMod.none (Fmt.f32.decode p.2, false)) =
    [(0x3E9A, 0b10000), (0x2A, 0b10000), (0x35, 0b10000), (0x7E, 0b10000), (0x7F, 0b10100), (2, 0b11000)] := by decide +kernel
/-- The table under R141: CVT's codes name destination and source; -3.7 goes towards zero, 300 saturates, 0x12345 keeps 16 bits, 3.0 is L6 22. -/
theorem test_cvt_table : [cvtLane 11 0 { AMod.none with r := 1 } 0xC06CCCCD, cvtLane 12 0 AMod.none 0x43960000, cvtLane 9 7 AMod.none 0x12345,
    cvtLane 9 7 { AMod.none with sat := true } 0x12345, cvtLane 5 0 AMod.none 0x40400000, cvtLane 6 0 AMod.none 0x40400000, cvtLane 0 6 AMod.none 0] =
    [(0xFD, 0b10000), (0xFF, 1), (0x2345, 0), (0x7FFF, 0), (0x16, 0b10000), (0x80, 0b10000), (0x00400000, 0)] := by decide +kernel
/-- The example under R106: a scan of floats rounds each exact prefix once. -/
theorem test_gscan_float : after (.gscanAddF 1 2) (live (fun g => (((g.writeV 2 0 0x3F800000).writeV 2 1 0x33800000).writeV 2 2 0x33800000).writeV 2 3 0xBF800000))
    (fun t => (List.range 4).map (fun l => vOf 1 l t)) = [0x3F800000, 0x3F800000, 0x3F800001, 0x34000000] := by decide +kernel
/-- The example under R104: c = 0x63 rotates by 3 within eight lanes. -/
theorem test_lxch_rot : after (.lxchRot 1 2 3) (live ((fun g => (g.writeV 2 0 40).writeV 2 8 48) ∘ setV 3 0x63)) (fun t => (vOf 1 5 t, vOf 1 13 t)) =
    (40, 48) := by decide +kernel

/-! ## Scalars, masks, control -/

/-- The example under R363 builds 300,000 with two SLI words. -/
theorem test_sli : after (.sli 6 1 4) (live (setS 6 0x93E0)) (sOf 6) = 300000 := by decide +kernel
theorem test_ssra_by_64 : after (.ssra 1 2 3) (live (setS 2 (-8) ∘ setS 3 64)) (sOf 1) = -1 := by decide +kernel
theorem test_s0_discards : after (.saddi 0 1 1) (live (setS 1 7)) (sOf 0) = 0 := by decide +kernel
/-- The example under R100: an active mask of 0xF0 with P3 true in lanes 4, 5 and 7. -/
theorem test_vote : ((List.range 6).map (fun m => after (.vote 2 3 (BitVec.ofNat 6 m)) (let s := live (setP 3 0xB0); { s with iss := { s.iss with mask := 0xF0 } })
    (fOf 2))) = [false, true, true, true, true, false] := by decide +kernel
/-- R52's example: FPFLAGS written with 0 in the group whose FADD raises NX reads 0b10000 afterwards. -/
theorem test_wrspc_keeps_the_groups_flags : after (.wrspc 0 13) (let s := live (fun g => { g with flags := 3 }); { s with iss := { s.iss with raised := 0b10000 } })
    (fun t => (t.closeIssue.dev.group 0 0).regs.flags) = 0b10000 := by decide +kernel
/-- R94's example: BRA in packet 3 reaches packet 9, 12 bytes a packet. -/
theorem test_bra : after (.bra 6) (live id) (fun t => t.iss.target) = some (0x300 + 72) := by decide +kernel
theorem test_bra_backwards : after (.bra (-2)) (live id) (fun t => t.iss.target) = some (0x300 - 24) := by decide +kernel
/-- R94's example, step 1: BRV P1 with lanes 0 to 15 divides; the lower index keeps the lanes that fall through. -/
theorem test_brv_divides : after (.brv 0 1 6) (live (setP 1 0xFFFF)) (fun t => ((t.closeIssue.dev.group 0 0).splits.take 2).map (fun o => o.map (fun x => (x.mask, x.pos.pc, x.pos.word)))) =
    [some (0xFFFF0000, 0x300, 1), some (0xFFFF, 0x300 + 72, 0)] := by decide +kernel
/-- R99: LOOP at 1 counts to 0 and falls through. -/
theorem test_loop_ends : after (.loop 5 (-1)) (live (setS 5 1)) (fun t => (sOf 5 t, t.iss.target)) = (0, none) := by decide +kernel
/-- R58: a jump to an address that is no multiple of 12 traps with cause 3. -/
theorem test_jmpi_traps : after (.jmpi 4) (live (setS 4 13)) trapOf = some 3 := by decide +kernel
/-- R57: CALL leaves the address of the next packet in S63. -/
theorem test_call_links : after (.call 2) (live id) (fun t => (sOf 63 t, t.iss.target)) = (0x30C, some (0x300 + 24)) := by decide +kernel
/-- R404's example: 0xB1F5DFF1 folds to 0x6E04, which clears SIG; any other immediate traps with cause 0x13. -/
theorem test_sigchk : after (.sigchk 0x6E04) (live (fun g => { g with sig := 0xB1F5DFF1 })) (fun t => (t.grp.regs.sig, trapOf t)) = (0, none) := by decide +kernel
theorem test_sigchk_traps : after (.sigchk 0x6E05) (live (fun g => { g with sig := 0xB1F5DFF1 })) (fun t => ((t.dev.group 0 0).regs.sig, trapOf t)) =
    (0xB1F5DFF1, some 0x13) := by decide +kernel
/-- R403's example: SIG after the two groups. -/
theorem test_sig_of_the_example : (sigAfter 0 [0x20020409] 0xFFFFFFFF, sigAfter 0xDFFDFBF6 [0x2E081C04] 0xFFFFFFFF) = (0xDFFDFBF6, 0xB1F5DFF1) := by decide +kernel
/-- R337: TRAP 42 leaves its code for the end of the group; then the trap has cause 0x11 and stands after the word. -/
theorem test_trap : after (.trap 42) (live id) (fun t => (t.closeIssue.dev.group 0 0).trap.map (fun r => (r.cause, r.tcode, r.pos.pc, r.pos.word))) =
    some (0x11, 42, 0x300, 1) := by decide +kernel
/-- R175: WAITC CL=1 with two loads outstanding parks, with one it does not. -/
def counting (n : Nat) : State := onDev { aDev with groups := [(0, { aGroup with cl := (List.range n).map (fun k => { op := k + 5, seq := k, ended := false, bad := none }) })] }
theorem test_waitc_parks : after (.waitc 1 63 63 63) (counting 2) (fun t => t.iss.parks.length) = 1 := by decide +kernel
theorem test_waitc_passes : after (.waitc 1 63 63 63) (counting 1) (fun t => t.iss.parks.length) = 0 := by decide +kernel

/-! ## Memory -/

/-- Names for the P level: V4 holds byte offsets, each lane has 4,096 bytes of slice. -/
theorem test_level_bounds_trap : after (.ldP 2 1 0 4 0) (live (setV 4 0x10000)) trapOf = some 6 := by decide +kernel
theorem test_level_misaligned_trap : after (.ldP 2 1 0 4 0) (live (setV 4 2)) trapOf = some 8 := by decide +kernel
/-- R170: a load whose lanes pass raises CL and leaves its register not ready. -/
theorem test_load_enters_cl : after (.ldP 2 1 0 4 0) (live (setV 4 8)) (fun t => (t.grp.cl.length, t.grp.notReady.map Prod.fst)) = (1, [.v 1]) := by decide +kernel
/-- R166's example: arrivals at a target of 8. -/
theorem test_barrier_word : [0x00080000, 0x00080006, 0x00080007, 0x00080008, 0x80080007, 0].map barArrive =
    [some 0x00080001, some 0x00080007, some 0x80080000, none, some 0x00080000, none] := by decide +kernel
/-- R189's example: AddF of 2^-24 to 1.0 ties to 1.0; 2^-23 is added exactly. -/
theorem test_addF : [(0x3F800000, 0x33800000), (0x3F800000, 0x34000000)].map (fun p => atomApply 9 p.1 p.2) = [0x3F800000, 0x3F800001] := by decide +kernel
/-- R188: minimum signed and unsigned of 0x80000000 and 1. -/
theorem test_atomic_minimum : (atomApply 1 0x80000000 1, atomApply 2 0x80000000 1) = (0x80000000, 1) := by decide +kernel
/-- R194's example: partials 5 and 7 of cores 3 and 9 over a word of 100 combine to 112. -/
theorem test_partials_combine :
    let d : Dev := { Dev.reset with hbm := Memory.writeL [] 0x400 [100], cores := [(3, { Core.reset with upart := [(0x100, (0, 5))] }), (9, { Core.reset with upart := [(0x100, (0, 7))] })] }
    (d.combine 8).readNat (hbmAt 0x400) 4 = 112 := by decide +kernel
/-- R277's example: the walk of VA 0x7F0012352494 from root 0x4000000000 ends at PA 0x345670000 + 0x2494 and sets the leaf's dirty bit. -/
def walkDev : Dev :=
  { aDev with
    frames := [(0x34567, { Frame.reset with world := some 5 }), (0x400000, { Frame.reset with world := some 5 })]
    hbm := Memory.writeL (Memory.writeL (Memory.writeL (Memory.writeL [] 0x4000000038 (Bytes.ofNat 8 0x4000002001)) 0x4000003E00 (Bytes.ofNat 8 0x4000006001))
      0x4000006048 (Bytes.ofNat 8 0x4000008001)) 0x40000081A8 (Bytes.ofNat 8 0x005000034567044F) }
theorem test_walk :
    let r := walkDev.translate { core := none, die := 0, world := 5, asn := 0, root := 0x4000000000, priv := false, spec := false } .write 0x7F0012352494
    (r.out.toOption.map (fun p => p.loc.a), r.dev.readNat (hbmAt 0x40000081A8) 8) = (some (0x345670000 + 0x2494), 0x00500003456704CF) := by decide +kernel

/-! ## Engines -/

/-- R235's example: windows at 100 and 104. -/
theorem test_windows : (firstWindow [] 0 100, firstWindow [100] 0 100, firstWindow [] 0 101) = (100, 104, 104) := by decide +kernel
/-- The example under R245: F8A with one scale for the block. -/
theorem test_copy_conversion :
    convertRow 3 16 ([0x42C80000, 0x3E99999A, 0xC0400000].map (fun x => Fmt.f32.decode x) ++ List.replicate 13 (Fmt.f32.decode 0)) =
      ((convertRow 3 16 ([0x42C80000, 0x3E99999A, 0xC0400000].map (fun x => Fmt.f32.decode x) ++ List.replicate 13 (Fmt.f32.decode 0))).1, [0x7D])
    ∧ ((convertRow 3 16 ([0x42C80000, 0x3E99999A, 0xC0400000].map (fun x => Fmt.f32.decode x) ++ List.replicate 13 (Fmt.f32.decode 0))).1.map Prod.fst).take 4 =
      [0x7C, 0x3A, 0xD4, 0] := by decide +kernel
/-- The example under R264: lane 5 of entry 3. -/
theorem test_stream_address :
    let x : Stream := { words := [0x00007F0000002000, 0x0000400000000004, 0x0000040000000400, 0x0000010000000000, 0x0000010000000000, 0x0580000000000000, 0, 0],
                        group := 0, popped := 0, queue := [] }
    (x.laneAddr 3 5, x.entries) = (some 0x7F0000002494, 8) := by decide +kernel
/-- The example under R243: the fields of an entry. -/
theorem test_copy_record :
    let c := CopyRec.of [0x00007F0000001000, 0x1000000000000800, 0x000000F000100001, 0x0000040020018400]
    (c.saddr, c.dspace, c.daddr, c.rows, c.cols, c.spitch) = (0x7F0000001000, 1, 0x800, 1, 16, 64) ∧ (c.dpitch, c.stamp, c.slack, c.dfmt) = (16, 4, 2, 3) := by decide +kernel
/-- The example under R299: the header and length of a packed chunk. -/
theorem test_packed_chunk :
    let bs := List.replicate 64 0 ++ (List.replicate 8 (Bytes.ofNat 8 0x3F8000003F800000)).flatten
      ++ (List.range 8).flatMap (fun i => Bytes.ofNat 8 (0x100000000 + i)) ++ (List.range 64).map (fun i => BitVec.ofNat 8 (i * i * 37 + i * 11 + 5))
    ((packChunk bs).headD 0, (packChunk bs).length) = (0xE4, 89) := by decide +kernel

/-! ## Life and clocks -/

/-- The example under R363: the cost of 300,000 ms at B1. -/
theorem test_boost_cost : [0, 1, 2].map (fun m => boostCost 1 m 300000) = [4194304, 7460182, 600747] := by decide +kernel
/-- The example under R372: decided at 5,000,000, the change comes at 5,168,000. -/
theorem test_change_count : ({ Dev.reset with time := 5000000 } : Dev).changeCount = 5168000 := by decide +kernel
/-- The example under R379: 2,350 used against a quota of 2,000 leave a debt of 350. -/
theorem test_energy_debt : ({ Queue.reset with equota := 2000, used := 2350 } : Queue).nextPeriod.debt = 350 := by decide +kernel
/-- R384's example: S3 = 0x10905 latches core 5 to world 9. -/
theorem test_wlatch : after (.wlatchSet 2 3) (live (setS 3 0x10905)) (fun t => (sOf 2 t, (t.dev.core 5).clearing)) = (0x905, some 9) := by decide +kernel
/-- R412: a command while another runs ends at once with status 3. -/
theorem test_second_command : after (.setHandlerTableEntry { op := 3, world := 0, seq := 9, w1 := 4, w2 := 768, w3 := 0, w4 := 0, w5 := 0, w6 := 0, w7 := 0 })
    { State.reset with dev := { Dev.reset with mgmt := { Dev.reset.mgmt with stage := 8, running := some (1, 0) } } } (fun t => (t.dev.mgmt.cst, t.dev.mgmt.cseq)) =
    (3, 9) := by decide +kernel

/-! ## Witnesses: states that meet the hypotheses of the statements -/

/-- Lane, scalar and mask words: the group is there; plain and modified; guards that take and leave lane 0; some lane and no lane acts. -/
theorem witness_words :
    (live id).running = true ∧ (live id).amod = AMod.none ∧ (live id).acting ≠ 0 ∧ (live id).iss.mask ≠ 0 ∧ (live id).iss.mod = none
    ∧ (modded (.arith 0 false 0 0 true false false false false 0) (live id)).amod.sat = true
    ∧ (modded (.arith 0 false 0 0 true false false false false 0) (live id)).amod.k = 0
    ∧ (live id).takes 0 = true ∧ (modded (.arith 1 false 0 0 false false false false false 0) (live id)).takes 0 = false
    ∧ (modded (.arith 1 false 0 0 false false false false false 0) (live id)).acting = 0
    ∧ (live id).takes (((live id).rdS 1).toNat % 32) = true
    ∧ (modded (.arith 1 false 0 0 false false false false false 0) (live id)).takes
        (((modded (.arith 1 false 0 0 false false false false false 0) (live id)).rdS 1).toNat % 32) = false := by decide +kernel

/-- A trap of slot 0 being served, with the handler's split issuing. -/
def aRec : TrapRec :=
  { slot := 0, split := 0, mask := 0xFFFFFFFF, pos := { pc := 0x300, word := 1 }, cause := 0x11, sub := 0, tcode := 42, kind := 0, orig := 0, addr := 0, tkt := 0,
    lane := 0, launch := 0, queue := 0, raised := 0 }
def servedDev : Dev :=
  { aDev with
    groups := [(0, { aGroup with trap := some aRec, held := true }), (gkey 0 handlerSlot, { Group.empty with splits := [some aSplit, none, none, none] })]
    cores := [(0, { Core.reset with serving := some (1, aRec) })] }
def inHandler : State := let s := onDev servedDev; { s with iss := { s.iss with slot := handlerSlot } }

/-- SpecialRegistersRead: the served trap's fields are in range. PROBE: a group of the workgroup waits. -/
def waitingDev : Dev := { aDev with groups := [(0, { aGroup with splits := [some { aSplit with park := .barrier (hbmAt 0) false }, none, none, none] })] }
theorem witness_special_registers :
    inHandler.running = true ∧ (inHandler.dev.core 0).serving = some (1, aRec) ∧ aRec.slot < 32 ∧ aRec.split < 4 ∧ aRec.lane < 32
    ∧ (onDev waitingDev).running = true ∧ (onDev waitingDev).dev.waits (onDev waitingDev).taskId ≠ [] := by decide +kernel

/-- BranchesSteerTheSplit: F1 is 0 and BRF asks for 1 or for 0; BRV takes all lanes, none, and some, with a free index, and with four live splits and a full
stack. -/
def fullDev : Dev :=
  { aDev with groups := [(0, { aGroup with
      regs := { Regs.zero with p := [(1, 1)] }, splits := List.replicate 4 (some aSplit), stack := List.replicate 16 { mask := 1, word := 0, packet := 0 } })] }
theorem witness_branches :
    (live id).rdF 1 = !((1 : BitVec 1) == 1#1) ∧ (live id).rdF 1 = ((0 : BitVec 1) == 1#1)
    ∧ (live (setP 1 0xFFFFFFFF)).iss.mask &&& (live (setP 1 0xFFFFFFFF)).rdP 1 = (live (setP 1 0xFFFFFFFF)).iss.mask
    ∧ (live id).iss.mask &&& (live id).rdP 1 = 0 ∧ (live (setP 1 0xFF)).iss.mask &&& (live (setP 1 0xFF)).rdP 1 ≠ 0
    ∧ (live (setP 1 0xFF)).iss.mask &&& (live (setP 1 0xFF)).rdP 1 ≠ (live (setP 1 0xFF)).iss.mask ∧ (live (setP 1 0xFF)).old.live < 4
    ∧ (onDev fullDev).running = true ∧ (onDev fullDev).old.live = 4 ∧ 16 ≤ (onDev fullDev).old.stack.length
    ∧ (onDev fullDev).iss.mask &&& (onDev fullDev).rdP 1 ≠ 0 ∧ (onDev fullDev).iss.mask &&& (onDev fullDev).rdP 1 ≠ (onDev fullDev).iss.mask := by decide +kernel

/-- CallsAndJumps: S4 and S63 hold a multiple of 12, and 13. -/
theorem witness_jumps :
    ((live (setS 4 24 ∘ setS 63 36)).rdS 4).toNat % 2 ^ 54 % 12 = 0 ∧ ((live (setS 4 24 ∘ setS 63 36)).rdS 63).toNat % 2 ^ 54 % 12 = 0
    ∧ ((live (setS 4 13 ∘ setS 63 13)).rdS 4).toNat % 2 ^ 54 % 12 ≠ 0 ∧ ((live (setS 4 13 ∘ setS 63 13)).rdS 63).toNat % 2 ^ 54 % 12 ≠ 0
    ∧ (live (setS 4 13)).running = true := by decide +kernel

/-- WaitsParkTheSplit: a pre-emption request stands and does not; WAITC CL=1 is met, is met with a failed load covered, and is not met. -/
def failedDev : Dev := { aDev with groups := [(0, { aGroup with totals := [2, 0, 0, 0], failed := [{ ctr := 0, seq := 0, op := 5, tr := aRec }] })] }
def askedDev : Dev := { aDev with tasks := [(1, { aTask with deadlineFrom := some 0 })] }
theorem witness_waits :
    ((onDev askedDev).dev.task? (onDev askedDev).taskId).any (fun x => x.deadlineFrom.isSome) = true ∧ (onDev askedDev).iss.slot ≠ handlerSlot
    ∧ ((live id).dev.task? (live id).taskId).any (fun x => x.deadlineFrom.isSome) = false
    ∧ (counting 1).coversDeferred ((counting 1).old.covers [1, 63, 63, 63]) = false ∧ (counting 1).old.cl.length ≤ 1
    ∧ (counting 1).old.coveredFailure ((counting 1).old.covers [1, 63, 63, 63]) = none ∧ ¬ (counting 2).old.cl.length ≤ 1
    ∧ (onDev failedDev).old.coveredFailure ((onDev failedDev).old.covers [1, 63, 63, 63]) = some { ctr := 0, seq := 0, op := 5, tr := aRec }
    ∧ (onDev failedDev).old.cl.length ≤ 1 ∧ (onDev failedDev).coversDeferred ((onDev failedDev).old.covers [1, 63, 63, 63]) = false := by decide +kernel

/-- SignatureChecks: SIG folds to the immediate, and does not, in a group alone and in one of a pair. -/
def pairedDev : Dev := { aDev with groups := [(0, { aGroup with role := .leader, partner := (1, 0) }), (gkey 1 0, { aGroup with role := .trailer, partner := (0, 0) })] }
theorem witness_signatures :
    (live id).old.regs.sig.extractLsb' 16 16 ^^^ (live id).old.regs.sig.extractLsb' 0 16 = (0 : BitVec 16) ∧ (live id).paired = false
    ∧ (onDev pairedDev).old.regs.sig.extractLsb' 16 16 ^^^ (onDev pairedDev).old.regs.sig.extractLsb' 0 16 ≠ (7 : BitVec 16)
    ∧ (onDev pairedDev).paired = true ∧ (onDev pairedDev).running = true := by decide +kernel

/-- ClosingAnIssueGroup: the split exits, goes on, divides with index 1 free, and divides with four live. -/
theorem witness_closing :
    let s := live id
    let x : State := { s with iss := { s.iss with exits := true } }
    let y : State := { s with iss := { s.iss with divide := some (0xFF, 0x300) } }
    let z : State := { onDev fullDev with iss := { (onDev fullDev).iss with divide := some (0xFF, 0x300) } }
    (s.running = true ∧ s.iss.split < 4 ∧ s.grp.splits.length = 4 ∧ s.grp.role = .none ∧ s.iss.trapCode = none ∧ s.iss.exits = false ∧ s.iss.divide = none)
    ∧ (x.running = true ∧ x.iss.exits = true)
    ∧ (y.iss.divide = some (0xFF, 0x300) ∧ y.iss.exits = false ∧ y.grp.splits.getD 1 none = none ∧ (∀ j, j < 1 → y.grp.splits.getD j none ≠ none)
      ∧ y.grp.splits.getD y.iss.split none ≠ none)
    ∧ (z.running = true ∧ z.grp.splits.length = 4 ∧ ∀ k, k < 4 → z.grp.splits.getD k none ≠ none) := by decide +kernel

/-- MemoryWordsEnterTheirCounters, AcquireAndRelease: with no lane acting, with a lane out of bounds, and passing every check. -/
def inP : State := live (setV 4 8)
def inPWord : MemWord := levelWord inP false .p 2 1 0 4 0
def inPAccesses : List (Nat × Access) := match (inP.checkLanes inPWord.check inPWord.lanes).2 with
  | .ok as => as
  | .error _ => []
theorem witness_memory_words :
    accessOf inP (.ldP 2 1 0 4 0) = some inPWord
    ∧ (levelWord (modded (.memory 1 false 0 0 0) inP) false .p 2 1 0 4 0).lanes = []
    ∧ (inP.checkLanes inPWord.check inPWord.lanes).1 = inP ∧ inPAccesses.length = 32
    ∧ inPWord.lanes ≠ [] ∧ inP.mustStall inPWord.ctr (!(entryLines (inPWord.parts inP inPAccesses)).isEmpty) = false
    ∧ inP.paired = false ∧ inP.grp.role = .none ∧ inP.running = true ∧ (∀ p ∈ inPWord.parts inP inPAccesses, p.loc.isRemote = false)
    ∧ inP.settleSets (gRanges inPWord inPAccesses) (inP.irrevocable inPWord inPAccesses) = .inl inP
    ∧ after (.ldP 2 1 0 4 0) (live (setV 4 0x10000)) trapOf = some 6 := by
  refine ⟨rfl, ?_, ?_, ?_, ?_, ?_, ?_, ?_, ?_, ?_, rfl, ?_⟩ <;> decide +kernel
theorem witness_passes : Passes inP inPWord inP inPAccesses :=
  ⟨by decide +kernel, ⟨inP, rfl, rfl⟩, by decide +kernel, by decide +kernel, by decide +kernel, by decide +kernel⟩
/-- The release and acquire forms: the same of generic addresses in the S window. -/
def inS : State := live (setS 3 0xF200000000000000 ∘ setV 4 8)
def inSAccesses (store : Bool) : List (Nat × Access) :=
  match (inS.checkLanes (genericWord inS store 1 3 4 0).check (genericWord inS store 1 3 4 0).lanes).2 with
  | .ok as => as
  | .error _ => []
theorem witness_acquire : Passes inS (genericWord inS false 1 3 4 0) inS (inSAccesses false) ∧ inS.iss.open_ = true :=
  ⟨⟨by decide +kernel, ⟨inS, rfl, rfl⟩, by decide +kernel, by decide +kernel, by decide +kernel, by decide +kernel⟩, rfl⟩
theorem witness_release : Passes inS (genericWord inS true 1 3 4 0) inS (inSAccesses true) ∧ inS.paired = false ∧ inS.dev.nextOp = inS.dev.nextOp :=
  ⟨⟨by decide +kernel, ⟨inS, rfl, rfl⟩, by decide +kernel, by decide +kernel, by decide +kernel, by decide +kernel⟩, by decide +kernel, rfl⟩

/-- LevelAccessesAreCheckedInOrder: past the extent, unaligned within it, and fit, at the last word of the slice. -/
theorem witness_level_checks :
    (live id).dev.extent 0 0 .p < 3965 + 4 ∧ 3962 + 4 ≤ (live id).dev.extent 0 0 .p ∧ 3962 % 4 ≠ 0 ∧ 3964 + 4 = (live id).dev.extent 0 0 .p ∧ 3964 % 4 = 0 := by
  decide +kernel

/-- BarrierWordsArriveAndWait: a word in C that expects 8, one that turns over, one without a target; BART's phase the same and not. -/
def barDev (w : Nat) : Dev := { aDev with gangs := [(1, { cmem := Memory.writeL [] 0x100 (Bytes.ofNat 4 w), extent := 4096, share := [], cluster := 0, live := 1 })] }
def atBar (w : Nat) : State := onDev { barDev w with groups := [(0, { aGroup with regs := { Regs.zero with s := [(3, 0xF300000000000100), (9, 0x80000000)] } })] }
def barLoc : Loc := { sp := .cmem, own := 1, a := 0x100 }
def barOk (w : Nat) (k : AccKind) : Bool := match (atBar w).uniCheck barLevel k 3 4 with
  | (u, .ok a) => decide (u = atBar w ∧ a.loc = barLoc)
  | _ => false
theorem witness_barriers :
    (atBar 0x80000).performs = true ∧ (barOk 0x80000 .rmw && barOk 0x80007 .rmw && barOk 0 .rmw && barOk 0 .read) = true ∧ (atBar 0x80000).old.role = .none
    ∧ (atBar 0x80000).dev.storesOut 0 0 = false ∧ (atBar 0x80000).mustStall .cl false = false
    ∧ [0x80000, 0x80007, 0].map (fun w => barArrive ((atBar w).dev.readNat barLoc 4)) = [some 0x80001, some 0x80080000, none]
    ∧ decide (2 ^ 31 ≤ (atBar 0).dev.readNat barLoc 4) ≠ ((atBar 0).rdS 9).getLsbD 31 ∧ decide (2 ^ 31 ≤ (atBar 0).dev.readNat barLoc 4) = ((atBar 0).rdS 3).getLsbD 31
    ∧ (8 < 2 ^ 15 ∧ 6 + 1 < 8 ∧ 7 + 1 = 8 ∧ 8 ≤ 8) := by decide +kernel

/-- MonitorsWatchABlock: a word of the C allotment, watched. -/
def watched : State := onDev { barDev 0x80000 with groups := [(0, { aGroup with monitor := some barLoc, regs := { Regs.zero with s := [(3, 0xF300000000000100)] } })] }
def watchOk (n : Nat) : Bool := match watched.uniCheck notP .read 3 n with
  | (u, .ok a) => decide (u = watched ∧ a.loc = barLoc ∧ a.lv = .c)
  | _ => false
theorem witness_monitors :
    watched.performs = true ∧ watched.running = true ∧ (watchOk 1 && watchOk 8) = true ∧ watched.old.role = .none ∧ barLoc.isRemote = false
    ∧ watched.grp.monitor = some { barLoc with a := barLoc.a / 128 * 128 } ∧ (∀ c ∈ List.range 256, (watched.dev.core c).upart = []) := by decide +kernel
theorem witness_monitors_settle : watched.settleSets [] false = .inl watched := rfl

/-- AtomicSetWords: a valid set of 4 KiB, an invalid one, a task that has acquired one and one that has not. -/
def setDev (a : Bool) : Dev := { aDev with tasks := [(1, { aTask with sets := [(2, { base := 0x1000, len := 0x1000, acquired := a })] })] }
theorem witness_atomic_sets :
    (onDev (setDev true)).running = true ∧ (onDev (setDev true)).performs = true ∧ (modded (.memory 1 false 0 0 0) (live id)).performs = false
    ∧ setValid aTask 0 0x7F0000000000 0x1000 = true ∧ setValid aTask 0 0x7F0000000001 0x1000 = false ∧ aDev.activeSets < 4096
    ∧ aTask.sets.any (fun r => r.2.acquired) = false ∧ ((setDev true).task? 1).any (fun t => t.sets.any (fun r => r.2.acquired)) = true
    ∧ ((setDev true).task? 1).any (fun t => decide (t.token = .held)) = false ∧ (onDev (setDev true)).iss.slot ≠ handlerSlot := by decide +kernel

/-- LoadsBindTheirBytes, PerformedWritesChangeTheirBytes: a load and a store of one lane's word in the P slice, going on. -/
def aPart : LanePart := { lane := 3, loc := { sp := .pmem, own := 1, a := 8 }, addr := 8, n := 4, data := 7, done := false }
def anOp (k : OpKind) (c : Ctr) : Op :=
  { core := 0, slot := 0, task := 1, ctr := c, kind := k, parts := [aPart], scope := 0, tent := false, pos := { pc := 0x300, word := 0 },
    st := .going, waits := [], held := [] }
def opDev (k : OpKind) (c : Ctr) : Dev :=
  { aDev with ops := [(5, anOp k c)], nextOp := 6, groups := [(0, { aGroup with notReady := [(.v 1, 5)], cl := [{ op := 5, seq := 0, ended := false, bad := none }] })] }
theorem witness_loads_bind :
    (opDev (.load 1 false) .cl).op? 5 = some (anOp (.load 1 false) .cl) ∧ (opDev (.load 1 false) .cl).canBind 5 = true
    ∧ (opDev (.load 1 false) .cl).hasGroup 0 0 = true ∧ (opDev (.load 1 false) .cl).poisoned aPart.loc 4 = false
    ∧ ((opDev (.load 1 false) .cl).group 0 0).awaits (.v 1) 5 = true ∧ (∀ c ∈ List.range 256, ((opDev (.load 1 false) .cl).core c).upart = []) := by decide +kernel

/-- PerformedWritesChangeTheirBytes: a store, an addition, a reduction and a compare and swap of one word of local memory. -/
def homePart : LanePart := { aPart with loc := hbmAt 0x400, cache := 3 }
def homeOp (k : OpKind) (c : Ctr) : Op := { anOp k c with parts := [homePart] }
def homeDev (k : OpKind) (c : Ctr) : Dev := { opDev k c with ops := [(5, homeOp k c)] }
theorem witness_writes :
    [(OpKind.store, Ctr.cs), (.atom 0 1, .cl), (.red 11 false, .cs), (.atom 10 1, .cl)].all (fun p => decide ((homeDev p.1 p.2).op? 5 = some (homeOp p.1 p.2))
      && (homeDev p.1 p.2).canPerform 5 && !(homeDev p.1 p.2).gathers (homeOp p.1 p.2) homePart && !(homeDev p.1 p.2).hostSees homePart.loc
      && !(homeDev p.1 p.2).poisoned homePart.loc 4 && (homeDev p.1 p.2).memWf) = true := by decide +kernel
theorem witness_no_partials : noPartials aDev ∧ Plain (hbmAt 0x400) ∧ (0 < 10 ∧ 0 ≠ 8 ∧ 0 ≠ 9 ∧ 0x400 % 4 = 0) := ⟨fun _ => rfl, by unfold Plain; decide, by decide⟩

/-- Two reservations, their shape record, and a workgroup that has bound them. -/
def opRes : Binding := { w0 := 0x0402000000000000, w1 := 0x2000002, base := 0 }
def wRes : Binding := { w0 := 0x4402000000000000, w1 := 0x2000002, base := 0 }
def remRes : Binding := { w0 := 0x8400000000010000, w1 := 0x2000002, base := 0 }
def mxTask : Task := { aTask with handles := [(1, opRes), (2, wRes), (3, remRes)], shapes := [(4, [959, 0, 0, 0])] }
def mxDev : Dev := { aDev with tasks := [(1, mxTask)] }
def mxState (f : Regs → Regs) : State := onDev { mxDev with groups := [(0, { aGroup with regs := f Regs.zero })] }
theorem witness_matrix_settles : (mxState id).settleSets [] false = .inl (mxState id) := rfl
theorem witness_matrix_words :
    (mxState id).running = true ∧ ((mxState id).dev.core 0).queued.length < 8 ∧ (mxState id).mustStall .ct false = false
    ∧ (mxState id).task?.any (fun k => k.mmaOk (mxState id).tileCount 0 1 2 4 0) = true ∧ (mxState id).task?.any (fun k => k.mmaOk (mxState id).tileCount 0 2 1 4 0) = false
    ∧ (mxState id).task?.bind (fun k => k.handle 1) = some opRes ∧ (mxState id).task?.bind (fun k => k.handle 9) = none
    ∧ (opRes.buf ≠ 2 ∧ 0 + 16 ≤ opRes.size) ∧ (mxState id).spanCheck .read 0xF200000000000000 [(0, 16)] 16 false = none
    ∧ ((mxState id).spanCheck .read 0xF200000000000008 [(0, 16)] 16 false).isSome = true
    ∧ (wRes.buf = 1 ∧ wRes.sparse = false ∧ wRes.bl = 0 ∧ mldbFits wRes 64 63 = true) ∧ wRes.buf = 1 ∧ ¬ opRes.buf = 1
    ∧ (mxState id).spanCheck .read 0xF200000000000000 ((List.range 64).map (fun i => (i * 256, 256))) 4 true = none
    ∧ (mxState id).spanCheck .write 0xF200000000000000 ((List.range 64).map (fun i => (i * 256, 256))) 4 true = none
    ∧ 256 % elemBytes 0 = 0 := by decide +kernel

/-- ReservationsAndShapes: records in the S window that are good, malformed, remote and too large; a handle free, bound and named by the queue. -/
def recDev (ws : List W64) : Dev := { mxDev with tasks := [(1, { mxTask with smem := Memory.writeL [] 0 (ws.flatMap (fun w => Bytes.ofNat 8 w.toNat)) })] }
def atRec (ws : List W64) : State := onDev { recDev ws with groups := [(0, { aGroup with regs := { Regs.zero with s := [(4, 0xF200000000000000)] } })] }
def gotAt (ws : List W64) (n : Nat) (p : State → List W64 → Bool) : Bool := match (atRec ws).loadRecord ((atRec ws).rdS 4).toNat n with
  | .got u vs => p u vs
  | .stop _ => false
theorem witness_reservations :
    [opRes, wRes, remRes, { opRes with w0 := 0 }].map (fun b => gotAt [b.w0, b.w1] 16 (fun u vs => decide (vs = [b.w0, b.w1]) && u.running && u.task?.isSome
      && u.task?.all (fun x => decide (x.handle 5 = none)))) = [true, true, true, true]
    ∧ (opRes.bad = false ∧ ({ opRes with w0 := 0 } : Binding).bad = true ∧ opRes.buf = 0 ∧ remRes.bad = false ∧ remRes.buf = 2)
    ∧ (freeRun [] opRes.units = some 0 ∧ freeRun [(1000, 1), (500, 1)] 1024 = none)
    ∧ (atRec []).mxNames (fun k => k.handles.contains 5) = false ∧ (atRec []).mxNames (fun k => k.shapes.contains 4) = false
    ∧ gotAt [959, 0, 0, 0] 32 (fun u vs => decide (vs = [959, 0, 0, 0]) && u.task?.isSome && decide (u.taskId = (atRec [959, 0, 0, 0]).taskId)) = true := by decide +kernel

/-- MatrixStatusWords, ArraysRampAndHold: the array of a pair in each state, before and at its time, with and without an owner and a hint. -/
def arrayDev (st : ArrayState) (level : Nat) (owner : Option (Nat × Nat)) (now : Nat) : Dev :=
  { mxDev with pairs := [(0, { Pair.reset with st := st, level := level, owner := owner })], clusters := [(0, { Cluster.reset with cycle := now })] }
theorem witness_arrays :
    (onDev (arrayDev .cold 0 none 0)).running = true ∧ ((arrayDev .cold 0 none 0).pair 0).hint = none ∧ aTask.mxc.length = 5
    ∧ [ArrayState.cold, .holding, .hot, .rampUp].map (fun st => ((arrayDev st 0 none 0).pair 0).st) = [.cold, .holding, .hot, .rampUp]
    ∧ ((arrayDev .rampUp 3 none 4).pair 0).since + 4 ≤ (arrayDev .rampUp 3 none 4).now (0 / 4) ∧ ((arrayDev .rampUp 8 (some (1, 7)) 4).pair 0).owner = some (1, 7)
    ∧ (arrayDev .rampUp 3 none 3).now (0 / 4) < ((arrayDev .rampUp 3 none 3).pair 0).since + 4
    ∧ ((arrayDev .holding 8 none 16).pair 0).since + ((arrayDev .holding 8 none 16).pair 0).holdLimit ≤ (arrayDev .holding 8 none 16).now (0 / 4)
    ∧ (0 : Nat) ≤ 100 := by decide +kernel
/-- A ramp that awaits its granted window, in a cluster that neither drains nor settles; a hint whose cycle has come. -/
def awaitDev : Dev :=
  { arrayDev .awaitUp 0 none 100 with pairs := [(0, { Pair.reset with st := .awaitUp, window := some 100 }), (1, { Pair.reset with hint := some 68 })] }
theorem witness_windows :
    (awaitDev.pair 0).window = some 100 ∧ 100 ≤ awaitDev.now 0 ∧ (awaitDev.pair 0).awaits = true ∧ (awaitDev.cluster 0).drain = none ∧ (awaitDev.cluster 0).settling = none
    ∧ (awaitDev.pair 1).hint = some 68 ∧ 68 ≤ awaitDev.now (1 / 4) ∧ (awaitDev.pair 1).st = .cold := by decide +kernel

/-- MatrixEntriesStartAndRetire: an MMA that waits for the array, one whose occupancy has ended, and an MZERO that may start and has. -/
def entry (k : MxKind) (started : Option Nat) (occ : Option Nat) : MxEntry :=
  { id := 7, task := 1, slot := 0, kind := k, op := 5, reqAt := some 0, probed := false, started := started, kGroup := 8, parked := none, occEnd := occ, result := [], marks := [] }
def mxKind : MxKind := .mma 0 1 2 false false false 4 0
def entryDev (e : MxEntry) (owner : Option (Nat × Nat)) (now : Nat) : Dev :=
  { mxDev with
    cores := [(0, { Core.reset with mq := [e] })], pairs := [(0, { Pair.reset with st := .hot, owner := owner })]
    clusters := [(0, { Cluster.reset with cycle := now })], ops := [(5, { anOp (.tile 0 7) .ct with parts := [] })] }
theorem witness_entries :
    (let d := entryDev (entry mxKind none none) none 0
     (d.pair 0).owner = none ∧ (d.arbitrate 0).isSome = true ∧ (d.mmaRequest 0 none).isSome = true ∧ d.mmaRequest 1 none = none)
    ∧ (let d := entryDev (entry mxKind (some 0) (some 64)) (some (0, 7)) 75
       (d.pair 0).owner = some (0, 7) ∧ d.entry? 0 7 = some (entry mxKind (some 0) (some 64)) ∧ (d.mmaOps 1 mxKind).isSome = true ∧ 64 ≤ d.now 0 ∧ 64 + 11 ≤ d.now 0
       ∧ (d.op? 5).any (fun o => decide (o.st = .going) && o.parts.all (fun p => p.done)) = true ∧ mxKind.isMma = true
       ∧ (d.mmaOps 1 mxKind).any (fun m => decide (m.groups ≤ 8)) = true ∧ (d.core 0).mq.all (fun x => x.started.isSome) = true)
    ∧ (let d := entryDev (entry (.mzero 2) (some 0) none) none 0
       d.entry? 0 7 = some (entry (.mzero 2) (some 0) none) ∧ (d.op? 5).isSome = true ∧ (d.task? 1).isSome = true ∧ d.entry? 0 8 = none)
    ∧ (let d := entryDev (entry (.mzero 2) none none) none 0
       ((d.core 0).mq.find? (fun x => !x.kind.isMma && d.mayStart 0 x none)).map (fun x => x.id) = some 7) := by decide +kernel
/-- Both cores of a pair request in one cycle. -/
def bothDev : Dev := { entryDev (entry mxKind none none) none 0 with cores := [(0, { Core.reset with mq := [entry mxKind none none] }), (1, { Core.reset with mq := [entry mxKind none none] })] }
theorem witness_both_request : (bothDev.mmaRequest 0 none).isSome = true ∧ (bothDev.mmaRequest 1 none).isSome = true := by decide +kernel

/-- Words that use the queues: S4 holds a value, the workgroup has a copy queue with an entry waiting, one carried and one completed. -/
def cqEntry (n : Nat) (words : Option (List W64)) (chan : Option (Nat × Nat)) (stop : Option Nat) : CopyEntry :=
  { n := n, deadline := 0, order := n, deferred := false, words := words, chan := chan, written := 0, total := 0, stop := stop, slot := 0, opId := 5 }
def idleQueue : CopyQueue := { init := true, ofs := 0, cap := 4, last := 70, stage := 2, err := 0, entries := [cqEntry 69 (some []) none (some 0)] }
def busyQueue : CopyQueue := { idleQueue with entries := [cqEntry 69 (some []) none (some 0), cqEntry 70 none none none] }
def cqState (q : CopyQueue) (x : W64) : State :=
  onDev { aDev with tasks := [(1, { aTask with cq := q })], groups := [(0, { aGroup with regs := { Regs.zero with s := [(4, x)] } })] }
theorem witness_copy_queues :
    (cqState busyQueue 0).running = true ∧ (cqState busyQueue 0).dev.task? (cqState busyQueue 0).taskId = some { aTask with cq := busyQueue }
    ∧ (busyQueue.busy = true ∧ idleQueue.busy = false ∧ CopyQueue.empty.init = false ∧ idleQueue.init = true)
    ∧ [0x1000000, 0x000001, 0xC0000].map (fun x => (((cqState idleQueue x).rdS 4).toNat / 2 ^ 24 % 2, ((cqState idleQueue x).rdS 4).toNat % 2 ^ 18 % 32))
      = [(1, 0), (0, 1), (0, 0)]
    ∧ 0 + 32 * (0xC0000 / 2 ^ 18 % 2 ^ 6 + 1 + 1) ≤ (cqState idleQueue 0xC0000).dev.extent 0 0 .s
    ∧ (busyQueue.cap = 4 ∧ busyQueue.unacc = 1 ∧ ({ busyQueue with cap := 1 } : CopyQueue).cap ≤ ({ busyQueue with cap := 1 } : CopyQueue).unacc)
    ∧ busyQueue.entries.any (fun e => e.deferred) = false ∧ (cqState busyQueue 2).mustStall .cc false = false ∧ (cqState busyQueue 2).grp.cc.length + 2 ≤ 63
    ∧ (0 % 2 ^ 7 = 0 ∧ busyQueue.cap < 5 ∧ 4 ≤ busyQueue.cap ∧ busyQueue.cap < busyQueue.unacc + 4 ∧ busyQueue.unacc + 2 ≤ busyQueue.cap)
    ∧ ((0 : Nat) = 0 ∧ busyQueue.last < 71 ∧ 1 ≤ busyQueue.last ∧ busyQueue.entries.find? (fun e => decide (e.n = 1)) = none
      ∧ (busyQueue.entries.find? (fun e => decide (e.n = 70))).isSome = true)
    ∧ gotAt [0, 0, 0, 0, 0, 0, 0, 0] 64 (fun u vs => imageOk vs && u.running) = true
    ∧ gotAt [0x9000000000000000, 0, 0, 0, 0, 0, 0, 0] 64 (fun u vs => !imageOk vs && u.running) = true := by decide +kernel
theorem witness_copy_queue_settles : StoresDone (cqState busyQueue 2) ∧ (cqState busyQueue 2).settleSets [] false = .inl (cqState busyQueue 2) := ⟨⟨rfl, rfl, rfl⟩, rfl⟩

/-- StreamWords: a walk of one position that is good, one that is not, a context open and shut, a queue open elsewhere. -/
def aWalk : List W64 := [0x1000000000000000, 0x10000000000, 0x10000000000, 0x10000000000, 0x10000000000, 0, 0, 0]
def aStream : Stream := { words := aWalk, group := 0, popped := 0, queue := [] }
def streamDev (l : Tab Stream) : Dev := { aDev with tasks := [(1, { aTask with streams := l })] }
theorem witness_streams :
    gotAt aWalk 64 (fun u ws => decide (ws = aWalk) && u.running && (u.dev.task? u.taskId).isSome && (u.dev.streamOf u.iss.core u.iss.slot (streamQueue ws)).isNone
      && !badStream ws) = true
    ∧ gotAt [0, 0, 0, 0, 0, 0, 0, 0] 64 (fun u ws => badStream ws && u.running && (u.dev.streamOf u.iss.core u.iss.slot (streamQueue ws)).isNone) = true
    ∧ Tab.find [(3, aStream)] 3 = some aStream ∧ Tab.find [(3, aStream)] 4 = none ∧ ((streamDev [(3, aStream)]).streamOf 0 0 (streamQueue aWalk)).isSome = true
    ∧ (onDev (streamDev [(3, aStream)])).running = true ∧ ((streamDev [(3, aStream)]).task? 1).isSome = true ∧ ((live id).rdS 0).toNat = 0
    ∧ ((live (setS 4 2)).rdS 4).toNat ≠ 0 := by decide +kernel

/-- LaunchAndQueueWords: records in global memory, whose first page is mapped to itself in the core's TLB for a world. -/
def pageEntry (w : Nat) : TlbEntry := { asn := 0, world := w, va := 0, size := 2 ^ 34, leaf := BitVec.ofNat 64 (1247 + w * 2 ^ 52) }
def peerEntry : TlbEntry := { asn := 0, world := 0, va := 2 ^ 34, size := 2 ^ 16, leaf := BitVec.ofNat 64 (0x40CF + 5 * 2 ^ 41 + 3 * 2 ^ 36) }
def gDev (w : Nat) (ws : List W64) : Dev :=
  Dev.placeBytes { aDev with
    queues := [(0, { Queue.reset with en := true, mask := 1 }), (1, { Queue.reset with world := 9 }), (2, { Queue.reset with en := true })]
    frames := [(2, { Frame.reset with world := some w })]
    cores := [(0, { Core.reset with world := w, tlb := [pageEntry w, peerEntry], icache := [8]
                                    l1 := [(1056, { st := .s, sectors := 15, way := 0 }), (1057, { st := .s, sectors := 15, way := 0 })] })] } 0x21000 (ws.flatMap (fun x => Bytes.ofNat 8 x.toNat))
def gState (d : Dev) (y : W64) : State := onDev { d with groups := [(0, { aGroup with regs := { Regs.zero with s := [(4, 0x21000), (5, y)] } })] }
def gotG (d : Dev) (y : W64) (n : Nat) (p : State → List W64 → Bool) : Bool := match (gState d y).loadRecord 0x21000 n with
  | .got u vs => p u vs && u.running
  | .stop _ => false
/-- A record of one group of eight registers for a queue, with a count of table entries at 0x21080. -/
def launch (w2 : Nat) (q : Nat) (sets : Nat) : List W64 :=
  [BitVec.ofNat 64 placedAt, 0, BitVec.ofNat 64 w2, BitVec.ofNat 64 q, 0, 0, 0, 0, BitVec.ofNat 64 (sets * 2 ^ 54 + 0x21080), 0, 0, 0, 0, 0, 0, 0]
def launches (d : Dev) (p : State → List (Nat × Nat) → Grid → Queue → Bool) : Bool := gotG d 0 128 (fun u ws => !u.dev.badRecord ws &&
  match u.loadRecords 16 (tableAddrs ws) with
  | .got v ts => v.running && p v (tableOf ts) (gridOfRecord ws (tableOf ts) (v.dev.queue (wordN ws 3 % 64)).world) (v.dev.queue (wordN ws 3 % 64))
  | .stop _ => false)
theorem witness_launch_settles : (gState (gDev 0 (launch 32 0 0)) 0).needToken = none ∧ StoresDone (gState (gDev 0 (launch 32 0 0)) 0) := ⟨rfl, rfl, rfl, rfl⟩
theorem witness_launches :
    gotG (gDev 0 (launch 0 0 0)) 0 128 (fun u ws => u.dev.badRecord ws) = true
    ∧ launches (gDev 0 (launch 32 0 1)) (fun _ ts _ _ => !tableOk ts) = true
    ∧ launches (gDev 0 (launch (15 * 32 + 31) 0 0)) (fun _ ts g _ => tableOk ts && !g.need.fits) = true
    ∧ launches (gDev 0 (launch 32 1 0)) (fun _ ts g q => tableOk ts && g.need.fits && !q.en) = true
    ∧ launches (gDev 0 (launch (2 ^ 59 + 32) 2 0)) (fun v ts g q => tableOk ts && g.need.fits && q.en && decide (q.world = (v.dev.core 0).world) && g.coRes
        && !v.dev.fitsEmpty g) = true
    ∧ launches { gDev 0 (launch 32 0 0) with grids := List.replicate 4096 (0, placedGrid) } (fun v ts g q => tableOk ts && g.need.fits && q.en && !g.coRes
        && decide (4096 ≤ v.dev.grids.length)) = true
    ∧ launches (gDev 0 (launch 32 0 0)) (fun v ts g q => tableOk ts && g.need.fits && q.en && !g.coRes && decide (v.dev.grids.length < 4096)) = true := by decide +kernel
/-- Queue records: with no deadline, and with one, for a queue with work and for one without. -/
theorem witness_queues :
    gotG (gDev 0 [0, 0, 0, 0, 0, 0, 0, 0]) 0 64 (fun _ ws => badQueue ws) = true
    ∧ gotG (gDev 0 [1, 0, 0, 0, 0x0100000000000001, 0x2000, 0, 0]) 0 64 (fun u ws => !badQueue ws && u.dev.queueBusy 0
        && decide ((u.dev.queue 0).ofRecord ws ≠ u.dev.queue 0 ∧ ((u.dev.queue 0).ofRecord ws).root ≠ (u.dev.queue 0).root) && !u.dev.queueBusy 5) = true
    ∧ [0x005, 0x105, 0x205, 0x305].map (fun y => ((gState aDev y).rdS 5).toNat / 2 ^ 8 % 4) = [0, 1, 2, 3]
    ∧ gotG (gDev 0 [1, 0, 0, 0]) 0x205 32 (fun _ ws => decide (ws = [1, 0, 0, 0])) = true := by decide +kernel
/-- A binding's image, its record 128 bytes on, and the mailbox free and bound, in worlds 0 and 1. -/
def image (trig : Nat) : List W64 := [BitVec.ofNat 64 trig, 768, 0x21080, 0] ++ List.replicate 12 0 ++ launch 32 0 0
def binds (d : Dev) (p : State → List W64 → List W64 → Bool) : Bool := gotG d 0 32 (fun u im => match u.loadRecord (wordN im 2 % 2 ^ 54) 128 with
  | .got v ws => v.running && p v im (handlerRecord ws (wordN im 1 % 2 ^ 54) (wordN im 3 % 64)) && (match v.loadRecords 16 (tableAddrs ws) with
    | .got w _ => w.running
    | .stop _ => false)
  | .stop _ => false)
def boundBox : Mailbox := { Mailbox.reset with bound := true, trig := 56 }
theorem witness_bindings :
    (let d := gDev 0 (image 56)
     binds d (fun v im r => !(v.dev.box 0).bound && !badImage im && !v.dev.badRecord r && !v.dev.trigTaken ((v.dev.box 0).ofImage im [] [])
        && v.bindAllowed 0 ((v.dev.box 0).ofImage im [] [])) = true
     ∧ binds { d with boxes := [(0, boundBox)] } (fun v _ _ => (v.dev.box 0).bound) = true
     ∧ binds { d with boxes := [(1, boundBox)] } (fun v im r => !(v.dev.box 0).bound && !badImage im && !v.dev.badRecord r
        && v.dev.trigTaken ((v.dev.box 0).ofImage im [] [])) = true)
    ∧ binds (gDev 0 (image 0)) (fun v im _ => !(v.dev.box 0).bound && badImage im) = true
    ∧ binds (gDev 1 (image 56)) (fun v im r => !(v.dev.box 0).bound && !badImage im && !v.dev.badRecord r && !v.dev.trigTaken ((v.dev.box 0).ofImage im [] [])
        && !v.bindAllowed 0 ((v.dev.box 0).ofImage im [] [])) = true
    ∧ [0x0, 0x1000].map (fun y => ((gState aDev y).rdS 5).toNat / 2 ^ 12 % 2) = [0, 1]
    ∧ (gState (gDev 0 []) 0x1000).bindAllowed 0 boundBox = true ∧ (gState (gDev 1 []) 0x1000).bindAllowed 1 boundBox = false
    ∧ ((gState (gDev 1 []) 0).dev.core 0).world ≠ 0 ∧ ((gDev 1 []).queue boundBox.queue).world ≠ 1 ∧ ((gDev 0 []).core 0).world = 0 := by decide +kernel
/-- GroupInspectionWords: the handler serves slot 0's trap; slot 2 holds a group of the same workgroup without one; slot 1 holds none. -/
def inspect (x : W64) : State :=
  let d := { servedDev with groups := [(0, { aGroup with trap := some aRec, held := true }), (2, { aGroup with held := true }),
    (gkey 0 handlerSlot, { Group.empty with regs := { Regs.zero with s := [(4, x)] }, splits := [some aSplit, none, none, none] })] }
  let s := onDev d
  { s with iss := { s.iss with slot := handlerSlot } }
theorem witness_inspection :
    (inspect 0).running = true ∧ (inspect 0).names 0 = true ∧ (inspect 0).names 2 = true ∧ (inspect 0).names 1 = false
    ∧ ((inspect 0).dev.group 0 0).trap = some aRec ∧ ((inspect 0).dev.group 0 2).trap = none
    ∧ ([0x000000, 0x770000, 0x780000, 0x010100, 0x3F0100, 0x000100, 0x400100, 0x010200, 0x070200, 0x080200, 0x000400, 0x030400, 0x000700, 0x000800, 0x000900,
        0x000A00, 0x000B00, 0x20].map (fun x => (((inspect x).rdS 4).toNat / 2 ^ 5 % 2 ^ 3, ((inspect x).rdS 4).toNat / 2 ^ 8 % 2 ^ 8,
          ((inspect x).rdS 4).toNat / 2 ^ 16 % 2 ^ 8)))
      = [(0, 0, 0), (0, 0, 119), (0, 0, 120), (0, 1, 1), (0, 1, 63), (0, 1, 0), (0, 1, 64), (0, 2, 1), (0, 2, 7), (0, 2, 8), (0, 4, 0), (0, 4, 3), (0, 7, 0), (0, 8, 0),
        (0, 9, 0), (0, 10, 0), (0, 11, 0), (1, 0, 0)]
    ∧ (inspect 0).dev.vregsAt 0 0 = 120 ∧ ((inspect 0).dev.group 0 0).splits.getD 0 none = some aSplit ∧ ((inspect 0).dev.group 0 0).splits.getD 3 none = none
    ∧ [0x000, 0x100].map (fun x => ((inspect x).rdS 4).toNat / 2 ^ 8 % 2) = [0, 1] := by decide +kernel

/-- SystemWords: a TLB entry that an access uses and one that none does; tickets of two worlds; cores empty, occupied and out of service; counters at zero and
not; redundant pairs possible and not. -/
def sysState (d : Dev) (x : W64) : State := onDev { d with groups := [(0, { d.group 0 0 with regs := { Regs.zero with s := [(4, x)] } })] }
def userDev : Dev := { gDev 0 [] with ops := [(5, { anOp (.load 1 false) .cl with parts := [{ aPart with loc := hbmAt 8 }] })] }
def aTicket : TicketEntry := { owner := 3, win := 1, page := 7, world := 0, tkt := 9, ops := [5], since := 0, notice := none }
def ticketDev : Dev := { aDev with dies := [(0, { Die.reset with tickets := [(4, aTicket)] })] }
def countDev : Dev := { aDev with groups := [(0, { aGroup with cl := [{ op := 5, seq := 0, ended := false, bad := none }] })] }
def twoCores : Dev := { aDev with queues := [(0, { Queue.reset with en := true, mask := 3 })] }
theorem witness_system_settles :
    (sysState aDev 0).needToken = none ∧ StoresDone (sysState aDev 0) ∧ (sysState (gDev 0 []) 0).needToken = none ∧ StoresDone (sysState (gDev 0 []) 0)
    ∧ (sysState userDev 0).needToken = none ∧ StoresDone (sysState userDev 0) := ⟨rfl, ⟨rfl, rfl, rfl⟩, rfl, ⟨rfl, rfl, rfl⟩, rfl, rfl, rfl, rfl⟩
theorem witness_system :
    (sysState aDev 0).running = true
    ∧ ((gDev 0 []).tlbi 0 0 0).1.usersOf 0 0 ((gDev 0 []).tlbi 0 0 0).2 = [] ∧ (userDev.tlbi 0 0 0).1.usersOf 0 0 (userDev.tlbi 0 0 0).2 = [5]
    ∧ [0, 0x4000000000000000, 0x8000000000030009, 0xC000000000000000].map (fun x => ((sysState ticketDev x).rdS 4).toNat / 2 ^ 62) = [0, 1, 2, 3]
    ∧ (ticketDev.die 0).tickets.find? (fun e => decide (e.2.world = (ticketDev.core 0).world)
        && decide (e.2.owner = 0x8000000000030009 / 2 ^ 16 % 2 ^ 11 ∧ e.2.tkt.toNat % 2 ^ 16 = 0x8000000000030009 % 2 ^ 16)) = some (4, aTicket)
    ∧ [0x20005, 0x10005, 0x00005].map (fun x => ((sysState aDev x).rdS 4).toNat / 2 ^ 16 % 4) = [2, 1, 0]
    ∧ (aDev.inService 5 = true ∧ aDev.emptyCore 5 = true ∧ aDev.emptyCore 0 = false)
    ∧ ({ aDev with dies := [(0, { Die.reset with slotMap := [255, 1, 2, 3] })] } : Dev).inService 5 = false
    ∧ (sysState aDev 0).old.countsAt 0 0 63 63 = true ∧ (sysState aDev 0).old.coveredFailure ((sysState aDev 0).old.covers [0, 0, 63, 63]) = none
    ∧ (sysState countDev 0).old.countsAt 0 0 63 63 = false ∧ (Diag.of 0).ok = true ∧ (Diag.of 3).ok = false
    ∧ inHandler.iss.slot = handlerSlot ∧ (onDev pairedDev).old.role ≠ .none ∧ (onDev pairedDev).iss.slot ≠ handlerSlot ∧ (sysState aDev 0).old.role = .none
    ∧ ({ aDev with groups := (0, aGroup) :: (List.range 64).map (fun i => (i + 1, { aGroup with role := .leader })) } : Dev).pairsOn 0 = 64
    ∧ aDev.pairsOn 0 = 0 ∧ aDev.trailerCore 0 1 = none ∧ twoCores.trailerCore 0 1 = some 1
    ∧ [0, 1].map (fun x => ((sysState aDev x).rdS 4).getLsbD 0) = [false, true] := by decide +kernel

/-- LifeWords: BOOST of nothing, of level 0, with no target, and granted; units that are there and not; a target that is good and one that is not. -/
def lifeTarget : List W64 := [0x0000FFFF00000000, BitVec.allOnes 64, BitVec.allOnes 64, BitVec.allOnes 64, BitVec.allOnes 64, 0, 0, 0]
def lifeDev : Dev := { aDev with target := some { words := lifeTarget.take 6 }, lifeNow := some { words := lifeTarget.take 6 }, serviceMs := 100000000 }
theorem witness_life_words :
    (aDev.boostSet 1 = [0, 1] ∧ aDev.boostSet 0 = [] ∧ aDev.boostCheck [0, 1] 1 10 = (1, 0) ∧ lifeDev.boostCheck [0, 1] 1 10 = (0, 0))
    ∧ [0x400000001, 0x300000001, 0x100000001, 0x000000001].map (fun x => (decide (2 ^ 34 ≤ ((sysState aDev x).rdS 4).toNat), ((sysState aDev x).rdS 4).toNat / 2 ^ 32 % 4))
      = [(true, 0), (false, 3), (false, 1), (false, 0)]
    ∧ [0, 1].all (fun c => !aDev.grants.any (fun g => g.2.clusters.contains c)) = true
    ∧ (unitOf (0x0C100 / 2 ^ 14 % 4) (0x0C100 % 2 ^ 10) = none ∧ 12 ≤ 0xC0000 / 2 ^ 16 % 2 ^ 4 ∧ unitOf (0xB0005 / 2 ^ 14 % 4) (0xB0005 % 2 ^ 10) = some 5
      ∧ 0xB0005 / 2 ^ 16 % 2 ^ 4 < 12)
    ∧ (2 % 4 < 3 ∧ 3 % 4 = 3)
    ∧ gotAt lifeTarget 64 (fun u ws => !badTarget ws && u.running) = true ∧ gotAt [0, 0, 0, 0, 0, 0, 0, 0] 64 (fun u ws => badTarget ws && u.running) = true
    ∧ (aDev.core 0).world = 0 ∧ ((gDev 1 []).core 0).world ≠ 0 ∧ ((gDev 1 []).queue 0).world ≠ ((gDev 1 []).core 0).world
    ∧ ((sysState aDev 0).needToken = none) := by
  refine ⟨?_, ?_, ?_, ?_, ?_, ?_, ?_, ?_, ?_, ?_, rfl⟩ <;> decide +kernel
theorem witness_binding_unit : aDev.bindingUnit.isSome = true := by decide +kernel
/-- CopyAndStreamSteps: an entry that waits, with fields that pass and fail their checks; one carried, in progress, written and ended; a held line that a thread
waits for and one that none does. -/
def copyDev (w : Option CopyEntry) (op : Option Op) : Dev :=
  { aDev with
    tasks := [(1, { aTask with cq := { busyQueue with entries := w.toList } })], ops := op.toList.map (fun o => (5, o)), nextOp := 6
    clusters := [(0, { Cluster.reset with chans := [(0, (1, 70))] })] }
def waitDev (bad : Bool) : Dev :=
  { copyDev (some (cqEntry 70 none none none)) none with
    clusters := [], tasks := [(1, { aTask with cq := { busyQueue with entries := [cqEntry 70 none none none] }, smem := if bad then [(47, 0xF0)] else [] })] }
def copyOp : Op := { anOp (.copy 1 70) .cc with parts := [] }
def carriedEntry (written : Nat) (stop : Option Nat) : CopyEntry := { cqEntry 70 (some [0x1000000000000000, 0x1000000000000100, 0, 0]) (some (0, 0)) stop with written := written }
def heldDev (a : Nat) : Dev :=
  { copyDev none (some { anOp (.load 1 false) .cl with parts := [{ aPart with loc := hbmAt a }] }) with
    clusters := [(0, { Cluster.reset with chans := [(0, (1, 70))], held := [(0, [hbmAt 0x400])] })] }
theorem witness_copies :
    (firstBelow (fun i => (Tab.find ((waitDev false).cluster 0).chans i).isNone) 8 = some 0
      ∧ (firstCopy ((waitDev false).waitingCopies 0)).any (fun f => decide (f.1 = 1)) = true ∧ (firstCopy (aDev.waitingCopies 0)).isNone = true)
    ∧ (cqEntry 70 none none none).unaccepted = true
    ∧ (let e2 := (waitDev true).acceptedEntry 0 0 1 aTask (cqEntry 70 none none none)
       (e2.rec_.failCode e2.steps 0 0).isSome) = true
    ∧ ((copyDev (some (carriedEntry 4 none)) (some copyOp)).carried 0 0).isSome = true ∧ (aDev.carried 0 0).isNone = true
    ∧ (copyDev (some (carriedEntry 4 none)) (some copyOp)).op? 5 = some copyOp ∧ copyOp.st = .going ∧ (carriedEntry 4 none).stop = none
    ∧ (carriedEntry 4 none).steps = some [] ∧ (carriedEntry 4 none).rec_.shape [] false (carriedEntry 4 none).rec_.rows (carriedEntry 4 none).rec_.cols = some (1, 1)
    ∧ (carriedEntry 4 none).rec_.total 1 1 ≤ (carriedEntry 4 none).written
    ∧ (copyDev (some (carriedEntry 4 none)) none).op? 5 = none ∧ copyOp.parts.all (fun p => p.done) = true ∧ (carriedEntry 4 (some 4)).stop = some 4
    ∧ Tab.find (aDev.cluster 0).held 0 = none ∧ Tab.find ((heldDev 0x440).cluster 0).held 0 = some [hbmAt 0x400]
    ∧ (hbmAt 0x440).sp = (hbmAt 0x400).sp ∧ Park.stallEngine.isStall = true ∧ aSplit.park.isStall = false
    ∧ (overlap 0x400 128 0x440 4 = true ∧ overlap 0x400 128 0x480 4 = false) := by decide +kernel
/-- Streams whose next entry lies in reach, past its window, on a peer's page; a full queue; a walk at its end; heads that are stale, and that are not, and the
word that pops them. -/
def walkAt (base : W64) : List W64 := [base, 0x10000000004, 0x10000000000, 0x10000000000, 0x10000000000, 0, 0, 0]
def fillDev (base : W64) (q : List StreamEntry) (popped : Nat) (ph : TaskPhase) : Dev :=
  { gDev 0 [] with tasks := [(1, { aTask with phase := ph, streams := [(3, { words := walkAt base, group := 0, popped := popped, queue := q })] })] }
def fills (base : W64) : Option (List Bool) :=
  match ((fillDev base [] 0 .running).streamPlaces 0 0 { words := walkAt base, group := 0, popped := 0, queue := [] } true 0 (List.range 32)).2 with
  | .ok ps => some (ps.map (fun p => p.2.isRemote))
  | .error _ => none
def freshHead : StreamEntry := { vals := List.replicate 32 7, lines := [], stale := false, marked := false }
def popDev (stale : Bool) : Dev :=
  Dev.placeBytes { fillDev 0x21000 [{ freshHead with stale := stale }] 0 .running with frames := [(0, { Frame.reset with world := some 0 })] } 0x300
    (Bytes.ofNat 4 536902658)
theorem witness_fills :
    (fills 0x21000 = some [false] ∧ fills 0x20000000000 = none ∧ fills (2 ^ 34) = some [true])
    ∧ [((fillDev 0x21000 [] 0 .wounded).task? 1).map (fun t => decide (t.phase = .running)), ((fillDev 0x21000 [] 0 .running).task? 1).map (fun t => decide (t.phase = .running))]
      = [some false, some true]
    ∧ 8 ≤ (List.replicate 8 freshHead).length ∧ ({ words := walkAt 0x21000, group := 0, popped := 0, queue := [] } : Stream).entries = 1
    ∧ ((popDev true).popper 0 0 (streamQueue (walkAt 0x21000))).isSome = true ∧ ((popDev false).popper 0 0 (streamQueue (walkAt 0x21000))).isSome = true
    ∧ (popDev true).storeNear 0 0 { freshHead with stale := true } = false ∧ freshHead.stale = false ∧ freshHead.marked = false ∧ aDev.task? 9 = none := by decide +kernel

/-- GridAndPageSteps: snapshots that arrive and wait, dependences met and not, done words of grids that are over, pages that move. -/
def boxDev (m : Mailbox) : Dev := { aDev with boxes := [(0, m)] }
def depGrid (w4 w5 w9 : W64) (fail : Nat) : Grid := { placedGrid with words := [0, 0, 0, 0, w4, w5, 0, 0, 0, w9, 0, 0, 0, 0, 0, 0], dep0 := false, fail := fail, retired := 0 }
def gridDev (g : Grid) : Dev := { gDev 0 [7] with grids := [(0, g)], dies := [(0, { Die.reset with tlb := [pageEntry 0, peerEntry] })] }
def xlates (g : Grid) (k : AccKind) (a : Nat) : Option (Bool × Nat) := let r := (gridDev g).translate ((gridDev g).gridCtx g) k a
  match r.out with
  | .ok p => if (r.dev.grid? 0).isSome then some (p.loc.isRemote, r.dev.readNat p.loc 8) else none
  | .error _ => none
def pageDev (m : Option (Nat × Nat)) (spent : Nat) : Dev := { aDev with frames := [(2, { Frame.reset with fills := [0, 2000, 0, 0], moving := m })], spent := [(1024, spent)] }
theorem witness_grids :
    ((boxDev { Mailbox.reset with arrived := [[1]] }).box 0).arrived = [[1]] ∧ ((boxDev { Mailbox.reset with arrived := [[1]] }).box 0).pend.length < 16
    ∧ (aDev.box 0).arrived = [] ∧ 16 ≤ ((boxDev { Mailbox.reset with arrived := [[1]], pend := List.replicate 16 [] }).box 0).pend.length
    ∧ (let m := (boxDev { boundBox with pend := [[1]] }).box 0; m.pend = [[1]] ∧ m.bound = true ∧ m.run < m.lim + 1 ∧ (boxDev m).grids.length < 4096)
    ∧ (gridDev (depGrid 0x21000 7 0 0)).grid? 0 = some (depGrid 0x21000 7 0 0) ∧ xlates (depGrid 0x21000 7 0 0) .read 0x21000 = some (false, 7)
    ∧ (depGrid 0x21000 7 0 0).fail = 0 ∧ (depGrid 0x21000 7 0 0).dep0 = false ∧ aDev.grid? 9 = none
    ∧ (depGrid 0 0 0 1).fail = 1 ∧ (gridDev (depGrid 0 0 0 1)).gridOpOut (.doneWord 0) = false
    ∧ ({ gridDev (depGrid 0 0 0 1) with ops := [(5, { copyOp with kind := .doneWord 0 })] } : Dev).gridOpOut (.doneWord 0) = true
    ∧ ¬ ((depGrid 0 0 0 0).fail = 1 ∨ (depGrid 0 0 0 0).fail = 3 ∨ (depGrid 0 0 0 0).retired = (depGrid 0 0 0 0).size)
    ∧ xlates (depGrid 0 0 0x21008 1) .write 0x21008 = some (false, 0) ∧ xlates (depGrid 0 0 0 1) .write 0x20000000000 = none
    ∧ (xlates (depGrid 0 0 0 1) .write (2 ^ 34)).map Prod.fst = some true := by decide +kernel
theorem witness_pages :
    ((pageDev none 0).frame 2).pinned = false ∧ ((pageDev none 0).frame 2).moving = none
    ∧ (1 < 4 ∧ 1 ≠ (pageDev none 0).homeDie (2 * 65536) ∧ 1024 < ((pageDev none 0).frame 2).fills.getD 1 0)
    ∧ ((pageDev (some (1, 5)) 0).frame 2).moving = some (1, 5) ∧ (pageDev (some (1, 5)) 0).budgetLeft 4 0 1 = true
    ∧ (pageDev (some (1, 511)) 0).budgetLeft 4 ((pageDev (some (1, 511)) 0).homeDie (2 * 65536)) 1 = true ∧ 511 + 1 = 512
    ∧ (pageDev (some (1, 5)) ((pageDev none 0).budget 4 0)).budgetLeft 4 0 1 = false := by decide +kernel
theorem witness_page_partials : noPartials (pageDev (some (1, 5)) 0) ∧ noPartials (gridDev (depGrid 0x21000 7 0 0)) := by
  constructor <;> intro c
  · rfl
  · rcases c with _ | c <;> rfl
/-- IssueAndWaitSteps: what each wait waits for, there and not there. -/
def parkDev (p : Park) (f : Group → Group) : Dev := { aDev with groups := [(0, f { aGroup with splits := [some { aSplit with park := p }, none, none, none] })] }
def splitsDev (l : List (Option Split)) (st : List StackEntry) : Dev := { aDev with groups := [(0, { aGroup with splits := l, stack := st })] }
def atPc (pc : Nat) : Option Split := some { aSplit with pos := { pc := pc, word := 0 } }
def joined : Option Split := some { aSplit with park := .join }
def oneLoad : List Count := [{ op := 5, seq := 0, ended := false, bad := none }]
def aFailure : FailRec := { ctr := 0, seq := 0, op := 5, tr := aRec }
def meets (at_ : Option Nat) (sig : W32) : Dev :=
  { aDev with groups := [(0, { aGroup with role := .leader, partner := (1, 0), atCheckpoint := at_ }),
      (gkey 1 0, { aGroup with role := .trailer, partner := (0, 0), atCheckpoint := at_, regs := { Regs.zero with sig := sig } })] }
theorem witness_issues :
    ((Dev.reset.portSplits 0 0).filter (fun c => Dev.reset.ready 0 c.1 c.2.2) = [] ∧ ((aDev.portSplits 0 0).filter (fun c => aDev.ready 0 c.1 c.2.2)).length = 1)
    ∧ aDev.split? 0 0 0 = some aSplit ∧ aDev.split? 0 0 1 = none ∧ aDev.hasGroup 0 0 = true
    ∧ (aGroup.stack = [] ∧ freeSplit (List.replicate 4 (some aSplit)) = none ∧ freeSplit aGroup.splits = some 1)
    ∧ ((splitsDev [atPc 0, none, none, none] [{ mask := 1, word := 0, packet := 0 }]).group 0 0).stack = [{ mask := 1, word := 0, packet := 0 }]
    ∧ (splitsDev [atPc 0, atPc 12, none, none] []).mergePair 0 0 = none ∧ (splitsDev [atPc 0, atPc 12, atPc 0, none] []).mergePair 0 0 = some (0, 2)
    ∧ (let live := [joined, joined].filterMap id; live ≠ [] ∧ (∀ y ∈ live, y.park = .join)) ∧ ¬ (∀ y ∈ [joined, atPc 0].filterMap id, y.park = .join)
    ∧ (let g := (parkDev (.waitc 0 0 0 0 [1, 0, 0, 0]) id).group 0 0
       g.cl.length ≤ 0 ∧ g.cs.length ≤ 0 ∧ g.cc.length ≤ 0 ∧ g.ct.length ≤ 0 ∧ g.coveredFailure [1, 0, 0, 0] = none)
    ∧ (let g := (parkDev (.waitc 0 0 0 0 [1, 0, 0, 0]) (fun g => { g with failed := [aFailure] })).group 0 0
       g.cl.length ≤ 0 ∧ g.coveredFailure [1, 0, 0, 0] = some aFailure)
    ∧ ¬ ((parkDev (.waitc 0 0 0 0 [1, 0, 0, 0]) (fun g => { g with cl := oneLoad })).group 0 0).cl.length ≤ 0
    ∧ ((parkDev (.acqld 3 [1, 0, 0, 0]) (fun g => { g with cl := oneLoad })).group 0 0).cl ≠ [] ∧ ((parkDev (.acqld 3 [1, 0, 0, 0]) id).group 0 0).cl = []
    ∧ ((parkDev (.relst 5 3 [0, 1, 0, 0]) (fun g => { g with cs := oneLoad })).group 0 0).cs ≠ [] ∧ ((parkDev (.relst 5 3 [0, 1, 0, 0]) id).group 0 0).cs = []
    ∧ (parkDev .tret id).split? 0 0 0 = some { aSplit with park := .tret } ∧ ((parkDev .tret id).group 0 0).coveredFailure [0, 0, 0, 0] = none
    ∧ bit (aDev.readNat (hbmAt 0) 4) 31 = false
    ∧ (hbmAt 0).isRemote = false ∧ ((parkDev (.mwait false 1 0 3 (hbmAt 0)) id).group 0 0).role = .none
    ∧ ¬ ((0 : W64) ≠ ((parkDev (.mwait false 1 0 3 (hbmAt 0)) id).group 0 0).regs.readS 1) ∧ ((0 : W64).toNat ≤ (7 : W64).toNat)
    ∧ ({ sp := .remote 5 3, own := 0, a := 0 } : Loc).isRemote = true
    ∧ ({ aDev with ops := [(5, { copyOp with st := .awaiting 0 })] } : Dev).op? 5 = some { copyOp with st := .awaiting 0 } ∧ aDev.op? 5 = none
    ∧ aDev.hedge 0x20000 0 = false ∧ (gDev 0 []).hedge 0x20000 ((gDev 0 []).core 0).world = true
    ∧ aDev.pairArrived 0 0 = false ∧ (meets (some 0) 0).pairArrived 0 0 = true ∧ (meets (some 1) 7).pairArrived 0 0 = true
    ∧ ((meets (some 1) 7).group 0 0).regs.sig ≠ ((meets (some 1) 7).group 1 0).regs.sig ∧ ((meets (some 0) 0).group 0 0).regs.sig = ((meets (some 0) 0).group 1 0).regs.sig := by
  decide +kernel

/-- WorkgroupSteps: a grid to place and none; a group that has exited with its counts at zero and not, alone and with another; a workgroup due to commit, one
that restarts, one that waits for a set and one for the token. -/
def placeDev : Dev :=
  { Dev.reset with grids := [(0, gridOfRecord (launch 32 0 0) [] 0)], queues := [(0, { Queue.reset with en := true, mask := 1, quantum := 1000000 })] }
def exited (f : Group → Group) (t : Task → Task) : Dev :=
  { aDev with groups := [(0, f { aGroup with splits := [none, none, none, none] })], tasks := [(1, t aTask)] }
def withSet (t : Task) : Task := { t with sets := [(2, { base := 0x1000, len := 0x1000, acquired := true })] }
def setWaiter (t : Task) : Dev :=
  { aDev with
    groups := [(0, { aGroup with splits := [some { aSplit with park := .stallSet [2] }, none, none, none] })]
    tasks := [(1, { t with sets := [(2, { base := 0x1000, len := 0x1000, acquired := false })] })] }
/-- A task with a set that meets one an older task has acquired, and one whose set an older task waits for too. -/
def laterTask (acquired : Bool) : Dev :=
  { setWaiter aTask with
    groups := [(0, { aGroup with splits := [some { aSplit with park := .stallSet [2] }, none, none, none] }),
      (1, { aGroup with task := 2, splits := [some { aSplit with park := .stallSet [0] }, none, none, none] })]
    tasks := [(1, { aTask with age := 5, sets := [(2, { base := 0x1000, len := 0x1000, acquired := false })] }),
      (2, { aTask with sets := [(0, { base := 0x1000, len := 0x1000, acquired := acquired })] })] }
theorem witness_workgroups :
    (let d := exited id id;
       d.task? (d.group 0 0).task = some aTask ∧ d.hasGroup 0 0 = true ∧ 0 ≠ handlerSlot ∧ (d.group 0 0).live = 0 ∧ (d.group 0 0).stack = []
       ∧ (d.group 0 0).trap = none ∧ aTask.phase = .running ∧ (d.group 0 0).role = .none ∧ (d.group 0 0).countsAt 0 0 0 0 = true ∧ (d.group 0 0).failed = []
       ∧ (∀ y ∈ aTask.slots, y = 0 ∨ y ∈ aTask.left) ∧ aTask.commitDue = false ∧ d.servedTask 0 ≠ some 1)
    ∧ ((exited (fun g => { g with cl := oneLoad }) id).group 0 0).countsAt 0 0 0 0 = false
    ∧ ((exited (fun g => { g with failed := [aFailure] }) id).group 0 0).failed = [aFailure]
    ∧ ¬ (∀ y ∈ ({ aTask with slots := [0, 1] } : Task).slots, y = 0 ∨ y ∈ ({ aTask with slots := [0, 1] } : Task).left) ∧ (withSet aTask).commitDue = true
    ∧ servedDev.servedTask 0 = some 1 := by decide +kernel
theorem witness_tasks :
    0 < (aDev.group 0 0).live ∧ aDev.task? 9 = none
    ∧ (let d := exited id withSet
       (d.task? 1).any (fun t => t.slots.all (fun sl => decide ((d.group t.core sl).live = 0) && (d.group t.core sl).stack.isEmpty && (d.group t.core sl).trap.isNone))
         = true ∧ d.tentOps 1 = false ∧ ({ d with ops := [(5, { anOp .store .cs with tent := true })] } : Dev).tentOps 1 = true)
    ∧ (aDev.grid? aTask.grid = some placedGrid ∧ aDev.woundBusy 1 { aTask with phase := .wounded } = false
      ∧ (({ aTask with phase := .wounded } : Task).slots.any (fun sl => (aDev.group 0 sl).held || (aDev.group 0 sl).trap.isSome)) = false)
    ∧ (opDev (.load 1 false) .cl).woundBusy 1 aTask = true ∧ aDev.setWaiters.filter (fun w => decide (w.1 = 1)) = []
    ∧ (setWaiter aTask).setWaiters = [(1, gkey 0 0, 0, [2])] ∧ (setWaiter aTask).settle 1 2 = ([], false) ∧ [2].Nodup ∧ [2] ≠ ([] : List Nat)
    ∧ (laterTask true).settle 1 2 = ([], true) ∧ ((laterTask false).task? 1).any (fun t => (laterTask false).olderWaits 1 t 2) = true
    ∧ aDev.tokenNext 0 = none ∧ ({ aDev with tasks := [(1, { aTask with token := .requested })] } : Dev).tokenNext 0 = some 1 ∧ Tab.find aDev.tokens 0 = none
    ∧ aDev.activeSets < 4096 ∧ 4096 ≤ ({ aDev with tasks := [(1, { aTask with sets := (List.range 4096).map (fun i => (i, { base := 0, len := 128, acquired := false })) })] } : Dev).activeSets := by
  decide +kernel
/-- ContextSteps: traps that wait, with a handler, with none and with an access in flight; workgroups at YLD with a request, past their deadline, in a world
that lost its peer; clusters being saved; places of the shadow store; a core being cleared; splits that wait long enough to be probed. -/
def trapsDev (f : Dev → Dev) : Dev :=
  f { aDev with groups := [(0, { aGroup with trap := some aRec })], cores := [(0, { Core.reset with waiting := [aRec] })], handlers := [(0, 0x300)] }
def yieldDev (f : Task → Task) : Dev := { parkDev .yld id with tasks := [(1, f { aTask with deadlineFrom := some 0 })] }
def lateDev (f : Dev → Dev) : Dev := f { yieldDev id with clusters := [(0, { Cluster.reset with cycle := 25000 })] }
def savingDev (f : Cluster → Cluster) (l : List (Option (List Nat))) : Dev :=
  { aDev with clusters := [(0, f { Cluster.reset with clearing := true })], dies := [(0, { Die.reset with shadow := l })] }
def probeDev : Dev :=
  { parkDev (.barrier (hbmAt 0) false) id with
    clusters := [(0, { Cluster.reset with cycle := 2 ^ 20 })], probes := [(3, { sender := (1, 0), wait := 0, at_ := (0, 0), path := [(1, 0)] }), (4, { sender := (0, 0), wait := 0, at_ := (1, 1), path := [(0, 0)] })] }
theorem witness_contexts :
    ((aDev.core 0).waiting = [] ∧ (servedDev.core 0).serving ≠ none)
    ∧ (let d := trapsDev id; (d.core 0).serving = none ∧ (d.core 0).waiting = [aRec] ∧ d.inFlight 0 aRec.slot = false ∧ Tab.get 0 d.handlers 0 ≠ 0
        ∧ Tab.get 0 d.handlers 0 % 12 = 0 ∧ Tab.find d.groups 0 = some { aGroup with trap := some aRec } ∧ 0 ≠ gkey 0 handlerSlot ∧ 0 % 64 ≠ handlerSlot)
    ∧ (trapsDev (fun d => { d with ops := [(5, anOp (.load 1 false) .cl)] })).inFlight 0 aRec.slot = true
    ∧ aDev.task? 9 = none ∧ (yieldDev id).task? 1 = some { aTask with deadlineFrom := some 0 } ∧ (yieldDev id).expelled.contains ((yieldDev id).worldOf 1) = false
    ∧ ({ yieldDev id with expelled := [0] } : Dev).expelled.contains 0 = true ∧ (yieldDev id).atYield 1 = true ∧ aDev.atYield 1 = false
    ∧ (let d := yieldDev id
       let unit := d.unitOf { aTask with deadlineFrom := some 0 }
       unit ≠ [] ∧ unit.all (fun u => decide (u.2.phase = .running) && u.2.deadlineFrom.isSome && d.yielded u.1 && d.quietTask u.1 u.2) = true)
    ∧ (aDev.unitOf aTask).all (fun u => u.2.deadlineFrom.isSome) = false
    ∧ aTask.resident = true ∧ ({ aTask with phase := .saved none } : Task).resident = false ∧ (yieldDev id).expired { aTask with deadlineFrom := some 0 } = false
    ∧ (lateDev id).expired { aTask with deadlineFrom := some 0 } = true
    ∧ (let d := lateDev id
       let cs := d.saveClosure 32 [clusterOf aTask.core]
       cs.all (fun c => !(d.cluster c).clearing) && (List.range 4).all (fun i => decide ((cs.filter (fun c => decide (dieOfCluster c = i))).length ≤ d.freePlaces i))) = true
    ∧ (lateDev (fun d => { d with dies := [(0, { Die.reset with shadow := [some [1], some [1]] })] })).freePlaces 0 = 0
    ∧ (aDev.cluster 0).clearing = false ∧ ((savingDev id [some [0, 0], none]).cluster 0).clearing = true
    ∧ (savingDev id [some [0, 0], none]).takenPlace 0 0 = some 0 ∧ (savingDev id [some [0, 1], none]).takenPlace 0 0 = none
    ∧ (savingDev id [some [0, 0], none]).quietTask 1 aTask = true ∧ aDev.tasks.filter (fun t => t.2.resident && decide (clusterOf t.2.core = 1)) = []
    ∧ (let d := savingDev id [some [0, 3], some [1]]
       (d.die 0).shadow.getD 0 none = some [0, 3] ∧ (d.die 0).shadow.getD 1 none = some [1] ∧ [0, 3].headD 0 = 0 ∧ [1].headD 0 ≠ 0 ∧ [1].filter (d.liesIn 0 1) = []
       ∧ [1].filter (Dev.liesIn { d with tasks := [(1, { aTask with phase := .saved (some (0, 1)) })] } 0 1) ≠ [])
    ∧ (aDev.die 0).shadow.getD 0 none = none
    ∧ aDev.tasks.filter (fun t => decide (t.2.phase = .restoring ∧ clusterOf t.2.core = 0)) = []
    ∧ ({ aDev with tasks := [(1, { aTask with phase := .restoring })] } : Dev).tasks.filter (fun t => decide (t.2.phase = .restoring ∧ clusterOf t.2.core = 0)) ≠ []
    ∧ (aDev.core 0).clearing = none ∧ (Dev.core { aDev with cores := [(5, { Core.reset with clearing := some 3 })] } 5).clearing = some 3
    ∧ (let d := { probeDev with probes := [] }
       (d.split? 0 0 0).any (fun x => decide (x.park.waitKind ≠ 0 ∧ x.probed = false ∧ d.param 0 ≤ d.lasted 0 x.since)) = true)
    ∧ ¬ aSplit.park.waitKind ≠ 0 ∧ Tab.find probeDev.probes 9 = none ∧ (Tab.find probeDev.probes 3).isSome = true ∧ probeDev.groupWaits 1 1 = 0 ∧ probeDev.groupWaits 0 0 ≠ 0
    ∧ ({ probeDev with probes := [] } : Dev).probes.all (fun p => decide (p.2.sender ≠ (0, 0))) = true ∧ probeDev.probeEdges 0 0 = [] ∧ probeDev.budgetLeft 6 0 0 = true ∧ ({ probeDev with spent := [(1536, 300)] } : Dev).budgetLeft 6 0 0 = false := by decide +kernel
theorem witness_forced_saves :
    (List.range 4).all (fun i => (lateDev id).overflowRoom i ((lateDev id).saveClosure 32 [clusterOf aTask.core])) = true
    ∧ (lateDev id).tasks.any (fun k => k.2.resident && decide (dieOf k.2.core = 0) && (lateDev id).expired k.2 && !((lateDev id).cluster (clusterOf k.2.core)).clearing)
      = true := by decide +kernel
/-- Two groups of a workgroup that wait for each other at two barrier words: a probe at its sender, and one that comes back to it. -/
def cycleDev : Dev :=
  { probeDev with
    groups := [(0, { aGroup with splits := [some { aSplit with park := .barrier { sp := .smem, own := 1, a := 0 } false }, none, none, none] }),
      (1, { aGroup with splits := [some { aSplit with park := .barrier { sp := .smem, own := 1, a := 64 } false }, none, none, none] })]
    probes := [(3, { sender := (0, 1), wait := 0, at_ := (0, 0), path := [(0, 1)] }), (5, { sender := (0, 1), wait := 0, at_ := (0, 1), path := [] })] }
theorem witness_cycles :
    cycleDev.groupWaits 0 0 ≠ 0 ∧ cycleDev.probeEdges 0 0 = [(0, 1)] ∧ cycleDev.budgetLeft 6 0 1 = true
    ∧ cycleDev.kindOfWait 0 1 0 ≠ 0 ∧ cycleDev.waitEdges 0 1 0 = [(0, 0)] := by decide +kernel
/-- R344's example of its rule: the probe that reaches its sender finds the cycle, and PROBE's flag is set. -/
theorem test_probe_finds_cycle : after (.probeForward 3) (onDev cycleDev) (fun t => (t.dev.task? 1).any (fun k => k.cyc)) = true := by decide +kernel
/-- An MMA that waits at the arbiter sends a probe of its own. -/
def arbDev : Dev := { entryDev (entry mxKind none none) (some (1, 9)) (2 ^ 20) with probes := [] }
theorem witness_arbiter_probe :
    (arbDev.arbiterWait 0 0).any (fun e => !e.probed && decide (arbDev.param 0 ≤ arbDev.lasted 0 (e.reqAt.getD 0))) = true
    ∧ aDev.arbiterWait 0 0 = none := by decide +kernel
/-- The region of a part has room, or has not, for what this workgroup's context takes (its size is the part's: log entry of Config.regionBytes). -/
theorem witness_room :
    ((([].append [1]).map (yieldDev id).contextBytes).foldl (· + ·) 0 ≤ Config.regionBytes → (yieldDev id).regionRoom 0 [1] = true)
    ∧ (Config.regionBytes < (([].append [1]).map (yieldDev id).contextBytes).foldl (· + ·) 0 → (yieldDev id).regionRoom 0 [1] = false) := by
  constructor <;> intro h
  · exact decide_eq_true h
  · exact decide_eq_false (Nat.not_le_of_lt h)

/-- RemoteSteps: a load's request in flight, to be resent and timed out; tickets; arriving accesses through a window, in each order of checks. -/
def peerPart : LanePart := { aPart with loc := { sp := .remote 5 3, own := 0, a := 64 } }
def aRequest : Request := { peer := 5, win := 3, va := 64, op := 5, part := 0, kind := .read, sent := 0, resend := some 100, full := false, world := 0, keep := false }
def reqDev (t : Nat) (r : Request) : Dev :=
  { opDev (.load 1 false) .cl with ops := [(5, { anOp (.load 1 false) .cl with parts := [peerPart] })], requests := [(7, r)], time := t }
def aMsg (world va : Nat) (k : AccKind) : RemoteMsg := { peer := 5, world := world, win := 1, va := va, kind := k, tag := 9, len := 4, op := 0, scope := 4, data := [1, 2, 3, 4] }
def readOnlyEntry : TlbEntry := { asn := 0, world := 0, va := 2 ^ 35, size := 2 ^ 16, leaf := 1239 }
def ownDev (f : Window → Window) (owned : Tab OwnerTicket) : Dev :=
  { gDev 0 [] with
    windows := [(1, f { Window.reset with v := true, wr := true, plo := 5, phi := 5 })], owned := owned, posted := [(1, 7)]
    dies := (List.range 5).map (fun i => (i, { Die.reset with tlb := [pageEntry 0, peerEntry, readOnlyEntry], tickets := [(0, aTicket)] })) }
/-- What an access meets: a local place, a peer's, the hedgerow, or a fault by code. -/
def served (root : Nat) (m : RemoteMsg) : String × Nat :=
  let d := ownDev (fun w => { w with root := root }) []
  match (d.translate (Dev.windowCtx (d.window m.win) m) m.kind m.va).out with
  | .ok p => (if p.loc.isRemote then "peer" else "here", 0)
  | .error (.fault _ c) => ("fault", c)
  | .error .hedge => ("hedge", 0)
theorem witness_remote :
    aDev.request? 7 = none ∧ (reqDev 0 aRequest).request? 7 = some (7, aRequest) ∧ ((reqDev 0 aRequest).op? 5).isSome = true
    ∧ (ticketClass 9 = 0 ∧ ticketClass 0x20000009 ≠ 0) ∧ aRequest.resend = some 100 ∧ 100 ≤ (reqDev 100 aRequest).time ∧ (reqDev 99 aRequest).time < 100
    ∧ (reqDev 0 aRequest).time < aRequest.sent + micros ((reqDev 0 aRequest).param 2) ∧ aRequest.sent + micros (aDev.param 2) ≤ (reqDev 160000000 aRequest).time
    ∧ (let d := reqDev 0 aRequest
       aRequest.part = 0 ∧ d.hasGroup 0 0 = true ∧ peerPart.lane < 32 ∧ peerPart.n = 4 ∧ (d.group 0 0).awaits (.v 1) aRequest.op = true)
    ∧ Tab.find (aDev.die 0).tickets 0 = none ∧ Tab.find ((ownDev id []).die 0).tickets 0 = some aTicket ∧ aTicket.notice = none
    ∧ ¬ aTicket.since + micros (aDev.param 1) ≤ (ownDev id []).time ∧ aTicket.since + micros (aDev.param 1) ≤ 800000000
    ∧ (let w := (ownDev id []).window 1
       w.v = true ∧ ¬ (5 < w.plo ∨ w.phi < 5) ∧ w.world = 0 ∧ ((ownDev id []).window 2).v = false ∧ kindWrites (aMsg 0 0x21000 .write).kind = true)
    ∧ ((ownDev (fun w => { w with wr := false }) []).window 1).wr = false
    ∧ (ownDev id []).performedTags.find? (fun t => decide (t.1 = 5 ∧ t.2.1 = 9)) = none
    ∧ (ownDev id [(4, { win := 1, page := 2, peers := [], since := 0 })]).openTicket 1 (0x21000 / 65536) = some (4, { win := 1, page := 2, peers := [], since := 0 })
    ∧ (ownDev id []).openTicket 1 (0x21000 / 65536) = none
    ∧ [served 0 (aMsg 0 0x21000 .read), served 0 (aMsg 0 (2 ^ 34) .read), served 0 (aMsg 0 (2 ^ 36) .read), served 0x20000 (aMsg 0 (2 ^ 36) .read),
        served 0 (aMsg 0 (2 ^ 35) .write)] = [("here", 0), ("peer", 0), ("hedge", 0), ("fault", 1), ("fault", 3)]
    ∧ (ownDev id []).posted.contains (1, 7) = true ∧ (ownDev id []).posted.contains (1, 8) = false
    ∧ (Tab.find (ownDev id [(4, { win := 1, page := 2, peers := [], since := 0 })]).owned 4).isSome = true ∧ Tab.find (ownDev id []).owned 4 = none := by decide +kernel
/-- LinkSteps: a link that is up with a message to send to a peer, and to none; one with no credit; flits that are whole, damaged, out of turn and badly signed;
lanes lost; a counter used up. -/
def aMessage (peer : Nat) : Msg := { kind := 8, win := 0, va := 0, tag := 0, len := 0, op := 0, scope := 0, tkt := 0, data := [], peer := peer, world := 0 }
def upLink : Link := { Link.reset with st := 2, lanes := 15, credits := [(0, 4), (3, 4)], queued := [(3, [aMessage 5])] }
def linkDev (k : Link) : Dev := { aDev with links := [(0, k)], gangMode := false }
def tagged (d : Dev) (seq : Nat) (off : BitVec 128) : Flit :=
  let f : Flit := { vc := 3, world := 0, ks := false, cmp := false, src := 5, dst := 0, ack := 0, seq := seq, payload := List.replicate 64 0, gcmTag := 0, crc := 0 }
  let t := Config.gcmTag (d.flitKey 0 0 false 5 d.peerId) (flitIv (d.link 0).recvCtr 5 0 d.peerId) (flitHeader f ++ f.payload) + off
  { f with gcmTag := t, crc := crc64 (flitHeader f ++ f.payload ++ Bytes.ofNat 16 t.toNat) }
theorem witness_links :
    ((Tab.find upLink.started 3).map Prod.fst).or (Tab.get [] upLink.queued 3).head? = some (aMessage 5) ∧ ((Tab.get [] Link.reset.queued 3).head?) = none
    ∧ (aMessage 5).peer < 1536 ∧ 1536 ≤ (aMessage 2000).peer ∧ (linkDev upLink).maySend 0 3 = true ∧ (linkDev { upLink with credits := [] }).maySend 0 3 = false
    ∧ (linkDev upLink).passes 0 3 5 0 = true ∧ (linkDev upLink).passes 0 0 5 0 = false
    ∧ ({ upLink with queued := [] } : Link).idle = true ∧ (linkDev { upLink with queued := [] }).maySend 0 3 = true ∧ upLink.idle = false
    ∧ (upLink.st = 2 ∧ ({ upLink with st := 1 } : Link).st ≠ 2 ∧ (linkDev upLink).linkUp 0 = true ∧ (linkDev Link.reset).linkUp 0 = false)
    ∧ flitCrcOk { vc := 3, world := 0, ks := false, cmp := false, src := 5, dst := 0, ack := 0, seq := 0, payload := [], gcmTag := 0, crc := 1 } = false
    ∧ (linkDev upLink).worldSession 5 0 = none
    ∧ upLink.lanes.getLsbD 3 = true ∧ upLink.lanes.getLsbD 4 = false ∧ aDev.param 5 < 2000
    ∧ (linkDev { upLink with st := 3 }).keepLanes (0 &&& upLink.lanes) = 0 ∧ (linkDev { upLink with st := 3 }).keepLanes (7 &&& upLink.lanes) ≠ 0
    ∧ upLink.exhausted = none ∧ (linkDev { upLink with exhausted := some 0 }).time < 0 + micros 100000
    ∧ 0 + micros 100000 ≤ ({ linkDev { upLink with exhausted := some 0 } with time := 1600000000 } : Dev).time := by decide +kernel
/-- A flit whose CRC and tag are right, one in turn and one out of turn, and one whose tag is wrong. -/
theorem witness_flits :
    flitCrcOk (tagged (linkDev upLink) 0 0) = true ∧ (tagged (linkDev upLink) 0 0).seq = ((linkDev upLink).link 0).recvCtr % 65536
    ∧ (tagged (linkDev upLink) 0 0).gcmTag = Config.gcmTag ((linkDev upLink).flitKey 0 0 false 5 (linkDev upLink).peerId) (flitIv ((linkDev upLink).link 0).recvCtr 5 0 (linkDev upLink).peerId)
        (flitHeader (tagged (linkDev upLink) 0 0) ++ (tagged (linkDev upLink) 0 0).payload)
    ∧ flitCrcOk (tagged (linkDev upLink) 9 0) = true ∧ (tagged (linkDev upLink) 9 0).seq ≠ ((linkDev upLink).link 0).recvCtr % 65536
    ∧ flitCrcOk (tagged (linkDev upLink) 0 1) = true
    ∧ (tagged (linkDev upLink) 0 1).gcmTag ≠ Config.gcmTag ((linkDev upLink).flitKey 0 0 false 5 (linkDev upLink).peerId) (flitIv ((linkDev upLink).link 0).recvCtr 5 0 (linkDev upLink).peerId)
        (flitHeader (tagged (linkDev upLink) 0 1) ++ (tagged (linkDev upLink) 0 1).payload) := by
  have h : ∀ x : BitVec 128, x + 0 = x ∧ x + 1 ≠ x := by intro x; constructor <;> bv_omega
  have c : ∀ d n o, flitCrcOk (tagged d n o) = true := by
    intro d n o
    unfold flitCrcOk
    apply decide_eq_true
    simp only [tagged, flitHeader, Bool.false_eq_true, if_false]
  exact ⟨c _ _ _, rfl, (h _).1, c _ _ _, by decide, c _ _ _, (h _).2⟩

/-- SessionSteps: sessions of a port and of a world in each lock state, with keys and without, at and before the time of a heartbeat; sweeps of a world's lines. -/
def aSession (st : LockState) (keyed : Bool) (port : Option Nat) : Session := { peer := 5, world := 1, port := port, st := st, keyed := keyed, lastBeat := 0, lastSent := 0 }
def sessDev (x : Session) (keys : Tab (BitVec 256)) (t : Nat) : Dev := { aDev with sessions := [(149509, x)], keys := keys, time := t }
theorem witness_sessions :
    (sessionNumber 149509 = true ∧ 2 / 2 = (newSession 149509).world ∧ (newSession 149509).st ≠ .error ∧ sessionNumber (328 * 2048) = false)
    ∧ Tab.find aDev.sessions 149509 = none ∧ Tab.find (sessDev (aSession .locked true none) [] 0).sessions 149509 = some (aSession .locked true none)
    ∧ Tab.find (sessDev (aSession .locked true none) [(2, 7)] 0).keys (2 * 1) ≠ none ∧ Tab.find (sessDev (aSession .locked true none) [] 0).keys (2 * 1) = none
    ∧ (aSession .locked true none).port = none ∧ (aSession .locked true (some 3)).port = some 3 ∧ (aSession .run true (some 3)).st = .run
    ∧ [(aSession .unlocked true none).st, (aSession .locked true none).st, (aSession .run true none).st, (aSession .error true none).st] = [.unlocked, .locked, .run, .error]
    ∧ (aSession .locked true none).keyed = true ∧ evidencePasses aDev.policy true true = true ∧ evidencePasses aDev.policy true false = false
    ∧ (aSession .run true none).lastSent + 100 * usTime ≤ (sessDev (aSession .run true none) [] 1600000).time ∧ (aSession .run true none).peer ≠ 2047
    ∧ ({ aSession .run true none with peer := 2047 } : Session).peer = 2047
    ∧ (aSession .run true none).lastBeat + aDev.param 3 * usTime ≤ (sessDev (aSession .run true none) [] 160000000).time
    ∧ ¬ (aSession .run true none).lastBeat + aDev.param 3 * usTime ≤ (sessDev (aSession .run true none) [] 159999999).time
    ∧ (0 < aDev.linkCount ∧ aDev.oldFlits 1 = false ∧ aDev.sweeping 1 = false ∧ ¬ 72 < aDev.linkCount)
    ∧ Tab.find (sessDev (aSession .run true none) [(3, 7)] 0).keys (2 * 1 + 1) = some 7 ∧ aDev.budgetLeft 1 0 128 = true
    ∧ ({ aDev with spent := [(256, aDev.budget 1 0)] } : Dev).budgetLeft 1 0 128 = false
    ∧ ({ aDev with links := [(0, { Link.reset with unacked := [({ vc := 3, world := 1, ks := false, cmp := false, src := 5, dst := 0, ack := 0, seq := 0, payload := [], gcmTag := 0, crc := 1 }, [])] })] }
        : Dev).oldFlits 1 = true := by decide +kernel
/-- A sweep at its world's last line, and before it where the part gives the world lines (Config.cxlLines). -/
theorem witness_sweeps :
    Config.cxlLines 1 0 ≤ Tab.get 0 ({ aDev with sweeps := [(1, Config.cxlLines 1 0)] } : Dev).sweeps 1
    ∧ (0 < Config.cxlLines 1 0 → ¬ Config.cxlLines 1 0 ≤ Tab.get 0 aDev.sweeps 1) := ⟨Nat.le_refl _, fun h => Nat.not_le_of_lt h⟩
/-- LifeSteps: a record due and not; grants whose time has come; a call-up in each stage; a cluster idle for its time; one gated; one that is woken. -/
def dueDev : Dev := { aDev with commitDue := [(5, 0)], grants := [(3, { level := 1, clusters := [0, 1], ms := 2, drawn := 0, cost := (0, 0, 0), start := some 0 })] }
def callDev (k : Nat) : Dev := { Dev.reset with dies := [(0, { Die.reset with callup := some (1, 2, k) })] }
def idleDev (k : Cluster → Cluster) : Dev := { Dev.reset with clusters := [(0, k Cluster.reset)], time := 10 ^ 12 }
theorem witness_life_steps :
    (5 < unitCount ∧ Tab.find dueDev.commitDue 5 = some 0 ∧ dueDev.budgetLeft 3 0 1 = true ∧ ¬ 984 < unitCount)
    ∧ Tab.find aDev.grants 3 = none ∧ (Tab.find dueDev.grants 3).isSome = true ∧ dueDev.time < 0 + 2 * 1000 * usTime
    ∧ 0 + 2 * 1000 * usTime ≤ ({ dueDev with time := 32000000 } : Dev).time
    ∧ (dueDev.wearOf 5).st = 0 ∧ (aDev.die 0).callup = none
    ∧ [0, 1, 2, 3, 4, 5].map (fun k => ((callDev k).die 0).callup) = [0, 1, 2, 3, 4, 5].map (fun k => some (1, 2, k)) ∧ (callDev 1).granary 0 = some 4
    ∧ (callDev 3).slotEmpty 0 2 = true ∧ ({ callDev 3 with tasks := [(1, { aTask with core := 32 })] } : Dev).slotEmpty 0 2 = false
    ∧ (let d := idleDev id
       d.idleCluster 0 = true ∧ d.budgetLeft 5 0 1 = true ∧ ∀ c ∈ ((List.range 8).map (fun i => 8 * 0 + i)).filter d.idleCluster, d.largestPool c ≤ d.largestPool 0)
    ∧ aDev.idleCluster 0 = false ∧ (aDev.cluster 0).gating = none ∧ ((idleDev (fun k => { k with gating := some 16000 })).cluster 0).gating = some 16000
    ∧ 16000 ≤ (idleDev id).time ∧ aDev.time < 16000 ∧ (aDev.cluster 0).waking = false
    ∧ ((idleDev (fun k => { k with waking := true, fallow := 1 })).cluster 0).waking = true ∧ ((idleDev (fun k => { k with waking := true, fallow := 1 })).cluster 0).fallow ≠ 0 := by
  decide +kernel

/-- ClockSteps: stacked pairs that serve and do not; a change before its drain, at its switch and at its end; the alarm; the pulse; energy; a period; the loss. -/
def changeDev (sw : Bool) (t : Nat) : Dev := { aDev with changes := [(2, { clusters := [0, 1], level := 1, count := 40000, switched := sw })], time := t }
theorem witness_clocks_1 :
    (aDev.cluster 6).woke = none ∧ ((idleDev (fun k => { k with woke := some 16000 })).cluster 0).woke = some 16000 ∧ 16000 + 16000 ≤ ({ idleDev id with time := 32000 } : Dev).time
    ∧ ([(1, 7)].filterMap (fun e => (aDev.task? e.1).map (fun t => (t.queue, e.2)))) = [(0, 7)] := by decide +kernel
theorem witness_clocks :
    (3 < 16 ∧ (aDev.cluster (2 * 3)).fallow = 0 ∧ (aDev.cluster (2 * 3 + 1)).fallow = 0 ∧ 5 ≤ 7 ∧ ¬ 7 ≤ 5 ∧ ((idleDev (fun k => { k with fallow := 1 })).cluster (2 * 0)).fallow ≠ 0)
    ∧ Tab.find aDev.changes 2 = none ∧ Tab.find (changeDev false 0).changes 2 = some { clusters := [0, 1], level := 1, count := 40000, switched := false }
    ∧ (changeDev false 7999).time + 32000 < 40000 ∧ 40000 ≤ (changeDev false 8000).time + 32000 ∧ (changeDev false 39999).time < 40000 ∧ 40000 ≤ (changeDev false 40000).time
    ∧ (Tab.find (changeDev true 0).changes 2).any (fun x => x.switched) = true ∧ (changeDev true 47999).time < 40000 + 8000 ∧ 40000 + 8000 ≤ (changeDev true 48000).time
    ∧ aDev.throttled = false ∧ ({ aDev with throttled := true } : Dev).throttleClear = none ∧ ({ aDev with time := 1 } : Dev).time % 16000 ≠ 0 ∧ aDev.time % 16000 = 0
    ∧ ((aDev.tasks.filter (fun t => t.2.resident && decide (clusterOf t.2.core = 0))).map (fun t => ((aDev.grid? t.2.grid).map (fun g => g.fraction)).getD 0)).foldl (· + ·) 0 ≠ 0
    ∧ aDev.tasks.filter (fun t => t.2.resident && decide (clusterOf t.2.core = 1)) = []
    ∧ aDev.time / 1600000 ≤ aDev.period ∧ ({ aDev with time := 1600000 } : Dev).period < 1600000 / 1600000 ∧ (Tab.find twoCores.queues 0).isSome = true
    ∧ aDev.stopped = false ∧ ({ aDev with stopped := true } : Dev).stopped = true ∧ (onDev aDev).agenda = [] := by decide +kernel

/-- ErrorAndManagementSteps: commands of each op that are taken, refused and come too early; requests of the host; errors; bring-up at its stages. -/
def aCmd (op : Nat) (w1 w2 : W64) : Cmd := { world := 0, op := op, seq := 9, w1 := w1, w2 := w2, w3 := 0, w4 := 0x20008, w5 := 0, w6 := 0, w7 := 0 }
def mgDev (stage : Nat) (run : Option (Nat × Nat)) : Dev := { gDev 0 [] with mgmt := { Dev.reset.mgmt with stage := stage, running := run }, host := { Dev.reset.host with trained := true, width := 16, gts := 128 } }
def aSite (k : ErrKind) (g : Option (Nat × Nat)) : ErrSite := { cls := 1, unit := 3, kind := k, pa := 0x21000, group := g, moved := false }
theorem witness_management_1 :
    ((aCmd 0 0 0).world = 0 ∧ (mgDev 7 none).mgmt.running = none ∧ stageStatus (mgDev 7 none).mgmt.stage 0 = none ∧ (mgDev 7 (some (9, 0))).mgmt.running = some (9, 0)
      ∧ (stageStatus (mgDev 1 none).mgmt.stage 1).isSome = true ∧ ({ aCmd 0 0 0 with world := 1 } : Cmd).world ≠ 0) := by decide +kernel
theorem witness_management_2 :
    [1, 2, 3, 4, 5, 6, 7, 8, 9, 10, 11, 12].map (fun o => stageStatus 7 o) = List.replicate 12 none := by decide +kernel
theorem witness_management_3 :
    [0, 1, 2, 3, 4, 5, 6].map (fun k => ((aCmd 0 (BitVec.ofNat 64 (k * 2 ^ 56)) 0).w1.toNat / 2 ^ 56)) = [0, 1, 2, 3, 4, 5, 6] := by decide +kernel
theorem witness_management_4 :
    (aCmd 0 0x200000000 0).w1.toNat / 2 ^ 33 % 2 ^ 23 = 1 ∧ (aCmd 0 71 0).w1.toNat % 2 ^ 32 < 72 ∧ 72 ≤ (aCmd 0 72 0).w1.toNat % 2 ^ 32 := by decide +kernel
theorem witness_management_5 :
    ({ aDev with log := [{ kind := 1, cls := 1, unit := 0, pa := 0, world := 0, time := 0 }] } : Dev).log[0]?.isSome = true ∧ aDev.log[0]? = none := by decide +kernel
theorem witness_management_6 :
    ((aCmd 1 0x702 9).w1.toNat / 256 = 7 ∧ (aCmd 1 0x702 9).w1.toNat % 256 < instances 7 ∧ (aCmd 1 0x401 9).w1.toNat % 256 < instances 4) := by decide +kernel
theorem witness_management_7 :
    (bit (aCmd 2 5 0x107).w2.toNat 8 = true ∧ bit (aCmd 2 5 7).w2.toNat 8 = false ∧ (aCmd 2 5 0x107).w2.toNat < 2 ^ 10) := by decide +kernel
theorem witness_management_8 :
    (aDev.hasGroup (0 % 256) (0 / 256) = true ∧ aTask.grid = 0 ∧ 2 ^ 23 ≤ 2 ^ 23 ∧ 3 < 4) := by decide +kernel
theorem witness_management_9 :
    ((aCmd 6 0x0200000000000003 0x8000000000020000).w1.toNat / 2 ^ 56 = 2 ∧ (aCmd 6 0x0200000000000003 0x8000000000020000).w1.toNat / 2 ^ 16 % 2 ^ 40 = 0 ∧ (aCmd 6 0x0200000000000003 0x8000000000020000).w1.toNat % 2 ^ 16 < 32 ∧ bits (aCmd 6 0x0200000000000003 0x8000000000020000).w2.toNat 61 52 = 0 ∧ (aCmd 6 0x0200000000000003 0x8000000000020000).w2.toNat % 2 ^ 13 = 0 ∧ (aCmd 6 0x0200000000000003 0x8000000000020000).w3.toNat % 2 ^ 10 = 0
       ∧ (aCmd 6 0x0200000000000003 0x8000000000020000).w4.toNat < 2 ^ 52 ∧ (aCmd 6 0x0200000000000003 0x8000000000020000).w4.toNat % 8 = 0 ∧ (mgDev 7 none).hedge (windowOf (aCmd 6 0x0200000000000003 0x8000000000020000).w2.toNat (aCmd 6 0x0200000000000003 0x8000000000020000).w3.toNat (aCmd 6 0x0200000000000003 0x8000000000020000).w4.toNat).post (windowOf (aCmd 6 0x0200000000000003 0x8000000000020000).w2.toNat (aCmd 6 0x0200000000000003 0x8000000000020000).w3.toNat (aCmd 6 0x0200000000000003 0x8000000000020000).w4.toNat).world = true
       ∧ (mgDev 7 none).windows.isEmpty = true) := by decide +kernel
theorem witness_management_10 :
    (mgDev 7 none).sessions.isEmpty = true ∧ bits (aCmd 7 0x2000000000000004 0).w1.toNat 60 16 = 0 ∧ paramOk 6 95 = true ∧ (bits (aCmd 10 0x10305 0).w1.toNat 15 10 = 0 ∧ bit 0x10305 16 = true) := by decide +kernel
theorem witness_management_11 :
    (({ mgDev 7 none with sessions := [(149503, { aSession .run true none with peer := 2047, world := 0 })] } : Dev).hostMay 0 0x21000 8 = true ∧ (mgDev 7 none).hostMay 0 0x21000 8 = false
      ∧ (mgDev 7 none).hostMay 0 0x10000 8 = false ∧ 512 < 513 ∧ 4096 < 4097) := by decide +kernel
theorem witness_management_12 :
    ((8 = 4 ∨ 8 = 8) ∧ 0x21000 % 8 = 0 ∧ (List.replicate 16 (0 : Byte)).length = 2 * 8) := by decide +kernel
theorem witness_management_13 :
    ((mgDev 7 none).host.trained = true ∧ aDev.host.trained = false ∧ 8 ∈ [16, 8, 4, 1] ∧ 8 ≤ (mgDev 7 none).host.width ∧ 64 ≤ (mgDev 7 none).host.gts) := by decide +kernel
theorem witness_management_14 :
    ((aSite .sram none).kind = .sram ∧ (aSite .sram (some (0, 0))).group = some (0, 0) ∧ (aSite (.icache 3) none).kind = .icache 3 ∧ (aSite (.lane 2) none).kind = .lane 2) := by decide +kernel
theorem witness_management_15 :
    (({ aDev with dies := [(0, { Die.reset with tests := [aSite .sram none] })] } : Dev).die 0).tests = [aSite .sram none] ∧ (aDev.die 0).tests = [] ∧ aDev.budgetLeft 2 0 1 = true := by decide +kernel
theorem witness_management_16 :
    aDev.budgetLeft 0 7 128 = true ∧ ({ aDev with spent := [(7, aDev.budget 0 7)] } : Dev).budgetLeft 0 7 128 = false := by decide +kernel
theorem witness_management_17 :
    [1, 3, 5, 6].map (fun k => decide ((mgDev k none).mgmt.stage < 7)) = [true, true, true, true] ∧ 7 ≤ (mgDev 7 none).mgmt.stage := by decide +kernel

/-- TakingATrapAndReturning: a group's issue, and the handler's, with a trap being served that another group of the workgroup waits with. -/
theorem witness_traps :
    ((live id).iss.slot ≠ handlerSlot ∧ (live id).rollback.hasGroup 0 0 = true ∧ inHandler.iss.slot = handlerSlot ∧ (servedDev.core 0).serving = some (1, aRec)
      ∧ Tab.find servedDev.groups 0 = some { aGroup with trap := some aRec, held := true } ∧ 0 ≠ gkey 0 handlerSlot) := by decide +kernel

/-- AStepRunsTheDecodedInstructions: JOIN placed from outside (log entry 1), chosen and as the port in turn; and a packet that cannot be fetched. -/
def placed : State := State.reset.withFetchWord 32 0x00600000
def inTurn : State := { placed with pick := none }
def paced (v : State) : State := v.takeTurn 0
def chosen (w : State) : Option (Nat × Nat × Split) := w.dev.firstRanked 0 ((w.dev.portSplits 0 0).filter (fun c => w.dev.ready 0 c.1 c.2.2))
def planned (w : State) : Option (Dev × Plan × Split) := (chosen w).map (fun c =>
  let p := (w.dev.issued 0 0 c.1 c.2.1).plan 0 c.1 c.2.2
  (p.1, p.2, c.2.2))
theorem witness_steps :
    placed.dev.stopped = false ∧ placed.pick = some 0 ∧ inTurn.agenda = [] ∧ (firstChange inTurn inTurn.dev.candidates).isNone = true
    ∧ inTurn.dev.nextPort = some 0
    ∧ (planned (paced inTurn)).any (fun p => !(p.1.group 0 handlerSlot).poisoned && !p.2.2.skip && (match p.2.1 with
        | .go _ raw => decide (raw = [0x00600000])
        | _ => false)) = true
    ∧ decodeWord 0x00600000 = .ok .join
    ∧ (planned (paced (onDev aDev))).any (fun p => match p.2.1 with
        | .trap _ _ => true
        | _ => false) = true
    ∧ (match ((paced inTurn).dev.fetchPacket 0 handlerSlot placedAt).2 with
        | .ok ws => decide (ws = [0x00600000, 0, 0])
        | .error _ => false) = true
    ∧ (let d := (paced inTurn).dev
       let r := d.translate (d.slotCtx 0 handlerSlot) .fetch placedAt
       match r.out with
       | .ok p => !r.dev.poisoned p.loc 4
       | .error _ => false) = true := by decide +kernel
theorem witness_step_is_an_issue : placed.nextStep = inTurn.issueFrom 0 := rfl
/-- A packet in the instruction cache and one that is not. -/
theorem witness_fetched :
    ((paced inTurn).dev.fetchPacket 0 handlerSlot placedAt).1.missing 0 handlerSlot placedAt = []
    ∧ (({ (paced inTurn).dev with cores := [] } : Dev).fetchPacket 0 handlerSlot placedAt).1.missing 0 handlerSlot placedAt ≠ [] := by decide +kernel
/-- The word of that step opens its group, runs, and leaves no word after it. -/
theorem witness_step_completes : (match step placed with
    | .next t => decide (((t.dev.group 0 handlerSlot).splits.getD 0 none).map (fun x => x.park) = some .join) && t.settled
    | _ => false) = true := by decide +kernel

/-- BarrierWordsArriveAndWait, MonitorsWatchABlock, IssueAndWaitSteps: a block that an engine holds; a block of a peer's page. -/
def heldBlock (l : Loc) : Dev := { barDev 0x80000 with clusters := [(0, { Cluster.reset with held := [(0, [l])] })] }
theorem witness_held_blocks :
    (heldBlock barLoc).engineHolds barLoc 4 = true ∧ (heldBlock barLoc).engineHolds { barLoc with a := 0x180 } 4 = false ∧ (barDev 0).engineHolds barLoc 8 = false
    ∧ ({ heldBlock barLoc with ops := [(5, anOp .store .cs)] } : Dev).storesOut 0 0 = true ∧ ({ sp := .remote 5 3, own := 0, a := 64 } : Loc).isRemote = true
    ∧ bit ((heldBlock barLoc).readNat barLoc 4) 31 = false := by decide +kernel

/-- IssueAndWaitSteps: a release at system scope that the host has not seen and one that it has; a pair's held store at its checkpoint. -/
def unseenDev (l : List Nat) : Dev := { parkDev (.relst 5 5 [0, 1, 0, 0]) (fun g => { g with unseen := l }) with ops := [(5, { anOp .store .cs with scope := 5, st := .held })] }
def heldPair : Dev := { meets (some 0) 0 with ops := [(5, { anOp .store .cs with st := .held })] }
theorem witness_system_scope :
    ((unseenDev [8]).group 0 0).cs = [] ∧ ((unseenDev [8]).group 0 0).unseen ≠ [] ∧ ((unseenDev []).group 0 0).unseen = [] ∧ (3 < 5 ∧ ¬ 5 < 5)
    ∧ (unseenDev [8]).relstUnseen { anOp .store .cs with scope := 5, st := .held } = true
    ∧ (unseenDev []).relstUnseen { anOp .store .cs with scope := 5, st := .held } = false
    ∧ heldPair.holdsStores [{ cat := 0, sig := 0, matched := true, op := 5, values := [] }] = true ∧ heldPair.holdsStores [] = false := by decide +kernel

/-- PrefetchesOnlyFill: a core whose shared entries are all in use; a prefetch that is going on. -/
def crowdedDev : Dev := { aDev with ops := (List.range 17).map (fun k => (k + 5, { anOp (.pref true) .cl with held := List.replicate 32 homePart.loc.entryLine })) }
theorem witness_prefetches :
    crowdedDev.sharedFree 0 = 0 ∧ aDev.sharedFree 0 = 508 ∧ (opDev (.pref true) .cl).op? 5 = some (anOp (.pref true) .cl)
    ∧ (anOp (.pref true) .cl).parts.all (fun q => !q.loc.isRemote) = true ∧ noPartials (opDev (.pref true) .cl) :=
  ⟨by decide +kernel, by decide +kernel, by decide +kernel, by decide +kernel, fun _ => rfl⟩

/-- ClosingAnIssueGroup: a group that exits while a WAITC chained to it waits. -/
theorem witness_closing_waits :
    let s : State := { live id with iss := { (live id).iss with exits := true, parks := [.waitc 0 0 0 0 [1, 0, 0, 0]] } }
    s.running = true ∧ s.iss.exits = true ∧ s.waitsOf.headD .running ≠ .running ∧ s.iss.trapCode = none := by decide +kernel

/-- MatrixEntriesStartAndRetire: an MMA whose result is made, and an MTWV that has all it waits for. -/
def madeEntry : MxEntry := { entry mxKind (some 0) (some 64) with result := [(3, 7)], marks := [(3, 0)] }
def vecEntry : MxEntry := entry (.mtwv 2 1 3 [7, 8]) (some 0) none
theorem witness_entries_end :
    (let d := entryDev madeEntry none 75; d.entry? 0 7 = some madeEntry ∧ (d.mmaOps 1 mxKind).any (fun m => decide (m.groups ≤ madeEntry.kGroup)) = true ∧ madeEntry.made = true
      ∧ Tab.find madeEntry.result 4 = none)
    ∧ (let d := entryDev vecEntry none 0; d.entry? 0 7 = some vecEntry ∧ vecEntry.started ≠ none ∧ (d.op? 5).any (fun o => d.enginesDone o.parts) = true) := by decide +kernel

/-- LinkSteps: a peer whose world session is in error, and one in run; a replay that is due and one that is not yet. -/
def peerDev (st : LockState) : Dev := { linkDev upLink with sessions := [(149509, aSession st true none)] }
def sentLink : Link := { upLink with unacked := [({ vc := 3, world := 0, ks := false, cmp := false, src := 5, dst := 0, ack := 0, seq := 0, payload := [], gcmTag := 0, crc := 1 }, [])] }
theorem witness_peers :
    (peerDev .error).drops 5 1 = true ∧ (peerDev .run).drops 5 1 = false ∧ (peerDev .run).worldSession 5 1 = some (149509, aSession .run true none)
    ∧ (aSession .run true none).st = .run ∧ (linkDev sentLink).replayDue 0 = false
    ∧ ({ linkDev sentLink with time := 16000000 } : Dev).replayDue 0 = true := by decide +kernel

/-- DecodingAndEncodingAgree, StepsLeaveNoIssueGroupOpen: a well-formed instruction and its word; a settled state whose step answers a next state. -/
theorem witness_encodings : (Instr.iadd 8 8 9).wf = true ∧ encodeWord 0 (.iadd 8 8 9) = some 0x20020409 ∧ decodeWord 0x20020409 = .ok (.iadd 8 8 9) := by decide +kernel
theorem witness_settled : placed.settled = true ∧ (match step placed with
    | .next _ => true
    | _ => false) = true := by decide +kernel
/-- R157's worked line: sixteen 64-bit words that rise by 8 from 0x00007F0000001000, the last one given. -/
def exLine (last : Nat) : List Byte := (List.range 16).flatMap (fun i => Sys2Proof.Bytes.ofNat 8 (if i = 15 then last else 0x00007F0000001000 + 8 * i))
theorem test_line_code_example : (lineCode (exLine (0x00007F0000001000 + 120)), lineSize 2) = (2, 24) := by decide +kernel
theorem test_line_code_wider : (lineCode (exLine 0x00007F0000001400), lineSize 3) = (3, 40) := by decide +kernel
theorem test_line_restored : lineRestored (lineStored (exLine 0x00007F0000000F90) 2) 2 = exLine 0x00007F0000000F90 := by decide +kernel

/-! ## More witnesses -/

/-- WaitsParkTheSplit, AtomicSetWords, SystemWords: a cluster in the drain window of a change; a trailer's group; a pair that holds a store. -/
def drainDev : Dev := { aDev with clusters := [(0, { Cluster.reset with drain := some 3 })] }
def trailerDev : Dev := { aDev with groups := [(0, { aGroup with role := .trailer, partner := (1, 0) })] }
def oweDev : Dev :=
  { heldPair with groups := Tab.mapV heldPair.groups (fun _ g => { g with pairBuf := [{ cat := 0, sig := 0, matched := true, op := 5, values := [] }] }) }
theorem witness_drains :
    ((onDev drainDev).dev.cluster (clusterOf (onDev drainDev).iss.core)).drain = some 3 ∧ (onDev drainDev).iss.slot ≠ handlerSlot
    ∧ ((onDev drainDev).dev.task? (onDev drainDev).taskId).any (fun x => x.deadlineFrom.isSome) = false ∧ (aDev.cluster 0).drain = none
    ∧ inHandler.iss.slot = handlerSlot ∧ (onDev trailerDev).old.role = .trailer ∧ (onDev trailerDev).running = true ∧ (onDev (setWaiter aTask)).old.role ≠ .trailer
    ∧ (onDev oweDev).paired = true ∧ 0 < (onDev oweDev).pairHeld := by decide +kernel

/-- PrefetchesOnlyFill: all lanes' places known from a TLB's entry. MatrixWordsJoinTheQueue: an MLDB's rows that reach past memory, and a pitch that is no
multiple of its elements. -/
theorem witness_places :
    (let s := gState (gDev 0 []) 0
     s.dev.sharedFree s.iss.core ≠ 0 ∧ s.old.role ≠ .trailer ∧ lanesOf s.acting ≠ []
       ∧ (lanesOf s.acting).all (fun i => (s.dev.prefetchPlace s.iss.core s.iss.slot (s.laneAddr 4 127 1 i)).isSome) = true)
    ∧ ((mxState id).spanCheck .read 0xF200000000000008 [(0, 2 ^ 20)] 4 false).isSome = true
    ∧ (mxState id).spanCheck .read 0xF200000000000000 ((List.range 2).map (fun j => (j * 258, 256))) 4 false = none ∧ 258 % 4 ≠ 0 := by decide +kernel

/-- IssueAndWaitSteps and AStepRunsTheDecodedInstructions: a port that has issued in this cycle and one that has not; a stack's entry that waits for the next
cycle, and one that may pop. WorkgroupSteps: the trapped slot of the workgroup served. -/
theorem witness_ports :
    aDev.portOpen 0 0 = true ∧ ({ aDev with turn := [(0, (0, 0, 0))] } : Dev).portOpen 0 0 = false
    ∧ ({ aDev with clusters := [(0, { Cluster.reset with halfRate := true, cycle := 1 })] } : Dev).portOpen 0 0 = false
    ∧ aGroup.mayPop = false ∧ ({ aGroup with mayPop := true } : Group).mayPop = true
    ∧ servedDev.servedSlot 0 = some 0 ∧ (exited id id).servedSlot 0 ≠ some 0
    ∧ aDev.activeSets + placedGrid.sets.length ≤ 4096 ∧ ({ aTask with killed := true } : Task).killed = true
    ∧ 4096 < ({ aDev with tasks := [(1, { aTask with sets := List.replicate 4096 (0, { base := 0, len := 0, acquired := false }) })] } : Dev).activeSets
        + ({ placedGrid with sets := [(0, 0)] } : Grid).sets.length := by decide +kernel

/-- ContextSteps: a held group and a group's ticketed operation that have waited for the threshold; a handler's store that holds a save up; a probe with units
left for one of the two groups it goes on to. -/
def longDev : Dev :=
  { aDev with
    groups := [(0, { aGroup with held := true, heldAt := 0 })], clusters := [(0, { Cluster.reset with cycle := 2 ^ 20 })], time := 2 ^ 30
    ops := [(5, { anOp (.load 1 false) .cl with st := .ticketed 9 })], dies := [(0, { Die.reset with tickets := [(4, aTicket)] })] }
theorem witness_long_waits :
    (longDev.group 0 0).holdSince = some 0 ∧ (longDev.group 0 0).probed = false ∧ longDev.param 0 ≤ longDev.lasted 0 0
    ∧ longDev.op? 5 = some { anOp (.load 1 false) .cl with st := .ticketed 9 } ∧ longDev.param 0 ≤ longDev.ticketWait 0 5
    ∧ (aDev.group 0 0).holdSince = none ∧ longDev.probes = []
    ∧ (∀ c ∈ coresOf 0, aDev.quietHandler c = true)
    ∧ ({ aDev with ops := [(5, { homeOp .store .cs with slot := handlerSlot })] } : Dev).quietHandler 0 = false
    ∧ (List.take (({ aDev with spent := [(1536, 15)] } : Dev).unitsLeft 6 0 2) [1, 2]).length ≤ 2
    ∧ ([(0, 1)] : List (Nat × Nat)).filter (fun x => !([(0, 1)] : List (Nat × Nat)).contains x) = [] := by decide +kernel
theorem witness_units :
    ([0, 1, 2].map (fun k => ({ aDev with spent := [(1536, aDev.budget 6 0 - k)] } : Dev).unitsLeft 6 0 2)) = [0, 1, 2] := by decide +kernel
/-- A context that leaves a place of the store for the region, with room there or without. -/
theorem witness_region :
    (0 - 0 + (yieldDev id).contextsBytes [] ≤ Config.regionBytes) := Nat.zero_le _

/-- RemoteSteps: an access to a line that a copy engine holds. -/
def grabbedDev : Dev := { ownDev (fun w => { w with root := 0 }) [] with clusters := [(0, { Cluster.reset with held := [(0, [hbmAt 0x400])] })] }
theorem witness_engine_lines :
    grabbedDev.engineHolds (hbmAt 0x400) 4 = true ∧ grabbedDev.engineHolds (hbmAt 0x480) 4 = false ∧ (hbmAt 0x400).isRemote = false := by decide +kernel

/-- LifeSteps: records due for an event, overdue without budget, and due for their age. ClockSteps: a throttle that may end, and those whose cause stands. -/
theorem witness_due :
    Tab.find dueDev.commitDue 5 = some 0 ∧ Tab.find dueDev.commitDue 6 = none ∧ ({ dueDev with spent := [(768, 2 ^ 40)] } : Dev).budgetLeft 3 0 1 = false
    ∧ 0 + 10000000 * usTime ≤ ({ dueDev with time := 10000000 * usTime } : Dev).time ∧ (dueDev.wearOf 6).ctime + 10000000 * usTime ≤ 10000000 * usTime
    ∧ aDev.time < aDev.sampledAt + 1000 * usTime ∧ aDev.sampledAt + 1000 * usTime ≤ ({ aDev with time := 1000 * usTime } : Dev).time
    ∧ (let d : Dev := { aDev with throttled := true, time := 100 * usTime }
       d.throttled = true ∧ d.throttleClear = none ∧ d.powerW ≤ 3300 ∧ (∀ c ∈ d.clusters, c.2.celsius < 105) ∧ d.alarmAt + 100 * usTime ≤ d.time)
    ∧ 3300 < ({ aDev with powerW := 3301 } : Dev).powerW ∧ (∃ c ∈ ({ aDev with clusters := [(0, { Cluster.reset with celsius := 105 })] } : Dev).clusters, 105 ≤ c.2.celsius)
    := by decide +kernel

/-- ErrorAndManagementSteps: a frame of the device's own region and another; requests to BAR0 with the port's session in run, and with none; an AtomicOp's
operands that meet memory and that do not; stages that may fail. -/
def hostDev : Dev :=
  { mgDev 7 none with
    sessions := [(149503, { peer := 2047, world := 0, port := none, st := .run, keyed := true, lastBeat := 0, lastSent := 0 })]
    host := { Dev.reset.host with trained := true, up := true, width := 16, gts := 128 } }
theorem witness_host :
    hostDev.host.trained = true ∧ hostDev.hostRuns 0 = true ∧ (mgDev 7 none).hostRuns 0 = false ∧ hostDev.host.up = true ∧ aDev.host.up = false
    ∧ hostDev.hostMay 0 0x21000 8 = true ∧ hostDev.readNat (hbmAt 0x21000) 8 = 0 ∧ [1, 2, 3, 4, 5, 6].map mayFail = [true, false, true, true, false, false]
    ∧ ({ Frame.reset with reserved := true } : Frame).reserved = true ∧ (aDev.frame 2).reserved = false ∧ 16 ∈ [16, 8, 4, 1] ∧ 64 ∈ [128, 64, 32, 16, 8, 5, 2]
    ∧ (64 ≤ 64 ∧ 72 ≤ 64 + 8) ∧ ¬ 72 ≤ 64 + 7 := by decide +kernel

end Sys2Proof.Tests
end

section
/-! SUPPORT. Tables and parts of the device, as the proofs about contexts and about life steps read them: what a part is after an update of it, what a fold of
updates keeps, and what dropping an L1's lines never touches. -/

namespace Sys2Proof

theorem Tab.find_mapV {α : Type} (t : Tab α) (f : Nat → α → α) (j : Nat) :
    Tab.find (Tab.mapV t f) j = (Tab.find t j).map (f j) := by
  induction t with
  | nil => rfl
  | cons p t ih =>
    obtain ⟨i, v⟩ := p
    change (if i = j then some (f i v) else Tab.find (Tab.mapV t f) j) = (if i = j then some v else Tab.find t j).map (f j)
    split_ifs with h
    · rw [h]; rfl
    · exact ih

theorem Tab.find_keep_keys {α : Type} (t : Tab α) (p : Nat → Bool) (j : Nat) :
    Tab.find (Tab.keep t (fun k _ => p k)) j = if p j = true then Tab.find t j else none := Tab.find_filter t p j

theorem getD_setAt_same {α : Type} (l : List α) (i : Nat) (v w : α) (h : i < l.length) : (setAt l i v).getD i w = v := by
  induction l generalizing i with
  | nil => simp at h
  | cons x l ih =>
    cases i with
    | zero => rfl
    | succ n => simpa [setAt] using ih n (by simpa using h)

end Sys2Proof

namespace Sys2Proof.Machine

/-! ## A part after an update -/

theorem Dev.core_modCore (d : Dev) (c k : Nat) (f : Core → Core) :
    (d.modCore c f).core k = if k = c then f (d.core c) else d.core k := Tab.get_insert ..
theorem Dev.cluster_modCluster (d : Dev) (c k : Nat) (f : Cluster → Cluster) :
    (d.modCluster c f).cluster k = if k = c then f (d.cluster c) else d.cluster k := Tab.get_insert ..
theorem Dev.wearOf_modWear (d : Dev) (u k : Nat) (f : Wear → Wear) :
    (d.modWear u f).wearOf k = if k = u then f (d.wearOf u) else d.wearOf k := by
  change (Tab.find (Tab.insert d.wear u _) k).getD _ = _
  rw [Tab.find_insert]; split_ifs <;> rfl

@[simp] theorem Dev.core_modCore_same (d : Dev) (c : Nat) (f : Core → Core) : (d.modCore c f).core c = f (d.core c) := by
  simp [Dev.core_modCore]
@[simp] theorem Dev.cluster_modCluster_same (d : Dev) (c : Nat) (f : Cluster → Cluster) : (d.modCluster c f).cluster c = f (d.cluster c) := by
  simp [Dev.cluster_modCluster]
@[simp] theorem Dev.wearOf_modWear_same (d : Dev) (u : Nat) (f : Wear → Wear) : (d.modWear u f).wearOf u = f (d.wearOf u) := by
  simp [Dev.wearOf_modWear]

/-! ## Updates of many wear records -/

/-- The records of some units changed one after another. -/
theorem Dev.wearOf_foldl_modWear_of_not_mem (us : List Nat) (f : Nat → Wear → Wear) (d : Dev) (v : Nat) (h : v ∉ us) :
    (us.foldl (fun d u => d.modWear u (f u)) d).wearOf v = d.wearOf v := by
  induction us generalizing d with
  | nil => rfl
  | cons u us ih =>
    obtain ⟨hu, hv⟩ := not_or.1 (List.mem_cons.not.1 h)
    rw [List.foldl_cons, ih _ hv, Dev.wearOf_modWear, if_neg hu]

theorem Dev.wearOf_setStates (d : Dev) (us : List Nat) (st v : Nat) :
    (d.setStates us st).wearOf v = if v ∈ us then { d.wearOf v with st := st } else d.wearOf v := by
  change (us.foldl (fun d u => d.modWear u (fun w => { w with st := st })) d).wearOf v = _
  induction us generalizing d with
  | nil => rfl
  | cons u us ih =>
    rw [List.foldl_cons, ih]
    by_cases h : v = u
    · subst h; simp
    · simp [Dev.wearOf_modWear, h]

/-- A change that keeps states, made to some records, keeps each record's state. -/
theorem Dev.st_foldl_modWear (us : List Nat) (f : Wear → Wear) (hf : ∀ w, (f w).st = w.st) (d : Dev) (v : Nat) :
    ((us.foldl (fun d u => d.modWear u f) d).wearOf v).st = (d.wearOf v).st := by
  induction us generalizing d with
  | nil => rfl
  | cons u us ih =>
    rw [List.foldl_cons, ih, Dev.wearOf_modWear]
    split_ifs with h
    · rw [h, hf]
    · rfl

theorem Dev.clusters_foldl_modWear (us : List Nat) (f : Nat → Wear → Wear) (d : Dev) :
    (us.foldl (fun d u => d.modWear u (f u)) d).clusters = d.clusters :=
  List.foldlRecOn us _ (motive := fun e : Dev => e.clusters = d.clusters) rfl (fun _ h _ _ => h)

theorem Dev.cluster_setStates (d : Dev) (us : List Nat) (st c : Nat) : (d.setStates us st).cluster c = d.cluster c :=
  congrArg (fun t => Tab.get Cluster.reset t c) (Dev.clusters_foldl_modWear us (fun _ w => { w with st := st }) d)

end Sys2Proof.Machine
end

section
/-! SUPPORT. Life steps (R350 to R355, R362, R363, R382): commits of records, samples, call-ups and fallow. -/

namespace Sys2Proof.Machine

open Sys2Proof.Claims

/-! ## Commits of records (R355) -/

theorem Dev.dueSince_eq_some {d : Dev} {u t : Nat} :
    d.dueSince u = some t ↔ Tab.find d.commitDue u = some t
      ∨ (Tab.find d.commitDue u = none ∧ t = (d.wearOf u).ctime + 10000000 * usTime ∧ (d.wearOf u).ctime + 10000000 * usTime ≤ d.time) := by
  unfold Dev.dueSince
  cases h : Tab.find d.commitDue u with
  | some x => simp
  | none => by_cases hd : (d.wearOf u).ctime + 10000000 * usTime ≤ d.time <;> simp [hd, eq_comm]

theorem execRecordCommit_due {s : State} {n t : Nat} (ht : s.dev.dueSince n = some t)
    (hd : n < unitCount ∧ (s.dev.budgetLeft 3 0 1 = true ∨ t + 10000000 * usTime ≤ s.dev.time)) :
    exec (.recordCommit n) s = .next { s with dev := (s.dev.commitUnit n).spend 3 0 1 } := by
  simp only [exec_recordCommit, execRecordCommit, ht, if_pos hd]

theorem execRecordCommit_notDue {s : State} {n : Nat}
    (hd : ∀ t, s.dev.dueSince n = some t → ¬ (n < unitCount ∧ (s.dev.budgetLeft 3 0 1 = true ∨ t + 10000000 * usTime ≤ s.dev.time))) :
    NotDue s (.recordCommit n) := by
  unfold NotDue
  cases ht : s.dev.dueSince n with
  | none => simp only [exec_recordCommit, execRecordCommit, ht]
  | some t => simp only [exec_recordCommit, execRecordCommit, ht, if_neg (hd t ht)]

theorem Dev.wearOf_commitUnit (d : Dev) (u k : Nat) : (d.commitUnit u).wearOf k =
    if k = u then { d.wearOf u with ctime := d.time, cseq := (d.wearOf u).cseq + 1 } else d.wearOf k :=
  Dev.wearOf_modWear d u k (fun _ => { d.wearOf u with ctime := d.time, cseq := (d.wearOf u).cseq + 1 })

theorem Dev.find_wearMram_commitUnit (d : Dev) (u : Nat) : Tab.find (d.commitUnit u).wearMram u =
    some (((Tab.find d.wearMram u).map Prod.snd).getD (wearInit u), { d.wearOf u with ctime := d.time, cseq := (d.wearOf u).cseq + 1 }) := by
  simp [Dev.commitUnit, Tab.find_insert]

theorem Dev.find_commitDue_commitUnit (d : Dev) (u : Nat) : Tab.find (d.commitUnit u).commitDue u = none := by
  simp [Dev.commitUnit, Tab.find_erase]

/-! ## Samples (R350, R351) -/

/-- A measured rate lies within 2^-13 of the rate (log entry 20). -/
theorem measured_bounds (r : Nat) (x : W64) :
    r * (2 ^ 32 - 2 ^ 19) / 2 ^ 32 ≤ measured r x ∧ measured r x ≤ r * (2 ^ 32 + 2 ^ 19) / 2 ^ 32 := by
  have hx : x.toNat % 2 ^ 20 < 2 ^ 20 := Nat.mod_lt _ (by norm_num)
  unfold measured
  constructor <;> refine Nat.div_le_div_right (Nat.mul_le_mul_left r ?_) <;> omega

theorem Dev.wearOf_stressUnit {d : Dev} {x : UnitSample} (hx : x.unit < unitCount) (hs : (d.wearOf x.unit).st = 0 ∨ (d.wearOf x.unit).st = 4) :
    (d.stressUnit x).wearOf x.unit = (d.wearOf x.unit).stress x (d.switching x) (d.voltage x)
      (Config.freeWord d.fresh) (Config.freeWord (d.fresh + 1)) (Config.freeWord (d.fresh + 2)) := by
  have h : ¬ (unitCount ≤ x.unit ∨ ((d.wearOf x.unit).st ≠ 0 ∧ (d.wearOf x.unit).st ≠ 4)) := by omega
  unfold Dev.stressUnit
  rw [if_neg h]
  exact Dev.wearOf_modWear_same d x.unit (fun w => w.stress x (d.switching x) (d.voltage x)
    (Config.freeWord d.fresh) (Config.freeWord (d.fresh + 1)) (Config.freeWord (d.fresh + 2)))

/-! ## Call-ups (R12, R363) -/

/-- A stage of a call-up under way: the records of both pairs fall due, and the stage stands. -/
theorem Dev.callStage_eq {d : Dev} {n old slot k : Nat} (j : Nat) (h : (d.die n).callup = some (old, slot, k)) :
    d.callStage n j = { d.markDue (d.withSpares (slotClusters n slot) (pairUnits n old)) with
      dies := Tab.insert d.dies n { d.die n with callup := some (old, slot, j) } } := by
  have hm : ∀ us, (d.markDue us).die n = d.die n := fun _ => rfl
  unfold Dev.callStage Dev.modDie
  simp only [h, hm, Option.map_some]
  rfl

theorem execCallupSave_due {s : State} {n old slot k : Nat} (h : (s.dev.die n).callup = some (old, slot, k)) (hk : k = 2 ∨ k = 4) :
    let held := (slotClusters n slot).filter (fun c => s.dev.holdsWork c)
    let cs := (s.dev.saveClosure 32 held).filter (fun c => !(s.dev.cluster c).clearing)
    exec (.callupSave n) s = .next { s with dev := (s.dev.callStage n (k + 1)).beginSave cs } := by
  rcases hk with rfl | rfl <;> simp only [exec_callupSave, execCallupSave, h] <;> rfl

theorem Dev.dies_markClock (d : Dev) (c : Nat) : (d.markClock c).dies = d.dies := by
  unfold Dev.markClock; split_ifs <;> rfl

theorem Dev.dies_foldl_clocks (cs : List Nat) (f : Cluster → Cluster) (d : Dev) :
    (cs.foldl (fun d c => (d.markClock c).modCluster c f) d).dies = d.dies :=
  List.foldlRecOn cs _ (motive := fun e : Dev => e.dies = d.dies) rfl (fun _ h c _ => (Dev.dies_markClock _ c).trans h)

theorem execCallupMapUpdate_notDue {s : State} {n old slot k : Nat} (h : (s.dev.die n).callup = some (old, slot, k))
    (hw : (k ≠ 3 ∧ k ≠ 5) ∨ s.dev.slotEmpty n slot = false) : NotDue s (.callupMapUpdate n) := by
  have hc : (k ≠ 3 ∧ k ≠ 5) ∨ (!s.dev.slotEmpty n slot) = true := by simpa using hw
  simp only [NotDue, exec_callupMapUpdate, execCallupMapUpdate, h, if_pos hc]

/-- With the slot empty the call-up is over, whether a pair takes the slot or none does. -/
theorem execCallupMapUpdate_due {s : State} {n old slot k : Nat} (h : (s.dev.die n).callup = some (old, slot, k))
    (hk : k = 3 ∨ k = 5) (he : s.dev.slotEmpty n slot = true) :
    ∃ u, exec (.callupMapUpdate n) s = .next u ∧ u.iss = s.iss ∧ (u.dev.die n).callup = none := by
  have hc : ¬ ((k ≠ 3 ∧ k ≠ 5) ∨ (!s.dev.slotEmpty n slot) = true) := by rw [he]; simp; omega
  simp only [exec_callupMapUpdate, execCallupMapUpdate, h, if_neg hc]
  refine ⟨_, rfl, rfl, ?_⟩
  change (Tab.get Die.reset (Dev.dies _) n).callup = none
  dsimp only [Dev.failLost, Dev.reportCores]
  split
  next => simp [Tab.get_insert]
  next => rw [Dev.dies_foldl_clocks]; simp [Tab.get_insert]

/-! ## Fallow (R354, R382) -/

theorem execFallowEntry_due {s : State} {n : Nat} (hi : s.dev.idleCluster n = true) (hb : s.dev.budgetLeft 5 (dieOfCluster n) 1 = true)
    (hl : ∀ c ∈ ((List.range 8).map (fun i => 8 * dieOfCluster n + i)).filter s.dev.idleCluster, s.dev.largestPool c ≤ s.dev.largestPool n) :
    Makes s (.fallowEntry n) ((s.dev.modCluster n (fun k => { k with gating := some (s.dev.time + usTime) })).spend 5 (dieOfCluster n) 1) := by
  unfold Makes
  rw [exec_fallowEntry, execFallowEntry, if_neg]
  simpa [hi, hb] using hl

theorem execFallowEntry_notDue {s : State} {n : Nat} (h : ¬ (s.dev.idleCluster n = true ∧ s.dev.budgetLeft 5 (dieOfCluster n) 1 = true
    ∧ ∀ c ∈ ((List.range 8).map (fun i => 8 * dieOfCluster n + i)).filter s.dev.idleCluster, s.dev.largestPool c ≤ s.dev.largestPool n)) :
    NotDue s (.fallowEntry n) := by
  unfold NotDue
  rw [exec_fallowEntry, execFallowEntry, if_pos]
  by_contra hc
  exact h (by simpa [not_or] using hc)

/-- The state that units of a gated cluster take: reverse-biased where the target's policy says so (R353, R354). -/
def Dev.fallowState (d : Dev) : Nat := if d.target.any (fun t => bit (t.words.getD 0 0).toNat 3) then 2 else 1

/-- One more fallow counted in a record. -/
def Wear.countFallow (w : Wear) : Wear := { w with fcount := min (w.fcount + 1) (2 ^ 32 - 1) }

/-- Units gated: their state, and one more fallow counted. -/
def Dev.gateUnits (d : Dev) (us : List Nat) (st : Nat) : Dev :=
  us.foldl (fun d u => d.modWear u Wear.countFallow) (d.setStates us st)

theorem Dev.st_gateUnits {d : Dev} {us : List Nat} {v : Nat} (st : Nat) (h : v ∈ us) : ((d.gateUnits us st).wearOf v).st = st := by
  rw [Dev.gateUnits, Dev.st_foldl_modWear us Wear.countFallow (fun _ => rfl), Dev.wearOf_setStates, if_pos h]

theorem Dev.wearOf_gateUnits_of_not_mem {d : Dev} {us : List Nat} {v : Nat} (st : Nat) (h : v ∉ us) :
    (d.gateUnits us st).wearOf v = d.wearOf v := by
  rw [Dev.gateUnits, Dev.wearOf_foldl_modWear_of_not_mem us (fun _ => Wear.countFallow) _ _ h, Dev.wearOf_setStates, if_neg h]

theorem Dev.cluster_gateUnits (d : Dev) (us : List Nat) (st c : Nat) : (d.gateUnits us st).cluster c = d.cluster c :=
  (congrArg (fun t => Tab.get Cluster.reset t c) (Dev.clusters_foldl_modWear us (fun _ => Wear.countFallow) _)).trans
    (Dev.cluster_setStates d us st c)

/-- At the end of the commit window the cluster is in fallow, and its pair keeps neither balance filler nor throttle (R371). -/
theorem execGatingCommitWindowEnd_due {s : State} {n z : Nat} (hg : (s.dev.cluster n).gating = some z) (hz : z ≤ s.dev.time) :
    exec (.gatingCommitWindowEnd n) s = .next { s with
      dev := ((s.dev.gateUnits (s.dev.unitsOfCluster n) s.dev.fallowState).modCluster (stackedWith n) (fun k => { k with filler := 0, halfRate := false })).modCluster n
        (fun k => { k with gating := none, fallow := s.dev.fallowState, idleSince := s.dev.time, filler := 0, halfRate := false }) } := by
  rw [exec_gatingCommitWindowEnd, execGatingCommitWindowEnd, Dev.fallowState]
  simp only [hg, if_neg (Nat.not_lt.2 hz)]
  cases s.dev.target <;> rfl

theorem stackedWith_ne (n : Nat) : stackedWith n ≠ n := by
  unfold stackedWith; split_ifs <;> omega

theorem execFallowWake_due {s : State} {n : Nat} (hw : (s.dev.cluster n).waking = true) (hf : (s.dev.cluster n).fallow ≠ 0) :
    Makes s (.fallowWake n) ((s.dev.setStates (s.dev.unitsOfCluster n) 0).modCluster n
      (fun k => { k with fallow := 0, waking := false, woke := some s.dev.time, idleSince := s.dev.time, filler := 1 })) := by
  simp [Makes, execFallowWake, hw, hf]

/-- Settles O52: the steps of the life budget change what R350 to R363 and R382 say, each by its own cases. -/
theorem lifeSteps : Obligations.LifeSteps := by
  intro s n watts inputs pass
  refine ⟨⟨?_, ?_⟩, ?_, ?_, ⟨?_, ?_⟩, ?_, ⟨?_, ?_, ?_, ?_, ?_, ?_⟩, ⟨?_, ?_, ?_, ?_, ?_, ?_, ?_⟩⟩
  · rintro ⟨hn, t, ht, hb⟩
    refine ⟨_, _, execRecordCommit_due (Dev.dueSince_eq_some.2 ht) ⟨hn, hb⟩, rfl, ?_, Dev.find_wearMram_commitUnit s.dev n, ?_,
      Dev.find_commitDue_commitUnit s.dev n, ?_⟩
    · exact (Dev.wearOf_commitUnit s.dev n n).trans (if_pos rfl)
    · intro a b hab; simp [hab]
    · exact fun k hk => (Dev.wearOf_commitUnit s.dev n k).trans (if_neg hk)
  · exact fun hd => execRecordCommit_notDue fun t ht hb => hd ⟨hb.1, t, Dev.dueSince_eq_some.1 ht, hb.2⟩
  · intro hg; simp [NotDue, execBoostGrantEnd, hg]
  · intro g c hg hc
    refine ⟨fun ht => ?_, fun ht => ?_⟩
    · simp [NotDue, execBoostGrantEnd, hg, hc, ht]
    · simp [Makes, execBoostGrantEnd, hg, hc, Nat.not_lt.2 ht]
  · exact fun ht => if_pos ht
  · exact fun ht => if_neg (Nat.not_lt.2 ht)
  · intro x hx hs
    have hw := Dev.wearOf_stressUnit hx hs
    refine ⟨_, _, _, ?_, congrArg Wear.bti hw, congrArg Wear.hci hw, congrArg Wear.em hw, ?_, congrArg Wear.drift hw⟩
    · simp only [List.forall_mem_cons]
      exact ⟨measured_bounds _ _, measured_bounds _ _, measured_bounds _ _, by simp⟩
    · simp only [hw]; rfl
  · intro hc
    simp [NotDue, execCallupPowerupDone, execCallupSelftestDone, execCallupSave, execCallupMapUpdate, hc]
  · intro old slot hc
    have hstage := Dev.callStage_eq 1 hc
    simp only [Makes, exec_callupPowerupDone, execCallupPowerupDone, hc, State.modDev, hstage]
  · intro old slot p hc hp
    have hstage := Dev.callStage_eq 2 hc
    constructor
    · simp only [Makes, exec_callupSelftestDone, execCallupSelftestDone, hc, hp, State.modDev, if_true, hstage]
    · simp [Makes, execCallupSelftestDone, hc, hp, State.modDev]
  · intro old slot k hc hk
    have hstage := Dev.callStage_eq (k + 1) hc
    exact (execCallupSave_due hc hk).trans (by rw [hstage])
  · exact fun old slot k hc hw => execCallupMapUpdate_notDue hc hw
  · exact fun old slot k hc hk he => execCallupMapUpdate_due hc hk he
  · exact fun ⟨hi, hb, hl⟩ => execFallowEntry_due hi hb hl
  · exact fun hd => execFallowEntry_notDue hd
  · intro hg; simp only [NotDue, exec_gatingCommitWindowEnd, execGatingCommitWindowEnd, hg]
  · intro z hg hz; simp only [NotDue, exec_gatingCommitWindowEnd, execGatingCommitWindowEnd, hg, if_pos hz]
  · intro z hg hz
    refine ⟨_, execGatingCommitWindowEnd_due hg hz, rfl, ?_, ?_, fun v hv => Dev.st_gateUnits _ hv, fun v hv => Dev.wearOf_gateUnits_of_not_mem _ hv⟩
    · rw [Dev.cluster_modCluster_same, Dev.cluster_modCluster, if_neg (stackedWith_ne n).symm, Dev.cluster_gateUnits]; rfl
    · change Dev.cluster _ (stackedWith n) = _
      rw [Dev.cluster_modCluster, if_neg (stackedWith_ne n), Dev.cluster_modCluster_same, Dev.cluster_gateUnits]; rfl
  · intro hw
    have hc : (!(s.dev.cluster n).waking) = true ∨ (s.dev.cluster n).fallow = 0 := by simpa using hw
    exact if_pos hc
  · intro hw hf
    refine ⟨_, execFallowWake_due hw hf, rfl, fun v hv => ?_, ?_⟩
    · exact congrArg Wear.st ((Dev.wearOf_setStates s.dev _ 0 v).trans (if_pos hv))
    · rw [Dev.cluster_modCluster_same, Dev.cluster_setStates]

end Sys2Proof.Machine
end

section
/-! SUPPORT. The clearing of a core for a new world (R383, R391): what dropping its L1's lines leaves as it was, and what the cores of expelled worlds keep. -/

namespace Sys2Proof.Machine

open Sys2Proof.Claims

/-! ## Movements of lines (R151, R401) -/

/-- What decoding and moving lines never touches. -/
structure LineMoved (d e : Dev) : Prop where
  groups : e.groups = d.groups
  tasks : e.tasks = d.tasks
  gangs : e.gangs = d.gangs
  cores : e.cores = d.cores
  hbm : e.hbm = d.hbm
  cxl : e.cxl = d.cxl
  kmem : e.kmem = d.kmem
  expelled : e.expelled = d.expelled

theorem LineMoved.refl (d : Dev) : LineMoved d d := ⟨rfl, rfl, rfl, rfl, rfl, rfl, rfl, rfl⟩

theorem LineMoved.trans {d e f : Dev} (h : LineMoved d e) (k : LineMoved e f) : LineMoved d f :=
  ⟨k.groups.trans h.groups, k.tasks.trans h.tasks, k.gangs.trans h.gangs, k.cores.trans h.cores, k.hbm.trans h.hbm, k.cxl.trans h.cxl,
    k.kmem.trans h.kmem, k.expelled.trans h.expelled⟩

theorem LineMoved.foldl {α : Type} {f : Dev → α → Dev} (hf : ∀ d x, LineMoved d (f d x)) (l : List α) (d : Dev) : LineMoved d (l.foldl f d) :=
  List.foldlRecOn l f (motive := LineMoved d) (LineMoved.refl d) (fun e h x _ => h.trans (hf e x))

theorem lineMoved_decodeRaw (d : Dev) (moved : Bool) (r : Raw) : LineMoved d (d.decodeRaw moved r) := by
  unfold Dev.decodeRaw; split_ifs <;> exact ⟨rfl, rfl, rfl, rfl, rfl, rfl, rfl, rfl⟩

theorem lineMoved_moveRaw (d : Dev) (array inst line : Nat) : LineMoved d (d.moveRaw array inst line) := by
  unfold Dev.moveRaw
  extract_lets mine ls d1 d2
  split_ifs
  · exact LineMoved.refl d
  · refine (LineMoved.foldl (fun e r => lineMoved_decodeRaw e true r) (ls.filter (fun r => r.bad || r.pending)) d).trans ?_
    change LineMoved d1 _
    unfold d2
    split_ifs <;> exact ⟨rfl, rfl, rfl, rfl, rfl, rfl, rfl, rfl⟩

theorem lineMoved_l2Put (d : Dev) (line : Nat) (recent : Bool) : LineMoved d (d.l2Put line recent) := by
  unfold Dev.l2Put
  split_ifs
  · exact LineMoved.refl d
  · refine LineMoved.trans ?_ (LineMoved.foldl (fun e v => lineMoved_moveRaw e 6 0 v) _ _)
    exact ⟨rfl, rfl, rfl, rfl, rfl, rfl, rfl, rfl⟩

theorem sameMemory_of_stores {d e : Dev} (hh : e.hbm = d.hbm) (hc : e.cxl = d.cxl) (hk : e.kmem = d.kmem) (ht : e.tasks = d.tasks)
    (hg : e.gangs = d.gangs) : SameMemory d e := by
  intro l; simp only [Dev.readByte, Dev.task?, hh, hc, hk, ht, hg]

/-! ## Lines dropped from an L1 (R151, R193) -/

/-- What a core's lines leave as it was when they leave its L1: with no partials held, all memory too. -/
structure LinesDropped (c : Nat) (d e : Dev) : Prop where
  groups : e.groups = d.groups
  expelled : e.expelled = d.expelled
  preq : (e.core c).preq = (d.core c).preq
  herr : (e.core c).herr = (d.core c).herr
  memory : noPartials d → SameMemory d e ∧ noPartials e

theorem LinesDropped.refl (c : Nat) (d : Dev) : LinesDropped c d d := ⟨rfl, rfl, rfl, rfl, fun h => ⟨fun _ => rfl, h⟩⟩

theorem LinesDropped.trans {c : Nat} {d e f : Dev} (h : LinesDropped c d e) (k : LinesDropped c e f) : LinesDropped c d f where
  groups := k.groups.trans h.groups
  expelled := k.expelled.trans h.expelled
  preq := k.preq.trans h.preq
  herr := k.herr.trans h.herr
  memory hd :=
    have ⟨hm, he⟩ := h.memory hd
    have ⟨km, kf⟩ := k.memory he
    ⟨fun l => (km l).trans (hm l), kf⟩

theorem LineMoved.linesDropped {d e : Dev} (h : LineMoved d e) (c : Nat) : LinesDropped c d e :=
  have hc : ∀ k, e.core k = d.core k := fun k => congrArg (fun t => Tab.get Core.reset t k) h.cores
  { groups := h.groups
    expelled := h.expelled
    preq := by rw [hc]
    herr := by rw [hc]
    memory := fun hd => ⟨sameMemory_of_stores h.hbm h.cxl h.kmem h.tasks h.gangs, fun k => by rw [hc, hd]⟩ }

/-- A change of a core that keeps its requests and HERR and brings no partials. -/
theorem linesDropped_modCore (d : Dev) (c : Nat) (f : Core → Core) (hp : ∀ k, (f k).preq = k.preq) (hh : ∀ k, (f k).herr = k.herr)
    (hu : ∀ k, k.upart = [] → (f k).upart = []) : LinesDropped c d (d.modCore c f) where
  groups := rfl
  expelled := rfl
  preq := by rw [Dev.core_modCore_same, hp]
  herr := by rw [Dev.core_modCore_same, hh]
  memory hd := ⟨fun _ => rfl, fun k => by
    rw [Dev.core_modCore]; split_ifs
    · exact hu _ (hd c)
    · exact hd k⟩

/-- A write to HBM changes HBM only. -/
theorem Dev.writeBytes_hbm (bs : List Byte) (d : Dev) (l : Loc) (h : l.sp = .hbm) : ∃ m, d.writeBytes l bs = { d with hbm := m } := by
  induction bs generalizing d l with
  | nil => exact ⟨d.hbm, rfl⟩
  | cons b bs ih =>
    obtain ⟨m, hm⟩ := ih (d.writeByte l b) (l.plus 1) h
    refine ⟨m, hm.trans ?_⟩
    simp only [Dev.writeByte, h]

/-- A partial applied at its home (R194). -/
def Dev.writePartial (d : Dev) (p : Nat × Nat × W32) : Dev :=
  d.writeHbmWord (4 * p.1) (atomApply p.2.1 (BitVec.ofNat 32 (d.readNat (hbmAt (4 * p.1)) 4)) p.2.2)

theorem Dev.foldl_writePartial_hbm (d : Dev) (l : List (Nat × Nat × W32)) : ∃ m, l.foldl Dev.writePartial d = { d with hbm := m } := by
  refine List.foldlRecOn l _ (motive := fun e : Dev => ∃ m, e = { d with hbm := m }) ⟨d.hbm, rfl⟩ ?_
  rintro e ⟨m, rfl⟩ p -
  exact Dev.writeBytes_hbm _ _ (hbmAt (4 * p.1)) rfl

/-- Partials written at their home: memory changes only where there are some. -/
theorem linesDropped_writes (d : Dev) (c : Nat) (l : List (Nat × Nat × W32)) (hl : noPartials d → l = []) :
    LinesDropped c d (l.foldl Dev.writePartial d) := by
  have hmem : noPartials d → SameMemory d (l.foldl Dev.writePartial d) ∧ noPartials (l.foldl Dev.writePartial d) := fun hd => by
    rw [hl hd]; exact ⟨fun _ => rfl, hd⟩
  obtain ⟨m, hm⟩ := d.foldl_writePartial_hbm l
  rw [hm] at hmem ⊢
  exact ⟨rfl, rfl, rfl, rfl, hmem⟩

theorem linesDropped_combineCore (d : Dev) (c line : Nat) : LinesDropped c d (d.combineCore c line) := by
  unfold Dev.combineCore
  refine (linesDropped_writes d c ((d.core c).upart.filter (fun p => p.1 / 32 = line)) (fun hd => by rw [hd c]; rfl)).trans ?_
  exact linesDropped_modCore _ c _ (fun _ => rfl) (fun _ => rfl) (fun k hk => by simp [hk])

theorem linesDropped_l1Drop (d : Dev) (c line : Nat) : LinesDropped c d (d.l1Drop c line) := by
  unfold Dev.l1Drop
  cases Tab.find (d.core c).l1 line with
  | none => exact LinesDropped.refl c d
  | some x =>
    have h0 := (lineMoved_moveRaw d 1 c line).linesDropped c
    refine LinesDropped.trans ?_ (linesDropped_modCore _ c _ (fun _ => rfl) (fun _ => rfl) (fun _ hk => hk))
    split_ifs
    · exact h0.trans (linesDropped_combineCore _ c line)
    · exact h0.trans ((lineMoved_l2Put _ line true).linesDropped c)
    · exact h0

theorem linesDropped_foldl (ls : List Nat) (d : Dev) (c : Nat) : LinesDropped c d (ls.foldl (fun d l => d.l1Drop c l) d) :=
  List.foldlRecOn ls _ (motive := LinesDropped c d) (LinesDropped.refl c d) (fun e h l _ => h.trans (linesDropped_l1Drop e c l))

/-! ## Cores of expelled worlds (R391) -/

/-- The cores of expelled worlds begin to be cleared: nothing but cores changes, and of a core neither its world nor its lines; a core of a world that
is not expelled stays as it is. -/
structure CoresLeft (d e : Dev) : Prop where
  dev : ∃ cs, e = { d with cores := cs }
  world : ∀ c, (e.core c).world = (d.core c).world
  l1 : ∀ c, (e.core c).l1 = (d.core c).l1
  kept : ∀ c, d.expelled.contains (d.core c).world = false → e.core c = d.core c

theorem CoresLeft.refl (d : Dev) : CoresLeft d d := ⟨⟨d.cores, rfl⟩, fun _ => rfl, fun _ => rfl, fun _ _ => rfl⟩

theorem CoresLeft.modCore {d e : Dev} (h : CoresLeft d e) {c : Nat} {f : Core → Core} (hx : e.expelled.contains (e.core c).world = true)
    (hw : ∀ k, (f k).world = k.world) (hl : ∀ k, (f k).l1 = k.l1) : CoresLeft d (e.modCore c f) where
  dev := by obtain ⟨cs, rfl⟩ := h.dev; exact ⟨_, rfl⟩
  world k := by
    rw [Dev.core_modCore]; split_ifs with hk
    · rw [hw, hk, h.world]
    · exact h.world k
  l1 k := by
    rw [Dev.core_modCore]; split_ifs with hk
    · rw [hl, hk, h.l1]
    · exact h.l1 k
  kept k hn := by
    have hne : k ≠ c := by
      rintro rfl
      have he : e.expelled = d.expelled := by obtain ⟨cs, rfl⟩ := h.dev; rfl
      rw [he, h.world, hn] at hx
      exact absurd hx (by simp)
    rw [Dev.core_modCore, if_neg hne, h.kept k hn]

theorem coresLeft_expelCores (d : Dev) : CoresLeft d d.expelCores := by
  unfold Dev.expelCores
  split_ifs
  · exact CoresLeft.refl d
  · refine List.foldlRecOn _ _ (motive := CoresLeft d) (CoresLeft.refl d) (fun e h c _ => ?_)
    dsimp only
    split_ifs with hc
    · have hr := h.modCore (f := fun k => { k with clearing := some 0 }) hc.1 (fun _ => rfl) (fun _ => rfl)
      refine hr.modCore ?_ (fun _ => rfl) (fun _ => rfl)
      rw [Dev.core_modCore_same]; exact hc.1
    · exact h

theorem CoresLeft.groups {d e : Dev} (h : CoresLeft d e) : e.groups = d.groups := by
  obtain ⟨cs, rfl⟩ := h.dev; rfl

theorem CoresLeft.sameMemory {d e : Dev} (h : CoresLeft d e) : SameMemory d e := by
  obtain ⟨cs, rfl⟩ := h.dev; exact fun _ => rfl

/-! ## The new world shows (R383) -/

theorem Dev.find_wakeTask (d : Dev) (p : Group → Bool) (q : Park → Bool) (g : Nat) (h : Tab.find d.groups g = none) :
    Tab.find (d.wakeTask p q).groups g = none := by
  unfold Dev.wakeTask Dev.mapGroups
  rw [Tab.find_mapV, h]; rfl

/-- A core's new world shows: the core is clear but for its requests and HERR, its groups are gone, and splits that wait for the latch go on. -/
def Dev.showWorld (d : Dev) (core w : Nat) : Dev :=
  let d2 := d.modCore core (fun k => { Core.reset with world := w, preq := k.preq, herr := k.herr })
  ({ d2 with groups := Tab.keep d2.groups (fun g _ => decide (g / 64 ≠ core)) } : Dev).wakeTask (fun _ => true) (fun p => decide (p = .latch core))

theorem Dev.core_showWorld (d : Dev) (core w : Nat) :
    (d.showWorld core w).core core = { Core.reset with world := w, preq := (d.core core).preq, herr := (d.core core).herr } :=
  Dev.core_modCore_same d core (fun k => { Core.reset with world := w, preq := k.preq, herr := k.herr })

theorem Dev.find_showWorld (d : Dev) (core w g : Nat) (h : g / 64 = core) : Tab.find (d.showWorld core w).groups g = none := by
  refine Dev.find_wakeTask _ _ _ g ?_
  exact (Tab.find_keep_keys d.groups (fun g => decide (g / 64 ≠ core)) g).trans (if_neg (by simpa using h))

/-- A core cleared for a world: no group, line or partial is left, its requests and HERR stay. -/
theorem execWorldLatchClearDone_clearing {s : State} {core w : Nat} (hc : (s.dev.core core).clearing = some w) :
    ∃ u, exec (.worldLatchClearDone core) s = .next u ∧ u.iss = s.iss
      ∧ (s.dev.expelled.contains w = false →
          u.dev.core core = { Core.reset with world := w, preq := (s.dev.core core).preq, herr := (s.dev.core core).herr })
      ∧ (u.dev.core core).world = w ∧ (u.dev.core core).l1 = []
      ∧ (∀ g, g / 64 = core → Tab.find u.dev.groups g = none) ∧ (noPartials s.dev → SameMemory s.dev u.dev) := by
  have hd := linesDropped_foldl ((s.dev.core core).l1.map Prod.fst) s.dev core
  have he : exec (.worldLatchClearDone core) s = .next { s with
      dev := ((((s.dev.core core).l1.map Prod.fst).foldl (fun d l => d.l1Drop core l) s.dev).showWorld core w).expelCores } := by
    simp only [exec_worldLatchClearDone, execWorldLatchClearDone, hc]; rfl
  generalize ((s.dev.core core).l1.map Prod.fst).foldl (fun d l => d.l1Drop core l) s.dev = d1 at hd he
  have hx := coresLeft_expelCores (d1.showWorld core w)
  have hcore := d1.core_showWorld core w
  refine ⟨_, he, rfl, fun hw => ?_, ?_, ?_, fun g hg => ?_, fun hn => ?_⟩
  · have hk : (d1.showWorld core w).expelled.contains ((d1.showWorld core w).core core).world = false := by
      rw [hcore]; exact (congrArg (·.contains w) hd.expelled).trans hw
    rw [hx.kept core hk, hcore, hd.preq, hd.herr]
  · rw [hx.world, hcore]
  · rw [hx.l1, hcore]; rfl
  · rw [hx.groups]; exact d1.find_showWorld core w g hg
  · exact fun l => (hx.sameMemory l).trans ((hd.memory hn).1 l)

end Sys2Proof.Machine
end

section
/-! SUPPORT. Context steps (R326, R330, R338 to R347): activations of the handler, saves, and probes of waits. -/

namespace Sys2Proof.Machine

open Sys2Proof.Claims

/-! ## Activations (R326, R330) -/

/-- A group held by its workgroup's trap, from now on if not already (R330). -/
def Group.hold (g : Group) (now : Nat) : Group := if g.held then g else { g with held := true, heldAt := now, probed := false }

/-- A core's handler serves the trap at the head of its waiting ones: every group of its workgroup there is held, and the handler's group starts. -/
def Dev.serveTrap (d : Dev) (core : Nat) (r : TrapRec) (l : List TrapRec) : Dev :=
  let k := d.core core
  let now := d.now (clusterOf core)
  { d with
    cores := Tab.insert d.cores core { k with waiting := l, serving := some ((d.group core r.slot).task, r) }
    groups := Tab.insert (Tab.mapV d.groups (fun g h =>
        if g / 64 = core ∧ g % 64 ≠ handlerSlot ∧ h.task = (d.group core r.slot).task then h.hold now else h))
      (gkey core handlerSlot) (handlerGroup (d.group core handlerSlot) (Tab.get 0 d.handlers k.world) now) }

theorem gkey_handlerSlot_mod (core : Nat) : gkey core handlerSlot % 64 = handlerSlot := by
  unfold gkey handlerSlot; omega

/-- Holding the other groups leaves the handler's group as it is. -/
theorem get_handler_mapV_others (d : Dev) (core : Nat) (p : Nat → Group → Prop) [∀ g h, Decidable (p g h)] (f : Group → Group) :
    Tab.get Group.empty (Tab.mapV d.groups (fun g h => if g / 64 = core ∧ g % 64 ≠ handlerSlot ∧ p g h then f h else h)) (gkey core handlerSlot)
      = d.group core handlerSlot := by
  unfold Tab.get
  rw [Tab.find_mapV]
  simp only [gkey_handlerSlot_mod, ne_eq, not_true_eq_false, false_and, and_false, if_false, Option.map_id']
  rfl

theorem execHandlerActivation_serves {s : State} {core : Nat} {r : TrapRec} {l : List TrapRec} (hs : (s.dev.core core).serving = none)
    (hw : (s.dev.core core).waiting = r :: l) (hf : s.dev.inFlight core r.slot = false) :
    let entry := Tab.get 0 s.dev.handlers (s.dev.core core).world
    let d := s.dev.serveTrap core r l
    exec (.handlerActivation core) s = .next { s with dev := if entry = 0 ∨ entry % 12 ≠ 0 then d.handlerFault core else d } := by
  have hg := get_handler_mapV_others s.dev core (fun _ h => h.task = (s.dev.group core r.slot).task) (fun h => h.hold (s.dev.now (clusterOf core)))
  simp only [exec_handlerActivation, execHandlerActivation, hs, hw, hf, Bool.false_eq_true, if_false]
  unfold Dev.serveTrap
  rw [← hg]
  rfl

theorem execHandlerActivation_busy {s : State} {core : Nat} (h : (s.dev.core core).serving ≠ none ∨ (s.dev.core core).waiting = []) :
    NotDue s (.handlerActivation core) := by
  unfold NotDue
  rw [exec_handlerActivation, execHandlerActivation]
  dsimp only
  split
  next hs hw => simp [hs, hw] at h
  next => rfl

theorem execHandlerActivation_inFlight {s : State} {core : Nat} {r : TrapRec} {l : List TrapRec} (hs : (s.dev.core core).serving = none)
    (hw : (s.dev.core core).waiting = r :: l) (hf : s.dev.inFlight core r.slot = true) : NotDue s (.handlerActivation core) := by
  simp only [NotDue, exec_handlerActivation, execHandlerActivation, hs, hw, hf, if_true]

theorem Dev.find_serveTrap (d : Dev) (core : Nat) (r : TrapRec) (l : List TrapRec) {g : Nat} {h : Group} (hg : g ≠ gkey core handlerSlot)
    (hm : g % 64 ≠ handlerSlot) (hf : Tab.find d.groups g = some h) : Tab.find (d.serveTrap core r l).groups g =
      some (if g / 64 = core ∧ h.task = (d.group core r.slot).task then h.hold (d.now (clusterOf core)) else h) := by
  refine (Tab.find_insert ..).trans ?_
  rw [if_neg hg, Tab.find_mapV, hf]
  simp [hm]

/-! ## Probes of waits (R343) -/

theorem Dev.probeDue_iff (d : Dev) (core slot since : Nat) (probed : Bool) : d.probeDue core slot since probed = true ↔
    probed = false ∧ d.param 0 ≤ d.lasted core since ∧ ∀ p ∈ d.probes, p.2.sender ≠ (core, slot) := by
  simp [Dev.probeDue, and_assoc]

/-- A split marked as having sent its probe. -/
def Dev.markSplit (d : Dev) (core slot split : Nat) : Dev :=
  d.modGroup core slot (fun g => { g with splits := modSplit g.splits split (fun y => { y with probed := true }) })

theorem Dev.hasGroup_of_split {d : Dev} {core slot split : Nat} {x : Split} (h : d.split? core slot split = some x) : d.hasGroup core slot = true := by
  unfold Dev.hasGroup
  cases hf : Tab.find d.groups (gkey core slot) with
  | some g => rfl
  | none =>
    have he : d.group core slot = Group.empty := by simp [Dev.group, Tab.get, hf]
    have hx : ∀ i, Group.empty.splits.getD i none = none := fun i => by
      match i with
      | 0 | 1 | 2 | 3 => rfl
      | i + 4 => rfl
    rw [Dev.split?, he, hx] at h
    exact absurd h (by simp)

theorem Dev.split?_markSplit {d : Dev} {core slot split : Nat} {x : Split} (h : d.split? core slot split = some x) :
    (d.markSplit core slot split).split? core slot split = some { x with probed := true } := by
  have hl : split < (d.group core slot).splits.length := by
    by_contra hn
    rw [Dev.split?, List.getD_eq_default _ _ (Nat.not_lt.1 hn)] at h
    exact absurd h (by simp)
  rw [Dev.split?] at h
  rw [Dev.split?, Dev.markSplit, Dev.group_modGroup _ _ _ _ (Dev.hasGroup_of_split h)]
  simp only [modSplit]
  rw [getD_setAt_same _ _ _ _ hl, h]
  rfl

theorem execWaitProbe_split {s : State} {core slot split : Nat} {x : Split} (hlt : split < 4) (hx : s.dev.split? core slot split = some x) :
    exec (.waitProbe core slot split) s = if x.waitKind ≠ 0 ∧ s.dev.probeDue core slot x.since x.probed = true then
      .next { s with dev := (s.dev.markSplit core slot split).sendProbe core slot split } else .next s := by
  rw [exec_waitProbe, execWaitProbe, if_neg (by omega), if_neg (by omega), if_neg (by omega)]
  simp only [hx]
  rfl

theorem execWaitProbe_arbiter {s : State} {core slot : Nat} {e : MxEntry} (he : s.dev.arbiterWait core slot = some e) :
    exec (.waitProbe core slot 4) s = if s.dev.probeDue core slot (e.reqAt.getD 0) e.probed = true then
      .next { s with dev := (s.dev.modEntry core e.id (fun x => { x with probed := true })).sendProbe core slot 4 } else .next s := by
  rw [exec_waitProbe, execWaitProbe, if_pos rfl]
  simp only [he]
  rfl

theorem execWaitProbe_hold {s : State} {core slot c : Nat} (hc : (s.dev.group core slot).holdSince = some c) :
    exec (.waitProbe core slot 5) s = if s.dev.probeDue core slot c (s.dev.group core slot).probed = true then
      .next { s with dev := (s.dev.modGroup core slot (fun g => { g with probed := true })).sendProbe core slot 5 } else .next s := by
  rw [exec_waitProbe, execWaitProbe, if_neg (by decide), if_pos rfl]
  simp only [hc]
  rfl

/-- Whether an operation's wait on its ticket sends a probe now. -/
def Dev.ticketDue (d : Dev) (core slot k : Nat) (o : Op) : Prop :=
  o.core = core ∧ o.slot = slot ∧ o.ticketed = true ∧ o.probed = false ∧ d.param 0 ≤ d.ticketWait core k
    ∧ ∀ p ∈ d.probes, p.2.sender ≠ (core, slot)

theorem execWaitProbe_ticket {s : State} {core slot k : Nat} {o : Op} (ho : s.dev.op? k = some o) :
    (¬ s.dev.ticketDue core slot k o → NotDue s (.waitProbe core slot (6 + k)))
    ∧ (s.dev.ticketDue core slot k o →
        Makes s (.waitProbe core slot (6 + k)) ((s.dev.modOp k (fun o => { o with probed := true })).sendProbe core slot (6 + k))) := by
  have hk : 6 + k - 6 = k := by omega
  have hd : (o.core = core ∧ o.slot = slot ∧ o.ticketed = true ∧ (!o.probed) = true ∧ s.dev.param 0 ≤ s.dev.ticketWait core k
      ∧ s.dev.probes.all (fun p => decide (p.2.sender ≠ (core, slot))) = true) ↔ s.dev.ticketDue core slot k o := by
    simp [Dev.ticketDue]
  unfold NotDue Makes
  rw [exec_waitProbe, execWaitProbe, if_neg (by omega), if_neg (by omega), if_pos (by omega), hk]
  simp only [ho]
  exact ⟨fun h => if_neg (mt hd.1 h), fun h => if_pos (hd.2 h)⟩

/-! ## Saves (R338 to R341) -/

/-- Nothing keeps a cluster's save waiting: it is being cleared, and its workgroups and handlers are quiet. -/
def Dev.saveQuiet (d : Dev) (n : Nat) : Prop :=
  (d.cluster n).clearing = true ∧ (∀ t ∈ d.tasks.filter (fun t => t.2.resident && decide (clusterOf t.2.core = n)), d.quietTask t.1 t.2 = true)
    ∧ ∀ c ∈ coresOf n, d.quietHandler c = true

theorem Dev.saveQuiet_iff (d : Dev) (n : Nat) : d.saveQuiet n ↔
    ¬ ((!(d.cluster n).clearing) = true
      ∨ (!(d.tasks.filter (fun t => t.2.resident && decide (clusterOf t.2.core = n))).all (fun t => d.quietTask t.1 t.2)) = true
      ∨ (!(coresOf n).all d.quietHandler) = true) := by
  simp only [Dev.saveQuiet, not_or, Bool.not_eq_true', Bool.not_eq_false, List.all_eq_true]

theorem execForcedSaveComplete_notDue {s : State} {n : Nat} (h : ¬ s.dev.saveQuiet n) : NotDue s (.forcedSaveComplete n) :=
  if_pos (not_not.1 (mt (s.dev.saveQuiet_iff n).2 h))

theorem execForcedSaveComplete_due {s : State} {n : Nat} (h : s.dev.saveQuiet n) :
    ∃ u, exec (.forcedSaveComplete n) s = .next u ∧ u.iss = s.iss ∧ (u.dev.cluster n).clearing = false := by
  refine ⟨_, if_neg ((s.dev.saveQuiet_iff n).1 h), rfl, ?_⟩
  exact congrArg Cluster.clearing (Dev.cluster_modCluster_same _ n (fun k => { k with clearing := false }))

/-- A cluster without workgroups: only its handlers' activations end, and a place taken for the save is free again. -/
theorem execForcedSaveComplete_empty {s : State} {n : Nat} (h : s.dev.saveQuiet n)
    (ht : s.dev.tasks.filter (fun t => t.2.resident && decide (clusterOf t.2.core = n)) = []) :
    let d := (coresOf n).foldl Dev.abandonHandler s.dev
    (d.takenPlace (dieOfCluster n) n = none → Makes s (.forcedSaveComplete n) (d.modCluster n (fun k => { k with clearing := false })))
    ∧ (∀ p, d.takenPlace (dieOfCluster n) n = some p → Makes s (.forcedSaveComplete n)
        ((d.modDie (dieOfCluster n) (fun x => { x with shadow := setAt x.shadow p none })).modCluster n (fun k => { k with clearing := false }))) := by
  have hc := (s.dev.saveQuiet_iff n).1 h
  unfold Makes
  rw [exec_forcedSaveComplete, execForcedSaveComplete]
  dsimp only
  rw [if_neg hc, ht]
  refine ⟨fun hp => ?_, fun p hp => ?_⟩ <;> rw [hp] <;> simp

end Sys2Proof.Machine
end

section
/-! SUPPORT. Context steps: deadlines, places of the shadow store, probes that go on; and the statement about all of them. -/

namespace Sys2Proof.Machine

open Sys2Proof.Claims

/-! ## Deadlines and cooperative saves (R338 to R341) -/

theorem execCooperativeSave_lost {s : State} {n : Nat} {t : Task} (ht : s.dev.task? n = some t)
    (h : s.dev.expelled.contains (s.dev.worldOf n) = true ∧ s.dev.atYield n = true) : Makes s (.cooperativeSave n) (s.dev.worldFault n) := by
  simp only [Makes, exec_cooperativeSave, execCooperativeSave, ht, if_pos h, State.modDev]

theorem execCooperativeSave_ready {s : State} {n : Nat} {t : Task} (ht : s.dev.task? n = some t)
    (hl : s.dev.expelled.contains (s.dev.worldOf n) = false ∨ s.dev.atYield n = false) :
    let unit := s.dev.unitOf t
    let ready := unit.all (fun u => decide (u.2.phase = .running) && u.2.deadlineFrom.isSome && s.dev.yielded u.1 && s.dev.quietTask u.1 u.2)
    let room := (List.range 4).all (fun i => s.dev.regionRoom i ((unit.filter (fun u => decide (dieOf u.2.core = i))).map Prod.fst))
    (unit ≠ [] → ready = true → room = true → Makes s (.cooperativeSave n) (unit.foldl (fun d u => d.saveToRegion u.1) s.dev))
    ∧ (unit = [] ∨ ready = false ∨ room = false → NotDue s (.cooperativeSave n)) := by
  intro unit ready room
  have hn : ¬ (s.dev.expelled.contains (s.dev.worldOf n) = true ∧ s.dev.atYield n = true) := by
    rintro ⟨ha, hb⟩; rcases hl with h | h
    · rw [ha] at h; exact absurd h (by simp)
    · rw [hb] at h; exact absurd h (by simp)
  have he : exec (.cooperativeSave n) s = if unit.isEmpty = true ∨ (!ready) = true ∨ (!room) = true then .next s
      else .next { s with dev := unit.foldl (fun d u => d.saveToRegion u.1) s.dev } := by
    rw [exec_cooperativeSave, execCooperativeSave]
    simp only [ht]
    rw [if_neg hn]
    rfl
  unfold Makes NotDue
  rw [he]
  refine ⟨fun hu hr hm => if_neg ?_, fun h => if_pos ?_⟩
  · simp [hu, hr, hm]
  · simpa using h

theorem execPreemptionDeadline_inTime {s : State} {n : Nat} {t : Task} (ht : s.dev.task? n = some t)
    (h : t.resident = false ∨ s.dev.expired t = false) : NotDue s (.preemptionDeadline n) := by
  have hc : (!t.resident) = true ∨ (!s.dev.expired t) = true := by simpa using h
  simp only [NotDue, exec_preemptionDeadline, execPreemptionDeadline, ht, if_pos hc]

theorem execPreemptionDeadline_late {s : State} {n : Nat} {t : Task} (ht : s.dev.task? n = some t) (hr : t.resident = true)
    (hx : s.dev.expired t = true) : exec (.preemptionDeadline n) s =
      if s.dev.expelled.contains (s.dev.worldOf n) = true then .next { s with dev := s.dev.worldFault n }
      else
        let cs := s.dev.saveClosure 32 [clusterOf t.core]
        let fits := (List.range 4).all (fun i =>
          decide ((cs.filter (fun c => decide (dieOfCluster c = i))).length ≤ s.dev.freePlaces i) && s.dev.overflowRoom i cs)
        if cs.any (fun c => (s.dev.cluster c).clearing) = true ∨ (!fits) = true then .next s else .next { s with dev := s.dev.beginSave cs } := by
  rw [exec_preemptionDeadline, execPreemptionDeadline]
  simp only [ht]
  rw [if_neg (by simp [hr, hx])]
  rfl

/-- The clusters of a forced save can begin it: none is being saved, and every die has the places and the room. -/
theorem save_free_iff (d : Dev) (cs : List Nat) :
    ((∀ c ∈ cs, (d.cluster c).clearing = false)
      ∧ ∀ i, i < 4 → (cs.filter (fun c => decide (dieOfCluster c = i))).length ≤ d.freePlaces i ∧ d.overflowRoom i cs = true)
    ↔ ¬ (cs.any (fun c => (d.cluster c).clearing) = true ∨ (!(List.range 4).all (fun i =>
        decide ((cs.filter (fun c => decide (dieOfCluster c = i))).length ≤ d.freePlaces i) && d.overflowRoom i cs)) = true) := by
  simp only [not_or, Bool.not_eq_true, List.any_eq_false, Bool.not_eq_false', List.all_eq_true, List.mem_range, Bool.and_eq_true, decide_eq_true_eq]

/-! ## Places of the shadow store (R341) -/

theorem execShadowPlaceRelease_held {s : State} {die n : Nat} {l : List Nat} (hl : (s.dev.die die).shadow.getD n none = some l) :
    exec (.shadowPlaceRelease die n) s =
      let left := l.filter (s.dev.liesIn die n)
      let free (d : Dev) : Dev := d.modDie die (fun x => { x with shadow := setAt x.shadow n none })
      let waits := s.dev.tasks.any (fun t => t.2.resident && decide (dieOf t.2.core = die) && s.dev.expired t.2
        && !(s.dev.cluster (clusterOf t.2.core)).clearing)
      if l.headD 0 = 0 then .next s
      else if left.isEmpty = true then .next { s with dev := free s.dev }
      else if waits = true ∧ s.dev.regionUsed die - s.dev.overflowBytes l + s.dev.contextsBytes left ≤ Config.regionBytes then
        let moved := free (left.foldl (fun d t => d.modTask t (fun k => { k with phase := .saved none })) s.dev)
        .next { s with dev := moved.modDie die (fun x => { x with region := x.region ++ left }) }
      else .next s := by
  rw [exec_shadowPlaceRelease, execShadowPlaceRelease]
  simp only [hl]
  rfl

/-- A save waits on a die for a place. -/
theorem save_sought_iff (d : Dev) (die : Nat) :
    d.tasks.any (fun t => t.2.resident && decide (dieOf t.2.core = die) && d.expired t.2 && !(d.cluster (clusterOf t.2.core)).clearing) = true
    ↔ ∃ k ∈ d.tasks, k.2.resident = true ∧ dieOf k.2.core = die ∧ d.expired k.2 = true ∧ (d.cluster (clusterOf k.2.core)).clearing = false := by
  simp [and_assoc]

theorem execContextRestoreComplete_eq (n : Nat) (s : State) :
    let ts := s.dev.tasks.filter (fun t => decide (t.2.phase = .restoring ∧ clusterOf t.2.core = n))
    let d := ts.foldl (fun d t => d.restored t.1) s.dev
    (ts = [] → NotDue s (.contextRestoreComplete n))
    ∧ (ts ≠ [] → Makes s (.contextRestoreComplete n) { d with
        dies := Tab.mapV d.dies (fun _ x => { x with region := x.region.filter (fun k => !(ts.map Prod.fst).contains k) }) }) := by
  intro ts d
  have he : exec (.contextRestoreComplete n) s = .next (if ts.isEmpty = true then s else { s with dev := { d with
      dies := Tab.mapV d.dies (fun _ x => { x with region := x.region.filter (fun k => !(ts.map Prod.fst).contains k) }) } }) := rfl
  unfold NotDue Makes
  rw [he]
  exact ⟨fun h => by rw [if_pos (List.isEmpty_iff.2 h)], fun h => by rw [if_neg (mt List.isEmpty_iff.1 h)]⟩

/-! ## Probes that go on (R344 to R346) -/

/-- A probe sent on to a group. -/
def Dev.sendOn (p : Probe) (d : Dev) (x : Nat × Nat) : Dev :=
  { d with probes := Tab.insert d.probes d.nextProbe { p with at_ := x, path := p.path ++ [p.at_], sent := [] }, nextProbe := d.nextProbe + 1 }

/-- The groups that a probe has yet to go on to. -/
def Dev.probeDueTo (d : Dev) (p : Probe) : List (Nat × Nat) := (d.probeNext p).filter (fun x => !p.sent.contains x)

/-- Those of them that the die's budget of probes still allows (R377). -/
def Dev.probeTaken (d : Dev) (p : Probe) : List (Nat × Nat) := (d.probeDueTo p).take (d.unitsLeft 6 (dieOf p.at_.1) (d.probeDueTo p).length)

theorem execProbeForward_eq {s : State} {n : Nat} {p : Probe} {d : Dev} {due taken : List (Nat × Nat)} (hp : Tab.find s.dev.probes n = some p)
    (hd : d = { s.dev with probes := Tab.erase s.dev.probes n }) (hdue : d.probeDueTo p = due) (htaken : d.probeTaken p = taken) :
    let all := taken.foldl (Dev.sendOn p) (d.spend 6 (dieOf p.at_.1) taken.length)
    exec (.probeForward n) s =
      if d.dropsProbe p = true then .next { s with dev := d }
      else if taken.isEmpty = true ∧ (!due.isEmpty) = true then .next s
      else if taken.contains p.sender = true then
        .next { s with dev := (d.spend 6 (dieOf p.at_.1) taken.length).foundCycle p.wait (p.path ++ [p.at_]) }
      else .next { s with dev := if taken.length < due.length then
        { all with probes := Tab.insert all.probes n { p with sent := p.sent ++ taken } } else all } := by
  subst hd hdue htaken
  rw [exec_probeForward, execProbeForward]
  simp only [hp]
  rfl

theorem Dev.dropsProbe_iff (d : Dev) (p : Probe) : d.dropsProbe p = true ↔
    if p.path = [] then d.kindOfWait p.sender.1 p.sender.2 p.wait = 0 else d.groupWaits p.at_.1 p.at_.2 = 0 := by
  unfold Dev.dropsProbe
  cases p.path <;> simp

theorem Dev.probeNext_eq (d : Dev) (p : Probe) : d.probeNext p =
    (if p.path = [] then d.waitEdges p.sender.1 p.sender.2 p.wait else d.probeEdges p.at_.1 p.at_.2).filter
      (fun x => decide (x = p.sender) || !p.path.contains x) := by
  unfold Dev.probeNext
  simp only [List.isEmpty_iff]

/-- A probe at its place: it is dropped, waits for budget, has found a cycle, or goes on along all its edges or the first of them. -/
theorem execProbeForward_cases {s : State} {n : Nat} {p : Probe} {d : Dev} {due taken : List (Nat × Nat)} (hp : Tab.find s.dev.probes n = some p)
    (hd : d = { s.dev with probes := Tab.erase s.dev.probes n }) (hdue : d.probeDueTo p = due) (htaken : d.probeTaken p = taken) :
    let all := taken.foldl (Dev.sendOn p) (d.spend 6 (dieOf p.at_.1) taken.length)
    (d.dropsProbe p = true → Makes s (.probeForward n) d)
    ∧ (¬ d.dropsProbe p = true → due ≠ [] → taken = [] → NotDue s (.probeForward n))
    ∧ (¬ d.dropsProbe p = true → due = [] ∨ taken ≠ [] →
        (p.sender ∈ taken → Makes s (.probeForward n) ((d.spend 6 (dieOf p.at_.1) taken.length).foundCycle p.wait (p.path ++ [p.at_])))
        ∧ (p.sender ∉ taken → taken.length = due.length → Makes s (.probeForward n) all)
        ∧ (p.sender ∉ taken → taken.length < due.length → Makes s (.probeForward n)
            { all with probes := Tab.insert all.probes n { p with sent := p.sent ++ taken } })) := by
  intro all
  have he := execProbeForward_eq hp hd hdue htaken
  have hwait : (taken.isEmpty = true ∧ (!due.isEmpty) = true) ↔ taken = [] ∧ due ≠ [] := by simp [List.isEmpty_iff]
  refine ⟨fun hg => he.trans (if_pos hg), fun hg hn ht => (he.trans (if_neg hg)).trans (if_pos (hwait.2 ⟨ht, hn⟩)), fun hg hgo => ?_⟩
  have hn : ¬ (taken.isEmpty = true ∧ (!due.isEmpty) = true) := fun h => hgo.elim (hwait.1 h).2 (fun ht => ht (hwait.1 h).1)
  have hgoes := (he.trans (if_neg hg)).trans (if_neg hn)
  refine ⟨fun hm => hgoes.trans (if_pos (List.contains_iff_mem.2 hm)), fun hm hl => ?_, fun hm hl => ?_⟩
  · exact (hgoes.trans (if_neg (mt List.contains_iff_mem.1 hm))).trans (by rw [if_neg (by omega)])
  · exact (hgoes.trans (if_neg (mt List.contains_iff_mem.1 hm))).trans (by rw [if_pos hl])

/-- Settles O48: the steps of contexts, the handler's activations and the probes of waits change what R326 to R347 and R383 say, each by its own cases. -/
theorem contextSteps : Obligations.ContextSteps := by
  intro s core slot split n t
  refine ⟨⟨?_, ?_⟩, ?_, ?_, ⟨?_, ?_, ?_⟩, ?_, ?_, ?_, ?_, ⟨?_, ?_, ?_, ?_, ?_⟩, ?_, ?_⟩
  · exact execHandlerActivation_busy
  · intro r l hs hw
    refine ⟨execHandlerActivation_inFlight hs hw, fun hf hb => ?_, fun hf h0 h12 => ?_⟩
    · exact (execHandlerActivation_serves hs hw hf).trans (by rw [if_pos hb]; rfl)
    · refine ⟨{ s with dev := s.dev.serveTrap core r l }, (execHandlerActivation_serves hs hw hf).trans (by rw [if_neg (by omega)]), rfl, rfl, ?_, ?_, ?_⟩
      · exact (Tab.get_insert ..).trans (if_pos rfl)
      · exact (Tab.get_insert ..).trans (if_pos rfl)
      · exact fun g h hg hm hfind => s.dev.find_serveTrap core r l hg hm hfind
  · intro ht; simp [NotDue, execCooperativeSave, execPreemptionDeadline, ht]
  · intro ht
    refine ⟨fun hl hy => ?_, fun hl => (execCooperativeSave_ready ht hl).1, fun hl => (execCooperativeSave_ready ht hl).2,
      execPreemptionDeadline_inTime ht, fun hr hx hl => ?_, fun hr hx hl => ⟨fun hfree => ?_, fun hfree => ?_⟩⟩
    · exact execCooperativeSave_lost ht ⟨hl, hy⟩
    · exact (execPreemptionDeadline_late ht hr hx).trans (if_pos hl)
    · exact (execPreemptionDeadline_late ht hr hx).trans ((if_neg (by rw [hl]; simp)).trans (if_neg ((save_free_iff _ _).1 hfree)))
    · exact (execPreemptionDeadline_late ht hr hx).trans ((if_neg (by rw [hl]; simp)).trans (if_pos (not_not.1 (mt (save_free_iff _ _).2 hfree))))
  · exact execForcedSaveComplete_notDue
  · exact execForcedSaveComplete_due
  · exact execForcedSaveComplete_empty
  · intro die
    refine ⟨fun hl => ?_, fun l hl => ⟨fun h0 => ?_, fun h0 hr => ?_, fun h0 hr hs hf => ?_, fun h0 hr hsf => ?_⟩⟩
    · simp only [NotDue, exec_shadowPlaceRelease, execShadowPlaceRelease, hl]
    · exact (execShadowPlaceRelease_held hl).trans (if_pos h0)
    · exact (execShadowPlaceRelease_held hl).trans ((if_neg h0).trans (if_pos (List.isEmpty_iff.2 hr)))
    · exact (execShadowPlaceRelease_held hl).trans ((if_neg h0).trans ((if_neg (mt List.isEmpty_iff.1 hr)).trans
        (if_pos ⟨(save_sought_iff _ _).2 hs, hf⟩)))
    · exact (execShadowPlaceRelease_held hl).trans ((if_neg h0).trans ((if_neg (mt List.isEmpty_iff.1 hr)).trans
        (if_neg fun h => hsf.elim (fun hs => hs ((save_sought_iff _ _).1 h.1)) (fun hf => hf h.2))))
  · exact execContextRestoreComplete_eq n s
  · intro hc; simp [NotDue, execWorldLatchClearDone, hc]
  · exact fun w hc => execWorldLatchClearDone_clearing hc
  · intro x hlt hx
    have he := execWaitProbe_split hlt hx
    have hd := s.dev.probeDue_iff core slot x.since x.probed
    refine ⟨fun hw => he.trans (if_neg fun h => hw ⟨h.1, hd.1 h.2⟩), fun hw => ⟨_, he.trans (if_pos ⟨hw.1, hd.2 hw.2⟩), rfl, rfl, ?_⟩⟩
    exact Dev.split?_markSplit hx
  · intro ha; simp [NotDue, execWaitProbe, ha]
  · intro e he
    have hd := s.dev.probeDue_iff core slot (e.reqAt.getD 0) e.probed
    exact ⟨fun hw => (execWaitProbe_arbiter he).trans (if_neg (mt hd.1 hw)), fun hw => (execWaitProbe_arbiter he).trans (if_pos (hd.2 hw))⟩
  · intro c hc
    have hd := s.dev.probeDue_iff core slot c (s.dev.group core slot).probed
    exact ⟨fun hw => (execWaitProbe_hold hc).trans (if_neg (mt hd.1 hw)), fun hw => (execWaitProbe_hold hc).trans (if_pos (hd.2 hw))⟩
  · exact fun k o ho => execWaitProbe_ticket ho
  · intro hp; simp [NotDue, execProbeForward, hp]
  · intro p hp d next gone die path due taken sent all
    have hdue : d.probeDueTo p = due := by unfold Dev.probeDueTo; rw [Dev.probeNext_eq]
    have htaken : d.probeTaken p = taken := by unfold Dev.probeTaken; rw [hdue]
    obtain ⟨hgone, hwaits, hgoes⟩ := execProbeForward_cases hp rfl hdue htaken
    have hdrop := d.dropsProbe_iff p
    exact ⟨fun hg => hgone (hdrop.2 hg), fun hg => hwaits (mt hdrop.1 hg), fun hg => hgoes (mt hdrop.1 hg)⟩

end Sys2Proof.Machine
end

section
/-! SUPPORT. The end of an issue group (R52, R57, R88, R89, R93): the group after its split has moved, split by split; and the statement about it. -/

namespace Sys2Proof

@[simp] theorem length_setAt {α : Type} (l : List α) (i : Nat) (v : α) : (setAt l i v).length = l.length := by
  induction l generalizing i with
  | nil => rfl
  | cons x l ih =>
    cases i with
    | zero => rfl
    | succ n => simp [setAt, ih]

theorem getD_setAt_ne {α : Type} (l : List α) {i j : Nat} (v w : α) (h : j ≠ i) : (setAt l i v).getD j w = l.getD j w := by
  induction l generalizing i j with
  | nil => rfl
  | cons x l ih =>
    cases i with
    | zero => cases j with
      | zero => exact absurd rfl h
      | succ m => rfl
    | succ n => cases j with
      | zero => rfl
      | succ m => simpa [setAt] using ih (fun e => h (congrArg Nat.succ e))

end Sys2Proof

namespace Sys2Proof.Machine

/-! ## Split indices -/

theorem freeSplit_eq_some {l : List (Option Split)} {k : Nat} :
    freeSplit l = some k ↔ l.getD k none = none ∧ k < 4 ∧ ∀ j, j < k → l.getD j none ≠ none := by
  simp [freeSplit, firstBelow, List.find?_range_eq_some]

theorem freeSplit_eq_none {l : List (Option Split)} : freeSplit l = none ↔ ∀ k, k < 4 → l.getD k none ≠ none := by
  simp [freeSplit, firstBelow]

/-! ## The group at the end of an issue group -/

/-- A group before its split moves: FPFLAGS have taken the flags raised (R52). -/
def State.flag (s : State) (g : Group) : Group := { g with regs := { g.regs with flags := g.regs.flags ||| s.iss.raised } }

/-- The issuing split at a position with some lanes, waiting for what its issue group brought. -/
def State.splitAt (s : State) (mask : W32) (pos : Pos) : Split :=
  { s.iss.splitAt s.dev mask pos s.waitsOf with exiting := s.iss.exits }

/-- Where a split that neither exits nor divides goes on: at its branch target, or at the group after (R57). -/
def State.nextPos (s : State) : Pos :=
  match s.iss.target with
  | some pc => { pc := pc, word := 0 }
  | none => s.iss.fall

/-- A group after its split has moved on, divided, parked or ended. -/
def State.moveGroup (s : State) (g : Group) : Group :=
  if s.iss.exits then
    ({ g with splits := setAt g.splits s.iss.split (some { s.iss.splitAt s.dev s.iss.mask s.iss.fall s.waitsOf with exiting := true }) } : Group).leave s.iss.split
  else match s.iss.divide with
    | some (t, pc) => s.divideGroup g t pc s.waitsOf
    | none => { g with splits := setAt g.splits s.iss.split (some (s.iss.splitAt s.dev s.iss.mask s.nextPos s.waitsOf)) }

/-- A split index of a group holds a split with these lanes at this position that waits for what the issue group brought, first to last, and is exiting
as the issue group says. -/
def State.HoldsAt (s : State) (g : Group) (k : Nat) (m : W32) (pos : Pos) : Prop :=
  ∃ x, g.splits.getD k none = some x ∧ x.mask = m ∧ x.pos = pos ∧ x.park = s.waitsOf.headD .running
    ∧ x.later = (s.waitsOf.map (fun p => (p, s.iss.pos))).tail ∧ x.waitCount = 0 ∧ x.exiting = s.iss.exits

theorem State.splitAt_park (s : State) (m : W32) (pos : Pos) : (s.splitAt m pos).park = s.waitsOf.headD .running := by
  change ((s.waitsOf.map (fun p => (p, s.iss.pos))).map Prod.fst).headD .running = _
  cases s.waitsOf <;> rfl

theorem State.splitAt_issued (s : State) (m : W32) (pos : Pos) : (s.splitAt m pos).issued = s.iss.pos := by
  change ((s.waitsOf.map (fun p => (p, s.iss.pos))).map Prod.snd).headD s.iss.pos = _
  cases s.waitsOf <;> rfl

theorem State.splitAt_of_exits {s : State} (he : s.iss.exits = true) (m : W32) (pos : Pos) :
    { s.iss.splitAt s.dev m pos s.waitsOf with exiting := true } = s.splitAt m pos := by rw [State.splitAt, he]

theorem State.splitAt_of_not_exits {s : State} (he : s.iss.exits = false) (m : W32) (pos : Pos) :
    s.iss.splitAt s.dev m pos s.waitsOf = s.splitAt m pos := by rw [State.splitAt, he]; rfl

theorem State.holdsAt_of_getD {s : State} {g : Group} {k : Nat} {m : W32} {pos : Pos} (h : g.splits.getD k none = some (s.splitAt m pos)) :
    s.HoldsAt g k m pos :=
  ⟨_, h, rfl, rfl, s.splitAt_park m pos, rfl, rfl, rfl⟩

theorem Group.leave_exiting {g : Group} {i : Nat} {x : Split} (hx : g.splits.getD i none = some x) (he : x.exiting = true) :
    g.leave i = if x.park = .running then { g with splits := setAt g.splits i none, exitPos := x.issued } else g := by
  simp only [Group.leave, hx, he, true_and]

/-- A split that exits keeps its index only while it waits (R93). -/
theorem State.moveGroup_exits {s : State} {g : Group} (hs : s.iss.split < g.splits.length) (he : s.iss.exits = true) :
    let l := setAt g.splits s.iss.split (some (s.splitAt s.iss.mask s.iss.fall))
    s.moveGroup g = if s.waitsOf.headD .running = .running then { g with splits := setAt l s.iss.split none, exitPos := s.iss.pos }
      else { g with splits := l } := by
  rw [State.moveGroup, if_pos he, State.splitAt_of_exits he, Group.leave_exiting (getD_setAt_same _ _ _ _ hs) he, State.splitAt_park, State.splitAt_issued]

theorem State.moveGroup_goes {s : State} (g : Group) (he : s.iss.exits = false) (hd : s.iss.divide = none) :
    s.moveGroup g = { g with splits := setAt g.splits s.iss.split (some (s.splitAt s.iss.mask s.nextPos)) } := by
  simp [State.moveGroup, he, hd, State.splitAt_of_not_exits he]

/-- A division with an index free: the lanes that branch take the lowest (R88). -/
theorem State.moveGroup_divides {s : State} {g : Group} {m : W32} {pc k : Nat} (he : s.iss.exits = false) (hd : s.iss.divide = some (m, pc))
    (hf : freeSplit g.splits = some k) :
    s.moveGroup g = { g with
      splits := setAt (setAt g.splits s.iss.split (some (s.splitAt (s.iss.mask &&& ~~~m) s.iss.fall))) k (some (s.splitAt m { pc := pc, word := 0 })) } := by
  simp only [State.moveGroup, he, hd, State.divideGroup, hf, State.splitAt_of_not_exits he]
  rfl

/-- A division with four splits live: the lanes that do not branch go on the stack (R89). -/
theorem State.moveGroup_stacks {s : State} {g : Group} {m : W32} {pc : Nat} (he : s.iss.exits = false) (hd : s.iss.divide = some (m, pc))
    (hf : freeSplit g.splits = none) :
    s.moveGroup g = { g with
      splits := setAt g.splits s.iss.split (some (s.splitAt m { pc := pc, word := 0 }))
      stack := { mask := s.iss.mask &&& ~~~m, word := s.iss.fall.word,
                 packet := BitVec.ofInt 30 (((s.iss.fall.pc : Int) - (s.dev.codeOf s.iss.core s.iss.slot : Int)) / 12) } :: g.stack } := by
  simp only [State.moveGroup, he, hd, State.divideGroup, hf, State.splitAt_of_not_exits he]
  rfl

/-- Whatever becomes of the split, the group keeps its registers and its part in a redundant pair. -/
theorem State.moveGroup_frame {s : State} {g : Group} (hs : s.iss.split < g.splits.length) :
    (s.moveGroup g).regs = g.regs ∧ (s.moveGroup g).role = g.role := by
  cases he : s.iss.exits with
  | true => rw [State.moveGroup_exits hs he]; split_ifs <;> exact ⟨rfl, rfl⟩
  | false =>
    cases hd : s.iss.divide with
    | none => rw [State.moveGroup_goes g he hd]; exact ⟨rfl, rfl⟩
    | some p =>
      cases hf : freeSplit g.splits with
      | some k => rw [State.moveGroup_divides he hd hf]; exact ⟨rfl, rfl⟩
      | none => rw [State.moveGroup_stacks he hd hf]; exact ⟨rfl, rfl⟩

/-! ## Closing -/

/-- Without a TRAP and outside a redundant pair, closing changes the group that issued and ends the issue group. -/
theorem State.closeIssue_eq {s : State} (hr : s.running = true) (hs : s.iss.split < s.grp.splits.length) (hn : s.grp.role = .none)
    (ht : s.iss.trapCode = none) :
    s.closeIssue = { s with
      dev := s.dev.modGroup s.iss.core s.iss.slot (fun g => s.moveGroup (s.flag g))
      iss := Issue.closed } := by
  have hg : (s.dev.modGroup s.iss.core s.iss.slot (fun g => s.moveGroup (s.flag g))).group s.iss.core s.iss.slot = s.moveGroup (s.flag s.grp) :=
    Dev.group_modGroup _ _ _ _ hr
  have hrole : (s.moveGroup (s.flag s.grp)).role = .none := (State.moveGroup_frame (g := s.flag s.grp) hs).2.trans hn
  unfold State.closeIssue
  simp only [ht]
  rw [if_neg]
  · rfl
  · -- no trailer starts: the group leads no pair
    intro h
    obtain ⟨_, hl⟩ := of_decide_eq_true h
    have hl : (s.moveGroup (s.flag s.grp)).role = .leader := (congrArg Group.role hg).symm.trans hl
    rw [hrole] at hl
    exact Role.noConfusion hl

theorem State.group_closeIssue {s : State} (hr : s.running = true) (hs : s.iss.split < s.grp.splits.length) (hn : s.grp.role = .none)
    (ht : s.iss.trapCode = none) : s.closeIssue.dev.group s.iss.core s.iss.slot = s.moveGroup (s.flag s.grp) := by
  rw [State.closeIssue_eq hr hs hn ht]
  exact Dev.group_modGroup _ _ _ _ hr

/-- Settles O22: the group after the close is the moved group, in the case of its split: it exits, goes on, or divides. -/
theorem closingAnIssueGroup : Obligations.ClosingAnIssueGroup := by
  intro s hr hlt hlen hn ht
  have hs : s.iss.split < s.grp.splits.length := by rw [hlen]; exact hlt
  rw [State.group_closeIssue hr hs hn ht, State.closeIssue_eq hr hs hn ht]
  intro g at_
  refine ⟨rfl, rfl, rfl, (State.moveGroup_frame (g := s.flag s.grp) hs).1, fun he hw => ?_, fun he hw => ?_, fun he hd => ?_, fun m pc he hd =>
    ⟨fun k hk hne hfree hlow _ => ?_, fun hfull => ?_⟩⟩
  · have hg : g = _ := (State.moveGroup_exits (g := s.flag s.grp) hs he).trans (if_pos hw)
    rw [hg]
    exact ⟨getD_setAt_same _ _ _ _ (by rw [length_setAt]; exact hs), rfl, rfl⟩
  · have hg : g = _ := (State.moveGroup_exits (g := s.flag s.grp) hs he).trans (if_neg hw)
    exact ⟨State.holdsAt_of_getD (by rw [hg]; exact getD_setAt_same _ _ _ _ hs), by rw [hg]; rfl⟩
  · have hg : g = _ := State.moveGroup_goes (s.flag s.grp) he hd
    exact ⟨by rw [hg]; rfl, State.holdsAt_of_getD (by rw [hg]; exact getD_setAt_same _ _ _ _ hs)⟩
  · have hg : g = _ := State.moveGroup_divides (g := s.flag s.grp) he hd (freeSplit_eq_some.2 ⟨hfree, hk, hlow⟩)
    refine ⟨State.holdsAt_of_getD ?_, State.holdsAt_of_getD ?_, by rw [hg]; rfl⟩
    · rw [hg]
      exact getD_setAt_same _ _ _ _ (by rw [length_setAt]; exact hlen.symm ▸ hk)
    · rw [hg]
      exact (getD_setAt_ne _ _ _ hne.symm).trans (getD_setAt_same _ _ _ _ hs)
  · have hg : g = _ := State.moveGroup_stacks (g := s.flag s.grp) he hd (freeSplit_eq_none.2 hfull)
    exact ⟨State.holdsAt_of_getD (by rw [hg]; exact getD_setAt_same _ _ _ _ hs), by rw [hg]; rfl, by rw [hg]; rfl⟩

end Sys2Proof.Machine
end

section
/-! SUPPORT. Words and their fields (R53 to R74): which fields an instruction's word holds, that what decodes from a word is what its fields hold, and
that an instruction whose fields a word holds decodes from it; and the statement about both. The majors are taken by the groups of R55 and R70. -/

namespace Sys2Proof

open Sys2Proof.Machine Sys2Proof.Claims

/-! ## Fields of a word -/

/-- The bits of a word from position s on are x. -/
def HasField (w : W32) (s : Nat) {n : Nat} (x : BitVec n) : Prop := w.extractLsb' s n = x

theorem hasField_iff_toNat {w : W32} {s n : Nat} {x : BitVec n} : HasField w s x ↔ (w.extractLsb' s n).toNat = x.toNat :=
  BitVec.toNat_inj.symm

/-- Two fields side by side. -/
theorem hasField_append {w : W32} {s n m : Nat} (x : BitVec n) (y : BitVec m) :
    HasField w s (x ++ y) ↔ HasField w (s + m) x ∧ HasField w s y := by
  unfold HasField
  rw [← BitVec.extractLsb'_append_extractLsb'_eq_extractLsb' rfl]
  constructor
  · intro h
    have hx := congrArg (BitVec.extractLsb' m n) h
    have hy := congrArg (BitVec.extractLsb' 0 m) h
    simpa [BitVec.extractLsb'_append_eq_of_le, BitVec.extractLsb'_append_eq_of_add_le] using And.intro hx hy
  · rintro ⟨rfl, rfl⟩; rfl

/-- A word holds, below its chain bit, the fields of an instruction (R59). -/
def Carries (w : W32) (i : Instr) : Prop := ∃ mb ∈ i.body, HasField w 25 mb.1 ∧ HasField w 0 mb.2

theorem encodeWord_eq_some {c : BitVec 1} {i : Instr} {w : W32} : encodeWord c i = some w ↔ HasField w 31 c ∧ Carries w i := by
  have hw : ∀ (m : BitVec 6) (b : BitVec 25), c ++ m ++ b = w ↔ HasField w 31 c ∧ HasField w 25 m ∧ HasField w 0 b := by
    intro m b
    calc c ++ m ++ b = w ↔ HasField w 0 (c ++ m ++ b) := by rw [HasField, BitVec.extractLsb'_eq_self, eq_comm]
      _ ↔ HasField w 25 (c ++ m) ∧ HasField w 0 b := hasField_append (c ++ m) b
      _ ↔ (HasField w 31 c ∧ HasField w 25 m) ∧ HasField w 0 b := and_congr_left' (hasField_append c m)
      _ ↔ _ := and_assoc
  unfold encodeWord Carries
  cases i.body <;> simp [hw]

/-- Each word whose major lies in a range is as said. -/
def Majors (a b : Nat) (P : W32 → Prop) : Prop := ∀ w : W32, a ≤ majorOf w → majorOf w < b → P w

theorem Majors.join {a b c : Nat} {P : W32 → Prop} (h : Majors a b P) (k : Majors b c P) : Majors a c P :=
  fun w hl hu => if hb : majorOf w < b then h w hl hb else k w (Nat.le_of_not_lt hb) hu

theorem Majors.every {P : W32 → Prop} (h : Majors 0 64 P) (w : W32) : P w := h w (Nat.zero_le _) (w.extractLsb' 25 6).isLt

/-! ## What decodes is carried -/

/-- Whatever instruction a result names is one that the word carries. -/
def OnlyCarried (w : W32) (r : Except DecodeError Instr) : Prop := ∀ i, r = .ok i → Carries w i

theorem onlyCarried_error (w : W32) (e : DecodeError) : OnlyCarried w (.error e) ↔ True :=
  iff_true_intro fun _ h => nomatch h

/-- A result names the instruction whose fields the word holds. -/
theorem onlyCarried_ok (w : W32) (i : Instr) : OnlyCarried w (.ok i) ↔ ∃ mb ∈ i.body, HasField w 25 mb.1 ∧ HasField w 0 mb.2 :=
  ⟨fun h => h i rfl, fun h _ e => Except.ok.inj e ▸ h⟩

theorem onlyCarried_scalarMajors : Majors 0 16 fun w => OnlyCarried w (decodeFields w) := by
  intro w hl hu
  unfold majorOf at hl hu
  unfold decodeFields
  interval_cases hm : (w.extractLsb' 25 6).toNat <;> simp only [decodeMajor00, decodeMajor01, decodeMajor02, decodeMajor03, decodeMajor04, decodeMajor05, decodeMajor06, decodeMajor07, decodeMajor08, decodeMajor09, decodeMajor0A, decodeMajor0B] <;> repeat' split
  all_goals simp only [onlyCarried_ok, onlyCarried_error, Instr.body, Option.mem_def, Option.some.injEq, exists_eq_left', hasField_append, -Nat.reduceAdd]
  all_goals simp [hasField_iff_toNat, *]

theorem onlyCarried_integerMajors : Majors 16 21 fun w => OnlyCarried w (decodeFields w) := by
  intro w hl hu
  unfold majorOf at hl hu
  unfold decodeFields
  interval_cases hm : (w.extractLsb' 25 6).toNat <;> simp only [decodeMajor10, decodeMajor11, decodeMajor12, decodeMajor13, decodeMajor14] <;> repeat' split
  all_goals simp only [onlyCarried_ok, onlyCarried_error, Instr.body, Option.mem_def, Option.some.injEq, exists_eq_left', hasField_append, -Nat.reduceAdd]
  all_goals simp [hasField_iff_toNat, *]

theorem onlyCarried_floatMajors : Majors 21 32 fun w => OnlyCarried w (decodeFields w) := by
  intro w hl hu
  unfold majorOf at hl hu
  unfold decodeFields
  interval_cases hm : (w.extractLsb' 25 6).toNat <;> simp only [decodeMajor15, decodeMajor16, decodeMajor17, decodeMajor18, decodeMajor19, decodeMajor1A, decodeMajor1B, decodeMajor1C, decodeMajor1D, decodeMajor1E, decodeMajor1F] <;> repeat' split
  all_goals simp only [onlyCarried_ok, onlyCarried_error, Instr.body, Option.mem_def, Option.some.injEq, exists_eq_left', hasField_append, -Nat.reduceAdd]
  all_goals simp [hasField_iff_toNat, *]

theorem onlyCarried_laneMajors : Majors 32 40 fun w => OnlyCarried w (decodeFields w) := by
  intro w hl hu
  unfold majorOf at hl hu
  unfold decodeFields
  interval_cases hm : (w.extractLsb' 25 6).toNat <;> simp only [decodeMajor20, decodeMajor21, decodeMajor22, decodeMajor23, decodeMajor24] <;> repeat' split
  all_goals simp only [onlyCarried_ok, onlyCarried_error, Instr.body, Option.mem_def, Option.some.injEq, exists_eq_left', hasField_append, -Nat.reduceAdd]
  all_goals simp [hasField_iff_toNat, *]

theorem onlyCarried_memoryMajors : Majors 40 52 fun w => OnlyCarried w (decodeFields w) := by
  intro w hl hu
  unfold majorOf at hl hu
  unfold decodeFields
  interval_cases hm : (w.extractLsb' 25 6).toNat <;> simp only [decodeMajor28, decodeMajor29, decodeMajor2A, decodeMajor2B, decodeMajor2C, decodeMajor2D, decodeMajor2E, decodeMajor2F, decodeMajor30, decodeMajor31, decodeMajor32, decodeMajor33] <;> repeat' split
  all_goals simp only [onlyCarried_ok, onlyCarried_error, Instr.body, Option.mem_def, Option.some.injEq, exists_eq_left', hasField_append, -Nat.reduceAdd]
  all_goals simp [hasField_iff_toNat, *]

theorem onlyCarried_matrixMajors : Majors 52 56 fun w => OnlyCarried w (decodeFields w) := by
  intro w hl hu
  unfold majorOf at hl hu
  unfold decodeFields
  interval_cases hm : (w.extractLsb' 25 6).toNat <;> simp only [decodeMajor34, decodeMajor35, decodeMajor36, decodeMajor37] <;> repeat' split
  all_goals simp only [onlyCarried_ok, onlyCarried_error, Instr.body, Option.mem_def, Option.some.injEq, exists_eq_left', hasField_append, -Nat.reduceAdd]
  all_goals simp [hasField_iff_toNat, *]

theorem onlyCarried_engineMajors : Majors 56 62 fun w => OnlyCarried w (decodeFields w) := by
  intro w hl hu
  unfold majorOf at hl hu
  unfold decodeFields
  interval_cases hm : (w.extractLsb' 25 6).toNat <;> simp only [decodeMajor38, decodeMajor39, decodeMajor3A, decodeMajor3B] <;> repeat' split
  all_goals simp only [onlyCarried_ok, onlyCarried_error, Instr.body, Option.mem_def, Option.some.injEq, exists_eq_left', hasField_append, -Nat.reduceAdd]
  all_goals simp [hasField_iff_toNat, *]

theorem onlyCarried_modifierMajors : Majors 62 64 fun w => OnlyCarried w (decodeFields w) := by
  intro w hl hu
  unfold majorOf at hl hu
  unfold decodeFields
  interval_cases hm : (w.extractLsb' 25 6).toNat <;> simp only [decodeMajor3F] <;> repeat' split
  all_goals simp only [onlyCarried_ok, onlyCarried_error, Instr.body, Option.mem_def, Option.some.injEq, exists_eq_left', hasField_append, -Nat.reduceAdd]
  all_goals simp [hasField_iff_toNat, *]

/-! ## What is carried decodes -/

/-- Each instruction that the word carries, and whose codes are assigned, decodes from it. -/
def CarriedDecode (w : W32) : Prop := ∀ i : Instr, i.codesOk = true → Carries w i → decodeFields w = .ok (firstOfRow i)

/-- BRF of F0 with sense 0 is BRA (R96): each other BRF has a function field that is not zero. -/
theorem function_ne_zero_of_brf {w : W32} {e : BitVec 1} {f : FReg} {o : BitVec 21} (he : w.extractLsb' 24 1 = e) (hf : w.extractLsb' 21 3 = f)
    (hc : (Instr.brf e f o).codesOk = true) : w.extractLsb' 21 4 ≠ 0#4 := by
  intro h
  have h0 : HasField w 24 (0#1) ∧ HasField w 21 (0#3) := (hasField_append 0#1 0#3).1 h
  exact of_decide_eq_true hc ⟨he.symm.trans h0.1, hf.symm.trans h0.2⟩

theorem carriedDecode_scalarMajors : Majors 0 16 CarriedDecode := by
  intro w hl hu i hc h
  unfold majorOf at hl hu
  cases i <;> obtain ⟨_, ⟨⟩, hm, h⟩ := h <;> unfold HasField at hm <;>
    simp only [hm, BitVec.reduceToNat, Nat.reduceLT, Nat.reduceLeDiff] at hl hu
  all_goals simp only [hasField_append, -Nat.reduceAdd] at h
  all_goals simp only [HasField, Nat.reduceAdd] at h
  all_goals simp [decodeFields, h, hm, firstOfRow, decodeMajor00, decodeMajor01, decodeMajor02, decodeMajor03, decodeMajor04, decodeMajor05, decodeMajor06, decodeMajor07, decodeMajor08, decodeMajor09, decodeMajor0A, decodeMajor0B]
  exact function_ne_zero_of_brf h.1.1 h.1.2 hc

theorem carriedDecode_integerMajors : Majors 16 21 CarriedDecode := by
  intro w hl hu i hc h
  unfold majorOf at hl hu
  cases i <;> obtain ⟨_, ⟨⟩, hm, h⟩ := h <;> unfold HasField at hm <;>
    simp only [hm, BitVec.reduceToNat, Nat.reduceLT, Nat.reduceLeDiff] at hl hu
  all_goals simp only [hasField_append, -Nat.reduceAdd] at h
  all_goals simp only [HasField, Nat.reduceAdd] at h
  all_goals simp [decodeFields, h, hm, firstOfRow, decodeMajor10, decodeMajor11, decodeMajor12, decodeMajor13, decodeMajor14]

theorem carriedDecode_floatMajors : Majors 21 32 CarriedDecode := by
  intro w hl hu i hc h
  unfold majorOf at hl hu
  cases i <;> obtain ⟨_, ⟨⟩, hm, h⟩ := h <;> unfold HasField at hm <;>
    simp only [hm, BitVec.reduceToNat, Nat.reduceLT, Nat.reduceLeDiff] at hl hu
  all_goals simp only [hasField_append, -Nat.reduceAdd] at h
  all_goals simp only [HasField, Nat.reduceAdd] at h
  all_goals simp [decodeFields, h, hm, firstOfRow, decodeMajor15, decodeMajor16, decodeMajor17, decodeMajor18, decodeMajor19, decodeMajor1A, decodeMajor1B, decodeMajor1C, decodeMajor1D, decodeMajor1E, decodeMajor1F]

theorem carriedDecode_laneMajors : Majors 32 40 CarriedDecode := by
  intro w hl hu i hc h
  unfold majorOf at hl hu
  cases i <;> obtain ⟨_, ⟨⟩, hm, h⟩ := h <;> unfold HasField at hm <;>
    simp only [hm, BitVec.reduceToNat, Nat.reduceLT, Nat.reduceLeDiff] at hl hu
  all_goals simp only [hasField_append, -Nat.reduceAdd] at h
  all_goals simp only [HasField, Nat.reduceAdd] at h
  all_goals simp [decodeFields, h, hm, firstOfRow, decodeMajor20, decodeMajor21, decodeMajor22, decodeMajor23, decodeMajor24]

theorem carriedDecode_memoryMajors : Majors 40 52 CarriedDecode := by
  intro w hl hu i hc h
  unfold majorOf at hl hu
  cases i <;> obtain ⟨_, ⟨⟩, hm, h⟩ := h <;> unfold HasField at hm <;>
    simp only [hm, BitVec.reduceToNat, Nat.reduceLT, Nat.reduceLeDiff] at hl hu
  all_goals simp only [hasField_append, -Nat.reduceAdd] at h
  all_goals simp only [HasField, Nat.reduceAdd] at h
  all_goals simp [decodeFields, h, hm, firstOfRow, decodeMajor28, decodeMajor29, decodeMajor2A, decodeMajor2B, decodeMajor2C, decodeMajor2D, decodeMajor2E, decodeMajor2F, decodeMajor30, decodeMajor31, decodeMajor32, decodeMajor33]

theorem carriedDecode_matrixMajors : Majors 52 56 CarriedDecode := by
  intro w hl hu i hc h
  unfold majorOf at hl hu
  cases i <;> obtain ⟨_, ⟨⟩, hm, h⟩ := h <;> unfold HasField at hm <;>
    simp only [hm, BitVec.reduceToNat, Nat.reduceLT, Nat.reduceLeDiff] at hl hu
  all_goals simp only [hasField_append, -Nat.reduceAdd] at h
  all_goals simp only [HasField, Nat.reduceAdd] at h
  all_goals simp [decodeFields, h, hm, firstOfRow, decodeMajor34, decodeMajor35, decodeMajor36, decodeMajor37]

theorem carriedDecode_engineMajors : Majors 56 62 CarriedDecode := by
  intro w hl hu i hc h
  unfold majorOf at hl hu
  cases i <;> obtain ⟨_, ⟨⟩, hm, h⟩ := h <;> unfold HasField at hm <;>
    simp only [hm, BitVec.reduceToNat, Nat.reduceLT, Nat.reduceLeDiff] at hl hu
  all_goals simp only [hasField_append, -Nat.reduceAdd] at h
  all_goals simp only [HasField, Nat.reduceAdd] at h
  all_goals simp [decodeFields, h, hm, firstOfRow, decodeMajor38, decodeMajor39, decodeMajor3A, decodeMajor3B]

theorem carriedDecode_modifierMajors : Majors 62 64 CarriedDecode := by
  intro w hl hu i hc h
  unfold majorOf at hl hu
  cases i <;> obtain ⟨_, ⟨⟩, hm, h⟩ := h <;> unfold HasField at hm <;>
    simp only [hm, BitVec.reduceToNat, Nat.reduceLT, Nat.reduceLeDiff] at hl hu
  all_goals simp only [hasField_append, -Nat.reduceAdd] at h
  all_goals simp only [HasField, Nat.reduceAdd] at h
  all_goals simp [decodeFields, h, hm, firstOfRow, decodeMajor3F]

/-! ## Decoding and encoding -/

theorem carries_of_decodeFields {w : W32} {i : Instr} (h : decodeFields w = .ok i) : Carries w i :=
  (onlyCarried_scalarMajors.join <| onlyCarried_integerMajors.join <| onlyCarried_floatMajors.join <| onlyCarried_laneMajors.join <|
    onlyCarried_memoryMajors.join <| onlyCarried_matrixMajors.join <| onlyCarried_engineMajors.join onlyCarried_modifierMajors).every w i h

theorem decodeFields_of_carries {w : W32} {i : Instr} (hc : i.codesOk = true) (h : Carries w i) : decodeFields w = .ok (firstOfRow i) :=
  (carriedDecode_scalarMajors.join <| carriedDecode_integerMajors.join <| carriedDecode_floatMajors.join <| carriedDecode_laneMajors.join <|
    carriedDecode_memoryMajors.join <| carriedDecode_matrixMajors.join <| carriedDecode_engineMajors.join carriedDecode_modifierMajors).every w i hc h

theorem decodeWord_eq_ok {w : W32} {i : Instr} : decodeWord w = .ok i ↔ decodeFields w = .ok i ∧ i.wf = true := by
  unfold decodeWord
  cases decodeFields w with
  | error e => simp
  | ok j =>
    simp only [Except.ok.injEq]
    constructor
    · intro h
      split_ifs at h with hj
      cases h
      exact ⟨rfl, hj⟩
    · rintro ⟨rfl, hj⟩
      exact if_pos hj

/-- Instructions of rows that share one word ask the same of their operands. -/
theorem wf_firstOfRow (i : Instr) : (firstOfRow i).wf = i.wf := by
  unfold firstOfRow
  split <;> rfl

/-- Settles O58: an instruction and a word belong together, either way, when the word's fields are those of the instruction. -/
theorem decodingAndEncodingAgree : Obligations.DecodingAndEncodingAgree := by
  refine ⟨fun i c w hwf hw => ?_, fun w i h => ?_⟩
  · obtain ⟨hchain, hi⟩ := encodeWord_eq_some.1 hw
    have hc : i.codesOk = true := (Bool.and_eq_true_iff.1 hwf).2
    refine ⟨decodeWord_eq_ok.2 ⟨decodeFields_of_carries hc hi, (wf_firstOfRow i).trans hwf⟩, ?_⟩
    rw [← hchain]
    simp [chainBit]
  · obtain ⟨hf, hwf⟩ := decodeWord_eq_ok.1 h
    exact ⟨hwf, encodeWord_eq_some.2 ⟨rfl, carries_of_decodeFields hf⟩⟩

end Sys2Proof
end

section
/-! SUPPORT. Comparisons and predicate words (R72, R130 to R132), the modifier words (R63 to R65, R68), and words written out (R70). -/

namespace Sys2Proof.Machine

open Sys2Proof.Claims

/-! ## Masks of lanes -/

theorem getLsbD_laneBit {i j : Nat} (hj : j < 32) : (laneBit j).getLsbD i = decide (i = j) := by
  have hlt : i = j → i < 32 := fun h => h ▸ hj
  rw [laneBit, BitVec.getLsbD_ofNat, Nat.testBit_two_pow]
  simp only [← Bool.decide_and, decide_eq_decide]
  grind

theorem getLsbD_foldl_laneBit (l : List Nat) (hl : ∀ j ∈ l, j < 32) (m : W32) (i : Nat) :
    (l.foldl (fun m j => m ||| laneBit j) m).getLsbD i = (m.getLsbD i || decide (i ∈ l)) := by
  induction l generalizing m with
  | nil => simp
  | cons j l ih =>
    obtain ⟨hj, hl⟩ := List.forall_mem_cons.1 hl
    rw [List.foldl_cons, ih hl, BitVec.getLsbD_or, getLsbD_laneBit hj]
    simp [Bool.or_assoc]

theorem getLsbD_maskOf (p : Nat → Bool) {i : Nat} (hi : i < 32) : (maskOf p).getLsbD i = p i := by
  rw [maskOf, getLsbD_foldl_laneBit _ (fun j hj => List.mem_range.1 (List.mem_filter.1 hj).1)]
  simp [hi]

/-! ## Predicate words -/

/-- A word that writes a predicate register in the acting lanes gives it. -/
theorem givesP_of_exec {s : State} {i : Instr} {d : PReg} {lanes m : W32} (hs : s.running = true) (h : exec i s = .next (s.wrP d lanes m)) :
    GivesP s i d lanes m := ⟨_, h, State.wrP_written s d lanes m hs⟩

/-- Settles O5: each word writes its predicate register in the acting lanes, a comparison with the mask of the lanes in which it holds. -/
theorem comparisonsWriteTheirLanes : Obligations.ComparisonsWriteTheirLanes := fun _ _ _ _ _ _ _ _ hs =>
  ⟨⟨_, givesP_of_exec hs rfl, fun _ hi => getLsbD_maskOf _ hi⟩, ⟨_, givesP_of_exec hs rfl, fun _ hi => getLsbD_maskOf _ hi⟩,
    givesP_of_exec hs rfl, givesP_of_exec hs rfl, givesP_of_exec hs rfl, givesP_of_exec hs rfl, givesP_of_exec hs rfl⟩

/-! ## Modifier words -/

theorem State.guardMask_eq (s : State) (g : PReg) (e : BitVec 1) :
    s.guardMask g (decide (e = 1)) = if g = 0 then BitVec.allOnes 32 else if e = 1 then ~~~(s.rdP g) else s.rdP g := by
  simp only [State.guardMask, decide_eq_true_eq]

/-- Settles O17: what each field reads once the modifier is kept, and what it reads where none is. -/
theorem modifiersHoldForTheNextWord : Obligations.ModifiersHoldForTheNextWord := by
  intro s g e tt n m a b r l c k sc o lanes
  refine ⟨⟨_, rfl, rfl, ?_, rfl⟩, ⟨_, rfl, rfl, ?_, fun _ => rfl, rfl, rfl⟩, fun h => ?_⟩
  · exact congrArg (s.iss.mask &&& ·) (s.guardMask_eq g e)
  · exact congrArg (s.iss.mask &&& ·) (s.guardMask_eq g e)
  · simp only [State.acting, State.amod, State.scopeOr, State.cacheField, State.offset, h, implies_true, and_self]

/-! ## Words written out -/

/-- Settles O57: the decoder evaluates on each of the words. -/
theorem writtenOutWordsDecode : Obligations.WrittenOutWordsDecode := by
  unfold Obligations.WrittenOutWordsDecode
  decide

end Sys2Proof.Machine
end

section
/-! SUPPORT. The step of a port that cannot issue (R81, R372), in a state whose issue group is open. -/

namespace Sys2Proof.Machine

/-- Cluster 0 waits for its clock to settle (R372), so its cycle stands still; port 0 of core 0 has issued in that cycle and is the one picked next. An issue
group with no word left is in progress, as no step leaves one. -/
def openBetweenIssues : State :=
  { State.reset with
    dev := { Dev.reset with turn := [(0, (0, 0, 0))], clusters := [(0, { Cluster.reset with settling := some 1 })] }
    iss := { Issue.closed with open_ := true }
    pick := some 0 }

/-- Whether an outcome is a state in which an issue group is in progress. -/
def Out.leavesOpen : Out → Bool
  | .next t => t.iss.open_
  | _ => false

/-- The port's turn leaves the issue group in progress, and the port cannot issue. -/
theorem takeTurn_openBetweenIssues :
    let w := State.takeTurn { openBetweenIssues with pick := none } 0
    w.dev.portOpen 0 0 = false ∧ w.iss.open_ = true := by decide +kernel

/-- The step closes that issue group. -/
theorem step_openBetweenIssues : Out.leavesOpen (step openBetweenIssues) = false := by decide +kernel

/-- Refutes O56: a step in which the port cannot issue is said to leave the state as it is, but it runs an issue group that is already in progress to its
close. The statement takes every state; it lacks the premise that no issue group is in progress, which every step keeps (O59). -/
theorem not_aStepRunsTheDecodedInstructions : ¬ Obligations.AStepRunsTheDecodedInstructions := by
  intro h
  obtain ⟨idle, -⟩ := h openBetweenIssues { openBetweenIssues with pick := none } 0
  obtain ⟨shut, opened⟩ := takeTurn_openBetweenIssues
  have stays : step openBetweenIssues = .next (State.takeTurn { openBetweenIssues with pick := none } 0) := idle shut rfl
  have closes := step_openBetweenIssues
  rw [stays] at closes
  exact absurd (opened.symm.trans closes) (by decide)

end Sys2Proof.Machine
end

section
/-! SUPPORT. What the words and the steps of the device do to an issue group in progress (R54, R57): they leave its words that are still to run, or end it. -/

namespace Sys2Proof.Machine

/-! ## The words still to run -/

/-- The words still to run of an issue group in progress; none between issue groups. -/
def State.left (s : State) : Option (List Instr) := if s.iss.open_ = true then some s.iss.words else none

/-- t goes on with the issue group that s is in, or has ended it. -/
def Kept (s t : State) : Prop := t.left = none ∨ t.left = s.left

/-- So does every state that an outcome gives. -/
def KeptOut (s : State) : Out → Prop
  | .next t => Kept s t
  | _ => True

/-- A step of the machine that leaves the words still to run, or ends their issue group. -/
def Keeps (f : State → Out) : Prop := ∀ s, KeptOut s (f s)

theorem Kept.ended {s t : State} (h : t.left = none) : Kept s t := .inl h
theorem Kept.same {s t : State} (h : t.left = s.left) : Kept s t := .inr h
theorem Kept.refl {s : State} : Kept s s := .inr rfl
theorem Kept.trans {s t u : State} (h : Kept s t) (k : Kept t u) : Kept s u := by
  rcases k with k | k
  · exact .inl k
  · exact h.imp k.trans k.trans

/-- A change of the device. -/
theorem Kept.dev {s : State} (d : Dev) : Kept s { s with dev := d } := .inr rfl
theorem Kept.modDev {s t : State} (h : Kept s t) {f : Dev → Dev} : Kept s (t.modDev f) := h.trans (.dev _)
theorem Kept.modGrp {s t : State} (h : Kept s t) {f : Group → Group} : Kept s (t.modGrp f) := h.trans (.dev _)
theorem Kept.wrS {s t : State} (h : Kept s t) {r : SReg} {x : W64} : Kept s (t.wrS r x) := h.trans (.same rfl)
theorem Kept.park {s t : State} (h : Kept s t) {p : Park} : Kept s (t.park p) := h.trans (.same rfl)

/-- A trap, a stall, a mismatch and a stop at a checkpoint end the issue group. -/
theorem Kept.takeTrap {s t : State} {i : TrapInfo} : Kept s (t.takeTrap i) := .ended rfl
theorem Kept.takeFailure {s t : State} {f : FailRec} : Kept s (t.takeFailure f) := .ended rfl
theorem Kept.stall {s t : State} {p : Park} {f : Dev → Dev} : Kept s (t.stall p f) := .ended rfl
theorem Kept.mismatch {s t : State} : Kept s t.mismatch := .ended rfl
theorem Kept.stopAtCheckpoint {s t : State} : Kept s t.stopAtCheckpoint := .ended rfl

/-- A state found by taking a result apart. -/
theorem Kept.of_pair {α : Type} {s t : State} {p : State × α} {a : α} (k : Kept s p.1) (h : p = (t, a)) : Kept s t := by
  rw [h] at k; exact k
theorem Kept.of_sum {s t : State} {p : State ⊕ State} (k : Kept s (p.elim id id)) (h : p = .inl t ∨ p = .inr t) : Kept s t := by
  rcases h with rfl | rfl <;> exact k

/-! ## Checks, sets and pairs -/

theorem Kept.translate {s : State} {k : AccKind} {va : Nat} : Kept s (s.translate k va).1 := .same rfl

theorem Kept.checkAt {s : State} {lv : Level} {k : AccKind} {lane off addr n : Nat} : Kept s (s.checkAt lv k lane off addr n).1 := by
  cases lv <;> dsimp only [State.checkAt]
  case g =>
    repeat' split
    · exact .refl
    all_goals exact .translate
  all_goals repeat' split
  all_goals exact .refl

theorem Kept.checkGeneric {s : State} {ok : Level → Bool} {k : AccKind} {lane addr n : Nat} : Kept s (s.checkGeneric ok k lane addr n).1 := by
  unfold State.checkGeneric
  split
  · exact .refl
  · split
    · exact .checkAt
    · exact .refl

theorem Kept.checkLanes {chk : State → Nat → State × Except TrapInfo Access} (hc : ∀ t i, Kept t (chk t i).1) (l : List Nat) {s : State} :
    Kept s (s.checkLanes chk l).1 := by
  induction l generalizing s with
  | nil => exact .refl
  | cons i l ih =>
    have k : Kept s ((chk s i).1.checkLanes chk l).1 := (hc s i).trans ih
    unfold State.checkLanes
    dsimp only
    split <;> exact k

theorem Kept.settleSets {s : State} {r : List (Nat × Nat)} {b : Bool} : Kept s ((s.settleSets r b).elim id id) := by
  unfold State.settleSets
  split
  · exact .refl
  · split
    · exact .refl
    · dsimp only
      split
      · exact .ended rfl
      · split <;> split
        · exact .ended rfl
        · exact .dev _
        · exact .ended rfl
        · exact .dev _

theorem Kept.trailerWaits {s : State} : Kept s s.trailerWaits := by
  unfold State.trailerWaits
  split
  · exact .stopAtCheckpoint
  · exact .mismatch
  · exact .mismatch
  · exact .stall

theorem Kept.pairGate {s t : State} {sig : W32} (h : s.pairGate sig = some t) : Kept s t := by
  unfold State.pairGate at h
  dsimp only at h
  repeat' split at h
  all_goals cases h
  · exact .stall
  · exact .stall
  · exact .stall
  · exact .stall
  · exact .stall
  · exact .trailerWaits
  · exact .mismatch
  · exact .stall

theorem Kept.needToken {s t : State} (h : s.needToken = some t) : Kept s t := by
  unfold State.needToken at h
  split at h
  · cases h
  · split at h
    · cases h
    · split at h
      · cases h
      · cases h
        exact .stall

theorem Kept.pairAfter {s : State} {op : Nat} {vs : List (Nat × BitVec 128)} : Kept s (s.pairAfter op vs) := by
  unfold State.pairAfter
  dsimp only
  split
  · exact .refl
  · split <;> exact .dev _
  · exact .dev _

/-! ## Memory words -/

theorem Kept.newOp {s : State} {c : Ctr} {k : OpKind} {ps : List LanePart} {sc : Nat} {rs : List RegName} {st : OpState} :
    Kept s (s.newOp c k ps sc rs st) := by
  unfold State.newOp
  dsimp only
  split <;> exact .same rfl

theorem Kept.leaderWord {s : State} {w : MemWord} {as : List (Nat × Access)} {cat : Nat} {sig : W32} : Kept s (s.leaderWord w as cat sig) := by
  unfold State.leaderWord
  dsimp only
  split
  · exact .stall
  · exact Kept.newOp.modDev

theorem Kept.trailerWord {s : State} {w : MemWord} {as : List (Nat × Access)} {cat : Nat} {sig : W32} : Kept s (s.trailerWord w as cat sig) := by
  unfold State.trailerWord
  dsimp only
  split
  · exact .trailerWaits
  · split
    · exact .mismatch
    · split
      · exact .stall
      · exact .same rfl

theorem Kept.enter {s : State} {w : MemWord} {as : List (Nat × Access)} {st : OpState} : Kept s (s.enter w as st) := by
  unfold State.enter
  dsimp only
  split
  · split
    · exact .stall
    · exact .newOp
  · split
    · split
      · exact .pairGate ‹_›
      · split
        · exact Kept.trans (.modGrp .refl) .pairAfter
        · split
          · exact .stall
          · exact Kept.newOp.trans .pairAfter
    · split
      · exact .stopAtCheckpoint
      · exact .trailerWord
    · split
      · exact .stopAtCheckpoint
      · split
        · exact .stall
        · exact .leaderWord

theorem Kept.memWord {s : State} {w : MemWord} {st : OpState} (hc : ∀ t i, Kept t (w.check t i).1) : Kept s (s.memWord w st) := by
  unfold State.memWord
  split
  · exact .refl
  · have checked := Kept.checkLanes hc w.lanes (s := s)
    split
    · exact .takeTrap
    · have k := checked.of_pair ‹_›
      split
      · exact k.trans (Kept.settleSets.of_sum (.inr ‹_›))
      · exact (k.trans (Kept.settleSets.of_sum (.inl ‹_›))).trans .enter

theorem Kept.levelLoad {s : State} {lv : Level} {z : BitVec 4} {d : VReg} {b : SReg} {v : VReg} {x : BitVec 1} : Kept s (s.levelLoad lv z d b v x) :=
  .memWord fun _ _ => .checkAt
theorem Kept.levelStore {s : State} {lv : Level} {z : BitVec 4} {d : VReg} {b : SReg} {v : VReg} {x : BitVec 1} : Kept s (s.levelStore lv z d b v x) :=
  .memWord fun _ _ => .checkAt
theorem Kept.genericLoad {s : State} {d : VReg} {b : SReg} {v : VReg} {x : BitVec 1} : Kept s (s.genericLoad d b v x) :=
  .memWord fun _ _ => .checkGeneric
theorem Kept.genericStore {s : State} {d : VReg} {b : SReg} {v : VReg} {x : BitVec 1} {st : OpState} : Kept s (s.genericStore d b v x st) :=
  .memWord fun _ _ => .checkGeneric
theorem Kept.atomic {s : State} {fn : Nat} {d : VReg} {b : SReg} {v : VReg} : Kept s (s.atomic fn d b v) :=
  .memWord fun _ _ => .checkGeneric
theorem Kept.reduce {s : State} {fn : Nat} {sub : Bool} {d : VReg} {b : SReg} {v : VReg} : Kept s (s.reduce fn sub d b v) :=
  .memWord fun _ _ => .checkGeneric

theorem Kept.prefetch {s : State} {l1 : Bool} {b : SReg} {v : VReg} {x : BitVec 1} : Kept s (s.prefetch l1 b v x) := by
  unfold State.prefetch
  dsimp only
  split
  · exact .refl
  · exact .dev _

theorem Kept.ownStores {s : State} : Kept s s.ownStores := by
  unfold State.ownStores
  split
  · exact .dev _
  · exact .refl

theorem KeptOut.acqld {s : State} {d : VReg} {b : SReg} {v : VReg} {x : BitVec 1} : KeptOut s (execAcqld d b v x s) := by
  unfold execAcqld
  dsimp only
  split
  · exact Kept.genericLoad.park
  · exact .genericLoad

theorem KeptOut.relst {s : State} {d : VReg} {b : SReg} {v : VReg} {x : BitVec 1} : KeptOut s (execRelst d b v x s) := by
  have k : Kept s (s.genericStore d b v x .held) := .genericStore
  unfold execRelst
  dsimp only
  split
  · exact k
  · split
    · split
      · exact .stopAtCheckpoint
      · split
        · exact .takeFailure
        · exact k
    · refine Kept.park ?_
      split
      · exact k.trans .newOp
      · exact k

/-! ## Barrier words and monitors -/

theorem Kept.uniCheck {s : State} {ok : Level → Bool} {k : AccKind} {b : SReg} {n : Nat} : Kept s (s.uniCheck ok k b n).1 := .checkGeneric

theorem Kept.barArrival {s : State} {b : SReg} {after : State → Loc → Nat → State} (ha : ∀ t l n, Kept t (after t l n)) :
    Kept s (s.barArrival b after) := by
  have checked : Kept s (s.uniCheck barLevel .rmw b 4).1 := .uniCheck
  unfold State.barArrival
  dsimp only
  split
  · exact .refl
  · split
    · exact .takeTrap
    · have k := checked.of_pair ‹_›
      split
      · exact k.trans (.pairGate ‹_›)
      · split
        · exact (k.trans (ha _ _ _)).trans .pairAfter
        · split
          · exact .stall
          · split
            · exact .stall
            · split
              · exact .takeTrap
              · exact ((k.trans Kept.ownStores.modDev).trans (ha _ _ _)).trans .pairAfter

theorem Kept.barWait {s : State} {l : Loc} {b : Bool} : Kept s (s.barWait l b) := by
  unfold State.barWait
  split
  · exact .refl
  · exact .park .refl

theorem KeptOut.bara {s : State} {d b : SReg} : KeptOut s (execBara d b s) := by
  unfold execBara
  split
  · exact .stall
  · exact .barArrival fun _ _ _ => .same rfl

theorem KeptOut.bart {s : State} {a b : SReg} : KeptOut s (execBart a b s) := by
  have checked : Kept s (s.uniCheck barLevel .read b 4).1 := .uniCheck
  unfold execBart
  split
  · exact .refl
  · split
    · exact .takeTrap
    · have k := checked.of_pair ‹_›
      split
      · exact k.trans (.pairGate ‹_›)
      · split
        · exact .stall
        · exact (k.trans .barWait).trans .pairAfter

theorem Kept.arm {s : State} {a : Access} {addr : Nat} : Kept s (s.arm a addr) := by
  unfold State.arm
  dsimp only
  repeat' split
  all_goals exact .same rfl

theorem Kept.monAddress {s : State} {b : SReg} {n : Nat} {k : State → Access → State} (hk : ∀ t a, Kept t (k t a)) :
    Kept s (s.monAddress b n k) := by
  have checked : Kept s (s.uniCheck notP .read b n).1 := .uniCheck
  unfold State.monAddress
  split
  · exact .refl
  · split
    · exact .takeTrap
    · have c := checked.of_pair ‹_›
      split
      · exact c.trans (Kept.settleSets.of_sum (.inr ‹_›))
      · have c2 := c.trans (Kept.settleSets.of_sum (.inl ‹_›))
        split
        · exact c2.trans (.pairGate ‹_›)
        · split
          · exact .stall
          · exact c2.trans (hk _ _)

theorem Kept.mwait {s : State} {ge : Bool} {d b : SReg} : Kept s (s.mwait ge d b) := by
  refine .monAddress fun t a => ?_
  dsimp only
  have armed : Kept t (if t.grp.monitor = some a.loc.block then t else t.arm a (t.uniAddr b)) := by
    split
    · exact .refl
    · exact .arm
  generalize (if t.grp.monitor = some a.loc.block then t else t.arm a (t.uniAddr b)) = u at armed ⊢
  split
  · split
    · exact armed.wrS.trans .pairAfter
    · exact armed.park.trans .pairAfter
  · split
    · exact armed.park.modDev.trans .pairAfter
    · split
      · exact armed.modDev.wrS.modGrp.modDev.trans .pairAfter
      · exact armed.modDev.park.trans .pairAfter

/-! ## Words with a record, and words that wait before they go on -/

/-- The state that loading a record has come to. -/
def Rec.state : Rec → State
  | .stop s => s
  | .got s _ => s

theorem Kept.of_rec {s : State} {p r : Rec} (k : Kept s p.state) (h : p = r) : Kept s r.state := h ▸ k

theorem Kept.decoded {s t : State} (h : Kept s t) {l : Loc} {n : Nat} : Kept s (t.decoded l n) := h.trans (.same rfl)

theorem Kept.loadRecord {s : State} {a n : Nat} : Kept s (s.loadRecord a n).state := by
  have checked : Kept s (s.checkGeneric notP .read (lowLane s.iss.mask) a n).1 := .checkGeneric
  unfold State.loadRecord
  dsimp only
  split
  · exact .takeTrap
  · have k := checked.of_pair ‹_›
    split
    · exact .takeTrap
    · split
      · split
        · exact .ended rfl
        · split
          · split <;> exact .ended rfl
          · split
            · exact k.trans (.same rfl)
            · exact .ended rfl
      · split
        · exact .ended rfl
        · exact k.decoded.trans (.same rfl)

theorem Kept.loadRecords {n : Nat} (l : List Nat) {s : State} : Kept s (s.loadRecords n l).state := by
  induction l generalizing s with
  | nil => exact .refl
  | cons a l ih =>
    have first : Kept s (s.loadRecord a n).state := .loadRecord
    unfold State.loadRecords
    split
    · exact first.of_rec ‹_›
    · have k := first.of_rec ‹_›
      split
      · exact k.trans (ih.of_rec ‹_›)
      next h =>
        have rest := ih.of_rec h
        exact k.trans rest

theorem Kept.withRecord {s : State} {a n : Nat} {k : State → List W64 → State} (hk : ∀ t ws, Kept t (k t ws)) : Kept s (s.withRecord a n k) := by
  have first : Kept s (s.loadRecord a n).state := .loadRecord
  unfold State.withRecord
  split
  · exact first.of_rec ‹_›
  · exact (first.of_rec ‹_›).trans (hk _ _)

theorem Kept.irrevocably {s : State} {k : State → State} (hk : ∀ t, Kept t (k t)) : Kept s (s.irrevocably k) := by
  unfold State.irrevocably
  split
  · exact .needToken ‹_›
  · exact hk s

theorem Kept.afterStores {s : State} {sc : Nat} {k : State → State} (hk : ∀ t, Kept t (k t)) : Kept s (s.afterStores sc k) := by
  unfold State.afterStores
  split
  · exact .takeFailure
  · split
    · exact .stall
    · exact Kept.ownStores.modDev.trans (hk _)

theorem Kept.afterMemory {s : State} {k : State → State} (hk : ∀ t, Kept t (k t)) : Kept s (s.afterMemory k) := by
  unfold State.afterMemory
  dsimp only
  split
  · exact .stopAtCheckpoint
  · split
    · split
      · exact .takeFailure
      · exact hk s
    · exact .stall

/-! ## Words of the other parts -/

theorem KeptOut.adecl {s : State} {i : BitVec 4} {b l : SReg} : KeptOut s (execAdecl i b l s) := by
  unfold execAdecl
  dsimp only
  repeat' split
  · exact .refl
  · exact .takeTrap
  · exact .takeTrap
  · exact .ended rfl
  · exact .stall
  · exact .dev _

theorem KeptOut.airrev {s : State} : KeptOut s (execAirrev s) := by
  unfold execAirrev
  split
  · exact .refl
  · split
    · exact .needToken ‹_›
    · exact .dev _

theorem Kept.jump {s : State} {x : W64} {f : State → State} (hf : Kept s (f s)) : Kept s (s.jump x f) := by
  unfold State.jump
  dsimp only
  split
  · exact .takeTrap
  · exact hf.trans (.same rfl)

theorem KeptOut.brv {s : State} {e : BitVec 1} {p : PReg} {o : BitVec 21} : KeptOut s (execBrv e p o s) := by
  unfold execBrv
  dsimp only
  split
  · exact .same rfl
  · split
    · exact .refl
    · split
      · exact .takeTrap
      · exact .same rfl

theorem KeptOut.waitc {s : State} {l sc p t : BitVec 6} : KeptOut s (execWaitc l sc p t s) := by
  unfold execWaitc
  dsimp only
  split
  · exact .stopAtCheckpoint
  · split
    · split
      · exact .needToken ‹_›
      · exact .park .refl
    · split
      · split
        · exact .takeFailure
        · exact .refl
      · exact .park .refl

theorem KeptOut.wrspc {s : State} {a : SReg} {n : BitVec 8} : KeptOut s (execWrspc a n s) := by
  unfold execWrspc
  split
  · exact .modGrp .refl
  · exact .takeTrap

theorem KeptOut.sigchk {s : State} {i : BitVec 16} : KeptOut s (execSigchk i s) := by
  unfold execSigchk
  split
  · exact .modGrp .refl
  · split
    · exact .mismatch
    · exact .takeTrap

/-! ## Copy queues -/

theorem Kept.publish {s : State} {ws : List W64} : Kept s (s.publish ws) := by
  unfold State.publish
  dsimp only
  split
  · exact .refl
  · exact .same rfl

theorem Kept.publishAll (l : List (List W64)) {s : State} : Kept s (l.foldl State.publish s) := by
  induction l generalizing s with
  | nil => exact .refl
  | cons ws l ih => exact Kept.publish.trans ih

theorem Kept.notify {s t : State} (h : Kept s t) : Kept s t.notify := by
  unfold State.notify
  split
  · exact h.modDev
  · exact h

theorem KeptOut.cqpush {s : State} {d : SReg} {a : BitVec 4} : KeptOut s (execCqpush d a s) := by
  unfold execCqpush
  dsimp only
  split
  · exact .takeTrap
  · split
    · exact .takeTrap
    · split
      · split
        · show Kept s (s.needToken.getD _)
          cases h : s.needToken with
          | none => exact .stall
          | some t => exact .needToken h
        · exact .stall
      · split
        · exact .stall
        · refine Kept.afterStores fun t => ?_
          split
          · exact Kept.settleSets.of_sum (.inr ‹_›)
          · have k := Kept.settleSets.of_sum (.inl ‹_›)
            exact (k.modDev.trans .publish).notify.wrS

theorem KeptOut.cqpub {s : State} {d a : SReg} : KeptOut s (execCqpub d a s) := by
  unfold execCqpub
  dsimp only
  split
  · exact .wrS .refl
  · split
    · exact .wrS .refl
    · split
      · exact .wrS .refl
      · split
        · exact .stall
        · refine Kept.afterStores fun t => ?_
          split
          · exact Kept.settleSets.of_sum (.inr ‹_›)
          · have k := Kept.settleSets.of_sum (.inl ‹_›)
            exact (k.trans (.publishAll _)).notify.wrS

/-! ## The matrix unit -/

theorem Kept.mxTrap {s : State} : Kept s s.mxTrap := .takeTrap

theorem Kept.enqueue {s : State} {k : MxKind} {r : List (Nat × Nat)} {irr : Bool} {rs : List RegName} : Kept s (s.enqueue k r irr rs) := by
  unfold State.enqueue
  split
  · exact Kept.settleSets.of_sum (.inr ‹_›)
  · have c := Kept.settleSets.of_sum (.inl ‹_›)
    dsimp only
    split
    · exact .stall
    · exact (c.trans .newOp).modDev

theorem Kept.tileMove {s : State} {k : AccKind} {a b : SReg} {go : Nat → Nat → Nat → State} (hg : ∀ x y z, Kept s (go x y z)) :
    Kept s (s.tileMove k a b go) := by
  unfold State.tileMove
  dsimp only
  split
  · exact .mxTrap
  · split
    · exact .takeTrap
    · split
      · exact .takeTrap
      · exact hg _ _ _

theorem Kept.mxcnt {s : State} {d : SReg} {prune clr : Bool} : Kept s (s.mxcnt d prune clr) := by
  unfold State.mxcnt
  refine Kept.wrS ?_
  split
  · exact .dev _
  · exact .refl

theorem KeptOut.mma {s : State} {t : BitVec 2} {a b : BitVec 4} {n m e : BitVec 1} {sh r : BitVec 4} : KeptOut s (execMma t a b n m e sh r s) := by
  unfold execMma
  split
  · exact .mxTrap
  · split
    · exact .mxTrap
    · exact .enqueue

theorem KeptOut.mres {s : State} {d a : SReg} {h : BitVec 4} : KeptOut s (execMres d a h s) := by
  unfold execMres
  split
  · exact .stall
  · refine Kept.withRecord fun t ws => ?_
    dsimp only
    repeat' split
    all_goals exact .same rfl

theorem KeptOut.mrel {s : State} {h : BitVec 4} : KeptOut s (execMrel h s) := by
  unfold execMrel
  split
  · exact .stall
  · split
    · exact .refl
    · dsimp only
      split
      · exact .dev _
      · exact .same rfl

theorem KeptOut.mshape {s : State} {sh : BitVec 4} {a : SReg} : KeptOut s (execMshape sh a s) := by
  unfold execMshape
  split
  · exact .stall
  · exact .withRecord fun _ _ => .dev _

theorem KeptOut.mlda {s : State} {h : BitVec 4} {a b : SReg} : KeptOut s (execMlda h a b s) := by
  unfold execMlda
  dsimp only
  split
  · exact .mxTrap
  · split
    · exact .mxTrap
    · split
      · exact .takeTrap
      · exact .enqueue

theorem KeptOut.mldb {s : State} {h : BitVec 4} {a b : SReg} : KeptOut s (execMldb h a b s) := by
  unfold execMldb
  dsimp only
  split
  · exact .mxTrap
  · split
    · exact .mxTrap
    · split
      · exact .takeTrap
      · split
        · exact .takeTrap
        · exact .enqueue

/-! ## Launches, queues, mailboxes and streams -/

theorem KeptOut.lprog {s : State} {d a : SReg} {n : BitVec 4} : KeptOut s (execLprog d a n s) := by
  refine Kept.withRecord fun t ws => ?_
  split
  · exact .wrS .refl
  · exact Kept.wrS (.dev _)

theorem KeptOut.sopen {s : State} {d a : SReg} {n : BitVec 4} : KeptOut s (execSopen d a n s) := by
  refine Kept.withRecord fun t ws => ?_
  repeat' split
  all_goals exact .same rfl

theorem KeptOut.lnch {s : State} {d a : SReg} : KeptOut s (execLnch d a s) := by
  refine Kept.irrevocably fun t => .afterStores fun t => .withRecord fun t ws => ?_
  split
  · exact .wrS .refl
  · have read : Kept t (t.loadRecords 16 (tableAddrs ws)).state := .loadRecords _
    split
    · exact read.of_rec ‹_›
    · have k := read.of_rec ‹_›
      dsimp only
      split
      · exact Kept.wrS k
      · split
        · exact Kept.wrS k
        · exact Kept.wrS (k.trans (.dev _))

theorem Kept.qcfg {s : State} {d a b : SReg} : Kept s (s.qcfg d a b) := by
  refine .irrevocably fun t => ?_
  dsimp only
  split
  · exact .withRecord fun _ _ => .same rfl
  · exact .same rfl
  · exact .withRecord fun _ _ => .same rfl
  · exact .same rfl

theorem Kept.mbind {s : State} {d a b : SReg} : Kept s (s.mbind d a b) := by
  refine .irrevocably fun t => ?_
  dsimp only
  split
  · repeat' split
    all_goals exact .same rfl
  · refine .withRecord fun t im => .withRecord fun t ws => ?_
    split
    · exact .wrS .refl
    · split
      · exact .wrS .refl
      · have read : Kept t (t.loadRecords 16 (tableAddrs (handlerRecord ws (bits (wordN im 1) 53 0) (bits (wordN im 3) 5 0)))).state := .loadRecords _
        split
        · exact read.of_rec ‹_›
        · have k := read.of_rec ‹_›
          split
          · exact Kept.wrS k
          · split
            · exact Kept.wrS k
            · exact k.modDev.wrS

theorem Kept.mboxq {s : State} {d a : SReg} : Kept s (s.mboxq d a) := by
  unfold State.mboxq
  dsimp only
  split
  · refine .irrevocably fun t => ?_
    split <;> exact .same rfl
  · split <;> exact .same rfl

theorem Kept.tlbi {s : State} {a b : SReg} : Kept s (s.tlbi a b) := by
  refine .irrevocably fun t => .afterStores fun t => ?_
  dsimp only
  split
  · exact .dev _
  · exact Kept.park (.dev _)

theorem Kept.wlatch {s : State} {d a : SReg} : Kept s (s.wlatch d a) := by
  refine .irrevocably fun t => ?_
  dsimp only
  repeat' split
  all_goals exact .same rfl

theorem Kept.boost {s : State} {d a b : SReg} : Kept s (s.boost d a b) := .irrevocably fun _ => .same rfl

theorem KeptOut.lifeset {s : State} {d a : SReg} : KeptOut s (execLifeset d a s) := by
  refine Kept.irrevocably fun t => .afterStores fun t => .withRecord fun t ws => ?_
  split
  · exact .wrS .refl
  · exact Kept.wrS (.dev _)

theorem KeptOut.diagst {s : State} {k a b : SReg} : KeptOut s (execDiagst k a b s) :=
  Kept.irrevocably fun _ => .afterMemory fun _ => .dev _

theorem KeptOut.diagld {s : State} {d a : SReg} : KeptOut s (execDiagld d a s) := Kept.afterMemory fun _ => .same rfl

theorem KeptOut.rdnBegin {s : State} {d : SReg} : KeptOut s (execRdnBegin d s) := by
  unfold execRdnBegin
  split
  · exact .wrS .refl
  · split
    · exact .wrS .refl
    · refine Kept.afterMemory fun t => ?_
      repeat' split
      all_goals exact .same rfl

/-! ## Management commands -/

theorem Kept.resendDue {s : State} {tag : Nat} {full : Bool} : Kept s (s.resendDue tag full) := by
  unfold State.resendDue
  repeat' split
  all_goals exact .dev _

theorem Kept.submit {s : State} {c : Cmd} {fits : Bool} {f : Dev → CmdResult} : Kept s (s.submit c fits f) := by
  unfold State.submit
  split
  · exact .refl
  · split <;> exact .dev _

theorem Kept.readCmd {s : State} {c : Cmd} {kind : Nat} {ok : Bool} {f : Dev → CmdResult} : Kept s (s.readCmd c kind ok f) := .submit

theorem keeps_execCommand (c : Cmd) : Keeps (execCommand c) := by
  unfold execCommand
  repeat' split
  all_goals exact fun _ => Kept.submit

theorem KeptOut.hostMemoryRequest {s : State} {m : HostReq} : KeptOut s (execHostMemoryRequest m s) := by
  have bar : KeptOut s (s.barAccess m) := by
    unfold State.barAccess
    split
    · exact .modDev .refl
    · split
      · exact .dev _
      · dsimp only
        split
        · exact keeps_execCommand _ _
        · exact .modDev .refl
  unfold execHostMemoryRequest
  extract_lets long
  split
  · exact .modDev .refl
  · split
    · exact bar
    · exact .dev _

/-! ## Words and steps that answer by cases -/

theorem KeptOut.ite {s : State} {c : Prop} [Decidable c] {a b : Out} (ha : KeptOut s a) (hb : KeptOut s b) : KeptOut s (if c then a else b) := by
  split
  · exact ha
  · exact hb

theorem KeptOut.cqinit {s : State} {d a : SReg} : KeptOut s (execCqinit d a s) := by
  unfold execCqinit
  dsimp only
  split
  · exact .wrS .refl
  · split
    · exact .wrS .refl
    · split
      · exact .wrS .refl
      · exact Kept.wrS (.dev _)

theorem KeptOut.preemptionDeadline {s : State} {task : Nat} : KeptOut s (execPreemptionDeadline task s) := by
  unfold execPreemptionDeadline
  split
  · exact .refl
  · refine KeptOut.ite Kept.refl (KeptOut.ite (Kept.dev _) ?_)
    extract_lets cs fits
    clear_value fits cs
    split
    · exact .refl
    · exact .dev _

theorem KeptOut.timeSyncPulse {s : State} : KeptOut s (execTimeSyncPulse s) := by
  show Kept s (if _ then s else _)
  split
  · exact .refl
  · exact .dev _

theorem KeptOut.supplyLossWarning {s : State} : KeptOut s (execSupplyLossWarning s) := by
  unfold execSupplyLossWarning
  dsimp only
  split
  · exact .refl
  · exact .ended rfl

/-- Every word: those that answer by cases change the device in each, and those not named change it in the one they have. -/
theorem keeps_word {i : Instr} (h : i.body.isSome = true) : Keeps (exec i) := by
  intro s
  cases i <;> cases h
  case jmpi | ret => exact Kept.jump .refl
  case calli => exact Kept.jump (.wrS .refl)
  case brv => exact KeptOut.brv
  case waitc => exact KeptOut.waitc
  case wrspc => exact KeptOut.wrspc
  case sigchk => exact KeptOut.sigchk
  case ldP | ldS | ldC | ldK | ldG => exact Kept.levelLoad
  case stP | stS | stC | stK | stG => exact Kept.levelStore
  case atomAdd | atomMinI | atomMinN | atomMaxI | atomMaxN | atomAnd | atomOr | atomXor | atomXchg | atomAddF32 | atomCas => exact Kept.atomic
  case redAdd | redMinI | redMinN | redMaxI | redMaxN | redAnd | redOr | redXor | redAddF32 => exact Kept.reduce
  case ldu | stu => exact Kept.memWord fun _ _ => .checkGeneric
  case lda => exact Kept.genericLoad
  case sta => exact Kept.genericStore
  case prefL1 | prefL2 => exact Kept.prefetch
  case acqld => exact KeptOut.acqld
  case relst => exact KeptOut.relst
  case barw => exact Kept.barArrival fun _ _ _ => .barWait
  case bara => exact KeptOut.bara
  case bart => exact KeptOut.bart
  case marm => exact Kept.monAddress fun _ _ => Kept.arm.trans .pairAfter
  case mwaitNe | mwaitGe => exact Kept.mwait
  case adecl => exact KeptOut.adecl
  case mma => exact KeptOut.mma
  case mres => exact KeptOut.mres
  case mrel => exact KeptOut.mrel
  case mlda => exact KeptOut.mlda
  case mldb => exact KeptOut.mldb
  case mshape => exact KeptOut.mshape
  case mzero | mtrv | mtwv => exact Kept.enqueue
  case mtld | mtst => exact Kept.tileMove fun _ _ _ => .enqueue
  case mxcntExceptions | mxcntPrune => exact Kept.mxcnt
  case cqinit => exact KeptOut.cqinit
  case cqpush => exact KeptOut.cqpush
  case cqpub => exact KeptOut.cqpub
  case lprog => exact KeptOut.lprog
  case sopen => exact KeptOut.sopen
  case lnch => exact KeptOut.lnch
  case mbindBind | mbindUnbind => exact Kept.mbind
  case mboxqRead | mboxqClearOverflow | mboxqDiscardPending => exact Kept.mboxq
  case qcfgConfigure | qcfgDisable | qcfgMask | qcfgRead => exact Kept.qcfg
  case tlbiPage | tlbiAsn | tlbiWorld | tlbiAll => exact Kept.tlbi
  case wlatchRead | wlatchSet => exact Kept.wlatch
  case diagst => exact KeptOut.diagst
  case diagld => exact KeptOut.diagld
  case boostGrant | boostEnd => exact Kept.boost
  case lifeset => exact KeptOut.lifeset
  case rdnBegin => exact KeptOut.rdnBegin
  case airrev => exact KeptOut.airrev
  case brf | loop | xferGet | xferFirst | xferPut | astat | cqwptr | cqstat | sskip | sstat | grd | gwr | gstat | gresume | gkill | sigrd | yld |
      rdnCkpt | rdnEnd =>
    dsimp only [exec, execBrf, execLoop, execXferGet, execXferFirst, execXferPut, execAstat, execCqwptr, execCqstat, execSskip, execSstat, execGrd,
      execGwr, execGstat, execGresume, execGkill, execSigrd, execYld, execRdnCkpt, execRdnEnd]
    repeat' split
    all_goals exact Kept.dev _
  all_goals exact Kept.same rfl

/-- Whether a step lets a port issue. -/
def isIssueGroup : Instr → Bool
  | .issueGroup _ _ => true
  | _ => false

/-- Every other step of the device but the issue of a port. -/
theorem keeps_deviceStep (i : Instr) (h : i.body = none := by rfl) (hi : isIssueGroup i = false := by rfl) : Keeps (exec i) := by
  intro s
  cases i <;> cases h
  case issueGroup => cases hi
  case busyResend | ticketTableFullResend => exact Kept.resendDue
  case replayNotice | dispatch | fastThrottleAlarm => exact Kept.dev _
  case preemptionDeadline => exact KeptOut.preemptionDeadline
  case timeSyncPulse => exact KeptOut.timeSyncPulse
  case supplyLossWarning => exact KeptOut.supplyLossWarning
  case reset => exact Kept.ended rfl
  case hostMemoryRequest => exact KeptOut.hostMemoryRequest
  case mgmtReadAbjstat | mgmtReadErrorLog | mgmtReadTimeBudget | mgmtReadMixedAtomicCounter | mgmtReadParameter | mgmtReadFrameWorldEntry |
      mgmtReadRouteEntry => exact Kept.readCmd
  case setTimeBudget | frameAssign | frameUnassign | setHandlerTableEntry | killWaitCycle | reformatFrameGranule | setRouteTable |
      setAttestationPolicy | setOwnerWindow | setPortConfiguration | postTicketOutcome | installBootBinding | setParameter | mgmtPreemptionRequest |
      mgmtPreemptionWithdraw | resetPort | mgmtUnassignedOp => exact Kept.submit
  case reconvergenceStackPop | splitMerge | joinRelease | groupSlotRelease | loadValueBound | storePerformed | waitcRelease | barrierRelease |
      monitorWake | monitorRemoteReread | engineRecall | atomicSetWaitAcquire | taskRestart | taskCommit | irrevocableTokenGrant | activeSetEntryFree
      | matrixEntryStart | pairArbiterGrant | mmaOccupancyEnd | mmaRetire | tileOpRetire | hintRequestTime | slewWindowBegin | rampStepEnd |
      holdExpiry | copyAccept | streamFill | streamReload | remoteAccessArrival | readData | writeAck | ticketReply | busy | ticketPost |
      requesterTicketTimeout | ownerTicketTimeout | remoteResponseTimeout | flitTransmit | flitReceive | filler | retryReplayTimeout | laneLockLoss |
      correctedSymbolThreshold | retrainStepComplete | heartbeatSend | heartbeatTimeout | linkSecretTimeout | keyPromote | reencryptionSweep |
      gridDoneWrite | mailboxArrival | handlerAccept | lineMigrate | handlerActivation | cooperativeSave | forcedSaveComplete | shadowPlaceRelease |
      waitProbe | probeForward | wearSample | recordCommit | fallowEntry | fallowWake | callupPowerupDone | callupSelftestDone | callupSave |
      callupMapUpdate | boostGrantEnd | drainWindowOpen | frequencySwitch | frequencyResume | currentWindow | timeBudgetPeriod | fastThrottleClear |
      gatingCommitWindowEnd | worldLatchClearDone | correctedError | targetedSelfTest | scrub | checkpoint | bringupStageComplete | keyExchange |
      finish | endSession | start | stop | sessionConfigWrite | instructionFetch | cxlCompleterAck | contextRestoreComplete | commandComplete =>
    dsimp only [exec, execReconvergenceStackPop, execSplitMerge, execJoinRelease, execGroupSlotRelease, execLoadValueBound, execStorePerformed,
      execWaitcRelease, execBarrierRelease, execMonitorWake, execMonitorRemoteReread, execEngineRecall, execAtomicSetWaitAcquire, execTaskRestart,
      execTaskCommit, execIrrevocableTokenGrant, execActiveSetEntryFree, execMatrixEntryStart, execPairArbiterGrant, execMmaOccupancyEnd,
      execMmaRetire, execTileOpRetire, execHintRequestTime, execSlewWindowBegin, execRampStepEnd, execHoldExpiry, execCopyAccept, execStreamFill,
      execStreamReload, execRemoteAccessArrival, execReadData, execWriteAck, execTicketReply, execBusy, execTicketPost, execRequesterTicketTimeout,
      execOwnerTicketTimeout, execRemoteResponseTimeout, execFlitTransmit, execFlitReceive, execFiller, execRetryReplayTimeout, execLaneLockLoss,
      execCorrectedSymbolThreshold, execRetrainStepComplete, execHeartbeatSend, execHeartbeatTimeout, execLinkSecretTimeout, execKeyPromote,
      execReencryptionSweep, execGridDoneWrite, execMailboxArrival, execHandlerAccept, execLineMigrate, execHandlerActivation, execCooperativeSave,
      execForcedSaveComplete, execShadowPlaceRelease, execWaitProbe, execProbeForward, execWearSample, execRecordCommit, execFallowEntry,
      execFallowWake, execCallupPowerupDone, execCallupSelftestDone, execCallupSave, execCallupMapUpdate, execBoostGrantEnd, execDrainWindowOpen,
      execFrequencySwitch, execFrequencyResume, execCurrentWindow, execTimeBudgetPeriod, execFastThrottleClear, execGatingCommitWindowEnd,
      execWorldLatchClearDone, execCorrectedError, execTargetedSelfTest, execScrub, execCheckpoint, execBringupStageComplete, execKeyExchange,
      execFinish, execEndSession, execStart, execStop, execSessionConfigWrite, execInstructionFetch, execCxlCompleterAck, execContextRestoreComplete,
      execCommandComplete]
    repeat' split
    all_goals exact Kept.dev _
  all_goals exact Kept.same rfl

/-! ## The words of an issue group one after another -/

theorem State.left_eq_none {s : State} : s.left = none ↔ s.settled = true := by
  unfold State.left State.settled
  cases s.iss.open_ <;> simp

theorem State.left_eq_some {s : State} {l : List Instr} : s.left = some l ↔ s.iss.open_ = true ∧ s.iss.words = l := by
  unfold State.left
  split <;> simp [*]

theorem Kept.settled {s t : State} (k : Kept s t) (h : s.left = none) : t.left = none := k.elim id (·.trans h)

/-- The issue group that s is in runs as far as it has words, and each of them is a word. -/
def State.Runs (s : State) : Prop := ∀ l, s.left = some l → ∀ i ∈ l, i.body.isSome = true

/-- So does that of every state that an outcome gives. -/
def RunsOut (o : Out) : Prop := ∀ t, o = .next t → t.Runs

theorem RunsOut.next {t : State} (h : t.Runs) : RunsOut (.next t) := by
  rintro _ ⟨⟩
  exact h

theorem State.runs_of_left {s : State} (h : s.left = none) : s.Runs := fun l hl => by rw [h] at hl; cases hl

theorem RunsOut.of_left {t : State} (h : t.left = none) : RunsOut (.next t) := .next (State.runs_of_left h)

/-- A word leaves the words after it to run, or ends the issue group. -/
theorem left_of_runWord {s t : State} {i : Instr} {l : List Instr} (hi : i.body.isSome = true) (hs : s.iss.open_ = true) (h : s.runWord i l = .next t) :
    t.left = none ∨ t.left = some l := by
  have k := keeps_word hi (s.modIss (fun x => { x with words := l }))
  have now : (s.modIss (fun x => { x with words := l })).left = some l := State.left_eq_some.2 ⟨hs, rfl⟩
  unfold State.runWord at h
  split at h
  next u hu =>
    rw [hu] at k
    have same : t.left = u.left := by
      cases h
      split <;> rfl
    rw [same, ← now]
    exact k
  next hu => exact absurd h (hu t)

/-- With fuel for every word and the close, nothing of the issue group is left. -/
theorem settled_of_runWords (n : Nat) {s t : State} (hn : ∀ l, s.left = some l → l.length < n) (hw : s.Runs) (h : s.runWords n = .next t) :
    t.left = none := by
  induction n generalizing s with
  | zero =>
    have same : s = t := by
      cases h
      rfl
    rw [← same]
    cases hl : s.left with
    | none => rfl
    | some l => exact absurd (hn l hl) (Nat.not_lt_zero _)
  | succ n ih =>
    unfold State.runWords at h
    cases ho : s.iss.open_ with
    | false =>
      simp only [ho, Bool.not_false, if_true] at h
      cases h
      exact State.left_eq_none.2 (by simp [State.settled, ho])
    | true =>
      simp only [ho, Bool.not_true, Bool.false_eq_true, if_false] at h
      split at h
      · cases h
        rfl
      next i l hl =>
        have left : s.left = some (i :: l) := State.left_eq_some.2 ⟨ho, hl⟩
        have words := List.forall_mem_cons.1 (hw _ left)
        split at h
        next u hu =>
          rcases left_of_runWord words.1 ho hu with hnone | hrest
          · exact ih (fun _ hl => by rw [hnone] at hl; cases hl) (State.runs_of_left hnone) h
          · refine ih (fun k hk => ?_) (fun k hk => ?_) h
            · cases hrest.symm.trans hk
              exact Nat.lt_of_succ_lt_succ (hn _ left)
            · cases hrest.symm.trans hk
              exact words.2
        next hu => exact absurd h (hu t)

theorem settled_of_finish {o : Out} {t : State} (ho : RunsOut o) (h : finish o = .next t) : t.left = none := by
  unfold finish at h
  split at h
  next s =>
    refine settled_of_runWords _ (fun l hl => ?_) (ho s rfl) h
    rw [(State.left_eq_some.1 hl).2]
    exact Nat.lt_succ_self _
  next ho' => exact absurd h (ho' t)

/-! ## TIME that passes and the device's own steps -/

theorem RunsOut.of_kept {s : State} {o : Out} (hs : s.left = none) (k : KeptOut s o) : RunsOut o := by
  rintro t rfl
  exact State.runs_of_left (Kept.settled k hs)

theorem Kept.pulses (n : Nat) {s : State} : Kept s (s.pulses n) := by
  induction n generalizing s with
  | zero => exact .refl
  | succ n ih =>
    have k : KeptOut (s.later ((s.dev.time / 16000 + 1) * 16000)) (execTimeSyncPulse (s.later ((s.dev.time / 16000 + 1) * 16000))) := .timeSyncPulse
    unfold State.pulses
    split
    next u hu =>
      rw [hu] at k
      exact (Kept.trans (.dev _) k).trans ih
    · exact .refl

theorem Kept.pass {s : State} {n : Nat} : Kept s (s.pass n) := by
  unfold State.pass
  split
  · exact .refl
  · exact (Kept.pulses _).modDev.modDev

/-! ## Candidates -/

/-- Each of some candidates leaves the words still to run, or ends their issue group. -/
def AllKeep (l : List Candidate) : Prop := ∀ f ∈ l, Keeps f

theorem AllKeep.nil : AllKeep [] := fun _ h => nomatch h
theorem AllKeep.cons {f : Candidate} {l : List Candidate} (h : Keeps f) (k : AllKeep l) : AllKeep (f :: l) := List.forall_mem_cons.2 ⟨h, k⟩
theorem AllKeep.append {l m : List Candidate} (h : AllKeep l) (k : AllKeep m) : AllKeep (l ++ m) := List.forall_mem_append.2 ⟨h, k⟩
theorem AllKeep.single {f : Candidate} (h : Keeps f) : AllKeep [f] := .cons h .nil
theorem AllKeep.flatMap {α : Type} {l : List α} {f : α → List Candidate} (h : ∀ x, AllKeep (f x)) : AllKeep (l.flatMap f) := fun _ hg =>
  let ⟨x, _, hx⟩ := List.mem_flatMap.1 hg
  h x _ hx
theorem AllKeep.map {α : Type} {l : List α} {f : α → Candidate} (h : ∀ x, Keeps (f x)) : AllKeep (l.map f) := fun _ hg =>
  let ⟨x, _, hx⟩ := List.mem_map.1 hg
  hx ▸ h x
theorem AllKeep.dueIf {b : Bool} {f : Candidate} (h : Keeps f) : AllKeep (dueIf b f) := by
  cases b
  · exact .nil
  · exact .single h

theorem keeps_messageStep (m : Msg) : Keeps (messageStep m) := by
  unfold messageStep
  split
  · exact keeps_deviceStep (.remoteAccessArrival _)
  · exact keeps_deviceStep (.remoteAccessArrival _)
  · exact keeps_deviceStep (.remoteAccessArrival _)
  · exact keeps_deviceStep (.readData _ _)
  · exact keeps_deviceStep (.writeAck _)
  · exact keeps_deviceStep (.ticketReply _ _)
  · exact keeps_deviceStep (.replayNotice _)
  · exact keeps_deviceStep (.busy _)
  · exact keeps_deviceStep (.heartbeat _)
  · exact fun _ => Kept.refl

theorem keeps_takeMessage (link : Nat) (m : Msg) : Keeps (takeMessage link m) := by
  intro s
  have k := keeps_messageStep m (s.modDev (fun d => d.modLink link (fun k => ({ k with inbox := k.inbox.erase m } : Link).freeBuffers)))
  unfold takeMessage
  dsimp only
  generalize messageStep m _ = o at k ⊢
  cases o with
  | next t =>
    dsimp only
    split
    · exact Kept.refl
    · exact Kept.trans (.dev _) k
  | fault f => trivial
  | refused r => trivial

theorem allKeep_linkSteps (d : Dev) (l : Nat × Link) : AllKeep (linkSteps d l) := by
  unfold linkSteps
  repeat' with_reducible apply AllKeep.append
  · exact .map (keeps_takeMessage _)
  · exact .flatMap fun _ => .dueIf (keeps_deviceStep (.flitTransmit _ _))
  · exact .dueIf (keeps_deviceStep (.retryReplayTimeout _))
  · exact .dueIf (keeps_deviceStep (.filler _))
  · exact .dueIf (keeps_deviceStep (.flitCounterExhaustion _))
  · exact .dueIf (keeps_deviceStep (.linkSecretTimeout _))

theorem allKeep_opSteps (d : Dev) (o : Nat × Op) : AllKeep (opSteps d o) := by
  unfold opSteps
  repeat' with_reducible apply AllKeep.append
  · exact .dueIf (keeps_deviceStep (.loadValueBound _))
  · exact .dueIf (keeps_deviceStep (.storePerformed _))
  · exact .dueIf (keeps_deviceStep (.cxlCompleterAck _))
  · exact .dueIf (keeps_deviceStep (.waitProbe _ _ _))

theorem allKeep_splitSteps (d : Dev) (core slot i : Nat) (x : Split) : AllKeep (splitSteps d core slot i x) := by
  unfold splitSteps
  refine .append ?_ (.dueIf (keeps_deviceStep (.waitProbe _ _ _)))
  split
  · exact .dueIf (keeps_deviceStep (.waitCountPromotion _ _ _))
  · exact .single (keeps_deviceStep (.barrierRelease _ _ _))
  · split
    · exact .single (keeps_deviceStep (.monitorRemoteReread _ _ _))
    · exact .single (keeps_deviceStep (.monitorWake _ _ _))
  · exact .dueIf (keeps_deviceStep (.waitcRelease _ _ _))

theorem allKeep_groupSteps (d : Dev) (k : Nat × Group) : AllKeep (groupSteps d k) := by
  unfold groupSteps
  dsimp only
  repeat' with_reducible apply AllKeep.append
  · exact .dueIf (keeps_deviceStep (.reconvergenceStackPop _ _))
  · exact .dueIf (keeps_deviceStep (.splitMerge _ _))
  · exact .dueIf (keeps_deviceStep (.joinRelease _ _))
  · exact .flatMap fun _ => .dueIf (keeps_deviceStep (.counterEnd _ _ _))
  · refine .flatMap fun p => ?_
    split
    · exact allKeep_splitSteps _ _ _ _ _
    · exact .nil
  · exact .dueIf (keeps_deviceStep (.checkpoint _ _))
  · exact .dueIf (keeps_deviceStep (.waitProbe _ _ _))
  · exact .dueIf (keeps_deviceStep (.waitProbe _ _ _))
  · exact .map fun _ => keeps_deviceStep (.instructionFetch _ _ _)
  · exact .dueIf (keeps_deviceStep (.groupSlotRelease _ _))

theorem allKeep_coreSteps (d : Dev) (c : Nat × Core) : AllKeep (coreSteps d c) := by
  unfold coreSteps
  repeat' with_reducible apply AllKeep.append
  · exact .dueIf (keeps_deviceStep (.handlerActivation _))
  · exact .dueIf (keeps_deviceStep (.worldLatchClearDone _))
  · refine .flatMap fun e => ?_
    split
    · exact .single (keeps_deviceStep (.mmaRetire _ _))
    · exact .cons (keeps_deviceStep (.matrixEntryStart _ _)) (.single (keeps_deviceStep (.tileOpRetire _ _)))
  · exact .dueIf (keeps_deviceStep (.pairArbiterGrant _))
  · exact .dueIf (keeps_deviceStep (.reservationClearDone _))

theorem allKeep_pairSteps (p : Nat × Pair) : AllKeep (pairSteps p) := by
  unfold pairSteps
  repeat' with_reducible apply AllKeep.append
  · exact .dueIf (keeps_deviceStep (.pairArbiterGrant _))
  · exact .dueIf (keeps_deviceStep (.mmaOccupancyEnd _))
  · exact .dueIf (keeps_deviceStep (.hintRequestTime _))
  · exact .dueIf (keeps_deviceStep (.rampStepEnd _))
  · exact .dueIf (keeps_deviceStep (.holdExpiry _))
  · exact .dueIf (keeps_deviceStep (.slewWindowBegin _))

theorem allKeep_clusterSteps (d : Dev) (c : Nat × Cluster) : AllKeep (clusterSteps d c) := by
  unfold clusterSteps
  repeat' with_reducible apply AllKeep.append
  · exact .map fun _ => keeps_deviceStep (.engineRecall _ _)
  · exact .map fun _ => keeps_deviceStep (.copyComplete _ _)
  · exact .dueIf (keeps_deviceStep (.fallowWake _))
  · exact .dueIf (keeps_deviceStep (.gatingCommitWindowEnd _))
  · exact .dueIf (keeps_deviceStep (.forcedSaveComplete _))
  · exact .dueIf (keeps_deviceStep (.contextRestoreComplete _))

theorem allKeep_taskSteps (d : Dev) (t : Nat × Task) : AllKeep (taskSteps d t) := by
  unfold taskSteps
  repeat' with_reducible apply AllKeep.append
  · exact .dueIf (keeps_deviceStep (.allotmentClearDone _))
  · exact .dueIf (keeps_deviceStep (.contextRestoreComplete _))
  · exact .dueIf (keeps_deviceStep (.atomicSetWaitAcquire _))
  · exact .dueIf (keeps_deviceStep (.taskCommit _))
  · exact .dueIf (keeps_deviceStep (.taskRestart _))
  · exact .dueIf (keeps_deviceStep (.irrevocableTokenGrant _))
  · exact .dueIf (keeps_deviceStep (.activeSetEntryFree _))
  · exact .flatMap fun _ => .cons (keeps_deviceStep (.streamFill _ _)) (.single (keeps_deviceStep (.streamReload _ _)))
  · exact .dueIf (keeps_deviceStep (.copyAccept _))
  · exact .dueIf (keeps_deviceStep (.cooperativeSave _))
  · exact .dueIf (keeps_deviceStep (.preemptionDeadline _))

theorem allKeep_gridSteps (g : Nat × Grid) : AllKeep (gridSteps g) :=
  .append (.dueIf (keeps_deviceStep (.dependenceCheck _))) (.dueIf (keeps_deviceStep (.gridDoneWrite _)))

theorem allKeep_dieSteps (x : Nat × Die) : AllKeep (dieSteps x) := by
  unfold dieSteps
  repeat' with_reducible apply AllKeep.append
  · exact .flatMap fun _ => .dueIf (keeps_deviceStep (.shadowPlaceRelease _ _))
  · exact .map fun _ => keeps_deviceStep (.requesterTicketTimeout _ _)
  · exact .map fun _ => keeps_deviceStep (.noticeRetentionExpiry _)
  · split
    · exact .append (.dueIf (keeps_deviceStep (.callupSave _))) (.dueIf (keeps_deviceStep (.callupMapUpdate _)))
    · exact .nil

theorem allKeep_requestSteps (r : Nat × Request) : AllKeep (requestSteps r) := by
  unfold requestSteps
  split
  · exact .cons (keeps_deviceStep (.busyResend _)) (.single (keeps_deviceStep (.ticketTableFullResend _)))
  · exact .single (keeps_deviceStep (.remoteResponseTimeout _))

theorem allKeep_boxSteps (b : Nat × Mailbox) : AllKeep (boxSteps b) :=
  .append (.dueIf (keeps_deviceStep (.mailboxArrival _))) (.dueIf (keeps_deviceStep (.handlerAccept _)))

theorem allKeep_changeSteps (x : Nat × Change) : AllKeep (changeSteps x) :=
  .cons (keeps_deviceStep (.drainWindowOpen _)) (.cons (keeps_deviceStep (.frequencySwitch _)) (.single (keeps_deviceStep (.frequencyResume _))))

theorem keeps_decision : Keeps decision := by
  intro s
  have k : KeptOut s (execDispatch s) := keeps_deviceStep .dispatch rfl rfl s
  unfold decision
  generalize execDispatch s = o at k ⊢
  cases o with
  | next t =>
    dsimp only
    split
    · exact Kept.refl
    · exact k
  | fault f => trivial
  | refused r => trivial

theorem Keeps.both {f g : Candidate} (hf : Keeps f) (hg : Keeps g) : Keeps (both f g) := by
  intro s
  have k := hf s
  unfold Machine.both
  split
  next t ht =>
    rw [ht] at k
    have k2 := hg t
    cases hu : g t with
    | next u =>
      rw [hu] at k2
      exact Kept.trans k k2
    | fault f => trivial
    | refused r => trivial
  · exact k

theorem allKeep_candidates (d : Dev) : AllKeep d.candidates := by
  unfold Dev.candidates
  repeat' with_reducible apply AllKeep.append
  · exact .flatMap (allKeep_groupSteps d)
  · exact .flatMap (allKeep_opSteps d)
  · exact .map fun _ => keeps_deviceStep (.ticketPost _ _)
  · exact .flatMap allKeep_boxSteps
  · exact .flatMap (allKeep_linkSteps d)
  · exact .flatMap (allKeep_coreSteps d)
  · exact .flatMap allKeep_pairSteps
  · exact .flatMap (allKeep_clusterSteps d)
  · exact .flatMap (allKeep_taskSteps d)
  · exact .flatMap allKeep_gridSteps
  · exact .dueIf @keeps_decision
  · exact .flatMap allKeep_dieSteps
  · exact .flatMap allKeep_requestSteps
  · exact .flatMap allKeep_changeSteps
  · exact .map fun _ => keeps_deviceStep (.probeForward _)
  · exact .map fun _ => keeps_deviceStep (.tagRetentionExpiry _ _)
  · exact .map fun _ => keeps_deviceStep (.ownerTicketTimeout _)
  · exact .flatMap fun _ => .cons (keeps_deviceStep (.heartbeatSend _)) (.single (keeps_deviceStep (.heartbeatTimeout _)))
  · exact .map fun _ => keeps_deviceStep (.boostGrantEnd _)
  · exact .map fun _ => keeps_deviceStep (.recordCommit _)
  · exact .map fun _ => keeps_deviceStep (.fallowEntry _)
  · exact .dueIf (keeps_deviceStep .fastThrottleAlarm)
  · exact .map fun _ => keeps_deviceStep (.reencryptionSweep _ _)
  · exact .map fun _ => keeps_deviceStep (.lineMigrate _)
  · exact .dueIf (keeps_deviceStep .commandComplete)
  · exact .dueIf (.both (keeps_deviceStep .migrationPeriodEnd) (keeps_deviceStep .timeBudgetPeriod))

theorem Kept.firstChange {s t : State} (l : List Candidate) (hl : AllKeep l) (h : firstChange s l = some t) : Kept s t := by
  induction l with
  | nil => cases h
  | cons f l ih =>
    obtain ⟨hf, hl⟩ := List.forall_mem_cons.1 hl
    have k := hf s
    unfold Machine.firstChange at h
    split at h
    next u hu =>
      split at h
      · exact ih hl h
      · rw [hu] at k
        cases h
        exact k
    · exact ih hl h

/-! ## The issue of a port -/

theorem body_of_decoded {w : W32} {i : Instr} (h : decoded w = some i) : i.body.isSome = true := by
  unfold decoded at h
  split at h
  next j hj =>
    cases h
    obtain ⟨hf, -⟩ := decodeWord_eq_ok.1 hj
    obtain ⟨mb, hmb, -⟩ := carries_of_decodeFields hf
    exact Option.isSome_iff_exists.2 ⟨mb, hmb⟩
  · cases h

theorem Kept.popHeads (l : List Nat) {s : State} : Kept s (s.popHeads l) := by
  induction l generalizing s with
  | nil => exact .refl
  | cons q l ih =>
    unfold State.popHeads
    dsimp only
    split
    · exact Kept.trans (.same rfl) ih
    · exact ih

theorem Kept.enterGroup {s : State} {raw : List W32} : Kept s (s.enterGroup raw) := by
  unfold State.enterGroup
  dsimp only
  split
  · exact Kept.settleSets.of_sum (.inr ‹_›)
  · exact ((Kept.settleSets.of_sum (.inl ‹_›)).trans (.popHeads _)).modGrp

theorem State.Runs.of_kept {s t : State} (h : s.Runs) (k : Kept s t) : t.Runs := by
  rcases k with k | k
  · exact State.runs_of_left k
  · exact fun l hl => h l (k.symm.trans hl)

/-- The words of an issue group that opens are those that its packet's words decode to. -/
theorem runs_opened {s : State} {d e : Dev} {core slot split : Nat} {x : Split} {pos : Pos} {raw : List W32} :
    State.Runs { s with dev := d, iss := openIssue e core slot split x pos raw } := by
  intro l hl i hi
  obtain ⟨-, rfl⟩ := State.left_eq_some.1 hl
  obtain ⟨w, -, hw⟩ := List.mem_filterMap.1 hi
  exact body_of_decoded hw

theorem runs_issueSplit {s : State} (hs : s.left = none) {core slot split : Nat} {x : Split} : (s.issueSplit core slot split x).Runs := by
  unfold State.issueSplit
  dsimp only
  split
  · split
    · exact State.runs_of_left rfl
    · exact State.runs_of_left hs
  · split
    · exact State.runs_of_left hs
    · exact State.runs_of_left rfl
    · exact State.runs_of_left rfl
    · exact runs_opened.of_kept .enterGroup

theorem runs_execIssueGroup {s : State} (hs : s.left = none) {core port : Nat} : RunsOut (execIssueGroup core port s) := by
  unfold execIssueGroup
  split
  · exact .of_left hs
  · exact .next (runs_issueSplit (Kept.settled (.dev _) hs))

theorem runs_issueFrom {s : State} (hs : s.left = none) {p : Nat} : RunsOut (s.issueFrom p) := runs_execIssueGroup (Kept.pass.settled hs)

/-! ## The step that comes next -/

theorem runs_scheduled {s : State} (hs : s.left = none) {e : Sched} {l : List Sched} : RunsOut (s.scheduled e l) := by
  have passed : State.left { s.pass e.after with agenda := l } = none := Kept.pass.settled hs
  unfold State.scheduled
  dsimp only
  split
  next hb =>
    cases hi : isIssueGroup e.ev with
    | false => exact .of_kept passed (keeps_deviceStep _ (Option.isNone_iff_eq_none.1 hb) hi _)
    | true =>
      unfold isIssueGroup at hi
      split at hi
      next hev =>
        rw [hev]
        exact runs_execIssueGroup passed
      · cases hi
  · exact .of_left passed

theorem runs_ownStep {s : State} (hs : s.left = none) : RunsOut s.ownStep := by
  unfold State.ownStep
  split
  next t ht => exact .of_left ((Kept.firstChange _ (allKeep_candidates _) ht).settled hs)
  · split
    · exact runs_issueFrom hs
    · split
      · exact .of_kept (Kept.settled (.dev _) hs) (keeps_deviceStep (.bringupStageComplete _) rfl rfl _)
      · exact .of_left (Kept.pass.settled hs)

theorem runs_afterLoss {s : State} (hs : s.left = none) : RunsOut s.afterLoss := by
  unfold State.afterLoss
  split
  · split
    · exact runs_scheduled hs
    · exact .of_left hs
  · exact fun _ h => nomatch h

theorem runs_nextStep {s : State} (hs : s.left = none) : RunsOut s.nextStep := by
  unfold State.nextStep
  split
  · exact runs_afterLoss hs
  · split
    · exact runs_issueFrom (s := { s with pick := none }) hs
    · exact runs_scheduled hs
    · exact runs_ownStep hs

/-- Settles O59: a step leads to an issue group whose words are words of the machine, each of which leaves the words after it or ends the group, and the step
has fuel for all of them. -/
theorem stepsLeaveNoIssueGroupOpen : Obligations.StepsLeaveNoIssueGroupOpen := fun _ _ hs h =>
  State.left_eq_none.1 (settled_of_finish (runs_nextStep (State.left_eq_none.2 hs)) h)

/-- What the first part of O56 says holds where no issue group is in progress. -/
theorem step_of_port_shut {s v : State} {port : Nat} (hv : v.settled = true) (h : s.nextStep = v.issueFrom port)
    (shut : (v.takeTurn port).dev.portOpen (port / 4) (port % 4) = false) : step s = .next (v.takeTurn port) := by
  have idle : v.issueFrom port = .next (v.takeTurn port) := by
    simp [State.issueFrom, execIssueGroup, Dev.portChoice, shut]
  have closed : (v.takeTurn port).settled = true := State.left_eq_none.1 (Kept.pass.settled (State.left_eq_none.2 hv))
  rw [step, h, idle, finish, State.runWords]
  exact if_pos closed

end Sys2Proof.Machine
end

section
/-! SUPPORT. Words that move lanes, reduce them, and pass values between lanes and scalars (R100 to R107, R116, R122). -/

namespace Sys2Proof.Machine

open Sys2Proof.Claims

/-! ## Results of words -/

theorem givesV_of_exec {s : State} {i : Instr} {d : VReg} {lanes : W32} {f : Nat → W32} (hs : s.running = true) (h : exec i s = .next (s.wrV d lanes f)) :
    GivesV s i d lanes f := ⟨_, h, State.wrV_written s d lanes f hs⟩
theorem givesS_of_exec {s : State} {i : Instr} {d : SReg} {x : W64} (hs : s.running = true) (h : exec i s = .next (s.wrS d x)) :
    GivesS s i d x := ⟨_, h, State.wrS_written s d x hs⟩
theorem givesF_of_exec {s : State} {i : Instr} {d : FReg} {b : Bool} (hs : s.running = true) (h : exec i s = .next (s.wrF d b)) :
    GivesF s i d b := ⟨_, h, State.wrF_written s d b hs⟩

theorem State.lanewiseF_written (s : State) (d : VReg) (f : Nat → Nat × Flags) (hs : s.running = true) :
    VWritten s (s.lanewiseF d f) d s.acting (fun i => BitVec.ofNat 32 (f i).1) (allFlags s.acting f) := (State.wrV_written s d s.acting _ hs).raise _
theorem floatLanes_of_exec {s : State} {i : Instr} {d : VReg} {f : Nat → Nat × Flags} (hs : s.running = true) (h : exec i s = .next (s.lanewiseF d f)) :
    FloatLanes s i d f := ⟨_, h, s.lanewiseF_written d f hs⟩

/-! ## Lane exchange (R104) -/

theorem lxchN_eq (c : W32) : lxchN c = c.toNat % 32 := by simp [lxchN, bits]
theorem lxchW_eq (c : W32) : lxchW c = 2 ^ min (c.toNat / 32 % 8) 5 := by simp [lxchW, bits]
theorem lxchDir_eq (c : W32) : lxchDir c = c.getLsbD 8 := by simp [lxchDir, bit, BitVec.getLsbD, Nat.testBit_eq_decide_div_mod_eq]

theorem lxchSlide_eq (c : W32) (i : Nat) : lxchSlide c i =
    let base := i / lxchW c * lxchW c
    let j : Int := if lxchDir c then i + lxchN c else (i : Int) - lxchN c
    if (base : Int) ≤ j ∧ j < base + lxchW c then some j.toNat else none := by
  unfold lxchSlide
  extract_lets base j
  have hin : (j < base ∨ j > base + lxchW c - 1) ↔ ¬ ((base : Int) ≤ j ∧ j < base + lxchW c) := by omega
  rw [if_congr hin rfl rfl, ite_not]

/-- Settles O10: each word reads the lane it names; the fields of the control value are those bits of it, and a slide's source is inside its segment or
there is none. -/
theorem lanesMoveAsNamed : Obligations.LanesMoveAsNamed := by
  refine ⟨fun _ _ _ hs => givesV_of_exec hs rfl, fun _ _ _ hs => givesV_of_exec hs rfl, fun _ _ _ hs => givesV_of_exec hs rfl,
    fun _ _ _ _ hs => givesV_of_exec hs rfl, ?_⟩
  simp only [← lxchN_eq, ← lxchW_eq, ← lxchDir_eq]
  refine ⟨fun _ _ _ _ hs => givesV_of_exec hs rfl, fun _ _ _ _ hs => givesV_of_exec hs rfl, fun _ _ _ _ hs => givesV_of_exec hs rfl, ?_⟩
  simp only [← lxchSlide_eq]
  exact fun _ _ _ _ hs => givesV_of_exec hs rfl

/-! ## Reductions (R105, R106) -/

/-- The element that a total order puts first is among the elements, and none stands before it. -/
theorem foldl_pick_first {α : Type} (le : α → α → Prop) [DecidableRel le] (hr : ∀ x, le x x) (ht : ∀ x y z, le x y → le y z → le x z)
    (hn : ∀ x y, ¬ le x y → le y x) (l : List α) (x : α) :
    (l.foldl (fun m y => if le m y then m else y) x) ∈ x :: l ∧ ∀ y ∈ x :: l, le (l.foldl (fun m y => if le m y then m else y) x) y := by
  induction l generalizing x with
  | nil => simp [hr]
  | cons y l ih =>
    simp only [List.foldl_cons, List.mem_cons, forall_eq_or_imp] at ih ⊢
    by_cases h : le x y
    · obtain ⟨hm, hx, hl⟩ := ih x
      rw [if_pos h]
      exact ⟨hm.imp_right .inr, hx, ht _ _ _ hx h, hl⟩
    · obtain ⟨hm, hy, hl⟩ := ih y
      rw [if_neg h]
      exact ⟨.inr hm, ht _ _ _ hy (hn _ _ h), hy, hl⟩

theorem redPick_min {l : List W32} (hl : l ≠ []) :
    redPick (fun x y => decide (x.toInt ≤ y.toInt)) l ∈ l ∧ ∀ x ∈ l, (redPick (fun x y => decide (x.toInt ≤ y.toInt)) l).toInt ≤ x.toInt := by
  cases l with
  | nil => exact absurd rfl hl
  | cons x l =>
    simpa only [redPick, decide_eq_true_eq] using foldl_pick_first (fun x y : W32 => x.toInt ≤ y.toInt) (fun _ => le_rfl)
      (fun _ _ _ => le_trans) (fun _ _ h => (not_le.1 h).le) l x

theorem redPick_max {l : List W32} (hl : l ≠ []) :
    redPick (fun x y => decide (x.toInt ≥ y.toInt)) l ∈ l ∧ ∀ x ∈ l, x.toInt ≤ (redPick (fun x y => decide (x.toInt ≥ y.toInt)) l).toInt := by
  cases l with
  | nil => exact absurd rfl hl
  | cons x l =>
    simpa only [redPick, decide_eq_true_eq] using foldl_pick_first (fun x y : W32 => x.toInt ≥ y.toInt) (fun _ => le_rfl)
      (fun _ _ _ => ge_trans) (fun _ _ h => (not_le.1 h).le) l x

theorem lanesOf_ne_nil {m : W32} (h : m ≠ 0) : lanesOf m ≠ [] := by
  intro he
  refine h (BitVec.eq_of_getLsbD_eq fun i hi => ?_)
  rw [show BitVec.getLsbD (0 : W32) i = false from BitVec.getLsbD_zero, ← Bool.not_eq_true]
  exact fun hm => List.not_mem_nil (he ▸ (mem_lanesOf m i).2 ⟨hi, hm⟩)

theorem actingValues_ne_nil {s : State} {a : VReg} (h : s.acting ≠ 0) : actingValues s a ≠ [] :=
  fun he => lanesOf_ne_nil h (List.map_eq_nil_iff.1 he)

/-- Settles O11: each word writes what it makes of the values of the acting lanes; the least and the greatest are among them. -/
theorem reductionsAndScansOverActingLanes : Obligations.ReductionsAndScansOverActingLanes := fun _ _ _ hs =>
  ⟨givesV_of_exec hs rfl, ⟨_, givesV_of_exec hs rfl, fun h => redPick_min (actingValues_ne_nil h)⟩,
    ⟨_, givesV_of_exec hs rfl, fun h => redPick_max (actingValues_ne_nil h)⟩, floatLanes_of_exec hs rfl, givesV_of_exec hs rfl,
    givesV_of_exec hs rfl, givesV_of_exec hs rfl, floatLanes_of_exec hs rfl⟩

/-! ## Transfers (R107) -/

theorem headD_lanesOf {m : W32} (h : m ≠ 0) :
    m.getLsbD ((lanesOf m).headD 0) = true ∧ ∀ j, m.getLsbD j = true → (lanesOf m).headD 0 ≤ j := by
  have hsorted : (lanesOf m).Pairwise (· < ·) := List.pairwise_lt_range.filter _
  cases hl : lanesOf m with
  | nil => exact absurd hl (lanesOf_ne_nil h)
  | cons x l =>
    rw [hl] at hsorted
    have hx : x ∈ lanesOf m := hl ▸ List.mem_cons_self
    refine ⟨((mem_lanesOf m x).1 hx).2, fun j hj => ?_⟩
    have hj32 : j < 32 := by
      by_contra hge
      rw [BitVec.getLsbD_of_ge m j (not_lt.1 hge)] at hj
      exact Bool.noConfusion hj
    have hmem : j ∈ x :: l := hl ▸ (mem_lanesOf m j).2 ⟨hj32, hj⟩
    rcases List.mem_cons.1 hmem with rfl | hjl
    · exact le_rfl
    · exact (List.rel_of_pairwise_cons hsorted hjl).le

theorem lowLane_eq (m : W32) : lowLane m = (lanesOf m).headD 0 := (List.headD_eq_head?_getD ..).symm
theorem highLane_eq (m : W32) : highLane m = (lanesOf m).getLastD 0 := (List.getLastD_eq_getLast? ..).symm

/-- The lowest lane of a mask is in it, and no lane of it is lower. -/
theorem lowLane_least {m : W32} (h : m ≠ 0) : m.getLsbD (lowLane m) = true ∧ ∀ j, m.getLsbD j = true → lowLane m ≤ j :=
  lowLane_eq m ▸ headD_lanesOf h

/-- Settles O12: a transfer takes place where the guard lets the named lane through, from the lowest acting lane where there is one. -/
theorem transfersBetweenLanesAndScalars : Obligations.TransfersBetweenLanesAndScalars := by
  intro s d a x y n hs
  have skipped {c : Bool} {t : State} (h : c = false) : (if c = true then .next t else .next s : Out) = .next s := if_neg (h ▸ Bool.false_ne_true)
  refine ⟨fun h => givesS_of_exec hs (if_pos h), skipped, fun h => ?_, fun h => if_neg (not_not.2 h), fun h => givesV_of_exec hs (if_pos h), skipped⟩
  obtain ⟨hin, hleast⟩ := lowLane_least h
  exact ⟨_, hin, hleast, givesS_of_exec hs (if_pos h)⟩

/-! ## Masks (R100, R116, R122) -/

/-- Settles O14: each word writes what it makes of the mask, ELECT its lowest lane. -/
theorem masksPassBetweenLanesAndScalars : Obligations.MasksPassBetweenLanesAndScalars := by
  intro s d p f m hs
  refine ⟨givesS_of_exec hs rfl, givesS_of_exec hs rfl, givesP_of_exec hs rfl, fun h => ?_, ?_⟩
  · obtain ⟨hin, hleast⟩ := lowLane_least h
    exact ⟨_, hin, hleast, givesS_of_exec hs rfl⟩
  · rw [← lowLane_eq, ← highLane_eq]
    exact givesF_of_exec hs rfl

end Sys2Proof.Machine
end

section
/-! SUPPORT. Words that steer the split or park it (R57, R58, R88 to R100, R175, R337, R338). -/

namespace Sys2Proof.Machine

open Sys2Proof.Claims

/-! ## Branches (R88, R89, R96, R97, R99) -/

theorem not_sense_eq (e : BitVec 1) : (!(e == 1#1)) = decide (e = 0) := by
  rcases BitVec.eq_zero_or_eq_one e with rfl | rfl <;> rfl

/-- A BRF goes where the flag is NOT sense (R96). -/
theorem execBrf_taken {s : State} {e : BitVec 1} {f : FReg} (o : BitVec 21) (h : s.rdF f = !(e == 1#1)) :
    GoesTo s (.brf e f o) (branchTarget s o.toInt) := congrArg Host.Outcome.next (if_pos (h.trans (not_sense_eq e)))

theorem execBrf_notTaken {s : State} {e : BitVec 1} {f : FReg} (o : BitVec 21) (h : s.rdF f = (e == 1#1)) : FallsThrough s (.brf e f o) := by
  refine congrArg Host.Outcome.next (if_neg ?_)
  rw [h, ← not_sense_eq]
  exact (Bool.eq_not_self _).1

/-- A BRV that some lanes of the split take and some do not (R88, R89). -/
theorem execBrv_some {s : State} {e : BitVec 1} {p : PReg} (o : BitVec 21) (h : s.taken e p ≠ s.iss.mask) (h0 : s.taken e p ≠ 0) :
    exec (.brv e p o) s = if s.old.live = 4 ∧ 16 ≤ s.old.stack.length then .next (s.takeTrap (TrapInfo.plain 0x04))
      else .next { s with iss := { s.iss with divide := some (s.taken e p, branchTarget s o.toInt) } } :=
  (if_neg h).trans (if_neg h0)

theorem execLoop_eq (d : SReg) (i : BitVec 13) (s : State) :
    exec (.loop d i) s = .next { s.wrS d (s.rdS d - 1) with
      iss := { s.iss with target := if s.rdS d - 1 = 0 then s.iss.target else some (branchTarget s i.toInt) } } := by
  refine congrArg Host.Outcome.next ?_
  by_cases h : s.rdS d - 1 = 0
  · simp only [if_pos h]
    exact if_neg (not_not.2 h)
  · simp only [if_neg h]
    exact if_pos h

/-- Settles O18: by what each branch tests; LOOP writes its count and then tests it. -/
theorem branchesSteerTheSplit : Obligations.BranchesSteerTheSplit := by
  intro s e f p o d i hs
  refine ⟨rfl, rfl, execBrf_taken o, execBrf_notTaken o, ⟨fun h => if_pos h, fun h h0 => (if_neg h).trans (if_pos h0), ?_, ?_⟩,
    ⟨_, _, execLoop_eq d i s, State.wrS_written s d _ hs, rfl⟩⟩
  · intro h h0 hroom
    exact (execBrv_some o h h0).trans (if_neg (by omega))
  · intro h h0 hlive hfull
    exact (execBrv_some o h h0).trans (if_pos ⟨hlive, hfull⟩)

/-! ## Calls and jumps (R58, R95, R98) -/

theorem bits_packet (x : Nat) : bits x 53 0 = x % 2 ^ 54 := by simp only [bits, pow_zero, Nat.div_one]

theorem State.jump_to {s : State} {x : W64} (f : State → State) (h : x.toNat % 2 ^ 54 % 12 = 0) : s.jump x f = (f s).goto (x.toNat % 2 ^ 54) := by
  rw [← bits_packet] at h ⊢
  exact if_neg (not_not.2 h)

theorem State.jump_traps {s : State} {x : W64} (f : State → State) (h : x.toNat % 2 ^ 54 % 12 ≠ 0) : s.jump x f = s.takeTrap (TrapInfo.plain 0x03) := by
  rw [← bits_packet] at h
  exact if_pos h

theorem State.link_eq (s : State) : s.link = s.wrS 63 (BitVec.ofNat 64 ((s.iss.pos.pc + 12) % 2 ^ 54)) := by
  have h : packetAt s.iss.pos.pc 1 = (s.iss.pos.pc + 12) % 2 ^ 54 := by unfold packetAt; omega
  rw [State.link, h]
  rfl

theorem State.link_written (s : State) (hs : s.running = true) : SWritten s s.link 63 (BitVec.ofNat 64 ((s.iss.pos.pc + 12) % 2 ^ 54)) :=
  s.link_eq ▸ s.wrS_written 63 _ hs

/-- Settles O19: a jump goes to a packet address or traps; a call links first. -/
theorem callsAndJumps : Obligations.CallsAndJumps := by
  intro s a o hs dest back linked
  refine ⟨⟨_, _, rfl, s.link_written hs, rfl⟩, fun h => ⟨?_, _, s.link, ?_, s.link_written hs, rfl⟩, ?_, fun h => ⟨?_, ?_⟩, ?_⟩
  · exact congrArg Host.Outcome.next (State.jump_to id h)
  · exact congrArg Host.Outcome.next (State.jump_to State.link h)
  · exact fun h => congrArg Host.Outcome.next (State.jump_to id h)
  · exact congrArg Host.Outcome.next (State.jump_traps id h)
  · exact congrArg Host.Outcome.next (State.jump_traps State.link h)
  · exact fun h => congrArg Host.Outcome.next (State.jump_traps id h)

/-! ## Waits (R175, R338) -/

/-- A YLD outside the handler slot, while PREQ reads 0, waits only for a drain of its cluster's clock (R372). -/
theorem execYld_noRequest {s : State} (hr : (s.dev.task? s.taskId).any (fun x => x.deadlineFrom.isSome) = false) (hs : s.iss.slot ≠ handlerSlot) :
    exec .yld s = match (s.dev.cluster (clusterOf s.iss.core)).drain with
      | some c => .next (s.park (.drain c))
      | none => .next s := by
  rw [exec_yld, execYld, if_neg hs, hr]
  rfl

theorem execWaitc_eq {s : State} {l c p t : BitVec 6} (hp : s.paired = true → s.pairHeld ≤ c.toNat)
    (hd : s.coversDeferred (s.old.covers [l.toNat, c.toNat, p.toNat, t.toNat]) = false) :
    exec (.waitc l c p t) s = if s.old.countsAt l.toNat c.toNat p.toNat t.toNat then
        match s.old.coveredFailure (s.old.covers [l.toNat, c.toNat, p.toNat, t.toNat]) with
        | some f => .next (s.takeFailure f)
        | none => .next s
      else .next (s.park (.waitc l.toNat c.toNat p.toNat t.toNat (s.old.covers [l.toNat, c.toNat, p.toNat, t.toNat]))) := by
  have hc : ¬ (s.paired = true ∧ c.toNat < s.pairHeld) := fun ⟨h, hlt⟩ => absurd (hp h) (Nat.not_le.2 hlt)
  rw [exec_waitc, execWaitc, if_neg hc, hd]
  rfl

theorem Group.countsAt_iff (g : Group) (l c p t : Nat) :
    g.countsAt l c p t = true ↔ g.cl.length ≤ l ∧ g.cs.length ≤ c ∧ g.cc.length ≤ p ∧ g.ct.length ≤ t := decide_eq_true_iff

/-- Settles O20: each word parks its split or goes on by what it tests. -/
theorem waitsParkTheSplit : Obligations.WaitsParkTheSplit := by
  intro s l c p t k
  refine ⟨rfl, rfl, rfl, rfl, fun h hs => (if_neg hs).trans (if_pos h), fun hs => if_pos hs, fun hr => ⟨fun hd => ?_, fun z hd hs => ?_⟩, ?_⟩
  · by_cases hs : s.iss.slot = handlerSlot
    · exact if_pos hs
    · exact (execYld_noRequest hr hs).trans (by rw [hd])
  · exact (execYld_noRequest hr hs).trans (by rw [hd]; rfl)
  · intro cov done hp hd
    have heq := execWaitc_eq hp hd
    refine ⟨fun hdone hf => ?_, fun hdone f hf => ?_, fun hdone => ?_⟩
    · exact heq.trans ((if_pos ((s.old.countsAt_iff ..).2 hdone)).trans (by rw [hf]))
    · exact heq.trans ((if_pos ((s.old.countsAt_iff ..).2 hdone)).trans (by rw [hf]))
    · exact heq.trans (if_neg fun h => hdone ((s.old.countsAt_iff ..).1 h))

end Sys2Proof.Machine
end

section
/-! SUPPORT. Taking a trap and the return from one (R94, R326 to R331, R337). -/

namespace Sys2Proof.Machine

open Sys2Proof.Claims

/-! ## The device before the issue group (R148, R326) -/

/-- Walks of page tables reach HBM alone. -/
theorem Dev.foldl_walked (ws : List (Nat × W64)) (d : Dev) :
    ∃ m, ws.foldl (fun d w => d.writeBytes (hbmAt w.1) (Bytes.ofNat 8 w.2.toNat)) d = { d with hbm := m } := by
  induction ws generalizing d with
  | nil => exact ⟨_, rfl⟩
  | cons w ws ih =>
    obtain ⟨m, hm⟩ := Dev.writeBytes_hbm (Bytes.ofNat 8 w.2.toNat) d (hbmAt w.1) rfl
    rw [List.foldl_cons, hm]
    exact ih _

/-- What a rollback keeps of the walks lies in HBM, the log, and the TLBs of the core and its die. -/
theorem State.rollback_eq (s : State) :
    ∃ m l cs ds, s.rollback = { s.iss.base with hbm := m, log := l, cores := cs, dies := ds } := by
  obtain ⟨m, hm⟩ := Dev.foldl_walked s.iss.walked s.iss.base
  unfold State.rollback
  rw [hm]
  exact ⟨_, _, _, _, rfl⟩

/-! ## The record of a trap (R328, R330) -/

/-- A trap's record stands behind those raised before it, and among those of one cycle by its slot. -/
theorem queueTrap_eq (r : TrapRec) (w : List TrapRec) : ∃ l m, w = l ++ m ∧ queueTrap r w = l ++ r :: m
    ∧ (m = [] ∨ (m.headD r).raised = r.raised ∧ r.slot < (m.headD r).slot) ∧ ∀ x ∈ l, x.raised ≠ r.raised ∨ x.slot ≤ r.slot := by
  induction w with
  | nil => exact ⟨[], [], rfl, rfl, .inl rfl, by simp⟩
  | cons x w ih =>
    by_cases h : x.raised = r.raised ∧ r.slot < x.slot
    · exact ⟨[], x :: w, rfl, if_pos h, .inr h, by simp⟩
    · obtain ⟨l, m, hw, hq, hm, hl⟩ := ih
      refine ⟨x :: l, m, by rw [hw]; rfl, (if_neg h).trans (by rw [hq]; rfl), hm, List.forall_mem_cons.2 ⟨?_, hl⟩⟩
      rwa [not_and_or, not_lt] at h

/-- The record of a trap that a group raises. -/
def Dev.trapRec (d : Dev) (core slot split : Nat) (mask : W32) (pos : Pos) (t : TrapInfo) : TrapRec :=
  let task := d.task? (d.group core slot).task
  { slot := slot, split := split, mask := mask, pos := pos, cause := t.cause, sub := t.sub, tcode := t.tcode, kind := t.kind, orig := t.orig,
    addr := t.addr, tkt := t.tkt, lane := t.lane, launch := (task.map (fun k => k.grid)).getD 0, queue := (task.map (fun k => k.queue)).getD 0,
    raised := d.now (clusterOf core) }

theorem Dev.raiseTrap_eq {d : Dev} {core slot split : Nat} {mask : W32} {pos : Pos} {t : TrapInfo} (h : slot ≠ handlerSlot) :
    let r := d.trapRec core slot split mask pos t
    d.raiseTrap core slot split mask pos t = (d.modGroup core slot (fun g => { g with trap := some r, probed := false })).modCore core
      (fun k => { k with waiting := queueTrap r k.waiting }) := by
  rw [Dev.raiseTrap, if_neg h, Dev.trapRec]
  dsimp only
  cases d.task? (d.group core slot).task <;> rfl

/-- A group with a trap does not run (R94). -/
theorem Dev.groupRuns_of_trap {d : Dev} {core slot : Nat} (h : (d.group core slot).trap.isSome = true) : d.groupRuns core slot = false := by
  simp [Dev.groupRuns, Option.isNone_eq_false_iff.2 h]

/-! ## The return (R337) -/

theorem Dev.taskAt_handler {d : Dev} {core t : Nat} {r : TrapRec} (h : (d.core core).serving = some (t, r)) : d.taskAt core handlerSlot = t := by
  rw [Dev.taskAt, if_pos rfl, h]

/-- The traps that a workgroup's groups on a core still have. -/
def Dev.stillTrapped (d : Dev) (core t : Nat) : List TrapRec :=
  (d.groups.filter (fun x => decide (x.1 / 64 = core ∧ x.2.task = t ∧ x.2.trap.isSome = true ∧ x.1 % 64 ≠ handlerSlot))).filterMap (fun x => x.2.trap)

/-- The groups of a core as an activation for a task ends. -/
def releasedGroups (gs : Tab Group) (core t : Nat) : Tab Group :=
  Tab.mapV (Tab.modify gs (gkey core handlerSlot) (fun g => { Group.empty with regs := g.regs }))
    (fun k g => if k / 64 = core ∧ k % 64 ≠ handlerSlot ∧ g.task = t then { g with held := false } else g)

/-- A core whose handler serves no trap. -/
def Core.endService (k : Core) : Core := { k with serving := none }

theorem Dev.endActivation_eq {d : Dev} {core t : Nat} {r : TrapRec} (h : (d.core core).serving = some (t, r)) :
    d.endActivation core false = { d.modCore core Core.endService with groups := releasedGroups d.groups core t } := by
  rw [Dev.endActivation, Dev.taskAt_handler h]
  rfl

/-- A core with traps of the served workgroup put behind the waiting ones. -/
def Core.requeue (k : Core) (still : List TrapRec) : Core := { k with waiting := k.waiting.filter (fun x => !still.contains x) ++ still }

theorem Dev.trapReturn_eq {d : Dev} {core t : Nat} {r : TrapRec} (h : (d.core core).serving = some (t, r)) :
    d.trapReturn core = { (d.modCore core (·.requeue (d.stillTrapped core t))).modCore core Core.endService with
      groups := releasedGroups d.groups core t } := by
  have hk : ((d.modCore core (·.requeue (d.stillTrapped core t))).core core).serving = some (t, r) := by
    rw [Dev.core_modCore_same]
    exact h
  rw [Dev.trapReturn, Dev.taskAt_handler h]
  exact Dev.endActivation_eq hk

theorem find_releasedGroups (gs : Tab Group) (core t k : Nat) (h : k ≠ gkey core handlerSlot) : Tab.find (releasedGroups gs core t) k =
    (Tab.find gs k).map (fun g => if k / 64 = core ∧ k % 64 ≠ handlerSlot ∧ g.task = t then { g with held := false } else g) := by
  rw [releasedGroups, Tab.find_mapV, Tab.find_modify, if_neg h]

/-- The handler's registers keep their values; nothing else of its group is left. -/
theorem get_releasedGroups_handler (gs : Tab Group) (core t : Nat) : Tab.get Group.empty (releasedGroups gs core t) (gkey core handlerSlot) =
    { Group.empty with regs := (Tab.get Group.empty gs (gkey core handlerSlot)).regs } := by
  rw [Tab.get, releasedGroups, Tab.find_mapV, Tab.find_modify, if_pos rfl]
  simp only [gkey_handlerSlot_mod, ne_eq, not_true_eq_false, false_and, and_false, if_false, Option.map_id', Tab.get]
  cases Tab.find gs (gkey core handlerSlot) <;> rfl

/-! ## The statement -/

/-- What a trap of a group outside the handler slot changes of the device. -/
theorem Dev.raiseTrap_spec {d : Dev} {core slot split : Nat} {mask : W32} {pos : Pos} {t : TrapInfo} (h : slot ≠ handlerSlot)
    (hg : d.hasGroup core slot = true) :
    let r := d.trapRec core slot split mask pos t
    let u := d.raiseTrap core slot split mask pos t
    u = { d with groups := u.groups, cores := u.cores } ∧ u.group core slot = { d.group core slot with trap := some r, probed := false }
    ∧ u.core core = { d.core core with waiting := queueTrap r (d.core core).waiting }
    ∧ (∀ k, k ≠ gkey core slot → Tab.find u.groups k = Tab.find d.groups k) ∧ (∀ c, c ≠ core → u.core c = d.core c)
    ∧ u.groupRuns core slot = false := by
  intro r u
  have hu : u = _ := Dev.raiseTrap_eq h
  have hgroup : u.group core slot = { d.group core slot with trap := some r, probed := false } := by
    rw [hu]
    exact Dev.group_modGroup d core slot _ hg
  refine ⟨by rw [hu]; rfl, hgroup, by rw [hu]; exact Dev.core_modCore_same .., fun k hk => ?_, fun c hc => ?_, Dev.groupRuns_of_trap (by rw [hgroup]; rfl)⟩
  · rw [hu]
    exact Dev.find_modGroup_ne d core slot k _ hk
  · rw [hu, Dev.core_modCore, if_neg hc]
    rfl

/-- Settles O55: a trap by the record that joins its core's waiting ones, a return by the groups it releases. -/
theorem takingATrapAndReturning : Obligations.TakingATrapAndReturning := by
  refine ⟨fun s t => ?_, fun d core t r h => ?_⟩
  · intro core slot b g task r u
    obtain ⟨m, l, cs, ds, hb⟩ : ∃ m l cs ds, b = _ := s.rollback_eq
    refine ⟨rfl, rfl, by rw [hb], by rw [hb], by rw [hb], fun hs => ?_, fun hs hg => ?_⟩
    · exact if_pos hs
    · obtain ⟨hu, hgroup, hcore, hgroups, hcores, hruns⟩ := Dev.raiseTrap_spec (split := s.iss.split) (mask := s.iss.mask) (pos := s.iss.pos) (t := t) hs hg
      obtain ⟨l, m, hw, hq, hm, hl⟩ := queueTrap_eq r (b.core core).waiting
      exact ⟨hu, hgroup, ⟨l, m, hw, hcore.trans (by rw [← hq]; rfl), hm, hl⟩, hgroups, hcores, hruns⟩
  · intro e still
    have he : e = _ := Dev.trapReturn_eq h
    refine ⟨by rw [he]; rfl, ?_, ?_, fun k g hk hf => ?_⟩
    · rw [he]
      exact (Dev.core_modCore_same (d.modCore core (·.requeue still)) core Core.endService).trans
        (congrArg Core.endService (Dev.core_modCore_same d core (·.requeue still)))
    · rw [he]
      exact get_releasedGroups_handler d.groups core t
    · rw [he]
      exact (find_releasedGroups d.groups core t k hk).trans (by rw [hf]; rfl)

end Sys2Proof.Machine
end

section
/-! SUPPORT. Steps of workgroups (R93, R147, R203 to R210, R308, R315): the release of slots, commits and restarts, waits for sets, and the token. -/

namespace Sys2Proof.Machine

open Sys2Proof.Claims

/-! ## Slots (R27, R93, R173) -/

/-- A group of a workgroup, in its slot, that no longer has anything to issue and that nothing but its counters and failures keeps there. -/
structure Dev.Leaving (d : Dev) (core slot : Nat) (t : Task) : Prop where
  task : d.task? (d.group core slot).task = some t
  there : d.hasGroup core slot = true
  ordinary : slot ≠ handlerSlot
  exited : (d.group core slot).live = 0
  stack : (d.group core slot).stack = []
  trap : (d.group core slot).trap = none
  unserved : d.servedSlot core ≠ some slot
  phase : t.phase = .running ∨ t.phase = .committing
  alone : (d.group core slot).role = .none

/-- The device with a group gone from its slot, which its workgroup holds until it retires. -/
def Dev.leaveSlot (d : Dev) (core slot : Nat) : Dev :=
  let g := d.group core slot
  { d with groups := Tab.erase d.groups (gkey core slot) }.modTask g.task (fun k => { k with
    left := slot :: k.left, floor := max k.floor (max g.timeFloor (d.regionTime (clusterOf core) / 2 ^ 24)) })

/-- What keeps a group in its slot, whatever its counters (R27, R329). -/
def Dev.keepsSlot (d : Dev) (core slot : Nat) (t : Task) : Prop :=
  (!d.hasGroup core slot) = true ∨ slot = handlerSlot ∨ 0 < (d.group core slot).live ∨ (!(d.group core slot).stack.isEmpty) = true
    ∨ (d.group core slot).trap.isSome = true ∨ d.servedSlot core = some slot ∨ (t.phase ≠ .running ∧ t.phase ≠ .committing)

theorem Dev.Leaving.not_keepsSlot {d : Dev} {core slot : Nat} {t : Task} (h : d.Leaving core slot t) : ¬ d.keepsSlot core slot t := by
  have hp := h.phase
  simp only [Dev.keepsSlot, h.there, h.ordinary, h.exited, h.stack, h.trap, h.unserved]
  grind

theorem execGroupSlotRelease_kept {s : State} {core slot : Nat} (h : ∀ t, s.dev.keepsSlot core slot t) : NotDue s (.groupSlotRelease core slot) := by
  rw [NotDue, exec_groupSlotRelease, execGroupSlotRelease]
  dsimp only
  split
  next => rfl
  next t _ => exact if_pos (h t)

/-- Whether every other group of a workgroup has left its slot. -/
def Task.lastSlot (t : Task) (slot : Nat) : Bool := t.slots.all (fun x => decide (x = slot) || t.left.contains x)

theorem Task.lastSlot_iff (t : Task) (slot : Nat) : t.lastSlot slot = true ↔ ∀ y ∈ t.slots, y = slot ∨ y ∈ t.left := by simp [Task.lastSlot]

section
variable {s : State} {core slot : Nat} {t : Task}

theorem execGroupSlotRelease_counts (h : s.dev.Leaving core slot t) (hc : (s.dev.group core slot).countsAt 0 0 0 0 = false) :
    NotDue s (.groupSlotRelease core slot) := by
  simp only [NotDue, exec_groupSlotRelease, execGroupSlotRelease, h.task]
  exact (if_neg h.not_keepsSlot).trans ((if_neg (not_not.2 h.alone)).trans (if_pos (by rw [hc]; rfl)))

theorem execGroupSlotRelease_failed {f : FailRec} {l : List FailRec} (h : s.dev.Leaving core slot t)
    (hc : (s.dev.group core slot).countsAt 0 0 0 0 = true) (hf : (s.dev.group core slot).failed = f :: l) :
    Makes s (.groupSlotRelease core slot)
      ((s.dev.modGroup core slot (fun h => h.dropFailure f)).raiseTrap core slot 0 0 (s.dev.group core slot).exitPos f.tr.info) := by
  simp only [Makes, exec_groupSlotRelease, execGroupSlotRelease, h.task, hc, hf]
  exact (if_neg h.not_keepsSlot).trans (if_neg (not_not.2 h.alone))

theorem execGroupSlotRelease_ended (h : s.dev.Leaving core slot t) (hc : (s.dev.group core slot).countsAt 0 0 0 0 = true)
    (hf : (s.dev.group core slot).failed = []) :
    exec (.groupSlotRelease core slot) s =
      if t.lastSlot slot = true ∧ (t.commitDue = true ∨ s.dev.servedTask core = some (s.dev.group core slot).task) then .next s
      else
        let d := s.dev.leaveSlot core slot
        .next { s with dev := if t.lastSlot slot = true then d.retire (s.dev.group core slot).task else d } := by
  simp only [exec_groupSlotRelease, execGroupSlotRelease, h.task, hc, hf]
  exact (if_neg h.not_keepsSlot).trans (if_neg (not_not.2 h.alone))

end

/-! ## Commits and restarts (R205, R208) -/

/-- All of a workgroup's groups have exited, and none of them is trapped. -/
def Dev.allExited (d : Dev) (t : Task) : Bool :=
  t.slots.all (fun sl => decide ((d.group t.core sl).live = 0) && (d.group t.core sl).stack.isEmpty && (d.group t.core sl).trap.isNone)

theorem execTaskCommit_eq {s : State} {n : Nat} {t : Task} (ht : s.dev.task? n = some t) : exec (.taskCommit n) s =
    if (!s.dev.allExited t) = true ∨ (!t.commitDue) = true ∨ t.phase ≠ .running ∨ s.dev.tentOps n = true then .next s
    else
      let d := ((s.dev.mergeTent n).releaseCopies n).modTask n (fun k => { k with sets := [], token := .none, cqFirst := none })
      .next { s with dev := Dev.wakeStalls { d with tokens := d.tokens.filter (fun p => decide (p.2 ≠ n)) } } := by
  simp only [exec_taskCommit, execTaskCommit, ht]
  rfl

/-- A group of a workgroup is trapped or held. -/
def Dev.anyHeld (d : Dev) (t : Task) : Bool := t.slots.any (fun sl => (d.group t.core sl).held || (d.group t.core sl).trap.isSome)

/-- A task that starts again from its grid's entry (R208). -/
def Task.again (k : Task) (g : Grid) : Task := { k with
  phase := .running, restart := false, restarts := (k.restarts + 1) % 2 ^ 32, left := [], tiles := [], handles := [], shapes := [],
  mxc := [0, 0, 0, 0, 0], streams := [], sets := tableSets g, token := .none, tent := [] }

/-- A group of a task that starts again. -/
def Dev.groupAgain (d : Dev) (n : Nat) (t : Task) (g : Grid) (p : Nat × Nat) : Group :=
  { freshGroup g t.grid n p.2 (d.now (clusterOf t.core)) with timeFloor := max t.floor (d.group t.core p.1).timeFloor }

/-- The device with a task's groups at their entry again. -/
def Dev.groupsAgain (d : Dev) (n : Nat) (t : Task) (g : Grid) : Dev :=
  (t.slots.zipIdx).foldl (fun d p => d.setGroup t.core p.1 (d.groupAgain n t g p)) d

/-- The device with a task started again. -/
def Dev.startAgain (d : Dev) (n : Nat) (t : Task) (g : Grid) : Dev :=
  (((d.groupsAgain n t g).modTask n (·.again g)).modCore t.core (fun c => c.freeUnits n)).wakeStalls

theorem execTaskRestart_eq {s : State} {n : Nat} {t : Task} {g : Grid} (ht : s.dev.task? n = some t) (hg : s.dev.grid? t.grid = some g) :
    exec (.taskRestart n) s =
      if t.phase ≠ .wounded ∨ t.killed = true ∨ (s.dev.woundBusy n t || s.dev.anyHeld t) = true ∨ 4096 < s.dev.activeSets + g.sets.length then .next s
      else .next { s with dev := s.dev.startAgain n t g } := by
  simp only [exec_taskRestart, execTaskRestart, ht, hg]
  rfl

section
variable {s : State} {n : Nat} {t : Task} {g : Grid} (ht : s.dev.task? n = some t) (hg : s.dev.grid? t.grid = some g)
include ht hg

theorem execTaskRestart_waits (h : t.phase ≠ .wounded ∨ t.killed = true ∨ s.dev.woundBusy n t = true ∨ s.dev.anyHeld t = true
    ∨ 4096 < s.dev.activeSets + g.sets.length) : NotDue s (.taskRestart n) := by
  refine (execTaskRestart_eq ht hg).trans (if_pos ?_)
  rwa [Bool.or_eq_true, or_assoc]

theorem execTaskRestart_due (hp : t.phase = .wounded) (hk : t.killed = false) (hb : s.dev.woundBusy n t = false) (hh : s.dev.anyHeld t = false)
    (hroom : s.dev.activeSets + g.sets.length ≤ 4096) : Makes s (.taskRestart n) (s.dev.startAgain n t g) :=
  (execTaskRestart_eq ht hg).trans (if_neg (by simp [hp, hk, hb, hh, hroom]))

end

/-- Groups put in slots of a core change no other part of the device and no other group. -/
theorem Dev.foldl_setGroup (core : Nat) (f : Dev → Nat × Nat → Group) (l : List (Nat × Nat)) (d : Dev) :
    ∃ gs, l.foldl (fun d p => d.setGroup core p.1 (f d p)) d = { d with groups := gs }
      ∧ ∀ k, k ∉ l.map (fun p => gkey core p.1) → Tab.find gs k = Tab.find d.groups k := by
  induction l generalizing d with
  | nil => exact ⟨d.groups, rfl, fun _ _ => rfl⟩
  | cons p l ih =>
    obtain ⟨gs, he, hk⟩ := ih (d.setGroup core p.1 (f d p))
    refine ⟨gs, he, fun k hn => ?_⟩
    obtain ⟨hp, hl⟩ := not_or.1 (List.mem_cons.not.1 hn)
    exact (hk k hl).trans ((Tab.find_insert ..).trans (if_neg hp))

theorem Dev.groupsAgain_eq (d : Dev) (n : Nat) (t : Task) (g : Grid) :
    ∃ gs, d.groupsAgain n t g = { d with groups := gs } ∧ ∀ k, k ∉ t.slots.map (gkey t.core) → Tab.find gs k = Tab.find d.groups k := by
  obtain ⟨gs, he, hk⟩ := Dev.foldl_setGroup t.core (fun d p => d.groupAgain n t g p) t.slots.zipIdx d
  have hslots : t.slots.zipIdx.map (fun p => gkey t.core p.1) = t.slots.map (gkey t.core) := by
    rw [← Function.comp_def (gkey t.core) Prod.fst, ← List.map_map, List.zipIdx_map_fst]
  exact ⟨gs, he, fun k hn => hk k (hslots ▸ hn)⟩

theorem Dev.regs_wakeStalls (d : Dev) (c sl : Nat) : (d.wakeStalls.group c sl).regs = (d.group c sl).regs := by
  unfold Dev.group Tab.get Dev.wakeStalls Dev.mapGroups
  rw [Tab.find_mapV]
  cases Tab.find d.groups (gkey c sl) <;> rfl

/-- A change of a task that keeps its bytes keeps all memory. -/
theorem sameMemory_modTask (d : Dev) (n : Nat) (f : Task → Task) (hs : ∀ t, (f t).smem = t.smem) (hp : ∀ t, (f t).pmem = t.pmem) :
    SameMemory d (d.modTask n f) := by
  have htask (own : Nat) : (d.modTask n f).task? own = if own = n then (d.task? n).map f else d.task? own := Tab.find_modify ..
  intro l
  unfold Dev.readByte
  cases l.sp with
  | smem =>
    rw [htask]
    split_ifs with h
    · rw [h]
      cases d.task? n with
      | none => rfl
      | some t => exact congrArg (fun m => Memory.read m l.a) (hs t)
    · rfl
  | pmem =>
    rw [htask]
    split_ifs with h
    · rw [h]
      cases d.task? n with
      | none => rfl
      | some t => exact congrArg (fun m => Memory.read m l.a) (hp t)
    · rfl
  | _ => rfl

theorem Dev.sameMemory_startAgain (d : Dev) (n : Nat) (t : Task) (g : Grid) : SameMemory d (d.startAgain n t g) := by
  obtain ⟨gs, he, -⟩ := d.groupsAgain_eq n t g
  unfold Dev.startAgain
  rw [he]
  exact sameMemory_modTask d n (·.again g) (fun _ => rfl) (fun _ => rfl)

theorem Dev.task_startAgain {d : Dev} {n : Nat} {t : Task} (ht : d.task? n = some t) (g : Grid) : (d.startAgain n t g).task? n = some (t.again g) := by
  obtain ⟨gs, he, -⟩ := d.groupsAgain_eq n t g
  unfold Dev.startAgain
  rw [he]
  exact (Tab.find_modify ..).trans ((if_pos rfl).trans (congrArg (Option.map (·.again g)) ht))

theorem Dev.regs_startAgain (d : Dev) (n : Nat) (t : Task) (g : Grid) {k : Nat} (hk : k ∉ t.slots.map (gkey t.core)) :
    ((d.startAgain n t g).group (k / 64) (k % 64)).regs = (d.group (k / 64) (k % 64)).regs := by
  obtain ⟨gs, he, hgs⟩ := d.groupsAgain_eq n t g
  have hkey : gkey (k / 64) (k % 64) = k := Nat.div_add_mod' k 64
  unfold Dev.startAgain
  rw [Dev.regs_wakeStalls, he]
  unfold Dev.group Tab.get
  rw [hkey, ← hgs k hk]
  rfl

/-! ## Waits for atomic sets (R203) -/

theorem eraseDups_of_nodup {l : List Nat} (h : l.Nodup) : l.eraseDups = l := by
  induction l with
  | nil => rfl
  | cons x l ih =>
    obtain ⟨hx, hl⟩ := List.nodup_cons.1 h
    have hkeep : l.filter (fun y => !y == x) = l := List.filter_eq_self.2 fun y hy => by simpa using fun e : y = x => hx (e ▸ hy)
    rw [List.eraseDups_cons, hkeep, ih hl]

/-- The sets that a task's splits wait for, and no older task of its world does. -/
def Dev.setsSought (d : Dev) (n : Nat) (t : Task) : List Nat :=
  (((d.setWaiters.filter (fun w => decide (w.1 = n))).flatMap (fun w => w.2.2.2)).eraseDups).filter (fun i => !d.olderWaits n t i)

/-- A split that waits for sets after some of them have been acquired: with none left it issues again. -/
def Dev.waiterGoesOn (got : List Nat) (d : Dev) (w : Nat × Nat × Nat × List Nat) : Dev :=
  let rest := w.2.2.2.filter (fun i => !got.contains i)
  if rest.isEmpty then d.modGroup (w.2.1 / 64) (w.2.1 % 64) (fun g => { g with splits := modSplit g.splits w.2.2.1 Split.retry })
  else d.modGroup (w.2.1 / 64) (w.2.1 % 64) (fun g => { g with splits := modSplit g.splits w.2.2.1 (fun x => { x with park := .stallSet rest }) })

/-- The device after a task has examined the sets its splits wait for: younger holders wounded, the free sets acquired. -/
def Dev.examineSets (d : Dev) (n : Nat) (ids : List Nat) : Dev :=
  let d1 := (((ids.map (fun i => d.settle n i)).flatMap Prod.fst).eraseDups).foldl Dev.wound d
  let got := ids.filter (fun i => !(d1.settle n i).2)
  (d.setWaiters.filter (fun w => decide (w.1 = n))).foldl (Dev.waiterGoesOn got) (d1.acquire n got)

theorem execAtomicSetWaitAcquire_eq {s : State} {n : Nat} {t : Task} (ht : s.dev.task? n = some t) :
    exec (.atomicSetWaitAcquire n) s =
      if t.phase ≠ .running ∨ (s.dev.setsSought n t).isEmpty = true then .next s else .next { s with dev := s.dev.examineSets n (s.dev.setsSought n t) } := by
  simp only [exec_atomicSetWaitAcquire, execAtomicSetWaitAcquire, ht]
  rfl

theorem execAtomicSetWaitAcquire_notDue {s : State} {n : Nat} {t : Task} (ht : s.dev.task? n = some t)
    (h : t.phase ≠ .running ∨ s.dev.setsSought n t = []) : NotDue s (.atomicSetWaitAcquire n) :=
  (execAtomicSetWaitAcquire_eq ht).trans (if_pos (h.imp_right List.isEmpty_iff.2))

theorem Dev.setsSought_of_none {d : Dev} {n : Nat} (t : Task) (h : d.setWaiters.filter (fun w => decide (w.1 = n)) = []) : d.setsSought n t = [] := by
  rw [Dev.setsSought, h]
  rfl

theorem Dev.setsSought_of_older {d : Dev} {n : Nat} {t : Task} (h : ∀ w ∈ d.setWaiters, w.1 = n → ∀ i ∈ w.2.2.2, d.olderWaits n t i = true) :
    d.setsSought n t = [] := by
  refine List.filter_eq_nil_iff.2 fun i hi => ?_
  obtain ⟨w, hw, hi⟩ := List.mem_flatMap.1 (List.mem_eraseDups.1 hi)
  obtain ⟨hw, hn⟩ := List.mem_filter.1 hw
  rw [h w hw (of_decide_eq_true hn) i hi]
  decide

/-- A task whose split alone waits for sets waits for no older one. -/
theorem Dev.setsSought_of_alone {d : Dev} {n key k : Nat} {ids : List Nat} (t : Task) (h : d.setWaiters = [(n, key, k, ids)]) (hn : ids.Nodup) :
    d.setsSought n t = ids := by
  have hold (i : Nat) : d.olderWaits n t i = false := by simp [Dev.olderWaits, h]
  simp [Dev.setsSought, h, hold, eraseDups_of_nodup hn]

section
variable {d : Dev} {core slot n k : Nat} {ids : List Nat} (hw : d.setWaiters = [(n, gkey core slot, k, ids)]) (hs : slot < 64)
  (hf : ∀ i ∈ ids, (d.settle n i).1 = [])
include hw hs hf

/-- A task's only waiting split, where no holder is wounded. -/
theorem Dev.examineSets_alone :
    let rest := ids.filter (fun i => (d.settle n i).2)
    d.examineSets n ids = (d.acquire n (ids.filter (fun i => !(d.settle n i).2))).modGroup core slot (fun h => { h with
      splits := modSplit h.splits k (if rest = [] then Split.retry else fun x => { x with park := .stallSet rest }) }) := by
  intro rest
  have hurt : (ids.map (fun i => d.settle n i)).flatMap Prod.fst = [] := by
    rw [List.flatMap_map, List.flatMap_eq_nil_iff]
    exact hf
  have hrest : ids.filter (fun i => !(ids.filter (fun i => !(d.settle n i).2)).contains i) = rest :=
    List.filter_congr fun i hi => by simp [hi]
  have hcore : gkey core slot / 64 = core ∧ gkey core slot % 64 = slot := by unfold gkey; omega
  simp only [Dev.examineSets, hw, hurt, List.eraseDups_nil, List.foldl_nil, decide_true, List.filter_cons_of_pos, List.filter_nil, List.foldl_cons,
    Dev.waiterGoesOn, hrest, hcore]
  by_cases h : rest = [] <;> simp [h]

end

/-! ## The token (R206) -/

theorem execIrrevocableTokenGrant_notDue {s : State} {w : Nat} (h : Tab.find s.dev.tokens w ≠ none ∨ s.dev.tokenNext w = none) :
    NotDue s (.irrevocableTokenGrant w) := by
  rw [NotDue, exec_irrevocableTokenGrant, execIrrevocableTokenGrant]
  split
  next => rfl
  next hfree =>
    rw [h.resolve_left fun hf => hfree (Option.isSome_iff_ne_none.2 hf)]

/-! ## The statement -/

/-- Settles O47: each step by its own cases. -/
theorem workgroupSteps : Obligations.WorkgroupSteps := by
  intro s core slot n t g
  refine ⟨rfl, rfl, fun ht hg hs hl hst htr hsv hp ha => ?_, fun h => ?_, fun ht => ⟨?_, ?_, ?_⟩,
    fun ht => ⟨?_, ?_, fun gr hgr => ⟨?_, ?_⟩, ?_, ?_⟩, ?_, ?_, ?_, ?_, ?_⟩
  · have hgo : s.dev.Leaving core slot t := ⟨ht, hg, hs, hl, hst, htr, hsv, hp, ha⟩
    refine ⟨execGroupSlotRelease_counts hgo, fun hc hf => ?_, fun f l hc hf => execGroupSlotRelease_failed hgo hc hf⟩
    have heq := execGroupSlotRelease_ended hgo hc hf
    simp only [Task.lastSlot_iff] at heq
    intro last waits d
    refine ⟨fun hl => heq.trans ?_, fun hl hw => heq.trans ?_, fun hl hw => heq.trans ?_⟩
    · exact (if_neg fun h => hl h.1).trans (by rw [if_neg hl]; rfl)
    · exact (if_neg fun h => hw h.2).trans (by rw [if_pos hl]; rfl)
    · exact if_pos ⟨hl, hw⟩
  · refine execGroupSlotRelease_kept fun t => ?_
    rcases h with h | h | h | h | h
    · exact .inr (.inr (.inl h))
    · exact .inr (.inr (.inr (.inl (by simpa using h))))
    · exact .inr (.inr (.inr (.inr (.inl h))))
    · exact .inr (.inl h)
    · exact .inr (.inr (.inr (.inr (.inr (.inl h)))))
  · simp only [NotDue, exec_taskCommit, execTaskCommit, ht]
  · simp only [NotDue, exec_taskRestart, execTaskRestart, ht]
  · simp only [NotDue, exec_atomicSetWaitAcquire, execAtomicSetWaitAcquire, ht]
  · exact fun h => (execTaskCommit_eq ht).trans (if_pos (by simpa [Dev.allExited] using h))
  · intro hgone hdue hp hops d
    exact (execTaskCommit_eq ht).trans (if_neg (by simp [show s.dev.allExited t = true from hgone, hdue, hp, hops]))
  · exact fun h => execTaskRestart_waits ht hgr h
  · intro hp hk hb hh hroom
    exact ⟨_, _, execTaskRestart_due ht hgr hp hk hb hh hroom, rfl, s.dev.sameMemory_startAgain n t gr, Dev.task_startAgain ht gr,
      rfl, rfl, rfl, rfl, rfl, rfl, rfl, rfl, rfl, fun k hk => s.dev.regs_startAgain n t gr hk⟩
  · exact fun h => execAtomicSetWaitAcquire_notDue ht (h.symm.imp_right (Dev.setsSought_of_none t))
  · exact fun h => execAtomicSetWaitAcquire_notDue ht (.inr (Dev.setsSought_of_older h))
  · intro k ids hw hs ht hp hne hn hf taken rest d
    have heq : exec (.atomicSetWaitAcquire n) s = .next { s with dev := s.dev.examineSets n ids } := by
      refine (execAtomicSetWaitAcquire_eq ht).trans ?_
      rw [Dev.setsSought_of_alone t hw hn]
      exact if_neg (by simp [hp, hne])
    rw [Dev.examineSets_alone hw hs hf] at heq
    exact ⟨fun h => heq.trans (by rw [if_pos h]), fun h => heq.trans (by rw [if_neg h])⟩
  · exact execIrrevocableTokenGrant_notDue
  · intro k hfree hk d inPlace
    simp only [Makes, exec_irrevocableTokenGrant, execIrrevocableTokenGrant, hfree, hk]
    rfl
  · exact fun h => congrArg Host.Outcome.next (if_neg (Nat.not_lt.2 h))
  · exact fun h => congrArg Host.Outcome.next (if_pos h)

end Sys2Proof.Machine
end

section
/-! SUPPORT. What a port issues and what becomes of splits between issue groups (R81 to R84, R90 to R92). -/

namespace Sys2Proof.Machine

open Sys2Proof.Claims

theorem Dev.modGroup_eq_insert {d : Dev} {c sl : Nat} (f : Group → Group) (h : d.hasGroup c sl = true) :
    d.modGroup c sl f = { d with groups := Tab.insert d.groups (gkey c sl) (f (d.group c sl)) } := by
  obtain ⟨g, hg⟩ := Option.isSome_iff_exists.1 h
  simp [Dev.modGroup, Tab.modify, Dev.group, Tab.get, hg]

/-- A step that changes a group there is puts the changed one in its slot. -/
theorem makes_insert {s : State} {i : Instr} {c sl : Nat} {f : Group → Group} (hg : s.dev.hasGroup c sl = true) (h : Makes s i (s.dev.modGroup c sl f)) :
    Makes s i { s.dev with groups := Tab.insert s.dev.groups (gkey c sl) (f (s.dev.group c sl)) } := Dev.modGroup_eq_insert f hg ▸ h

/-! ## Ranks (R83) -/

/-- Among lists of one length the order of ranks is the lexicographic one. -/
theorem lexLess_iff_lt {l m : List Nat} (h : l.length = m.length) : lexLess l m = true ↔ l < m := by
  induction l generalizing m with
  | nil =>
    rw [List.length_eq_zero_iff.1 h.symm]
    simp [lexLess]
  | cons a l ih =>
    cases m with
    | nil => simp at h
    | cons b m => simp [lexLess, ih (Nat.succ.inj h), List.cons_lt_cons_iff]

theorem Dev.lexLess_rank_iff (d : Dev) (core : Nat) (b c : Nat × Nat × Split) : lexLess (d.rank core b) (d.rank core c) = true ↔ d.rank core b < d.rank core c :=
  lexLess_iff_lt rfl

/-- The first ranked of some candidates is one of them, and none ranks before it. -/
theorem Dev.firstRanked_spec (d : Dev) (core : Nat) (l : List (Nat × Nat × Split)) (h : l ≠ []) :
    ∃ c ∈ l, d.firstRanked core l = some c ∧ ∀ b ∈ l, d.rank core c ≤ d.rank core b := by
  induction l with
  | nil => exact absurd rfl h
  | cons c l ih =>
    cases l with
    | nil => exact ⟨c, List.mem_cons_self, rfl, by simp⟩
    | cons x l =>
      obtain ⟨b, hb, hf, hle⟩ := ih (List.cons_ne_nil _ _)
      have hstep : d.firstRanked core (c :: x :: l) = if lexLess (d.rank core b) (d.rank core c) then some b else some c := by
        rw [Dev.firstRanked, hf]
      by_cases hlt : d.rank core b < d.rank core c
      · refine ⟨b, List.mem_cons_of_mem _ hb, hstep.trans (if_pos ((d.lexLess_rank_iff core b c).2 hlt)), List.forall_mem_cons.2 ⟨hlt.le, hle⟩⟩
      · refine ⟨c, List.mem_cons_self, hstep.trans (if_neg (mt (d.lexLess_rank_iff core b c).1 hlt)), List.forall_mem_cons.2 ⟨le_rfl, fun y hy => ?_⟩⟩
        exact (not_lt.1 hlt).trans (hle y hy)

/-! ## The issue of a port (R81, R83) -/

/-- The splits that a port may issue from in this cycle (R82). -/
def Dev.candidatesOf (d : Dev) (core port : Nat) : List (Nat × Nat × Split) := (d.portSplits core port).filter (fun c => d.ready core c.1 c.2.2)

theorem execIssueGroup_none {s : State} {core port : Nat} (h : s.dev.portOpen core port = false ∨ s.dev.candidatesOf core port = []) :
    NotDue s (.issueGroup core port) := by
  have hn : s.dev.portChoice core port = none := by
    change (if _ then s.dev.firstRanked core (s.dev.candidatesOf core port) else none) = none
    split_ifs with ho
    · rw [h.resolve_left (ho ▸ Bool.noConfusion)]
      rfl
    · rfl
  simp only [NotDue, exec_issueGroup, execIssueGroup, hn]

theorem execIssueGroup_first {s : State} {core port : Nat} (ho : s.dev.portOpen core port = true) (hc : s.dev.candidatesOf core port ≠ []) :
    ∃ c ∈ s.dev.candidatesOf core port, (∀ b ∈ s.dev.candidatesOf core port, lexLess (s.dev.rank core b) (s.dev.rank core c) = false)
      ∧ exec (.issueGroup core port) s = .next ((s.modDev (fun d => d.issued core port c.1 c.2.1)).issueSplit core c.1 c.2.1 c.2.2) := by
  obtain ⟨c, hmem, hf, hle⟩ := s.dev.firstRanked_spec core _ hc
  have hpick : s.dev.portChoice core port = some c := (if_pos ho).trans hf
  refine ⟨c, hmem, fun b hb => Bool.eq_false_iff.2 fun hlt => ?_, by simp only [exec_issueGroup, execIssueGroup, hpick]⟩
  exact absurd ((s.dev.lexLess_rank_iff core b c).1 hlt) (not_lt.2 (hle b hb))

/-! ## Promotions (R84) -/

theorem Dev.split?_modSplit {d : Dev} {core slot split : Nat} {x : Split} (f : Split → Split) (h : d.split? core slot split = some x) :
    (d.modGroup core slot (fun g => { g with splits := modSplit g.splits split f })).split? core slot split = some (f x) := by
  have hl : split < (d.group core slot).splits.length := by
    by_contra hn
    rw [Dev.split?, List.getD_eq_default _ _ (Nat.not_lt.1 hn)] at h
    exact absurd h (by simp)
  rw [Dev.split?] at h ⊢
  rw [Dev.group_modGroup _ _ _ _ (Dev.hasGroup_of_split h)]
  simp only [modSplit]
  rw [getD_setAt_same _ _ _ _ hl, h]
  rfl

/-- A split whose count has reached a mark, promoted at a cycle. -/
def Split.promote (x : Split) (n : Nat) : Split := { x with
  classPromo := if 64 ≤ x.waitCount ∧ x.classPromo = none then some (n - (x.waitCount - 64)) else x.classPromo
  globalPromo := if 1024 ≤ x.waitCount ∧ x.globalPromo = none then some (n - (x.waitCount - 1024)) else x.globalPromo }

theorem execWaitCountPromotion_eq (core slot split : Nat) (s : State) : exec (.waitCountPromotion core slot split) s =
    .next (s.modDev (fun d => d.modGroup core slot (fun g => { g with
      splits := modSplit g.splits split (·.promote (s.dev.now (clusterOf core))) }))) := by
  simp only [exec_waitCountPromotion, execWaitCountPromotion, Option.isNone_iff_eq_none]
  rfl

/-! ## Stacks (R90) -/

theorem execReconvergenceStackPop_notDue {s : State} {core slot : Nat} (h : (s.dev.group core slot).mayPop = false
    ∨ (s.dev.group core slot).stack = [] ∨ freeSplit (s.dev.group core slot).splits = none) : NotDue s (.reconvergenceStackPop core slot) := by
  rw [NotDue, exec_reconvergenceStackPop, execReconvergenceStackPop]
  dsimp only
  split
  next => rfl
  next hp =>
    split
    next e l k hs hk => simp_all
    next => rfl

theorem execReconvergenceStackPop_due {s : State} {core slot k : Nat} {e : StackEntry} {l : List StackEntry} (hp : (s.dev.group core slot).mayPop = true)
    (hs : (s.dev.group core slot).stack = e :: l) (hk : freeSplit (s.dev.group core slot).splits = some k) :
    Makes s (.reconvergenceStackPop core slot) (s.dev.modGroup core slot (fun g => { g with stack := l, mayPop := false, splits := setAt g.splits k (some
      (Split.start e.mask { pc := packetAt (s.dev.codeOf core slot) e.packet.toInt, word := e.word } (s.dev.now (clusterOf core)))) })) := by
  simp only [Makes, exec_reconvergenceStackPop, execReconvergenceStackPop, hp, hs, hk]
  rfl

/-! ## Merges (R91) -/

theorem Dev.mergeable_iff (d : Dev) (core slot : Nat) (a b : Split) : d.mergeable core slot a b = true ↔
    ∃ p, d.mergePos core slot a = some p ∧ d.mergePos core slot b = some p ∧ (p.word = 0 ∨ (a.park = .join ∧ b.park = .join)) := by
  unfold Dev.mergeable
  split
  next p q hp hq =>
    simp only [hp, hq, Option.some.injEq, Bool.and_eq_true, Bool.or_eq_true, decide_eq_true_eq]
    constructor
    · rintro ⟨rfl, h⟩
      exact ⟨p, rfl, rfl, h⟩
    · rintro ⟨_, rfl, rfl, h⟩
      exact ⟨rfl, h⟩
  next hn => exact iff_of_false Bool.false_ne_true fun ⟨p, ha, hb, _⟩ => hn p p ha hb

/-- Two splits that merge stand at one position, at word 0 or at one JOIN. -/
theorem Dev.mergePair_spec {d : Dev} {core slot a b : Nat} (h : d.mergePair core slot = some (a, b)) :
    a < b ∧ ∃ y z p, (d.group core slot).splits.getD a none = some y ∧ (d.group core slot).splits.getD b none = some z
      ∧ d.mergePos core slot y = some p ∧ d.mergePos core slot z = some p ∧ (p.word = 0 ∨ (y.park = .join ∧ z.park = .join)) := by
  unfold Dev.mergePair at h
  dsimp only at h
  split_ifs at h
  have hmem := List.mem_of_find?_eq_some h
  have hmerge := List.find?_some h
  refine ⟨?_, ?_⟩
  · have hlt : ∀ p ∈ [(0, 1), (0, 2), (0, 3), (1, 2), (1, 3), (2, 3)], p.1 < p.2 := by decide
    exact hlt (a, b) hmem
  · split at hmerge
    next y z hy hz =>
      obtain ⟨p, hp⟩ := (d.mergeable_iff core slot y z).1 hmerge
      exact ⟨y, z, p, hy, hz, hp⟩
    next => exact absurd hmerge Bool.false_ne_true

theorem execSplitMerge_none {s : State} {core slot : Nat} (h : s.dev.mergePair core slot = none) : NotDue s (.splitMerge core slot) := by
  simp only [NotDue, exec_splitMerge, execSplitMerge, h]

theorem execSplitMerge_due {s : State} {core slot a b : Nat} {y z : Split} {p : Pos} (h : s.dev.mergePair core slot = some (a, b))
    (hy : (s.dev.group core slot).splits.getD a none = some y) (hz : (s.dev.group core slot).splits.getD b none = some z)
    (hp : s.dev.mergePos core slot y = some p) : Makes s (.splitMerge core slot) (s.dev.modGroup core slot (fun g => { g with
      splits := setAt (setAt g.splits a (some (y.merged z p (s.dev.now (clusterOf core))))) b none })) := by
  simp only [Makes, exec_splitMerge, execSplitMerge, h, hy, hz, hp]
  rfl

/-! ## Joins (R92) -/

theorem Group.joinsRelease_iff (g : Group) : g.joinsRelease = true ↔
    g.splits.filterMap id ≠ [] ∧ (∀ y ∈ g.splits.filterMap id, y.park = .join) ∧ (g.stack = [] ∨ (g.splits.filterMap id).length = 4) := by
  simp only [Group.joinsRelease, Bool.and_eq_true, Bool.not_eq_true', Bool.or_eq_true, decide_eq_true_eq, List.all_eq_true, List.isEmpty_iff,
    and_assoc, ← Bool.not_eq_true, ne_eq]

theorem execJoinRelease_eq (core slot : Nat) (s : State) : exec (.joinRelease core slot) s =
    if (s.dev.group core slot).joinsRelease = true then
      .next { s with dev := s.dev.modGroup core slot (fun g => { g with
        splits := g.splits.map (fun o => o.map Split.unpark)
        regs := { g.regs with sig := g.regs.sig
          + (((s.dev.group core slot).splits.filterMap id).foldl (fun (m : W32) (y : Split) => m ||| y.mask) 0).rotateLeft 16 } }) }
    else .next s := by
  rw [exec_joinRelease, execJoinRelease]
  cases (s.dev.group core slot).joinsRelease <;> rfl

end Sys2Proof.Machine
end

section
/-! SUPPORT. How waits end, walks and fetches, and the checkpoints of redundant pairs (R110, R166, R167, R171 to R179, R274, R405 to R407); and the statement
about the steps of issue and waits. -/

namespace Sys2Proof.Machine

open Sys2Proof.Claims

/-! ## Waits on counters (R173, R175, R178, R179, R337) -/

section
variable {s : State} {core slot split : Nat}

theorem execWaitcRelease_none (h : s.dev.split? core slot split = none) : NotDue s (.waitcRelease core slot split) := by
  simp only [NotDue, exec_waitcRelease, execWaitcRelease, h]
theorem execBarrierRelease_none (h : s.dev.split? core slot split = none) : NotDue s (.barrierRelease core slot split) := by
  simp only [NotDue, exec_barrierRelease, execBarrierRelease, h]
theorem execMonitorWake_none (h : s.dev.split? core slot split = none) : NotDue s (.monitorWake core slot split) := by
  simp only [NotDue, exec_monitorWake, execMonitorWake, h]
theorem execMonitorRemoteReread_none (h : s.dev.split? core slot split = none) : NotDue s (.monitorRemoteReread core slot split) := by
  simp only [NotDue, exec_monitorRemoteReread, execMonitorRemoteReread, h]

end

/-- The device as a wait on counters that has come to its end runs its split on. -/
def Dev.endWait (d : Dev) (core slot split : Nat) : Park → Dev
  | .acqld sc _ => (d.acquired core sc).unpark core slot split
  | .relst op sc _ => ((if 4 ≤ sc then d.cleanAll core else d).releaseStore core slot op).unpark core slot split
  | .tret => (d.unpark core slot split).trapReturn core
  | _ => d.unpark core slot split

section
variable {s : State} {core slot split : Nat} {x : Split} {p : Park} (hx : s.dev.split? core slot split = some x) (hp : x.park = p)
include hx hp

theorem execWaitcRelease_waits (h : ¬ s.dev.waitOver core slot p = true) : NotDue s (.waitcRelease core slot split) := by
  simp [NotDue, execWaitcRelease, hx, hp, h]

theorem execWaitcRelease_trapped {f : FailRec} (h : s.dev.waitOver core slot p = true)
    (hf : (s.dev.group core slot).coveredFailure p.covered = some f) (ht : (s.dev.group core slot).trap ≠ none) :
    NotDue s (.waitcRelease core slot split) := by
  simp [NotDue, execWaitcRelease, hx, hp, h, hf, Option.isSome_iff_ne_none.2 ht]

theorem execWaitcRelease_fails {f : FailRec} (h : s.dev.waitOver core slot p = true)
    (hf : (s.dev.group core slot).coveredFailure p.covered = some f) (ht : (s.dev.group core slot).trap = none) (hr : p.isRelst = false) :
    Makes s (.waitcRelease core slot split) (s.dev.trapWait core slot split x f) := by
  simp only [Makes, exec_waitcRelease, execWaitcRelease, hx, hp, h, hf, ht, Option.isSome_none, Bool.not_true, Bool.false_eq_true, if_false]
  cases p with
  | relst => cases hr
  | _ => rfl

theorem execWaitcRelease_over (h : s.dev.waitOver core slot p = true) (hf : (s.dev.group core slot).coveredFailure p.covered = none) :
    Makes s (.waitcRelease core slot split) (s.dev.endWait core slot split p) := by
  simp only [Makes, exec_waitcRelease, execWaitcRelease, hx, hp, h, hf, Bool.not_true, Bool.false_eq_true, if_false]
  cases p <;> rfl

end

/-! ## Barriers and monitors (R166, R167) -/

section
variable {s : State} {core slot split : Nat} {x : Split} (hx : s.dev.split? core slot split = some x)
include hx

theorem execBarrierRelease_eq {w : Loc} {phase : Bool} (hp : x.park = .barrier w phase) : exec (.barrierRelease core slot split) s =
    if bit (s.dev.readNat w 4) 31 ≠ phase ∧ (!s.dev.engineHolds w 4) = true then
      .next { s with dev := (s.dev.unpark core slot split).restSplit core slot split }
    else .next s := by
  obtain ⟨⟩ := x
  cases hp
  simp only [exec_barrierRelease, execBarrierRelease, hx, apply_ite Host.Outcome.next]
  rfl

theorem execMonitorWake_eq {ge : Bool} {r : SReg} {a sc : Nat} {w : Loc} (hp : x.park = .mwait ge r a sc w)
    (hw : w.isRemote = false) (hr : (s.dev.group core slot).role ≠ .trailer) (he : s.dev.engineHolds w 8 = false) :
    let d1 := s.dev.combineRange w 8
    Makes s (.monitorWake core slot split)
      (d1.mwaitSees core slot split (BitVec.ofNat 64 (d1.seen core slot (d1.taskAt core slot) d1.nextOp w 8))) := by
  obtain ⟨⟩ := x
  cases hp
  simp [Makes, execMonitorWake, hx, hw, hr, he]

theorem execMonitorRemoteReread_eq {ge : Bool} {r : SReg} {a sc : Nat} {w : Loc} (hp : x.park = .mwait ge r a sc w) :
    exec (.monitorRemoteReread core slot split) s =
      if w.isRemote = true ∧ (!(s.dev.ops.any (fun o => decide (o.2.core = core ∧ o.2.slot = slot ∧ o.2.kind = .monitor split)))) = true then
        .next { s with dev := s.dev.monitorRead core slot split a w }
      else .next s := by
  obtain ⟨⟩ := x
  cases hp
  simp only [exec_monitorRemoteReread, execMonitorRemoteReread, hx]
  rfl

end

/-- An MWAIT's word is seen by a group of no pair (R167). -/
theorem Dev.mwaitSees_eq {d : Dev} {core slot split : Nat} {x : Split} {ge : Bool} {r : SReg} {a sc : Nat} {w : Loc} (v : W64)
    (hx : d.split? core slot split = some x) (hp : x.park = .mwait ge r a sc w) (hr : (d.group core slot).role = .none) :
    d.mwaitSees core slot split v = if mwaitHolds ge v ((d.group core slot).regs.readS r.toNat) = true then
        ((d.modGroup core slot (fun g => { g with regs := g.regs.writeS r.toNat v, monitor := none })).unpark core slot split).acquired core
          (if w.isRemote then max 4 sc else sc)
      else d := by
  obtain ⟨⟩ := x
  cases hp
  simp [Dev.mwaitSees, hx, hr]

theorem mwaitHolds_iff (ge : Bool) (w d : W64) : mwaitHolds ge w d = true ↔ (if ge then d.toNat ≤ w.toNat else w ≠ d) := by
  cases ge <;> simp [mwaitHolds]

/-! ## The host's answers (R177, R178) -/

theorem execCxlCompleterAck_awaited {s : State} {n k : Nat} {o : Op} (ho : s.dev.op? n = some o) (hk : o.st = .awaiting k) :
    Makes s (.cxlCompleterAck n) (s.dev.hostAnswers n) := by
  simp only [Makes, exec_cxlCompleterAck, execCxlCompleterAck, ho, hk]
  rfl

theorem execCxlCompleterAck_held {s : State} {n : Nat} {o : Op} (ho : s.dev.op? n = some o) (hk : ∀ k, o.st ≠ .awaiting k) :
    exec (.cxlCompleterAck n) s = if s.dev.relstUnseen o = true then
        .next { s with dev :=
          (s.dev.hostGives (s.dev.group o.core o.slot).unseen).modGroup o.core o.slot (fun h => { h with unseen := [] }) }
      else .next s := by
  simp only [exec_cxlCompleterAck, execCxlCompleterAck, ho]
  cases hst : o.st with
  | awaiting k => exact absurd hst (hk k)
  | _ => rfl

theorem execCxlCompleterAck_none {s : State} {n : Nat} (h : s.dev.op? n = none) : NotDue s (.cxlCompleterAck n) := by
  simp only [NotDue, exec_cxlCompleterAck, execCxlCompleterAck, h]

/-! ## Fetches (R110, R324) -/

theorem Dev.cores_countFill (d : Dev) (die : Nat) (l : Loc) : (d.countFill die l).cores = d.cores := by
  unfold Dev.countFill
  split_ifs <;> rfl

/-- A core with the line of a packet in its instruction cache. -/
def Core.fetched (k : Core) (pa : Nat) : Core := { k with
  icache := if k.icache.contains (pa / 96) then k.icache else ((pa / 96) :: k.icache).take 1365 }

theorem execInstructionFetch_shed {s : State} {core pa : Nat} (hpa : pa < 2 ^ 39) (hh : s.dev.hedge pa (s.dev.core core).world = false) :
    NotDue s (.instructionFetch core pa true) :=
  congrArg Host.Outcome.next (if_pos ⟨rfl, hpa, by rw [hh]; rfl⟩)

theorem execInstructionFetch_fills {s : State} {core pa : Nat} {spec : Bool}
    (h : spec = false ∨ 2 ^ 39 ≤ pa ∨ s.dev.hedge pa (s.dev.core core).world = true) :
    let f := if pa < 2 ^ 39 ∧ (s.dev.core core).icache.contains (pa / 96) = false then s.dev.countFill (dieOf core) (hbmAt pa) else s.dev
    Makes s (.instructionFetch core pa spec) { f with cores := Tab.insert s.dev.cores core ((s.dev.core core).fetched pa) } := by
  intro f
  have hcores : f.cores = s.dev.cores := by
    unfold f
    split_ifs
    · exact s.dev.cores_countFill _ _
    · rfl
  have hcore : f.core core = s.dev.core core := congrArg (fun t => Tab.get Core.reset t core) hcores
  have hgo : ¬ (spec = true ∧ pa < 2 ^ 39 ∧ (!s.dev.hedge pa (s.dev.core core).world) = true) := by
    rintro ⟨hs, hpa, hh⟩
    rcases h with h | h | h
    · exact Bool.false_ne_true (h.symm.trans hs)
    · exact absurd hpa (not_lt.2 h)
    · rw [h] at hh
      exact Bool.false_ne_true hh
  refine congrArg Host.Outcome.next ((if_neg hgo).trans ?_)
  have hf : (if pa < 2 ^ 39 ∧ (!(s.dev.core core).icache.contains (pa / 96)) = true then s.dev.countFill (dieOf core) (hbmAt pa) else s.dev) = f := by
    simp only [f, Bool.not_eq_true']
  show { s with dev := Dev.modCore (if pa < 2 ^ 39 ∧ (!(s.dev.core core).icache.contains (pa / 96)) = true then _ else _) core (·.fetched pa) } = _
  rw [hf, Dev.modCore, hcore, hcores]

/-! ## Checkpoints (R405 to R407) -/

theorem execCheckpoint_notDue {s : State} {core slot : Nat} (h : s.dev.pairArrived core slot = false) : NotDue s (.checkpoint core slot) := by
  simp only [NotDue, exec_checkpoint, execCheckpoint, h]
  rfl

/-- A group of a pair as its checkpoint is taken (R407). -/
def Group.takeCheckpoint (h : Group) (mxc : List Nat) : Group := { h with
  checkpoint := some (h.save mxc), atCheckpoint := nextCheckpoint h.atCheckpoint, pairBuf := [], rollRun := 0 }

/-- The device as a pair's checkpoint is taken: RDN.END's dissolves the pair. -/
def Dev.takeCheckpoint (d : Dev) (core slot : Nat) : Dev :=
  let g := d.group core slot
  let mxc := ((d.task? g.task).map (fun t => t.mxc)).getD []
  let e := (d.modGroup core slot (·.takeCheckpoint mxc)).modGroup g.partner.1 g.partner.2 (·.takeCheckpoint mxc)
  (if g.checkKind = some 1 then e.dissolve core slot else e).wakeStalls

theorem execCheckpoint_due {s : State} {core slot : Nat} (h : s.dev.pairArrived core slot = true) :
    let g := s.dev.group core slot
    exec (.checkpoint core slot) s =
      if g.regs.sig ≠ (s.dev.group g.partner.1 g.partner.2).regs.sig then .next { s with dev := s.dev.rollPair core slot }
      else if s.dev.holdsStores g.pairBuf = true then .next { s with dev := s.dev.performHeld g.pairBuf }
      else .next { s with dev := s.dev.takeCheckpoint core slot } := by
  simp only [exec_checkpoint, execCheckpoint, h, Dev.takeCheckpoint]
  cases s.dev.task? (s.dev.group core slot).task <;> rfl

/-! ## The statement -/

/-- Settles O46: each step by its own cases. -/
theorem issueAndWaitSteps : Obligations.IssueAndWaitSteps := by
  intro s core slot split port x g with_ cands
  refine ⟨execIssueGroup_none, execIssueGroup_first, fun hx => ?_,
    fun hg => ⟨execReconvergenceStackPop_notDue, ?_, execSplitMerge_none, ?_, ?_, ?_⟩,
    fun hx => ⟨execWaitcRelease_none hx, execBarrierRelease_none hx, execMonitorWake_none hx, execMonitorRemoteReread_none hx⟩,
    fun hx => ⟨?_, ?_, ?_, ?_, ?_, ?_⟩, fun n => ⟨fun o k ho hk => execCxlCompleterAck_awaited ho hk, ?_, execCxlCompleterAck_none⟩,
    fun va k => rfl, ?_, execCheckpoint_notDue, ?_⟩
  · exact ⟨_, execWaitCountPromotion_eq core slot split s, rfl, rfl, Dev.split?_modSplit (·.promote (s.dev.now (clusterOf core))) hx⟩
  · exact fun e l k hp hs hk => makes_insert hg (execReconvergenceStackPop_due hp hs hk)
  · intro a b h
    obtain ⟨hlt, y, z, p, hy, hz, hpy, hpz, hjoin⟩ := Dev.mergePair_spec h
    exact ⟨hlt, y, z, p, hy, hz, hpy, hpz, hjoin, makes_insert hg (execSplitMerge_due h hy hz hpy)⟩
  · intro live due
    have hdue : g.joinsRelease = true ↔ due := g.joinsRelease_iff
    exact ⟨fun h => (execJoinRelease_eq core slot s).trans (if_neg (mt hdue.1 h)),
      fun h => makes_insert hg ((execJoinRelease_eq core slot s).trans (if_pos (hdue.2 h)))⟩
  · intro c
    exact congrArg (fun d : Dev => (Host.Outcome.next { s with dev := d.wakeStalls } : Out)) (Dev.modGroup_eq_insert (·.endCounts c) hg)
  · intro l c p t cov hp over_
    have hover : s.dev.waitOver core slot (.waitc l c p t cov) = true ↔ over_ := g.countsAt_iff l c p t
    exact ⟨fun h => execWaitcRelease_waits hx hp (mt hover.1 h), fun h hf => execWaitcRelease_over hx hp (hover.2 h) hf,
      fun f h hf ht => execWaitcRelease_fails hx hp (hover.2 h) hf ht rfl, fun f h hf ht => execWaitcRelease_trapped hx hp (hover.2 h) hf ht⟩
  · intro sc cov hp hf
    exact ⟨fun h => execWaitcRelease_waits hx hp (mt List.isEmpty_iff.1 h), fun h => execWaitcRelease_over hx hp (List.isEmpty_iff.2 h) hf⟩
  · intro o sc cov hp hf over_
    have hover : s.dev.waitOver core slot (.relst o sc cov) = true ↔ over_ := by
      simp [Dev.waitOver, over_, g]
    exact ⟨fun h => execWaitcRelease_waits hx hp (mt hover.1 h), fun h => execWaitcRelease_over hx hp (hover.2 h) hf⟩
  · intro hp hf hl hc hcc ht
    exact execWaitcRelease_over hx hp ((g.countsAt_iff 0 0 0 0).2 (by simp [hl, hc, hcc, ht])) hf
  · intro w phase hp
    exact ⟨fun hb he => (execBarrierRelease_eq hx hp).trans (if_pos ⟨hb, by rw [he]; rfl⟩),
      fun h => (execBarrierRelease_eq hx hp).trans (if_neg fun ⟨hb, he⟩ => h.elim hb fun h => by rw [h] at he; exact Bool.false_ne_true he)⟩
  · intro ge r a sc w hp d1 v
    have hg := Dev.hasGroup_of_split hx
    refine ⟨fun hw hr he => execMonitorWake_eq hx hp hw hr he, fun hr hc => ?_, fun hr hc => ?_, fun hw ho => ?_, fun hw => ?_⟩
    · refine ((Dev.mwaitSees_eq v hx hp hr).trans (if_pos ((mwaitHolds_iff ..).2 hc))).trans ?_
      rw [Dev.modGroup_eq_insert _ hg]
    · exact (Dev.mwaitSees_eq v hx hp hr).trans (if_neg (mt (mwaitHolds_iff ..).1 hc))
    · exact (execMonitorRemoteReread_eq hx hp).trans (if_pos ⟨hw, by simpa using ho⟩)
    · exact (execMonitorRemoteReread_eq hx hp).trans (if_neg (by simp [hw]))
  · intro o ho hk
    exact ⟨fun h => (execCxlCompleterAck_held ho hk).trans (if_pos h), fun h => (execCxlCompleterAck_held ho hk).trans (if_neg (h ▸ Bool.false_ne_true))⟩
  · intro pa spec k
    exact ⟨fun hs hpa hh => hs ▸ execInstructionFetch_shed hpa hh, fun h => execInstructionFetch_fills h⟩
  · intro h p
    have heq := execCheckpoint_due h
    refine ⟨fun hs => heq.trans (if_pos hs), fun hs hh => heq.trans ((if_neg (not_not.2 hs)).trans (if_pos hh)), fun hs hh => ?_⟩
    exact heq.trans ((if_neg (not_not.2 hs)).trans (if_neg (hh ▸ Bool.false_ne_true)))

end Sys2Proof.Machine
end

section
/-! SUPPORT. Integer and float words of lanes (R67, R123 to R125, R134 to R142): the shapes that words share, the finish of an exact integer where no
modifier acts and where it saturates, and carries through P7. -/

namespace Sys2Proof.Machine

open Sys2Proof.Claims

/-! ## Words of one shape -/

theorem intWord_of_exec {mk : VReg → VReg → VReg → Instr} {sgn u : Bool} {f : State → VReg → Nat → Int → Int → Int}
    (h : ∀ d a b s, exec (mk d a b) s = .next (s.intOp d a b sgn u (f s d))) : IntWord mk sgn u f :=
  fun s d a b hs => givesV_of_exec hs (h d a b s)

theorem bitWord_of_exec {mk : VReg → VReg → VReg → Instr} {f : W32 → W32 → W32} (h : ∀ d a b s, exec (mk d a b) s = .next (s.bitOp d a b f)) :
    BitWord mk f := fun s d a b hs => givesV_of_exec hs (h d a b s)

theorem bitWord1_of_exec {mk : VReg → VReg → Instr} {f : W32 → W32} (h : ∀ d a s, exec (mk d a) s = .next (s.bitOp1 d a f)) : BitWord1 mk f :=
  fun s d a hs => givesV_of_exec hs (h d a s)

theorem bitImmWord_of_exec {n : Nat} {mk : VReg → VReg → BitVec n → Instr} {f : W32 → BitVec n → W32}
    (h : ∀ d a i s, exec (mk d a i) s = .next (s.bitOp1 d a (fun x => f x i))) : BitImmWord mk f :=
  fun s d a i hs => givesV_of_exec hs (h d a i s)

theorem float2Word_of_exec {mk : VReg → VReg → VReg → Instr} {f : AMod → XReal → XReal → XReal × Bool}
    (h : ∀ d a b s, exec (mk d a b) s = .next (s.fop2 d a b f)) : Float2Word mk f := fun s d a b hs => floatLanes_of_exec hs (h d a b s)

theorem float1Word_of_exec {mk : VReg → VReg → Instr} {f : XReal → XReal × Flags} (h : ∀ d a s, exec (mk d a) s = .next (s.fop1 d a f)) :
    Float1Word mk f := fun s d a hs => floatLanes_of_exec hs (h d a s)

theorem packedWord_of_exec {fm : Fmt} {mk : VReg → VReg → VReg → Instr} {f : AMod → XReal → XReal → XReal → XReal × Bool}
    (h : ∀ d a b s, exec (mk d a b) s = .next (s.packed fm d a b f)) : PackedWord fm mk f := fun s d a b hs => floatLanes_of_exec hs (h d a b s)

theorem scaledWord_of_exec {mk : VReg → VReg → SReg → Instr} {f : AMod → Nat → Nat → Nat × Flags}
    (h : ∀ d a b s, exec (mk d a b) s = .next (s.lanewiseF d (fun l => f s.amod (s.scaleOf b) (s.rdV a l).toNat))) : ScaledWord mk f :=
  fun s d a b hs => floatLanes_of_exec hs (h d a b s)

/-- Settles O1: each word is of the shape of integer words. -/
theorem integerWordsGiveTheExactResultFinished : Obligations.IntegerWordsGiveTheExactResultFinished :=
  ⟨intWord_of_exec exec_iadd, intWord_of_exec exec_isub, intWord_of_exec exec_imul, intWord_of_exec exec_imulhI, intWord_of_exec exec_imulhN,
    intWord_of_exec exec_imad, intWord_of_exec exec_iminI, intWord_of_exec exec_iminN, intWord_of_exec exec_imaxI, intWord_of_exec exec_imaxN,
    intWord_of_exec exec_iabsd, fun _ _ _ _ hs => givesV_of_exec hs (exec_iaddi ..), fun _ _ _ _ hs => givesV_of_exec hs (exec_imuli ..)⟩

/-! ## The finish of an exact integer (R67) -/

theorem ofNat_emod_toNat (x : Int) : BitVec.ofNat 32 (x % 2 ^ 32).toNat = BitVec.ofInt 32 x := by
  refine BitVec.eq_of_toNat_eq ?_
  rw [BitVec.toNat_ofNat, BitVec.toNat_ofInt]
  exact Nat.mod_eq_of_lt (by omega)

theorem State.finInt_plain {s : State} (h : s.amod = AMod.none) (u : Bool) (x : Int) : s.finInt u x = BitVec.ofInt 32 x := by
  rw [State.finInt, finishInt, h]
  exact (ofNat_emod_toNat _).trans (congrArg _ (mul_one x))

theorem clamp_eq_max_min {lo hi : Int} (h : lo ≤ hi) (x : Int) : (if x < lo then lo else if x > hi then hi else x) = max lo (min hi x) := by
  split_ifs <;> omega

theorem State.finInt_sat {s : State} (hs : s.amod.sat = true) (hk : s.amod.k = 0) (u : Bool) (x : Int) :
    s.finInt u x = BitVec.ofInt 32 (max (if u then 0 else loI32) (min (if u then hiN32 else hiI32) x)) := by
  have hlohi : (if u then 0 else loI32) ≤ (if u then hiN32 else hiI32) := by cases u <;> decide
  have hscaled : (if (0 : Int) < 0 then divPow .rne x (-(0 : Int)).toNat else x * 2 ^ (0 : Int).toNat) = x := mul_one x
  rw [State.finInt, finishInt, hs, hk, hscaled, ← clamp_eq_max_min hlohi]
  exact ofNat_emod_toNat _

theorem State.intA_plain {s : State} (h : s.amod = AMod.none) (sgn : Bool) (r : VReg) (i : Nat) : s.intA sgn r i = s.srcV sgn r i := by
  rw [State.intA, h]; rfl
theorem State.intB_plain {s : State} (h : s.amod = AMod.none) (sgn : Bool) (r : VReg) (i : Nat) : s.intB sgn r i = s.srcV sgn r i := by
  rw [State.intB, h]; rfl

theorem State.srcV_signed (s : State) (r : VReg) (i : Nat) : s.srcV true r i = (s.rdV r i).toInt := rfl

/-- Where no modifier acts, a two-source word gives the exact result cut to 32 bits. -/
theorem givesV_of_intOp_plain {s : State} {i : Instr} {d a b : VReg} {sgn u : Bool} {f : Nat → Int → Int → Int} {g : Nat → W32} (hs : s.running = true)
    (hm : s.amod = AMod.none) (h : exec i s = .next (s.intOp d a b sgn u f)) (hg : ∀ l, BitVec.ofInt 32 (f l (s.srcV sgn a l) (s.srcV sgn b l)) = g l) :
    GivesV s i d s.acting g := by
  have hfin : (fun l => s.finInt u (f l (s.intA sgn a l) (s.intB sgn b l))) = g :=
    funext fun l => by rw [State.finInt_plain hm, State.intA_plain hm, State.intB_plain hm, hg]
  exact hfin ▸ givesV_of_exec hs h

theorem ofInt_sub_toInt (x y : W32) : BitVec.ofInt 32 (x.toInt - y.toInt) = x - y := by
  rw [Int.sub_eq_add_neg, BitVec.ofInt_add, BitVec.ofInt_neg, BitVec.ofInt_toInt, BitVec.ofInt_toInt, BitVec.sub_eq_add_neg]

/-- The upper half of an unsigned product, from the product on 64 bits. -/
theorem ofInt_mul_div_two_pow (x y : W32) :
    BitVec.ofInt 32 ((x.toNat : Int) * y.toNat / 2 ^ 32) = ((x.zeroExtend 64 * y.zeroExtend 64) >>> 32).truncate 32 := by
  have hlt : x.toNat * y.toNat < 2 ^ 64 := Nat.mul_lt_mul'' (c := 2 ^ 32) (d := 2 ^ 32) x.isLt y.isLt
  have hcast : (x.toNat : Int) * y.toNat / 2 ^ 32 = ((x.toNat * y.toNat / 2 ^ 32 : Nat) : Int) := by push_cast; rfl
  have h64 {z : W32} : (z.zeroExtend 64).toNat = z.toNat := BitVec.toNat_setWidth_of_le (by norm_num)
  rw [hcast, BitVec.ofInt_natCast]
  refine BitVec.eq_of_toNat_eq ?_
  rw [BitVec.toNat_ofNat, BitVec.truncate_eq_setWidth, BitVec.toNat_setWidth, BitVec.toNat_ushiftRight, BitVec.toNat_mul, h64, h64,
    Nat.shiftRight_eq_div_pow, Nat.mod_eq_of_lt hlt]

/-- Settles O2: cutting to 32 bits goes through sums, differences and products of the sources. -/
theorem plainIntegerWordsWrap : Obligations.PlainIntegerWordsWrap := by
  refine ⟨fun s d a b hs hm => ⟨?_, ?_, ?_, ?_, ?_⟩, fun s x u hsat hk => State.finInt_sat hsat hk u x⟩
  · exact givesV_of_intOp_plain hs hm (exec_iadd ..) fun l => by simp only [State.srcV_signed, BitVec.ofInt_add, BitVec.ofInt_toInt]
  · exact givesV_of_intOp_plain hs hm (exec_isub ..) fun l => ofInt_sub_toInt (s.rdV a l) (s.rdV b l)
  · exact givesV_of_intOp_plain hs hm (exec_imul ..) fun l => by simp only [State.srcV_signed, BitVec.ofInt_mul, BitVec.ofInt_toInt]
  · exact givesV_of_intOp_plain hs hm (exec_imad ..) fun l => by
      simp only [State.srcV_signed, BitVec.ofInt_add, BitVec.ofInt_mul, BitVec.ofInt_toInt]
  · exact givesV_of_intOp_plain hs hm (exec_imulhN ..) fun l => ofInt_mul_div_two_pow (s.rdV a l) (s.rdV b l)

/-! ## Carries (R125) -/

theorem onlyRegs_trans {s t u : State} (h : OnlyRegs s t) (k : OnlyRegs t u) : OnlyRegs s u where
  iss := by rw [k.iss, h.iss]
  agenda := k.agenda.trans h.agenda
  pick := k.pick.trans h.pick
  dev := by rw [k.dev, h.dev]
  others := fun x hx => (k.others x (by rwa [h.iss])).trans (h.others x hx)
  own := by rw [k.own, h.own]

theorem State.running_wrV (s : State) (d : VReg) (m : W32) (f : Nat → W32) : (s.wrV d m f).running = s.running := Dev.hasGroup_modGroup ..

/-- D holds f and P7 holds p in the lanes of a mask, and nothing else has changed. -/
def WritesDAndP7 (s t : State) (d : VReg) (lanes : W32) (f : Nat → W32) (p : Nat → Bool) : Prop :=
  OnlyRegs s t ∧ t.iss.raised = s.iss.raised ∧ t.grp.regs = { s.grp.regs with v := t.grp.regs.v, p := t.grp.regs.p }
    ∧ (∀ (r : VReg) (i : Nat), i < 32 → t.grp.regs.readV r.toNat i =
        if r = d ∧ r ≠ 127 ∧ lanes.getLsbD i = true then f i else s.grp.regs.readV r.toNat i)
    ∧ (∀ (r : PReg) (i : Nat), i < 32 → (t.grp.regs.readP r.toNat).getLsbD i =
        if r = 7 ∧ lanes.getLsbD i = true then p i else (s.grp.regs.readP r.toNat).getLsbD i)

theorem getLsbD_merge (x y m : W32) {i : Nat} (hi : i < 32) :
    ((x &&& ~~~m) ||| (y &&& m)).getLsbD i = if m.getLsbD i = true then y.getLsbD i else x.getLsbD i := by
  rw [BitVec.getLsbD_or, BitVec.getLsbD_and, BitVec.getLsbD_and, BitVec.getLsbD_not]
  cases m.getLsbD i <;> simp [hi]

/-- A write of D and then one of P7 in the same lanes. -/
theorem writesDAndP7_of_written {s u t : State} {d : VReg} {lanes x : W32} {f : Nat → W32} {p : Nat → Bool} (hv : VWritten s u d lanes f 0)
    (hp : PWritten u t 7 lanes x) (hx : ∀ i, i < 32 → x.getLsbD i = p i) : WritesDAndP7 s t d lanes f p := by
  have hreadV (n i : Nat) : t.grp.regs.readV n i = u.grp.regs.readV n i := by rw [hp.regs]; rfl
  have hreadP (n : Nat) : u.grp.regs.readP n = s.grp.regs.readP n := by rw [hv.regs]; rfl
  have htv : t.grp.regs.v = u.grp.regs.v := by rw [hp.regs]
  refine ⟨onlyRegs_trans hv.toOnlyRegs hp.toOnlyRegs, ?_, ?_, fun r i hi => (hreadV ..).trans (hv.val r i hi), fun r i hi => ?_⟩
  · rw [hp.raised, hv.raised]; exact BitVec.or_zero
  · rw [htv]
    exact hp.regs.trans (by rw [hv.regs])
  · rw [hp.val r, hreadP]
    by_cases hr : r = 7
    · subst hr
      rw [if_pos ⟨rfl, by decide⟩, getLsbD_merge _ _ _ hi, hx i hi]
      exact if_congr (and_iff_right rfl).symm rfl rfl
    · rw [if_neg fun h => hr h.1, if_neg fun h => hr h.1]

theorem carryWord_of_exec {s : State} {i : Instr} {d : VReg} {f : Nat → W32} {p : Nat → Bool} (hs : s.running = true)
    (h : exec i s = .next ((s.lanewise d f).wrP 7 s.acting (maskOf p))) : ∃ t, exec i s = .next t ∧ WritesDAndP7 s t d s.acting f p :=
  ⟨_, h, writesDAndP7_of_written (s.wrV_written d s.acting f hs) ((s.lanewise d f).wrP_written 7 s.acting _ ((s.running_wrV ..).trans hs))
    fun _ hl => getLsbD_maskOf p hl⟩

/-- Settles O3: each word writes its exact sum or difference, finished, and what is carried out of it. -/
theorem carryWordsChainThroughP7 : Obligations.CarryWordsChainThroughP7 := by
  intro s d a b sub hs
  cases sub with
  | false => exact carryWord_of_exec hs (exec_iaddc d a b s)
  | true => exact carryWord_of_exec hs (exec_isubb d a b s)

/-! ## Float words (R134 to R137) -/

/-- Settles O6: each word is of the shape of float words of two sources or of one; FFMA and FCLASS write their lanes. -/
theorem floatWordsRoundOnce : Obligations.FloatWordsRoundOnce :=
  ⟨float2Word_of_exec exec_fadd, float2Word_of_exec exec_fsub, float2Word_of_exec exec_fmul, float2Word_of_exec exec_fmin,
    float2Word_of_exec exec_fmax, float2Word_of_exec exec_fminm, float2Word_of_exec exec_fmaxm, float1Word_of_exec exec_frcp,
    float1Word_of_exec exec_fsqrt, float1Word_of_exec exec_frsq, float1Word_of_exec exec_fexp2, float1Word_of_exec exec_flog2,
    fun _ _ _ _ hs => floatLanes_of_exec hs (exec_ffma ..), fun _ _ _ hs => givesV_of_exec hs (exec_fclass ..)⟩

/-- Settles O7: format by format. -/
theorem packedWordsActOnEachHalf : Obligations.PackedWordsActOnEachHalf := by
  intro fm hfm w
  rcases List.mem_pair.1 hfm with rfl | rfl
  · exact ⟨packedWord_of_exec exec_faddF16x2, packedWord_of_exec exec_fsubF16x2, packedWord_of_exec exec_fmulF16x2,
      packedWord_of_exec exec_ffmaF16x2, packedWord_of_exec exec_fminF16x2, packedWord_of_exec exec_fmaxF16x2⟩
  · exact ⟨packedWord_of_exec exec_faddBf16x2, packedWord_of_exec exec_fsubBf16x2, packedWord_of_exec exec_fmulBf16x2,
      packedWord_of_exec exec_ffmaBf16x2, packedWord_of_exec exec_fminBf16x2, packedWord_of_exec exec_fmaxBf16x2⟩

/-! ## Dot products (R138, R139) -/

theorem State.dot4_eq (s : State) (u v : Bool) (a b : VReg) (l : Nat) :
    let el (sgn : Bool) (x : W32) (e : Nat) : Int := if sgn then (x.extractLsb' (8 * e) 8).toInt else ((x.extractLsb' (8 * e) 8).toNat : Int)
    let pr (e : Nat) : Int := srcInt s.amod.absA s.amod.negA (el u (s.rdV a l) e) * srcInt s.amod.absB s.amod.negB (el v (s.rdV b l) e)
    s.dot4 u v a b l = pr 0 + pr 1 + pr 2 + pr 3 := by
  intro el pr
  exact congrArg (· + pr 1 + pr 2 + pr 3) (zero_add (pr 0))

/-- Settles O8: the integer total of a lane is that of its four products; the float totals are those of the statement. -/
theorem dotProductsRoundTheExactTotal : Obligations.DotProductsRoundTheExactTotal := by
  intro s d a b hs
  refine ⟨?_, ⟨floatLanes_of_exec hs (exec_fdot2F16 ..), floatLanes_of_exec hs (exec_fdot2Bf16 ..)⟩, floatLanes_of_exec hs (exec_ldot4L6 ..)⟩
  intro el pr sum
  have hsum (u v : Bool) : sum u v = s.dot4 u v a b := funext fun l => (s.dot4_eq u v a b l).symm
  rw [hsum, hsum, hsum]
  exact ⟨givesV_of_exec hs (exec_idot4I8 ..), givesV_of_exec hs (exec_idot4N8 ..), givesV_of_exec hs (exec_idot4In ..)⟩

/-! ## Conversions (R140 to R142) -/

/-- Settles O9: CVT converts lane by lane; the words under a scale are of one shape. -/
theorem conversionsGoThroughTheExactValue : Obligations.ConversionsGoThroughTheExactValue :=
  ⟨fun _ _ _ _ _ hs => floatLanes_of_exec hs (exec_cvt ..),
    ⟨scaledWord_of_exec exec_cvtsF32F8a, scaledWord_of_exec exec_cvtsF32F8b, scaledWord_of_exec exec_cvtsF32L6⟩,
    scaledWord_of_exec exec_cvtsF8aF32, scaledWord_of_exec exec_cvtsF8bF32, scaledWord_of_exec exec_cvtsL6F32⟩

end Sys2Proof.Machine
end

section
/-! SUPPORT. Words on the bits of lanes (R124, R126 to R129, R133): shifts by as much as a word's width and more, and BF16 immediates widened to F32. -/

namespace Sys2Proof.Machine

open Sys2Proof.Claims

/-! ## Shifts of any amount -/

theorem shiftLeft_eq_ite {w : Nat} (x : BitVec w) (k : Nat) : x <<< k = if w ≤ k then 0 else x <<< k := by
  split_ifs with h
  · exact BitVec.shiftLeft_eq_zero h
  · rfl

theorem ushiftRight_eq_ite {w : Nat} (x : BitVec w) (k : Nat) : x >>> k = if w ≤ k then 0 else x >>> k := by
  split_ifs with h
  · exact BitVec.ushiftRight_eq_zero h
  · rfl

/-- Shifted until only its sign is left, a word holds its sign everywhere. -/
theorem sshiftRight_last {w : Nat} (x : BitVec (w + 1)) : x.sshiftRight w = if x.msb then -1 else 0 := by
  have hbit (i : Nat) (hi : i < w + 1) : (x.sshiftRight w)[i] = x.msb := by
    rw [BitVec.getElem_sshiftRight]
    split_ifs with h
    · obtain rfl : i = 0 := by omega
      exact (BitVec.msb_eq_getLsbD_last x).symm
    · rfl
  ext i hi
  rw [hbit i hi]
  cases x.msb <;> simp [BitVec.neg_one_eq_allOnes]

theorem sshiftRight_min {w : Nat} (x : BitVec (w + 1)) (k : Nat) :
    x.sshiftRight (min k w) = if w + 1 ≤ k then (if x.msb then -1 else 0) else x.sshiftRight k := by
  by_cases hk : w + 1 ≤ k
  · rw [if_pos hk, min_eq_right (by omega), sshiftRight_last]
  · rw [if_neg hk, min_eq_left (by omega)]

/-! ## F32 codes of exact values (R30, R31, R35) -/

theorem bitLen_eq {m k : Nat} (h1 : 2 ^ k ≤ m) (h2 : m < 2 ^ (k + 1)) : bitLen m = k + 1 := by
  have hm : m ≠ 0 := (Nat.lt_of_lt_of_le (Nat.two_pow_pos k) h1).ne'
  rw [bitLen, if_neg hm, (Nat.log2_eq_iff hm).2 ⟨h1, h2⟩]

theorem bitLen_le {m k : Nat} (h : m < 2 ^ k) : bitLen m ≤ k := by
  unfold bitLen
  split_ifs with hm
  · exact k.zero_le
  · exact (Nat.log2_lt hm).2 h

/-- A value that is whole in the quanta is not rounded. -/
theorem roundQuanta_of_le {mode : RMode} {neg sticky : Bool} {m : Nat} {e q : Int} (h : q ≤ e) :
    roundQuanta mode neg m e sticky q = (m * 2 ^ (e - q).toNat, sticky) := if_pos h

/-- The F32 code of a value that is r whole quanta of F32, each 2^q, and within F32's range: exponent q + 150 and r's fraction, or r where it is
subnormal. -/
theorem roundF32_code_of_exact {n : Bool} {m r mag : Nat} {e q : Int} (hm : m ≠ 0) (hq : max (e + bitLen m - 24) (-149) = q) (hqe : q ≤ e)
    (hr : m * 2 ^ (e - q).toNat = r) (hmag : (if r < 2 ^ 23 then r else (q + 150).toNat * 2 ^ 23 + (r - 2 ^ 23)) = mag) (hmax : mag ≤ 0x7F7FFFFF) :
    (roundF32 (.fin n m e false)).code = (if n then 2 ^ 31 else 0) + mag := by
  have hq' : max (e + bitLen m - ((23 + 1 : Nat) : Int)) (1 - ((127 : Nat) : Int) - ((23 : Nat) : Int)) = q := hq
  have hmag' : (if r < 2 ^ 23 then r else (q + ((127 : Nat) : Int) + ((23 : Nat) : Int)).toNat * 2 ^ 23 + (r - 2 ^ 23)) = mag := by
    rw [← hmag]; congr 4; omega
  simp only [roundF32, Fmt.round, Fmt.frac, Fmt.bias, Fmt.maxCode, hm, false_and, if_false, hq', roundQuanta_of_le hqe, hr, hmag', gt_iff_lt,
    Nat.not_lt.2 hmax]
  rfl

/-! ## BF16 as F32 (R133) -/

theorem decode_bf16 {x ex fr : Nat} (hex : x % 2 ^ 15 / 2 ^ 7 = ex) (hfr : x % 2 ^ 15 % 2 ^ 7 = fr) : Fmt.bf16.decode x =
    if ex = 255 then (if fr = 0 then .inf (bit x 15) else .nan)
    else if ex = 0 then .fin (bit x 15) fr (-133) false else .fin (bit x 15) (2 ^ 7 + fr) ((ex : Int) - 134) false := by
  have hdecode : Fmt.bf16.decode x = if x % 2 ^ 15 / 2 ^ 7 = 255 then (if x % 2 ^ 15 % 2 ^ 7 = 0 then .inf (bit x 15) else .nan)
    else if x % 2 ^ 15 / 2 ^ 7 = 0 then .fin (bit x 15) (x % 2 ^ 15 % 2 ^ 7) (-133) false
    else .fin (bit x 15) (2 ^ 7 + x % 2 ^ 15 % 2 ^ 7) ((x % 2 ^ 15 / 2 ^ 7 : Nat) - 127 - 7) false := rfl
  rw [hdecode, hex, hfr, sub_sub]
  norm_num

theorem code_roundF32_bf16_subnormal (n : Bool) {fr : Nat} (h0 : fr ≠ 0) (hfr : fr < 2 ^ 7) :
    (roundF32 (.fin n fr (-133) false)).code = (if n then 2 ^ 31 else 0) + fr * 2 ^ 16 := by
  have hlen : bitLen fr ≤ 7 := bitLen_le hfr
  exact roundF32_code_of_exact h0 (q := -149) (r := fr * 2 ^ 16) (by omega) (by norm_num) rfl (if_pos (by omega)) (by omega)

theorem code_roundF32_bf16_normal (n : Bool) {ex fr : Nat} (h0 : ex ≠ 0) (hex : ex < 255) (hfr : fr < 2 ^ 7) :
    (roundF32 (.fin n (2 ^ 7 + fr) ((ex : Int) - 134) false)).code = (if n then 2 ^ 31 else 0) + (ex * 2 ^ 7 + fr) * 2 ^ 16 := by
  have hlen : bitLen (2 ^ 7 + fr) = 8 := bitLen_eq (by omega) (by omega)
  have hshift : ((ex : Int) - 134 - (ex - 150)).toNat = 16 := by omega
  refine roundF32_code_of_exact (by omega) (q := ex - 150) (by rw [hlen]; omega) (by omega) (congrArg (fun k => (2 ^ 7 + fr) * 2 ^ k) hshift) ?_ (by omega)
  rw [if_neg (by omega)]
  omega

theorem code_roundF32_decode_bf16 {x ex fr : Nat} (hex : x % 2 ^ 15 / 2 ^ 7 = ex) (hfr : x % 2 ^ 15 % 2 ^ 7 = fr) :
    (roundF32 (Fmt.bf16.decode x)).code = if ex = 255 ∧ fr ≠ 0 then 0x7FC00000 else (if bit x 15 then 2 ^ 31 else 0) + (ex * 2 ^ 7 + fr) * 2 ^ 16 := by
  have hex' : ex < 2 ^ 8 := by omega
  have hfr' : fr < 2 ^ 7 := by omega
  rw [decode_bf16 hex hfr]
  by_cases h255 : ex = 255
  · by_cases hfr0 : fr = 0
    · simp only [h255, hfr0, if_true, ne_eq, not_true, and_false, if_false]; rfl
    · simp only [h255, hfr0, if_true, ne_eq, not_false_eq_true, and_true, if_false]; rfl
  · by_cases hex0 : ex = 0
    · subst hex0
      by_cases hfr0 : fr = 0
      · subst hfr0; rfl
      · simp only [h255, false_and, if_true, if_false, zero_mul, zero_add]
        exact code_roundF32_bf16_subnormal _ hfr0 hfr'
    · simp only [h255, hex0, false_and, if_false]
      exact code_roundF32_bf16_normal _ hex0 (by omega) hfr'

/-- BF16 as F32 is the same bits with 16 zeros below them, but for a NaN, which becomes the canonical one. -/
theorem ofNat_roundF32_decode_bf16 (i : BitVec 16) : BitVec.ofNat 32 (roundF32 (Fmt.bf16.decode i.toNat)).code =
    if i.extractLsb' 7 8 = 0xFF ∧ i.extractLsb' 0 7 ≠ 0 then 0x7FC00000 else i ++ (0 : BitVec 16) := by
  have hi := i.isLt
  have hex : (i.extractLsb' 7 8).toNat = i.toNat % 2 ^ 15 / 2 ^ 7 := by rw [BitVec.extractLsb'_toNat, Nat.shiftRight_eq_div_pow]; omega
  have hfr : (i.extractLsb' 0 7).toNat = i.toNat % 2 ^ 15 % 2 ^ 7 := by rw [BitVec.extractLsb'_toNat, Nat.shiftRight_eq_div_pow]; omega
  have happ : (i ++ (0 : BitVec 16)).toNat = i.toNat * 2 ^ 16 := by rw [BitVec.toNat_append, Nat.shiftLeft_eq]; exact Nat.or_zero _
  have hsign : (if bit i.toNat 15 then 2 ^ 31 else 0) = i.toNat / 2 ^ 15 * 2 ^ 31 := by
    have h01 : i.toNat / 2 ^ 15 = 0 ∨ i.toNat / 2 ^ 15 = 1 := by omega
    rcases h01 with h | h <;> simp only [bit, h] <;> rfl
  have hex255 : (i.extractLsb' 7 8).toNat = 255 ↔ i.extractLsb' 7 8 = 0xFF := (BitVec.toNat_eq (y := (0xFF : BitVec 8))).symm
  have hfr0 : (i.extractLsb' 0 7).toNat = 0 ↔ i.extractLsb' 0 7 = 0 := (BitVec.toNat_eq (y := (0 : BitVec 7))).symm
  rw [code_roundF32_decode_bf16 hex.symm hfr.symm, apply_ite (BitVec.ofNat 32)]
  refine if_congr (and_congr hex255 hfr0.not) rfl (BitVec.eq_of_toNat_eq ?_)
  rw [happ, hsign, hex, hfr, BitVec.toNat_ofNat]
  omega

/-! ## The statement -/

/-- Settles O4: each word is of the shape of bit words; a shift by the width or more is what the statement says it is, and MOVI.bf16 appends zeros. -/
theorem bitWordsActLaneByLane : Obligations.BitWordsActLaneByLane := by
  refine ⟨bitWord_of_exec exec_and, bitWord_of_exec exec_or, bitWord_of_exec exec_xor, bitWord_of_exec exec_andn, bitWord_of_exec exec_orn,
    bitWord_of_exec exec_xnor, ?_, ?_, ?_, bitWord_of_exec exec_rotl, bitWord_of_exec exec_bfeI, bitWord_of_exec exec_bfeN,
    bitWord1_of_exec exec_popc, bitWord1_of_exec exec_clz, bitWord1_of_exec exec_brev, bitWord1_of_exec exec_mov,
    bitImmWord_of_exec exec_andi, bitImmWord_of_exec exec_ori, bitImmWord_of_exec exec_xori, bitImmWord_of_exec exec_shli,
    bitImmWord_of_exec exec_shri, bitImmWord_of_exec exec_srai, bitImmWord_of_exec exec_rotli,
    fun _ _ _ _ hs => givesV_of_exec hs (exec_bfi ..), fun s d i hs => ⟨givesV_of_exec hs (exec_movi ..), givesV_of_exec hs (exec_moviHi ..),
      givesV_of_exec hs (exec_moviF16 ..), ?_⟩, fun _ _ _ _ hs => givesV_of_exec hs (exec_sel ..)⟩
  · simp only [← shiftLeft_eq_ite]
    exact bitWord_of_exec exec_shl
  · simp only [← ushiftRight_eq_ite]
    exact bitWord_of_exec exec_shr
  · simp only [← sshiftRight_min (w := 31)]
    exact bitWord_of_exec exec_sra
  · rw [← ofNat_roundF32_decode_bf16]
    exact givesV_of_exec hs (exec_moviBf16 ..)

end Sys2Proof.Machine
end

section
/-! SUPPORT. Scalar words and special registers (R116 to R121, R328): the chunks of a register that SLI writes, and the fields of a served trap. -/

namespace Sys2Proof.Machine

open Sys2Proof.Claims

/-! ## Scalar words (R118 to R121) -/

theorem scalarWord_of_exec {mk : SReg → SReg → SReg → Instr} {f : W64 → W64 → W64}
    (h : ∀ d a b s, exec (mk d a b) s = .next (s.wrS d (f (s.rdS a) (s.rdS b)))) : ScalarWord mk f := fun s d a b hs => givesS_of_exec hs (h d a b s)

theorem ofInt_min_toInt {w : Nat} (x y : BitVec w) : BitVec.ofInt w (min x.toInt y.toInt) = if x.toInt ≤ y.toInt then x else y := by
  rw [min_def, apply_ite (BitVec.ofInt w), BitVec.ofInt_toInt, BitVec.ofInt_toInt]

theorem ofInt_max_toInt {w : Nat} (x y : BitVec w) : BitVec.ofInt w (max x.toInt y.toInt) = if x.toInt ≥ y.toInt then x else y := by
  rw [max_comm, max_def, apply_ite (BitVec.ofInt w), BitVec.ofInt_toInt, BitVec.ofInt_toInt]

theorem getLsbD_chunkOnes (n : Nat) : (0xFFFF#64).getLsbD n = decide (n < 16) := by
  rw [show (0xFFFF#64) = (BitVec.allOnes 16).setWidth 64 from rfl, BitVec.getLsbD_setWidth, BitVec.getLsbD_allOnes, ← Bool.decide_and, decide_eq_decide]
  omega

/-- Bit by bit: a bit of the chunk named comes from the immediate, a bit below it or above it from the register. -/
theorem extractLsb'_chunkInsert (x : W64) (k : BitVec 2) (i : BitVec 16) {j : Nat} (hj : j < 4) :
    (chunkInsert x k i).extractLsb' (16 * j) 16 = if j = k.toNat then i else x.extractLsb' (16 * j) 16 := by
  refine BitVec.eq_of_getLsbD_eq fun l hl => ?_
  have hp : 16 * j + l < 64 := by omega
  rw [apply_ite (BitVec.getLsbD · l)]
  simp only [chunkInsert, BitVec.getLsbD_extractLsb', hl, hp, decide_true, Bool.true_and, BitVec.getLsbD_or, BitVec.getLsbD_and, BitVec.getLsbD_not,
    BitVec.getLsbD_shiftLeft, getLsbD_chunkOnes, BitVec.truncate_eq_setWidth, BitVec.getLsbD_setWidth]
  by_cases hjk : j = k.toNat
  · subst hjk
    simp only [show ¬ 16 * k.toNat + l < 16 * k.toNat by omega, Nat.add_sub_cancel_left, show l < 64 by omega, hl, decide_true, decide_false, Bool.not_false,
      Bool.not_true, Bool.and_true, Bool.true_and, Bool.and_false, Bool.false_or, if_true]
  · by_cases hlt : 16 * j + l < 16 * k.toNat
    · simp [hlt, hjk]
    · have hge : 16 ≤ 16 * j + l - 16 * k.toNat := by omega
      simp [hlt, hjk, Nat.not_lt.2 hge, BitVec.getLsbD_of_ge i _ hge]

/-- Settles O13: each word is of the shape of scalar words; the least and the greatest, shifts, and the chunks of SLI by their own lemmas. -/
theorem scalarWordsGiveTheirResults : Obligations.ScalarWordsGiveTheirResults := by
  simp only [Obligations.ScalarWordsGiveTheirResults, ← shiftLeft_eq_ite, ← ushiftRight_eq_ite, ← sshiftRight_min (w := 63), ofInt_min_toInt, ofInt_max_toInt]
  exact ⟨⟨scalarWord_of_exec exec_sadd, scalarWord_of_exec exec_ssub, scalarWord_of_exec exec_smul, scalarWord_of_exec exec_sand,
      scalarWord_of_exec exec_sor, scalarWord_of_exec exec_sxor, scalarWord_of_exec exec_sandn, scalarWord_of_exec exec_sshl,
      scalarWord_of_exec exec_sshr, scalarWord_of_exec exec_ssra, scalarWord_of_exec exec_smin, scalarWord_of_exec exec_smax,
      fun _ _ _ _ _ _ _ _ hs => ⟨givesS_of_exec hs (exec_smov ..), givesS_of_exec hs (exec_ssel ..), givesS_of_exec hs (exec_saddi ..),
        givesF_of_exec hs (exec_scmp ..)⟩⟩,
    fun _ _ _ _ hs => ⟨_, givesS_of_exec hs (exec_sli ..), fun _ hj => extractLsb'_chunkInsert _ _ _ hj⟩⟩

/-! ## Special registers (R116, R117, R328) -/

theorem handlerReg_serving {k : Core} {t : Nat} {r : TrapRec} (h : k.serving = some (t, r)) :
    handlerReg k 129 = r.pos.word * 2 ^ 54 + r.pos.pc ∧ handlerReg k 130 = r.orig ∧ handlerReg k 131 = r.addr ∧ handlerReg k 132 = r.tkt
    ∧ handlerReg k 133 = r.mask.toNat * 2 ^ 32 + r.lane * 2 ^ 16 + r.split * 2 ^ 5 + r.slot := by
  simp only [handlerReg, h, and_self, and_true]
  rfl

theorem extractLsb'_ofNat64 (x start len : Nat) (h : start + len ≤ 64) : (BitVec.ofNat 64 x).extractLsb' start len = BitVec.ofNat len (x / 2 ^ start) := by
  refine BitVec.eq_of_getLsbD_eq fun i hi => ?_
  have hlt : start + i < 64 := by omega
  simp only [BitVec.getLsbD_extractLsb', BitVec.getLsbD_ofNat, Nat.testBit_div_two_pow, hi, hlt, decide_true, Bool.true_and, Nat.add_comm]

/-- The fields of HGRP, packed in one number. -/
theorem hgrp_fields (m : W32) {lane split slot : Nat} (hlane : lane < 32) (hsplit : split < 4) (hslot : slot < 32) :
    let x := BitVec.ofNat 64 (m.toNat * 2 ^ 32 + lane * 2 ^ 16 + split * 2 ^ 5 + slot)
    x.extractLsb' 32 32 = m ∧ x.extractLsb' 0 5 = BitVec.ofNat 5 slot ∧ x.extractLsb' 5 2 = BitVec.ofNat 2 split
      ∧ x.extractLsb' 16 5 = BitVec.ofNat 5 lane := by
  intro x
  refine ⟨?_, ?_, ?_, ?_⟩ <;>
  · rw [extractLsb'_ofNat64 _ _ _ (by norm_num)]
    refine BitVec.eq_of_toNat_eq ?_
    simp only [BitVec.toNat_ofNat]
    omega

/-- Settles O15: each register by its case; those of a served trap by the fields of its record. -/
theorem specialRegistersRead : Obligations.SpecialRegistersRead := by
  refine ⟨fun s d n hs => ⟨givesS_of_exec hs (exec_rdspc ..), rfl, rfl, rfl, rfl, rfl, rfl, rfl, fun t r hr hslot hsplit hlane => ?_⟩, fun s a hs => ?_⟩
  · obtain ⟨hpos, horig, haddr, htkt, hgrp⟩ := handlerReg_serving hr
    have hx : s.special 133 = BitVec.ofNat 64 (r.mask.toNat * 2 ^ 32 + r.lane * 2 ^ 16 + r.split * 2 ^ 5 + r.slot) := congrArg (BitVec.ofNat 64) hgrp
    refine ⟨congrArg (BitVec.ofNat 64) hpos, congrArg (BitVec.ofNat 64) horig, congrArg (BitVec.ofNat 64) haddr, congrArg (BitVec.ofNat 64) htkt, ?_⟩
    rw [hx]
    exact hgrp_fields r.mask hlane hsplit hslot
  · have hg := State.running_hasGroup hs
    exact ⟨_, rfl, State.onlyRegs_modGrp s (fun r => { r with flags := (s.rdS a).extractLsb' 0 5 }) hg, rfl,
      congrArg Group.regs (State.grp_modGrp s _ hg)⟩

end Sys2Proof.Machine
end

section
/-! SUPPORT. Words of the M pipe as wholes (R148, R160 to R163, R170, R187, R188): groups of no redundant pair, new operations, and loads, stores, atomics and
reductions. -/

namespace Sys2Proof.Machine

open Sys2Proof.Claims

/-! ## Groups of no redundant pair (R405) -/

section
variable {s : State} (h : s.old.role = .none)
include h

theorem State.paired_alone : s.paired = false := by simp [State.paired, h]
theorem State.pairGate_alone (sig : W32) : s.pairGate sig = none := by simp [State.pairGate, h]
theorem State.pairFollows_alone : s.pairFollows = false := by simp [State.pairFollows, h]
theorem State.pairAfter_alone (op : Nat) (vs : List (Nat × BitVec 128)) : s.pairAfter op vs = s := by simp [State.pairAfter, h]

end

/-! ## New operations (R114, R149, R170) -/

/-- No request goes out for parts that all lie on this device. -/
theorem Dev.sendParts_near {ps : List LanePart} (h : ∀ p ∈ ps, p.loc.isRemote = false) (d : Dev) (n i : Nat) : d.sendParts n i ps = d := by
  induction ps generalizing d i with
  | nil => rfl
  | cons p ps ih =>
    obtain ⟨hp, hps⟩ := List.forall_mem_cons.1 h
    unfold Dev.sendParts
    rw [ih hps]
    split
    · rename_i hsp
      rw [Loc.isRemote, hsp] at hp
      cases hp
    · rfl

theorem mem_of_mem_lastWrites {ps : List LanePart} {p : LanePart} (h : p ∈ lastWrites ps) : p ∈ ps := by
  induction ps with
  | nil => exact h
  | cons q ps ih =>
    unfold lastWrites at h
    split_ifs at h
    · exact List.mem_cons_of_mem q (ih h)
    · rcases List.mem_cons.1 h with rfl | h
      · exact List.mem_cons_self ..
      · exact List.mem_cons_of_mem q (ih h)

theorem Group.count_raise (g : Group) (c k : Ctr) (n : Nat) : ((g.raise c n).count k).map (fun x => (x.op, x.ended)) =
    (g.count k).map (fun x => (x.op, x.ended)) ++ if k = c then [(n, false)] else [] := by
  cases c <;> cases k <;> simp [Group.raise, Group.setCount, Group.count]

/-- What a raised counter and awaited registers leave of a group. -/
theorem Group.await_raise_eq (g : Group) (c : Ctr) (n : Nat) (rs : List RegName) : (g.raise c n).await rs n =
    { g with notReady := ((g.raise c n).await rs n).notReady, totals := ((g.raise c n).await rs n).totals, cl := ((g.raise c n).await rs n).cl,
             cs := ((g.raise c n).await rs n).cs, cc := ((g.raise c n).await rs n).cc, ct := ((g.raise c n).await rs n).ct } := by
  cases c <;> rfl

theorem Group.notReady_raise (g : Group) (c : Ctr) (n : Nat) : (g.raise c n).notReady = g.notReady := by cases c <;> rfl

theorem Group.mem_await_of_mem (g : Group) {rs : List RegName} {r : RegName} (n : Nat) (h : r ∈ rs) : (r, n) ∈ (g.await rs n).notReady :=
  List.mem_append_right _ (List.mem_map.2 ⟨r, h, rfl⟩)

theorem Group.mem_await_of_not_mem (g : Group) {rs : List RegName} {r : RegName} (n k : Nat) (h : r ∉ rs) :
    (r, k) ∈ (g.await rs n).notReady ↔ (r, k) ∈ g.notReady := by
  have hne : ¬ ∃ a ∈ rs, (a, n) = (r, k) := by
    rintro ⟨a, ha, he⟩
    cases he
    exact h ha
  simp [Group.await, h]

/-- The device as a memory word's operation stands in its table and its group has counted it. -/
def Dev.enterOp (d : Dev) (core slot : Nat) (o : Op) (rs : List RegName) : Dev :=
  { d with ops := Tab.insert d.ops d.nextOp o, nextOp := d.nextOp + 1 }.modGroup core slot (fun g => (g.raise o.ctr d.nextOp).await rs d.nextOp)

theorem State.begin_eq {s : State} {w : MemWord} {as : List (Nat × Access)} (h : ∀ p ∈ w.parts s as, p.loc.isRemote = false) :
    s.begin w as .going = { s with dev := s.dev.enterOp s.iss.core s.iss.slot (opOf s w as .going) w.regs } := by
  have hnear : ∀ p ∈ (opOf s w as .going).parts, p.loc.isRemote = false := by
    intro p hp
    refine h p ?_
    dsimp only [opOf] at hp
    split_ifs at hp
    · exact mem_of_mem_lastWrites hp
    · exact hp
  exact congrArg (fun d : Dev => ({ s with dev := d } : State)) (Dev.sendParts_near hnear _ s.dev.nextOp 0)

theorem State.begin_begun {s : State} {w : MemWord} {as : List (Nat × Access)} (hr : s.running = true)
    (h : ∀ p ∈ w.parts s as, p.loc.isRemote = false) : Begun s (s.begin w as .going) (opOf s w as .going) w.regs true := by
  rw [State.begin_eq h]
  have hgrp : ({ s with dev := s.dev.enterOp s.iss.core s.iss.slot (opOf s w as .going) w.regs } : State).grp
      = (s.grp.raise w.ctr s.dev.nextOp).await w.regs s.dev.nextOp := Dev.group_modGroup _ _ _ _ hr
  exact {
    op := (Tab.find_insert ..).trans (if_pos rfl)
    ops := fun k hk => (Tab.find_insert ..).trans (if_neg hk)
    dev := rfl
    iss := rfl
    agenda := rfl
    others := fun k hk => Dev.find_modGroup_ne _ _ _ _ _ hk
    grp := by rw [hgrp]; exact Group.await_raise_eq ..
    awaited := fun r hm => by rw [hgrp]; exact Group.mem_await_of_mem _ _ hm
    ready := fun r k hm => by rw [hgrp, Group.mem_await_of_not_mem _ _ _ hm, Group.notReady_raise]
    counts := fun c => by
      rw [hgrp]
      refine (Group.count_raise s.grp w.ctr c s.dev.nextOp).trans ?_
      simp [opOf] }

/-! ## Memory words (R148, R161, R170) -/

section
variable {s : State} {w : MemWord} {st : OpState}

theorem State.memWord_noLane (h : w.lanes = []) : s.memWord w st = s := by simp [State.memWord, h]

theorem State.memWord_trap {s1 : State} {f : TrapInfo} (hl : w.lanes ≠ []) (hc : s.checkLanes w.check w.lanes = (s1, .error f)) :
    s.memWord w st = s1.takeTrap f := by simp [State.memWord, hl, hc]

theorem State.memWord_passes {u : State} {as : List (Nat × Access)} (h : Passes s w u as) : s.memWord w .going = u.begin w as .going := by
  obtain ⟨s1, hc, hs⟩ := h.checked
  simp [State.memWord, h.some_lane, hc, hs, State.enter, State.paired_alone h.alone, h.room]

end

theorem entersCounter_of_memWord {s : State} {i : Instr} {w : MemWord} (h : exec i s = .next (s.memWord w .going)) : EntersCounter s i w := by
  refine ⟨fun hl => ?_, fun s1 f hl hc => ?_, fun u as hp => ⟨_, ?_, State.begin_begun hp.here hp.near⟩⟩
  · rw [h, State.memWord_noLane hl]
  · rw [h, State.memWord_trap hl hc]
  · rw [h, State.memWord_passes hp]

theorem State.levelLoad_eq (s : State) (lv : Level) (z : BitVec 4) (d : VReg) (b : SReg) (v : VReg) (x : BitVec 1) :
    s.levelLoad lv z d b v x = s.memWord (levelWord s false lv z d b v x) .going := by
  have hz : sizeSigned z.toNat = decide (z = 5 ∨ z = 6) := by revert z; decide
  unfold State.levelLoad
  rw [hz]
  rfl

/-- A compare and swap names the even register of its pair by half its number (R190). -/
theorem State.atomicCas_eq (s : State) (d : SReg) (b : SReg) (v : VReg) :
    s.atomic 10 (d.zeroExtend 7 <<< 1) b v = s.memWord (atomicWord s (.atom 10 (2 * d.toNat)) (d.zeroExtend 7 <<< 1) b v) .going := by
  have hd : (d.zeroExtend 7 <<< 1).toNat = 2 * d.toNat := by bv_omega
  unfold State.atomic
  rw [hd]
  rfl

/-- Each word asks for what accessOf says of it. -/
theorem exec_of_accessOf {s : State} {i : Instr} {w : MemWord} (h : accessOf s i = some w) : exec i s = .next (s.memWord w .going) := by
  unfold accessOf at h
  split at h <;> cases h
  case h_1.refl | h_3.refl | h_5.refl | h_7.refl | h_9.refl => exact congrArg Host.Outcome.next (State.levelLoad_eq ..)
  case h_25.refl => exact congrArg Host.Outcome.next (State.atomicCas_eq ..)
  all_goals rfl

/-- Settles O23: each word is a memory word, which does nothing, traps, or begins its operation. -/
theorem memoryWordsEnterTheirCounters : Obligations.MemoryWordsEnterTheirCounters :=
  fun _ _ _ h => entersCounter_of_memWord (exec_of_accessOf h)

end Sys2Proof.Machine
end

section
/-! SUPPORT. Checks at the levels and barrier words (R144, R148, R165, R166). -/

namespace Sys2Proof.Machine

open Sys2Proof.Claims

/-! ## Checks at the levels (R144, R148) -/

/-- The place of an offset at the P, S or C level for a slot (R144). -/
def Dev.levelLoc (d : Dev) (core slot : Nat) (lv : Level) (lane off : Nat) : Loc :=
  let task := d.taskAt core slot
  match lv with
  | .p => { sp := .pmem, own := task, a := 4096 * (32 * d.sliceIndex core slot + lane) + off }
  | .s => { sp := .smem, own := task, a := off }
  | _ => { sp := .cmem, own := ((d.task? task).map (fun t => t.gang)).getD 0, a := off }

/-- An access to one of these levels is checked for its bounds, then its alignment, and changes nothing. -/
theorem State.checkAt_level (s : State) {lv : Level} (h : lv ∈ [Level.p, Level.s, Level.c]) (k : AccKind) (lane off n : Nat) :
    s.checkAt lv k lane off off n = (s,
      if s.dev.extent s.iss.core s.iss.slot lv < off + n then .error (checkInfo 0x06 k off lane)
      else if off % n = 0 then .ok { loc := s.dev.levelLoc s.iss.core s.iss.slot lv lane off, leaf := 0, lv := lv }
      else .error (checkInfo 0x08 k off lane)) := by
  simp only [List.mem_cons, List.not_mem_nil, or_false] at h
  rcases h with rfl | rfl | rfl
  · dsimp only [State.checkAt]
    split_ifs <;> rfl
  · dsimp only [State.checkAt]
    split_ifs <;> rfl
  · dsimp only [State.checkAt, Dev.levelLoc]
    cases s.dev.task? (s.dev.taskAt s.iss.core s.iss.slot) <;> split_ifs <;> rfl

/-- Settles O24: by the order of the checks. -/
theorem levelAccessesAreCheckedInOrder : Obligations.LevelAccessesAreCheckedInOrder := by
  intro s k lane off n lv hlv
  rw [State.checkAt_level s hlv]
  refine ⟨rfl, fun hb => if_pos hb, fun hb ha => (if_neg (not_lt.2 hb)).trans (if_neg ha),
    fun hb ha => ⟨_, (if_neg (not_lt.2 hb)).trans (if_pos ha), rfl, rfl, ?_⟩⟩
  cases lv <;> rfl

/-- Only a walk changes the state at a check (R148). -/
theorem State.checkAt_fst {s : State} {lv : Level} (h : lv ≠ .g) (k : AccKind) (lane off addr n : Nat) : (s.checkAt lv k lane off addr n).1 = s := by
  cases lv with
  | g => exact absurd rfl h
  | _ => dsimp only [State.checkAt]; split_ifs <;> rfl

theorem State.checkGeneric_fst {s : State} {ok : Level → Bool} (h : ok .g = false) (k : AccKind) (lane addr n : Nat) :
    (s.checkGeneric ok k lane addr n).1 = s := by
  unfold State.checkGeneric
  split
  · rfl
  · split_ifs with hok
    · exact State.checkAt_fst (by rintro rfl; rw [h] at hok; cases hok) ..
    · rfl

/-! ## Barrier words (R165, R166) -/

theorem Bytes.toNat_lt (l : List Byte) : Bytes.toNat l < 256 ^ l.length := by
  induction l with
  | nil => exact Nat.one_pos
  | cons b l ih =>
    have hb : b.toNat < 256 := b.isLt
    rw [Bytes.toNat, List.length_cons, pow_succ]
    omega

theorem Dev.length_readBytes (d : Dev) (l : Loc) (n : Nat) : (d.readBytes l n).length = n := by
  induction n generalizing l with
  | zero => rfl
  | succ n ih => rw [Dev.readBytes, List.length_cons, ih]

theorem Dev.readNat_lt (d : Dev) (l : Loc) (n : Nat) : d.readNat l n < 256 ^ n := by
  have h := Bytes.toNat_lt (d.readBytes l n)
  rwa [Dev.length_readBytes] at h

/-- The phase of a barrier word is its highest bit. -/
theorem bit_31_eq (x : Nat) : bit x 31 = decide (2 ^ 31 ≤ x % 2 ^ 32) := by
  unfold bit
  congr 1
  simp only [eq_iff_iff]
  omega

theorem Dev.phase_eq (d : Dev) (l : Loc) : bit (d.readNat l 4) 31 = decide (2 ^ 31 ≤ d.readNat l 4) := by
  have hlt : d.readNat l 4 < 2 ^ 32 := d.readNat_lt l 4
  rw [bit_31_eq, Nat.mod_eq_of_lt hlt]

/-- A barrier word of a phase, a target and a number of arrivals (R165). -/
def barWord (phase : Bool) (target n : Nat) : Nat := (if phase then 2 ^ 31 else 0) + target * 2 ^ 16 + n

theorem barArrive_barWord (phase : Bool) {target n : Nat} (ht : target < 2 ^ 15) (hn : n < 2 ^ 16) : barArrive (barWord phase target n) =
    if target ≤ n then none else some (if n + 1 = target then barWord (!phase) target 0 else barWord phase target (n + 1)) := by
  have htarget : bits (barWord phase target n) 30 16 = target := by cases phase <;> simp [barWord, bits] <;> omega
  have hcount : bits (barWord phase target n) 15 0 = n := by cases phase <;> simp [barWord, bits] <;> omega
  have hhigh : bits (barWord phase target n) 31 16 = (if phase then 2 ^ 15 else 0) + target := by cases phase <;> simp [barWord, bits] <;> omega
  have hphase : bit (barWord phase target n) 31 = phase := by cases phase <;> simp [barWord, bit] <;> omega
  unfold barArrive
  simp only [htarget, hcount, hhigh, hphase]
  have hbad : (target = 0 ∨ n ≥ target) ↔ target ≤ n := by omega
  simp only [hbad]
  by_cases h0 : target ≤ n
  · simp only [h0, if_true]
  · simp only [h0, if_false]
    by_cases h1 : n + 1 = target
    · simp only [h1, if_true]
      cases phase <;> rfl
    · simp only [h1, if_false, Option.some.injEq]
      cases phase <;> simp [barWord]
      omega

section
variable {s u : State} {a : Access} {b : SReg}

theorem State.uniCheck_bar {k : AccKind} {n : Nat} (h : s.uniCheck barLevel k b n = (u, .ok a)) : u = s :=
  (congrArg Prod.fst h).symm.trans (State.checkGeneric_fst rfl ..)

variable {after : State → Loc → Nat → State} (hp : s.performs = true) (hc : s.uniCheck barLevel .rmw b 4 = (s, .ok a)) (hr : s.old.role = .none)
include hp hc hr

theorem State.barArrival_stores (hs : s.iss.base.storesOut s.iss.core s.iss.slot = true) : s.barArrival b after = s.stall .stallStores id := by
  simp [State.barArrival, hp, hc, State.pairGate_alone hr, State.pairFollows_alone hr, hs]

variable (hb : s.iss.base.storesOut s.iss.core s.iss.slot = false) (hd : s.dev.storesOut s.iss.core s.iss.slot = false)
  (he : s.dev.engineHolds a.loc 4 = false)
include hb hd he

theorem State.barArrival_malformed (hw : barArrive (s.dev.readNat a.loc 4) = none) :
    s.barArrival b after = s.takeTrap (checkInfo 0x0A .rmw (s.uniAddr b) ((s.uniLanes.head?).getD 0)) := by
  simp [State.barArrival, hp, hc, State.pairGate_alone hr, State.pairFollows_alone hr, hb, he, State.ownStores, hd, hw]

theorem State.barArrival_arrives {w : Nat} (hw : barArrive (s.dev.readNat a.loc 4) = some w)
    (ha : (after { s with dev := s.dev.perform a.loc (Bytes.ofNat 4 w) } a.loc (s.dev.readNat a.loc 4)).old.role = .none) :
    s.barArrival b after = after { s with dev := s.dev.perform a.loc (Bytes.ofNat 4 w) } a.loc (s.dev.readNat a.loc 4) := by
  simp [State.barArrival, hp, hc, State.pairGate_alone hr, State.pairFollows_alone hr, hb, he, State.ownStores, hd, hw, State.modDev,
    State.pairAfter_alone ha]

end

theorem State.old_barWait (s : State) (l : Loc) (phase : Bool) : (s.barWait l phase).old = s.old := by
  unfold State.barWait
  split_ifs <;> rfl

theorem State.barWait_eq (s : State) (l : Loc) (phase : Bool) :
    s.barWait l phase = if decide (2 ^ 31 ≤ s.dev.readNat l 4) ≠ phase then s else s.park (.barrier l phase) := by
  rw [State.barWait, Dev.phase_eq]

theorem execBara_of_room {s : State} (d b : SReg) (h : s.mustStall .cl false = false) :
    exec (.bara d b) s = .next (s.barArrival b (fun s _ old => (s.wrS d (BitVec.ofNat 64 old)).countOnce .cl)) := by
  simp [execBara, h]

theorem execBart_eq {s : State} {a : Access} {d b : SReg} (hp : s.performs = true) (hc : s.uniCheck barLevel .read b 4 = (s, .ok a))
    (hr : s.old.role = .none) (he : s.dev.engineHolds a.loc 4 = false) :
    exec (.bart d b) s = .next (s.barWait a.loc ((s.rdS d).getLsbD 31)) := by
  have hbit : bit (s.rdS d).toNat 31 = (s.rdS d).getLsbD 31 := by simp [bit, BitVec.getLsbD, Nat.testBit_eq_decide_div_mod_eq]
  have ha : (s.barWait a.loc ((s.rdS d).getLsbD 31)).old.role = .none := by rw [State.old_barWait, hr]
  simp only [exec_bart, execBart, hp, hc, State.pairGate_alone hr, he, hbit, State.pairAfter_alone ha, Bool.not_true, Bool.false_eq_true, if_false]

/-- Settles O26: each word by what it finds at its address; a word's arrival by its fields. -/
theorem barrierWordsArriveAndWait : Obligations.BarrierWordsArriveAndWait := by
  refine ⟨fun s u a b d hp => ⟨fun w hc hr hb hd he hw => ?_, fun hc hr hb hd he hw => ?_, fun hc hr hb => ?_, fun hc hr he => ?_⟩,
    fun phase target n ht hn => ?_⟩
  · obtain rfl := State.uniCheck_bar hc
    have hbarw := (congrArg Host.Outcome.next (State.barArrival_arrives hp hc hr hb hd he hw ((State.old_barWait ..).symm ▸ hr)) : exec (.barw b) u = _)
    rw [Dev.phase_eq, State.barWait_eq] at hbarw
    intro t now
    have hnow : now = decide (2 ^ 31 ≤ t.dev.readNat a.loc 4) := by
      have hlt : t.dev.readNat a.loc 4 < 2 ^ 32 := Dev.readNat_lt ..
      simp only [now, Nat.mod_eq_of_lt hlt]
    rw [hnow]
    exact ⟨fun h => hbarw.trans (congrArg Host.Outcome.next (if_pos h)), fun h => hbarw.trans (congrArg Host.Outcome.next (if_neg (not_not.2 h))),
      fun hm => (execBara_of_room d b hm).trans (congrArg Host.Outcome.next (State.barArrival_arrives hp hc hr hb hd he hw hr))⟩
  · obtain rfl := State.uniCheck_bar hc
    exact ⟨congrArg Host.Outcome.next (State.barArrival_malformed hp hc hr hb hd he hw),
      fun hm => (execBara_of_room d b hm).trans (congrArg Host.Outcome.next (State.barArrival_malformed hp hc hr hb hd he hw))⟩
  · obtain rfl := State.uniCheck_bar hc
    exact ⟨congrArg Host.Outcome.next (State.barArrival_stores hp hc hr hb),
      fun hm => (execBara_of_room d b hm).trans (congrArg Host.Outcome.next (State.barArrival_stores hp hc hr hb))⟩
  · obtain rfl := State.uniCheck_bar hc
    have hbart := execBart_eq (d := d) hp hc hr he
    rw [State.barWait_eq] at hbart
    exact ⟨fun h => hbart.trans (congrArg Host.Outcome.next (if_pos h)), fun h => hbart.trans (congrArg Host.Outcome.next (if_neg (not_not.2 h)))⟩
  · have h := barArrive_barWord phase ht hn
    refine ⟨fun h1 => ?_, fun h1 => ?_, fun h1 => ?_⟩
    · exact h.trans (if_pos h1)
    · exact h.trans ((if_neg (by omega)).trans (congrArg some (if_neg (by omega))))
    · exact h.trans ((if_neg (by omega)).trans (congrArg some (if_pos h1)))

end Sys2Proof.Machine
end

section
/-! SUPPORT. What the caches leave as it was when a line comes in or a partial goes home (R151 to R153, R194, R401), and what an operation sees (R149, R204). -/

namespace Sys2Proof.Machine

open Sys2Proof.Claims

/-! ## What the fill of a line leaves as it was (R151 to R153, R194) -/

/-- What the caches do as a core reads: lines and partials move, and no group, task, operation or copy of a peer's byte changes; nor, with no partials
held, does any byte. -/
structure LinesFilled (d e : Dev) : Prop where
  groups : e.groups = d.groups
  tasks : e.tasks = d.tasks
  ops : e.ops = d.ops
  nextOp : e.nextOp = d.nextOp
  copies : ∀ c, (e.core c).copies = (d.core c).copies
  memory : noPartials d → SameMemory d e ∧ noPartials e

theorem LinesFilled.refl (d : Dev) : LinesFilled d d := ⟨rfl, rfl, rfl, rfl, fun _ => rfl, fun h => ⟨fun _ => rfl, h⟩⟩

theorem LinesFilled.trans {d e f : Dev} (h : LinesFilled d e) (k : LinesFilled e f) : LinesFilled d f where
  groups := k.groups.trans h.groups
  tasks := k.tasks.trans h.tasks
  ops := k.ops.trans h.ops
  nextOp := k.nextOp.trans h.nextOp
  copies c := (k.copies c).trans (h.copies c)
  memory hd :=
    have ⟨hm, he⟩ := h.memory hd
    have ⟨km, kf⟩ := k.memory he
    ⟨fun l => (km l).trans (hm l), kf⟩

theorem LinesFilled.foldl {α : Type} {f : Dev → α → Dev} (hf : ∀ d x, LinesFilled d (f d x)) (l : List α) (d : Dev) : LinesFilled d (l.foldl f d) :=
  List.foldlRecOn l f (motive := LinesFilled d) (LinesFilled.refl d) (fun e h x _ => h.trans (hf e x))

/-- A movement that keeps the operations. -/
theorem LineMoved.linesFilled {d e : Dev} (h : LineMoved d e) (ho : e.ops = d.ops) (hn : e.nextOp = d.nextOp) : LinesFilled d e :=
  have hd := h.linesDropped 0
  { groups := h.groups
    tasks := h.tasks
    ops := ho
    nextOp := hn
    copies := fun c => congrArg (fun t => (Tab.get Core.reset t c).copies) h.cores
    memory := hd.memory }

/-- A change of a core that keeps its copies and brings no partials. -/
theorem linesFilled_modCore (d : Dev) (c : Nat) (f : Core → Core) (hc : ∀ k, (f k).copies = k.copies)
    (hu : ∀ k, k.upart = [] → (f k).upart = []) : LinesFilled d (d.modCore c f) where
  groups := rfl
  tasks := rfl
  ops := rfl
  nextOp := rfl
  copies k := by
    rw [Dev.core_modCore]; split_ifs with h
    · rw [hc, h]
    · rfl
  memory hd := ⟨fun _ => rfl, fun k => by
    rw [Dev.core_modCore]; split_ifs
    · exact hu _ (hd c)
    · exact hd k⟩

/-- What decoding stored words keeps beside what a movement keeps. -/
def OpsKept (d e : Dev) : Prop := e.ops = d.ops ∧ e.nextOp = d.nextOp

theorem opsKept_foldl {α : Type} {f : Dev → α → Dev} (hf : ∀ d x, OpsKept d (f d x)) (l : List α) (d : Dev) : OpsKept d (l.foldl f d) :=
  List.foldlRecOn l f (motive := OpsKept d) ⟨rfl, rfl⟩ (fun e h x _ => ⟨(hf e x).1.trans h.1, (hf e x).2.trans h.2⟩)

theorem opsKept_decodeRaw (d : Dev) (moved : Bool) (r : Raw) : OpsKept d (d.decodeRaw moved r) := by
  unfold Dev.decodeRaw; split_ifs <;> exact ⟨rfl, rfl⟩

theorem opsKept_moveRaw (d : Dev) (array inst line : Nat) : OpsKept d (d.moveRaw array inst line) := by
  unfold Dev.moveRaw
  extract_lets mine ls d1 d2
  have h1 : OpsKept d d1 := opsKept_foldl (fun e r => opsKept_decodeRaw e true r) _ d
  split_ifs
  · exact ⟨rfl, rfl⟩
  · unfold d2
    split_ifs <;> exact h1

theorem linesFilled_moveRaw (d : Dev) (array inst line : Nat) : LinesFilled d (d.moveRaw array inst line) :=
  (lineMoved_moveRaw d array inst line).linesFilled (opsKept_moveRaw d array inst line).1 (opsKept_moveRaw d array inst line).2

theorem linesFilled_reportRaw (d : Dev) (l : Loc) (n : Nat) : LinesFilled d (d.reportRaw l n) :=
  .foldl (fun e r => (lineMoved_decodeRaw e false r).linesFilled (opsKept_decodeRaw e false r).1 (opsKept_decodeRaw e false r).2) _ d

theorem linesFilled_l2Put (d : Dev) (line : Nat) (recent : Bool) : LinesFilled d (d.l2Put line recent) := by
  unfold Dev.l2Put
  split_ifs
  · exact .refl d
  · refine LinesFilled.trans ?_ (.foldl (fun e v => linesFilled_moveRaw e 6 0 v) _ _)
    exact ⟨rfl, rfl, rfl, rfl, fun _ => rfl, fun h => ⟨fun _ => rfl, h⟩⟩

theorem linesFilled_l2Fill (d : Dev) (gran line : Nat) (recent : Bool) : LinesFilled d (d.l2Fill gran line recent) := by
  unfold Dev.l2Fill
  split_ifs
  · exact (linesFilled_l2Put ..).trans (linesFilled_l2Put ..)
  · exact linesFilled_l2Put ..

theorem linesFilled_countFill (d : Dev) (die : Nat) (l : Loc) : LinesFilled d (d.countFill die l) := by
  unfold Dev.countFill
  split_ifs
  · exact ⟨rfl, rfl, rfl, rfl, fun _ => rfl, fun h => ⟨fun _ => rfl, h⟩⟩
  · exact .refl d

/-- A core without a line, whose partials have gone home (R194). -/
def Core.combined (k : Core) (line : Nat) : Core := { k with
  upart := k.upart.filter (fun p => p.1 / 32 ≠ line), l1 := Tab.erase k.l1 line }

theorem linesFilled_combineCore (d : Dev) (c line : Nat) : LinesFilled d (d.combineCore c line) := by
  obtain ⟨m, hm⟩ := d.foldl_writePartial_hbm ((d.core c).upart.filter (fun p => p.1 / 32 = line))
  have he : d.combineCore c line = ({ d with hbm := m } : Dev).modCore c (·.combined line) := congrArg (·.modCore c (·.combined line)) hm
  have hf := linesFilled_modCore { d with hbm := m } c (·.combined line) (fun _ => rfl) (fun k hk => by simp [Core.combined, hk])
  rw [← he] at hf
  exact ⟨hf.groups, hf.tasks, hf.ops, hf.nextOp, hf.copies, (linesDropped_combineCore d c line).memory⟩

theorem linesFilled_combine (d : Dev) (line : Nat) : LinesFilled d (d.combine line) :=
  .foldl (fun e (c : Nat × Core) => linesFilled_combineCore e c.1 line) _ d

theorem linesFilled_combineRange (d : Dev) (l : Loc) (n : Nat) : LinesFilled d (d.combineRange l n) := by
  unfold Dev.combineRange
  split_ifs
  · exact .foldl linesFilled_combine _ d
  · exact .refl d

theorem linesFilled_l1Drop (d : Dev) (core line : Nat) : LinesFilled d (d.l1Drop core line) := by
  unfold Dev.l1Drop
  cases Tab.find (d.core core).l1 line with
  | none => exact .refl d
  | some x =>
    have h0 := linesFilled_moveRaw d 1 core line
    refine LinesFilled.trans ?_ (linesFilled_modCore _ core _ (fun _ => rfl) (fun _ hk => hk))
    split_ifs
    · exact h0.trans (linesFilled_combineCore ..)
    · exact h0.trans (linesFilled_l2Put ..)
    · exact h0

theorem linesFilled_l1Put (d : Dev) (core line : Nat) (st : LineState) (sectors : BitVec 4) (recent : Bool) :
    LinesFilled d (d.l1Put core line st sectors recent) := by
  unfold Dev.l1Put
  extract_lets set into here ok
  have hinto : ∀ e way old, LinesFilled e (into e way old) := fun e way old => linesFilled_modCore e core _ (fun _ => rfl) (fun _ hk => hk)
  split
  · exact hinto ..
  · split
    · exact hinto ..
    · split
      · exact .refl d
      · split
        · exact (linesFilled_l1Drop ..).trans (hinto ..)
        · exact .refl d

theorem linesFilled_shareOthers (d : Dev) (core line : Nat) : LinesFilled d (d.shareOthers core line) := by
  refine .foldl (fun e c => ?_) _ d
  split
  · split_ifs
    · exact ((linesFilled_moveRaw ..).trans (linesFilled_l2Put ..)).trans (linesFilled_modCore _ _ _ (fun _ => rfl) (fun _ hk => hk))
    · exact linesFilled_modCore _ _ _ (fun _ => rfl) (fun _ hk => hk)
    · exact .refl e
  · exact .refl e

theorem linesFilled_readLine (d : Dev) (core cache gran : Nat) (l : Loc) (n : Nat) : LinesFilled d (d.readLine core cache gran l n) := by
  unfold Dev.readLine
  extract_lets line recent held miss d1
  have h1 : LinesFilled d d1 := by
    unfold d1
    split_ifs
    · exact (linesFilled_countFill ..).trans (linesFilled_l2Fill ..)
    · exact .refl d
  clear_value d1 miss held
  split
  · exact .refl d
  · split
    · split_ifs
      · exact h1.trans (linesFilled_l1Drop ..)
      · exact h1
    · split
      · exact h1.trans (linesFilled_l1Put ..)
      · exact h1.trans ((linesFilled_shareOthers ..).trans (linesFilled_l1Put ..))

theorem linesFilled_fillL1 (d : Dev) (core cache gran : Nat) (l : Loc) (n : Nat) : LinesFilled d (d.fillL1 core cache gran l n) := by
  unfold Dev.fillL1
  split
  · split_ifs
    · exact .refl d
    · exact linesFilled_readLine ..
  · exact linesFilled_readLine ..

/-! ## What an operation sees (R149, R204) -/

theorem LinesFilled.seenByte {d e : Dev} (h : LinesFilled d e) (hd : noPartials d) (core slot task before : Nat) (l : Loc) :
    e.seenByte core slot task before l = d.seenByte core slot task before l := by
  unfold Dev.seenByte Dev.overlay Core.copyAt Dev.task?
  simp only [h.ops, h.tasks, h.copies core, (h.memory hd).1 l]

theorem LinesFilled.seen {d e : Dev} (h : LinesFilled d e) (hd : noPartials d) (core slot task before n : Nat) (l : Loc) :
    e.seen core slot task before l n = d.seen core slot task before l n := by
  induction n generalizing l with
  | zero => rfl
  | succ n ih => rw [Dev.seen, Dev.seen, h.seenByte hd, ih]

theorem Dev.seen_lt (d : Dev) (core slot task before : Nat) (l : Loc) (n : Nat) : d.seen core slot task before l n < 256 ^ n := by
  induction n generalizing l with
  | zero => exact Nat.one_pos
  | succ n ih =>
    have hb : (d.seenByte core slot task before l).toNat < 256 := BitVec.isLt _
    have hn := ih (l.plus 1)
    rw [Dev.seen, pow_succ]
    omega

end Sys2Proof.Machine
end

section
/-! SUPPORT. Monitors (R167). -/

namespace Sys2Proof.Machine

open Sys2Proof.Claims

theorem LinesFilled.group {d e : Dev} (h : LinesFilled d e) (core slot : Nat) : e.group core slot = d.group core slot :=
  congrArg (fun t => Tab.get Group.empty t (gkey core slot)) h.groups

/-! ## Monitors (R167) -/

section
variable {s u0 u : State} {a : Access} {b : SReg}

theorem State.monAddress_alone {n : Nat} (k : State → Access → State) (hp : s.performs = true) (hc : s.uniCheck notP .read b n = (u0, .ok a))
    (hs : u0.settleSets (if a.lv = .g then [(s.uniAddr b, n)] else []) false = .inl u) (hr : u.old.role = .none) :
    s.monAddress b n k = if u.dev.engineHolds a.loc n = true then u.stall .stallEngine id else k u a := by
  simp only [State.monAddress, hp, hc, hs, State.pairGate_alone hr, Bool.not_true, Bool.false_eq_true, if_false]

/-- A group with its monitor armed on the block of a place. -/
def Group.watch (g : Group) (l : Loc) : Group := { g with monitor := some l.block }

theorem State.iss_arm (s : State) (a : Access) (addr : Nat) : (s.arm a addr).iss = s.iss := by
  unfold State.arm
  dsimp only
  split
  · rfl
  · split
    · rfl
    · split <;> rfl

theorem execMarm_arms (hp : s.performs = true) (hc : s.uniCheck notP .read b 1 = (u0, .ok a))
    (hs : u0.settleSets (if a.lv = .g then [(s.uniAddr b, 1)] else []) false = .inl u) (hr : u.old.role = .none)
    (he : u.dev.engineHolds a.loc 1 = false) : exec (.marm b) s = .next (u.arm a (s.uniAddr b)) := by
  have harmed : (u.arm a (s.uniAddr b)).old.role = .none := by rw [State.old, State.iss_arm]; exact hr
  rw [exec_marm, execMarm, State.monAddress_alone _ hp hc hs hr, he, if_neg Bool.false_ne_true, State.pairAfter_alone harmed]

theorem State.arm_remote (addr : Nat) (hr : u.old.role = .none) (hl : a.loc.isRemote = true) :
    u.arm a addr = (u.modGrp (·.watch a.loc)).fetchBlock a addr := by
  simp only [State.arm, hr, hl, reduceCtorEq, if_false, if_true]
  rfl

theorem State.arm_near (addr : Nat) (hr : u.old.role = .none) (hl : a.loc.isRemote = false) :
    ∃ d, LinesFilled (u.modGrp (·.watch a.loc)).dev d ∧ u.arm a addr = { u with dev := d } := by
  simp only [State.arm, hr, hl, reduceCtorEq, Bool.false_eq_true, if_false]
  split
  · exact ⟨_, (linesFilled_combineRange ..).trans (linesFilled_fillL1 ..), rfl⟩
  · exact ⟨_, .refl _, rfl⟩

/-- The state as an MWAIT that has seen its word takes it and disarms. -/
def State.takeWord (s : State) (d : SReg) (w : W64) : State :=
  ((s.wrS d w).modGrp (fun g => { g with monitor := none })).modDev (fun x => x.acquired s.iss.core (s.scopeOr 3))

/-- An MWAIT at a word of this device whose block its group watches, as it finds the word. -/
theorem State.mwait_watched {ge : Bool} {d : SReg} (hp : s.performs = true) (hc : s.uniCheck notP .read b 8 = (u0, .ok a))
    (hs : u0.settleSets (if a.lv = .g then [(s.uniAddr b, 8)] else []) false = .inl u) (hr : u.old.role = .none)
    (he : u.dev.engineHolds a.loc 8 = false) (hl : a.loc.isRemote = false) (hm : u.grp.monitor = some a.loc.block) {w : W64}
    (hw : BitVec.ofNat 64 ((u.dev.combineRange a.loc 8).seen u.iss.core u.iss.slot u.taskId (u.dev.combineRange a.loc 8).nextOp a.loc 8) = w) :
    let e := u.modDev (fun x => x.combineRange a.loc 8)
    (mwaitHolds ge w (u.rdS d) = true → s.mwait ge d b = e.takeWord d w)
    ∧ (¬ mwaitHolds ge w (u.rdS d) = true → s.mwait ge d b = e.park (.mwait ge d (u.uniAddr b) (u.scopeOr 3) a.loc)) := by
  rw [State.mwait, State.monAddress_alone _ hp hc hs hr, he]
  simp only [hm, State.pairFollows_alone hr, hl, Bool.false_eq_true, if_false, if_true, State.modDev_dev, hw]
  exact ⟨fun h => (if_pos h).trans (State.pairAfter_alone (s := (u.modDev (fun x => x.combineRange a.loc 8)).takeWord d w) hr ..),
    fun h => (if_neg h).trans (State.pairAfter_alone (s := (u.modDev (fun x => x.combineRange a.loc 8)).park _) hr ..)⟩

end

theorem Dev.sameMemory_acquired (d : Dev) (core scope : Nat) : SameMemory d (d.acquired core scope) := by
  unfold Dev.acquired
  split_ifs <;> exact fun _ => rfl

theorem Dev.group_acquired (d : Dev) (core scope c sl : Nat) : (d.acquired core scope).group c sl = d.group c sl := by
  unfold Dev.acquired
  split_ifs <;> rfl

theorem State.grp_takeWord {s : State} (d : SReg) (w : W64) (h : s.running = true) :
    (s.takeWord d w).grp = { s.grp with monitor := none, regs := s.grp.regs.writeS d.toNat w } := by
  have h1 : ((s.wrS d w).modGrp (fun g => { g with monitor := none })).grp = { (s.wrS d w).grp with monitor := none } :=
    State.grp_modGrp _ _ ((Dev.hasGroup_modGroup ..).trans h)
  rw [State.grp_wrS s d w h] at h1
  exact (Dev.group_acquired ..).trans h1

/-- Settles O27: MARM by where its block lies, MWAIT by its condition. -/
theorem monitorsWatchABlock : Obligations.MonitorsWatchABlock := by
  intro s u a b d ge hp hu i block
  refine ⟨fun u0 hc hs hr he => ⟨fun hl => ?_, fun hl => ?_⟩, fun u0 hc hs hr he => ?_, fun u0 hc hs hr he hl hm hn => ?_⟩
  · obtain ⟨e, hf, harm⟩ := State.arm_near (s.uniAddr b) hr hl
    exact ⟨_, (execMarm_arms hp hc hs hr he).trans (congrArg Host.Outcome.next harm), rfl, (hf.group ..).trans (State.grp_modGrp u _ hu), fun hn => (hf.memory hn).1⟩
  · exact (execMarm_arms hp hc hs hr he).trans (congrArg Host.Outcome.next (State.arm_remote _ hr hl))
  · rw [exec_marm, execMarm, State.monAddress_alone _ hp hc hs hr, he, if_pos rfl]
  · intro w holds
    have hf := linesFilled_combineRange u.dev a.loc 8
    have hi : exec i s = .next (s.mwait ge d b) := by cases ge <;> rfl
    obtain ⟨htake, hpark⟩ := State.mwait_watched (ge := ge) (d := d) hp hc hs hr he hl hm (w := w) (by rw [hf.seen hn, hf.nextOp])
    have hh : mwaitHolds ge w (u.rdS d) = true ↔ holds := mwaitHolds_iff ..
    by_cases h : holds
    · have hrun : (u.modDev (fun x => x.combineRange a.loc 8)).running = true := (congrArg (fun t => (Tab.find t _).isSome) hf.groups).trans hu
      refine ⟨_, hi.trans (congrArg Host.Outcome.next (htake (hh.2 h))), ?_, fun _ => ⟨rfl, ?_⟩, fun hn => absurd h hn⟩
      · exact fun l => (Dev.sameMemory_acquired _ _ _ l).trans ((hf.memory hn).1 l)
      · have hg : (u.modDev (fun x => x.combineRange a.loc 8)).grp = u.grp := hf.group ..
        rw [State.grp_takeWord d w hrun, hg]
    · exact ⟨_, hi.trans (congrArg Host.Outcome.next (hpark (mt hh.1 h))), (hf.memory hn).1, fun hy => absurd hy h, fun _ => ⟨hf.group .., rfl⟩⟩

end Sys2Proof.Machine
end

section
/-! SUPPORT. Loads that bind (R149, R160, R171, R172). -/

namespace Sys2Proof.Machine

open Sys2Proof.Claims

/-- A group whose stalled splits try again. -/
def Group.wake (g : Group) : Group := { g with splits := g.splits.map (fun o => o.map (fun x => if x.park.isStall then x.retry else x)) }

theorem Dev.group_wakeStalls (d : Dev) (core slot : Nat) : d.wakeStalls.group core slot = (d.group core slot).wake := by
  unfold Dev.group Tab.get Dev.wakeStalls Dev.mapGroups
  rw [Tab.find_mapV]
  cases Tab.find d.groups (gkey core slot) <;> rfl

/-! ## One part bound (R149, R172) -/

/-- What binding reads of the device and leaves: its groups, operations and bytes are as before, then the part is done with the value that the operation saw. -/
theorem Dev.bindPart_eq {d : Dev} (n : Nat) (o : Op) (i : Nat) (p : LanePart) (hd : noPartials d) :
    ∃ e : Dev, e.groups = d.groups ∧ e.ops = d.ops ∧ SameMemory d e
      ∧ d.bindPart n o i p = e.modOp n (fun q => q.finish i (d.seen o.core o.slot o.task n p.loc p.n) false) := by
  have hf : LinesFilled d (((d.combineRange p.loc p.n).reportRaw p.loc p.n).readLine o.core p.cache p.gran p.loc p.n) :=
    (linesFilled_combineRange ..).trans ((linesFilled_reportRaw ..).trans (linesFilled_readLine ..))
  unfold Dev.bindPart
  extract_lets d0 x
  have hx : x = d.seen o.core o.slot o.task n p.loc p.n := hf.seen hd ..
  rw [← hx]
  split_ifs
  · exact ⟨d0.dropCopy o.core p.loc p.n, hf.groups, hf.ops, (hf.memory hd).1, rfl⟩
  · exact ⟨d0, hf.groups, hf.ops, (hf.memory hd).1, rfl⟩

/-- A group as an operation of its ends with no failure (R171). -/
def Group.opEnded (g : Group) (c : Ctr) (n : Nat) : Group :=
  let h := g.endOp c n none
  { h with notReady := h.notReady.filter (fun p => p.2 ≠ n) }

theorem Dev.endIfDone_done {d : Dev} {n : Nat} {o : Op} (ho : d.op? n = some o) (hp : o.parts.all (fun p => p.done && !p.wrote) = true)
    (hc : o.core < 65536) :
    d.endIfDone n = ({ (d.modGroup o.core o.slot (o.deliverAll n)).modGroup o.core o.slot (·.opEnded o.ctr n) with ops := Tab.erase d.ops n } : Dev).wakeStalls := by
  have hend : (d.modGroup o.core o.slot (o.deliverAll n)).op? n = some o := ho
  simp only [Dev.endIfDone, ho, hp, if_true, Dev.modHome, hc, Dev.endOp, hend]
  rfl

theorem Group.awaits_keepValue (g : Group) (n : Nat) (p : LanePart) (x : Nat) (r : RegName) : (g.keepValue n p x).awaits r n = g.awaits r n := rfl

/-- A group whose load of a lane has been bound to a value. -/
def Group.bound (g : Group) (n d : Nat) (sx : Bool) (p : LanePart) (x : Nat) : Group :=
  { g.keepValue n p x with regs := g.regs.bindV d p.lane p.n sx x }

theorem Group.deliver_load {g : Group} {n d : Nat} {sx : Bool} {p : LanePart} (x : Nat) (hn : p.n ≤ 4) (ha : g.awaits (.v d) n = true) :
    g.deliver n (.load d sx) p x = g.bound n d sx p x := by
  simp only [Group.deliver, hn, if_true, Group.awaits_keepValue, ha]
  rfl

theorem Group.ended_of_opEnded {g : Group} {c : Ctr} {n : Nat} : ∀ x ∈ (g.opEnded c n).count c, x.op = n → x.ended = true := by
  intro x hx hn
  have hm : x ∈ (g.count c).map (fun x => if x.op = n then { x with ended := true, bad := none } else x) := by cases c <;> exact hx
  obtain ⟨y, -, rfl⟩ := List.mem_map.1 hm
  by_cases hy : y.op = n
  · simp [hy]
  · simp [hy] at hn

theorem Group.not_mem_notReady_opEnded (g : Group) (c : Ctr) (n : Nat) (r : RegName) : (r, n) ∉ (g.opEnded c n).notReady := by
  simp [Group.opEnded]

theorem Group.regs_opEnded (g : Group) (c : Ctr) (n : Nat) : (g.opEnded c n).regs = g.regs := by cases c <;> rfl

/-- A value of one, two or four bytes widened to a lane's register (R160). -/
theorem Regs.bindV_eq (r : Regs) (d lane : Nat) {n x : Nat} (sx : Bool) (hn : n = 1 ∨ n = 2 ∨ n = 4) (hx : x < 256 ^ n) :
    r.bindV d lane n sx x = r.writeV d lane (if sx then (BitVec.ofNat (8 * n) x).signExtend 32 else BitVec.ofNat 32 x) := by
  have hpow : 256 ^ n = 2 ^ (8 * n) := pow_mul 2 8 n ▸ rfl
  have hy : BitVec.ofNat 32 (if (sx && bit x (8 * n - 1)) = true then x + 2 ^ 32 - 2 ^ (8 * n) else x)
      = if sx then (BitVec.ofNat (8 * n) x).signExtend 32 else BitVec.ofNat 32 x := by
    cases sx
    · rfl
    · apply BitVec.eq_of_toNat_eq
      rcases hn with rfl | rfl | rfl <;> simp [BitVec.toNat_signExtend, BitVec.msb_eq_decide, bit] <;> split_ifs <;> omega
  have hle : n ≤ 4 := by omega
  rw [Regs.bindV, if_pos hle, ← hy]

/-- The device as a load's only part is bound and the load ends. -/
theorem Dev.bindLoad_one {d : Dev} {n r : Nat} {sx : Bool} {o : Op} {p : LanePart} (ho : d.op? n = some o) (hc : o.core < 65536)
    (hg : d.hasGroup o.core o.slot = true) (hd : noPartials d) (hk : o.kind = .load r sx) (hp : o.parts = [p])
    (hb : d.bindable n o p = true) (hpo : d.poisoned p.loc p.n = false) (hn : p.n ≤ 4)
    (ha : (d.group o.core o.slot).awaits (.v r) n = true) :
    let g := d.group o.core o.slot
    let x := d.seen o.core o.slot o.task n p.loc p.n
    SameMemory d (d.bindLoad n) ∧ (d.bindLoad n).op? n = none
      ∧ (d.bindLoad n).group o.core o.slot =
        ((g.bound n r sx p x).opEnded o.ctr n).wake.wake := by
  obtain ⟨e, hgroups, hops, hmem, he⟩ := Dev.bindPart_eq n o 0 p hd
  intro g x
  have hx : (BitVec.ofNat 128 x).toNat = x := by
    have hlt : x < 256 ^ 4 := (d.seen_lt ..).trans_le (Nat.pow_le_pow_right (by norm_num) hn)
    rw [BitVec.toNat_ofNat, Nat.mod_eq_of_lt (by omega)]
  have hbl : d.bindLoad n = ((e.modOp n (fun q => q.finish 0 x false)).endIfDone n).wakeStalls := by
    simp [Dev.bindLoad, ho, hp, hpo, Dev.bindParts, hb, he, x]
  have hop : (e.modOp n (fun q => q.finish 0 x false)).op? n = some (o.finish 0 x false) := by
    have hfind : Tab.find e.ops n = some o := (congrArg (fun t => Tab.find t n) hops).trans ho
    simp [Dev.op?, Tab.find_modify, hfind]
  have hdone : (o.finish 0 x false).parts = [{ p with done := true, res := BitVec.ofNat 128 x, wrote := false }] := by
    simp [Op.finish, hp, setAt]
  have hend := Dev.endIfDone_done hop (by simp [hdone]) hc
  have hhas : (e.modOp n (fun q => q.finish 0 x false)).hasGroup o.core o.slot = true := (congrArg (fun t => (Tab.find t _).isSome) hgroups).trans hg
  have hdel : (o.finish 0 x false).deliverAll n g = g.bound n r sx p x := by
    have hkind : (o.finish 0 x false).kind = .load r sx := hk
    rw [Op.deliverAll, hdone, hkind, List.foldl_cons, List.foldl_nil, hx]
    exact Group.deliver_load x hn ha
  rw [hbl, hend]
  refine ⟨hmem, (Tab.find_erase ..).trans (if_pos rfl), ?_⟩
  have hge : (e.modOp n (fun q => q.finish 0 x false)).group o.core o.slot = g := congrArg (fun t => Tab.get Group.empty t _) hgroups
  rw [Dev.group_wakeStalls, Dev.group_wakeStalls]
  refine congrArg (fun h : Group => h.wake.wake) ((Dev.group_modGroup _ _ _ _ ((Dev.hasGroup_modGroup ..).trans hhas)).trans ?_)
  exact congrArg (fun h : Group => h.opEnded o.ctr n) ((Dev.group_modGroup _ _ _ _ hhas).trans (by rw [hge, hdel]))

/-! ## The statement (R172) -/

theorem Dev.bindable_of_canBind {d : Dev} {n : Nat} {o : Op} {p : LanePart} (ho : d.op? n = some o) (hw : o.waits = []) (hp : o.parts = [p])
    (hl : o.kind.prefetches = false) (h : d.canBind n = true) : d.bindable n o p = true := by
  simp only [Dev.canBind, ho, Dev.entryDue, hw, hp, hl] at h
  simp at h
  exact h.2.2

theorem execLoadValueBound_load {s : State} {n : Nat} {o : Op} (ho : s.dev.op? n = some o) (hw : o.waits = []) (hl : o.kind.prefetches = false)
    (h : s.dev.canBind n = true) : Makes s (.loadValueBound n) (s.dev.bindLoad n) := by
  have hadvance : s.dev.advance n = s.dev := by simp [Dev.advance, ho, hw]
  rw [Makes, exec_loadValueBound, execLoadValueBound, h, if_pos rfl, ho]
  split
  next heq =>
    cases heq
    cases hl
  next => exact congrArg (fun d : Dev => (Host.Outcome.next { s with dev := d.bindLoad n } : Out)) hadvance

/-- Settles O30: the load's only part is bound, and the load ends. -/
theorem loadsBindTheirBytes : Obligations.LoadsBindTheirBytes := by
  intro s n d sx o p ho hcan hc hg hd hk hp hd127 hlane hpo hn ha hw
  have hl : o.kind.prefetches = false := by rw [hk]; rfl
  have hn4 : p.n ≤ 4 := by omega
  obtain ⟨hmem, hgone, hgroup⟩ := Dev.bindLoad_one ho hc hg hd hk hp (Dev.bindable_of_canBind ho hw hp hl hcan) hpo hn4 ha
  refine ⟨_, execLoadValueBound_load ho hw hl hcan, hgone, rfl, rfl, hmem, ?_⟩
  intro g h x
  have hh : h = _ := hgroup
  have hregs : h.regs = g.regs.writeV d p.lane (if sx then (BitVec.ofNat (8 * p.n) x).signExtend 32 else BitVec.ofNat 32 x) := by
    rw [hh]
    exact (Group.regs_opEnded ..).trans (Regs.bindV_eq _ _ _ sx hn (Dev.seen_lt ..))
  refine ⟨?_, fun r i hr hi hne => ?_, ?_, fun r => ?_, ?_⟩
  · rw [hregs, Regs.readV_writeV _ _ _ _ _ hlane hlane, if_pos ⟨rfl, by omega, rfl⟩]
  · rw [hregs, Regs.readV_writeV _ _ _ _ _ hlane hi, if_neg (fun hc => hne (Prod.ext hc.1 hc.2.2))]
  · rw [hregs, Regs.writeV]
    split_ifs <;> rfl
  · rw [hh]
    exact Group.not_mem_notReady_opEnded (g.bound n d sx p x) o.ctr n r
  · rw [hh]
    have hcount : ∀ k : Group, k.wake.wake.count o.ctr = k.count o.ctr := fun k => by cases o.ctr <;> rfl
    rw [hcount]
    exact Group.ended_of_opEnded

end Sys2Proof.Machine
end

section
/-! SUPPORT. What the end of a prefetch does to a table of cores that lists a core twice (R164, R153). -/

namespace Sys2Proof.Machine

open Sys2Proof.Claims

/-- A prefetch into L2 of the byte of HBM at address 0, going on. -/
def prefetchOfLine0 : Op :=
  { core := 0, slot := 0, task := 0, ctr := .cl, kind := .pref false,
    parts := [{ lane := 0, loc := hbmAt 0, addr := 0, n := 1, data := 0, done := false }],
    scope := 3, tent := false, pos := { pc := 0, word := 0 }, st := .going, waits := [], held := [] }

/-- A table of cores that lists core 0 twice: the entry that is read holds line 0 in L1 and no partial, the one behind it a partial of line 0. -/
def coreListedTwice : Tab Core :=
  [(0, { Core.reset with l1 := [(0, { st := .s, sectors := 15, way := 0 })] }), (0, { Core.reset with upart := [(0, (0, 1))] })]

/-- A machine at rest with that table and that prefetch. -/
def prefetchState : State :=
  { State.reset with dev := { Dev.reset with cores := coreListedTwice, ops := [(5, prefetchOfLine0)], nextOp := 6 } }

theorem noPartials_prefetchState : noPartials prefetchState.dev := by
  intro c
  by_cases h : 0 = c <;> simp [prefetchState, Dev.core, Tab.get, Tab.find, coreListedTwice, h, Core.reset]

/-- The prefetch's end combines line 0 for the core whose second entry holds a partial, which takes the line from the L1 of the first. -/
theorem cores_loadValueBound_prefetchState :
    ∃ t, exec (.loadValueBound 5) prefetchState = .next t ∧ t.dev.cores ≠ prefetchState.dev.cores :=
  ⟨_, rfl, by decide +kernel⟩

/-- Refutes O28: that a prefetch into L2 alone leaves the cores as they were. A state may list a core twice; noPartials looks at the entry that is read, while the
home combines for every listed entry with a partial of the line, and so takes the line from the core's L1. -/
theorem not_prefetchesOnlyFill : ¬ Obligations.PrefetchesOnlyFill := by
  intro h
  obtain ⟨t, ht, -, -, -, -, -, -, hcores⟩ := h.2 prefetchState 5 prefetchOfLine0 false rfl rfl rfl (by decide) noPartials_prefetchState
  obtain ⟨u, hu, hne⟩ := cores_loadValueBound_prefetchState
  cases ht.symm.trans hu
  exact hne (hcores rfl)

end Sys2Proof.Machine
end

section
/-! SUPPORT. Steps of copy channels and access streams (R158, R248 to R253, R266, R267). -/

namespace Sys2Proof.Machine

open Sys2Proof.Claims

/-! ## Acceptance (R248, R249) -/

section
variable {s : State} {cluster : Nat}

theorem execCopyAccept_due {chan task : Nat} {t : Task} {e : CopyEntry}
    (hf : firstBelow (fun i => (Tab.find (s.dev.cluster cluster).chans i).isNone) 8 = some chan)
    (hc : firstCopy (s.dev.waitingCopies cluster) = some (task, t, e)) :
    Makes s (.copyAccept cluster) (s.dev.acceptCopy cluster chan task t e) := by
  rw [Makes, exec_copyAccept, execCopyAccept, hf, hc]
  rfl

theorem execCopyAccept_notDue (h : firstBelow (fun i => (Tab.find (s.dev.cluster cluster).chans i).isNone) 8 = none
    ∨ firstCopy (s.dev.waitingCopies cluster) = none) : NotDue s (.copyAccept cluster) := by
  rw [NotDue, exec_copyAccept, execCopyAccept]
  rcases h with h | h
  · rw [h]
  · rw [h]
    split <;> simp_all

end

/-- A channel that takes an entry carries it as accepted, and memory stays as it was. -/
def Dev.takeEntry (d : Dev) (cluster chan task : Nat) (t : Task) (e : CopyEntry) : Dev :=
  (d.modCluster cluster (fun k => { k with chans := Tab.insert k.chans chan (task, e.n) })).modCopy task e.n
    (fun _ => d.acceptedEntry cluster chan task t e)

theorem find_replaced {l : List CopyEntry} {e f : CopyEntry} (he : e ∈ l) (hn : f.n = e.n) :
    (l.map (fun x => if x.n = e.n then f else x)).find? (fun x => decide (x.n = e.n)) = some f := by
  induction l with
  | nil => cases he
  | cons x l ih =>
    rw [List.map_cons, List.find?_cons]
    by_cases hx : x.n = e.n
    · simp [hx, hn]
    · have hel : e ∈ l := by
        rcases List.mem_cons.1 he with rfl | h
        · exact absurd rfl hx
        · exact h
      simp [hx, ih hel]

/-- A task whose copy entries of a number are replaced. -/
def Task.replaceCopy (t : Task) (n : Nat) (f : CopyEntry) : Task :=
  { t with cq := { t.cq with entries := t.cq.entries.map (fun x => if x.n = n then f else x) } }

theorem Dev.carried_takeEntry {d : Dev} {cluster chan task : Nat} {t : Task} {e : CopyEntry} (ht : d.task? task = some t) (he : e ∈ t.cq.entries) :
    (d.takeEntry cluster chan task t e).carried cluster chan =
      some (task, t.replaceCopy e.n (d.acceptedEntry cluster chan task t e), d.acceptedEntry cluster chan task t e) := by
  have hchan : Tab.find ((d.takeEntry cluster chan task t e).cluster cluster).chans chan = some (task, e.n) := by
    have hcluster := Dev.cluster_modCluster_same d cluster (fun k => { k with chans := Tab.insert k.chans chan (task, e.n) })
    have hinsert := Tab.find_insert (d.cluster cluster).chans chan chan (task, e.n)
    rw [if_pos rfl] at hinsert
    exact (congrArg (fun k => Tab.find k.chans chan) hcluster).trans hinsert
  have htask : (d.takeEntry cluster chan task t e).task? task = some (t.replaceCopy e.n (d.acceptedEntry cluster chan task t e)) := by
    change Tab.find (Tab.modify d.tasks task _) task = _
    rw [Tab.find_modify, if_pos rfl, show Tab.find d.tasks task = some t from ht]
    rfl
  have hfind := find_replaced (f := d.acceptedEntry cluster chan task t e) he rfl
  simp only [Dev.carried, hchan, htask, Task.replaceCopy, hfind, Option.map_some]

theorem Dev.sameMemory_takeEntry (d : Dev) (cluster chan task : Nat) (t : Task) (e : CopyEntry) : SameMemory d (d.takeEntry cluster chan task t e) :=
  sameMemory_modTask (d.modCluster cluster (fun k => { k with chans := Tab.insert k.chans chan (task, e.n) })) task _ (fun _ => rfl) (fun _ => rfl)

theorem Dev.acceptCopy_failed {d : Dev} {cluster chan task : Nat} {t : Task} {e : CopyEntry} {f : Nat}
    (h : (d.acceptedEntry cluster chan task t e).rec_.failCode (d.acceptedEntry cluster chan task t e).steps (d.extents t).1 (d.extents t).2 = some f) :
    d.acceptCopy cluster chan task t e =
      (d.takeEntry cluster chan task t e).stampCopy cluster chan task t (d.acceptedEntry cluster chan task t e) f := by
  simp only [Dev.acceptCopy, h]
  rfl

/-! ## A channel's steps (R158, R250, R252) -/

section
variable {d : Dev} {cluster chan task : Nat} {t : Task} {e : CopyEntry}

theorem Dev.copyStep_free (h : d.carried cluster chan = none) : d.copyStep cluster chan = d := by simp only [Dev.copyStep, h]

theorem Dev.copyStep_written {o : Op} {st : List LStep} {r k : Nat} (h : d.carried cluster chan = some (task, t, e)) (ho : d.op? e.opId = some o)
    (hg : o.st = .going) (hs : e.stop = none) (hst : e.steps = some st) (hr : e.rec_.shape st false e.rec_.rows e.rec_.cols = some (r, k))
    (hw : e.rec_.total r k ≤ e.written) : d.copyStep cluster chan = d.stampCopy cluster chan task t e 0 := by
  simp [Dev.copyStep, h, ho, hg, hs, hst, hr, hw]

theorem Dev.copyStep_abandoned (h : d.carried cluster chan = some (task, t, e)) (ho : d.op? e.opId = none) :
    d.copyStep cluster chan = d.endCopy cluster chan task e 0 := by
  simp only [Dev.copyStep, h, ho]

theorem Dev.copyStep_stamped {code : Nat} (h : d.carried cluster chan = some (task, t, e)) (hs : e.stop = some code)
    (ho : (d.op? e.opId).any (fun o => decide (o.st = .going) && o.parts.all (fun p => p.done)) = true) :
    d.copyStep cluster chan = d.endCopy cluster chan task e code := by
  cases hop : d.op? e.opId with
  | none => simp [hop] at ho
  | some o =>
    have hdone : o.st = .going ∧ o.parts.all (fun p => p.done) = true := by simpa [hop] using ho
    simp only [Dev.copyStep, h, hop, hs, if_pos hdone]

end

/-- What a thread that waits for a line of some is: an access under way to it, or a split stalled at issue. -/
theorem Dev.threadWaits_iff (d : Dev) (hs : List Loc) : d.threadWaits hs = true ↔
    (∃ o ∈ d.ops, ∃ p ∈ o.2.parts, p.done = false ∧ ∃ h ∈ hs, p.loc.sp = h.sp ∧ p.loc.own = h.own ∧ overlap h.a 128 p.loc.a p.n = true)
    ∨ ∃ g ∈ d.groups, ∃ x ∈ g.2.splits, ∃ y, x = some y ∧ y.park.isStall = true := by
  rw [Dev.threadWaits, Bool.or_eq_true]
  refine or_congr (by simp [and_assoc]) ?_
  simp only [List.any_eq_true]
  refine exists_congr fun g => and_congr_right fun _ => exists_congr fun x => and_congr_right fun _ => ?_
  cases x <;> simp

theorem execEngineRecall_eq {s : State} {cluster chan : Nat} {hs : List Loc} (h : Tab.find (s.dev.cluster cluster).held chan = some hs) :
    exec (.engineRecall cluster chan) s =
      if s.dev.threadWaits hs = true then .next { s with dev := s.dev.copyStep cluster chan } else .next s := by
  simp only [exec_engineRecall, execEngineRecall, h, apply_ite Host.Outcome.next]
  rfl

/-! ## Streams (R266, R267) -/

section
variable {s : State} {task ctx : Nat}

theorem execStreamFill_noTask (h : s.dev.task? task = none) : NotDue s (.streamFill task ctx) := by
  simp only [NotDue, exec_streamFill, execStreamFill, h]
theorem execStreamReload_noTask (h : s.dev.task? task = none) : NotDue s (.streamReload task ctx) := by
  simp only [NotDue, exec_streamReload, execStreamReload, h]

variable {t : Task} {x : Stream} (ht : s.dev.task? task = some t) (hx : Tab.find t.streams ctx = some x)
include ht hx

theorem execStreamFill_notDue (h : t.phase ≠ .running ∨ 8 ≤ x.queue.length ∨ x.entries ≤ x.popped + x.queue.length) : NotDue s (.streamFill task ctx) := by
  simp only [NotDue, exec_streamFill, execStreamFill, ht, hx, if_pos h]

theorem execStreamReload_notPopped (h : s.dev.popper t.core (x.slotIn t) (streamQueue x.words) = none) : NotDue s (.streamReload task ctx) := by
  simp only [NotDue, exec_streamReload, execStreamReload, ht, hx, h]

theorem execStreamReload_eq {y : StreamEntry} {l : List StreamEntry} {sp : Nat} {z : Split} {pos : Pos} (hq : x.queue = y :: l)
    (h : s.dev.popper t.core (x.slotIn t) (streamQueue x.words) = some (sp, z, pos)) :
    exec (.streamReload task ctx) s = if (y.stale || y.marked) && !s.dev.storeNear t.core (x.slotIn t) y then
        .next { s with dev := s.dev.reload task ctx t x sp z pos }
      else .next s := by
  simp only [exec_streamReload, execStreamReload, ht, hx, h, hq, apply_ite Host.Outcome.next]
  rfl

variable (hdue : ¬ (t.phase ≠ .running ∨ 8 ≤ x.queue.length ∨ x.entries ≤ x.popped + x.queue.length))
include hdue

/-- A fill that is due reads the places of the next entry; a trap, or a place on another device, leaves the blocked entry. -/
theorem execStreamFill_blocked (h : ∀ ps, (s.dev.streamPlaces t.core (x.slotIn t) x true (x.popped + x.queue.length) (List.range 32)).2 = .ok ps →
      ps.any (fun p => p.2.isRemote) = true) :
    Makes s (.streamFill task ctx) ((s.dev.streamPlaces t.core (x.slotIn t) x true (x.popped + x.queue.length) (List.range 32)).1.modStream task ctx
      (fun x => { x with queue := x.queue ++ [StreamEntry.blocked] })) := by
  simp only [Makes, exec_streamFill, execStreamFill, ht, hx, if_neg hdue]
  generalize s.dev.streamPlaces t.core (x.slotIn t) x true (x.popped + x.queue.length) (List.range 32) = r at h ⊢
  obtain ⟨d, f | ps⟩ := r
  · rfl
  · simp only [if_pos (h ps rfl)]

theorem execStreamFill_reads {ps : List (Nat × Loc)}
    (h : (s.dev.streamPlaces t.core (x.slotIn t) x true (x.popped + x.queue.length) (List.range 32)).2 = .ok ps)
    (hn : ps.any (fun p => p.2.isRemote) = false) {d : Dev}
    (hd : (s.dev.streamPlaces t.core (x.slotIn t) x true (x.popped + x.queue.length) (List.range 32)).1.servePlaces t.core x.elementSize ps = d) :
    Makes s (.streamFill task ctx) (d.modStream task ctx (fun y => { y with queue := y.queue ++
      [x.entryOf ps (fun p => d.seen t.core (x.slotIn t) task d.nextOp p.2 x.elementSize)] })) := by
  simp only [Makes, exec_streamFill, execStreamFill, ht, hx, if_neg hdue]
  generalize s.dev.streamPlaces t.core (x.slotIn t) x true (x.popped + x.queue.length) (List.range 32) = r at h hd ⊢
  obtain ⟨d1, q⟩ := r
  obtain rfl : q = .ok ps := h
  simp only [hn, Bool.false_eq_true, if_false, ← hd]

end

/-- Settles O44, clause by clause: acceptance, a channel's steps, recall, and the fills and reads anew of streams. -/
theorem copyAndStreamSteps : Obligations.CopyAndStreamSteps := by
  intro s cluster chan task ctx
  refine ⟨fun t e hf hc => execCopyAccept_due hf hc, fun h => execCopyAccept_notDue h, fun t e ht he _ => ⟨fun f hf => Dev.acceptCopy_failed hf,
    ⟨_, Dev.carried_takeEntry ht he⟩, rfl, Dev.sameMemory_takeEntry s.dev cluster chan task t e⟩, rfl, fun h => ?_, fun t e o h ho hg hs st r k hst hr hw => ?_,
    fun t e code h hend => ?_, fun h => ?_, fun hs h => ?_, fun t x ht hx => ?_, fun h => ⟨execStreamFill_noTask h, execStreamReload_noTask h⟩⟩
  · exact congrArg (fun d => Host.Outcome.next { s with dev := d }) (Dev.copyStep_free h)
  · exact congrArg (fun d => Host.Outcome.next { s with dev := d }) (Dev.copyStep_written h ho hg hs hst hr hw)
  · rcases hend with ⟨ho, rfl⟩ | ⟨hs, ho⟩
    · exact congrArg (fun d => Host.Outcome.next { s with dev := d }) (Dev.copyStep_abandoned h ho)
    · exact congrArg (fun d => Host.Outcome.next { s with dev := d }) (Dev.copyStep_stamped h hs ho)
  · simp only [NotDue, exec_engineRecall, execEngineRecall, h]
  · refine ⟨fun hp => ?_, fun hp => ?_, fun hp hq => ?_⟩
    · exact (execEngineRecall_eq h).trans (if_pos ((Dev.threadWaits_iff ..).2 (.inl hp)))
    · exact (execEngineRecall_eq h).trans (if_pos ((Dev.threadWaits_iff ..).2 (.inr hp)))
    · refine (execEngineRecall_eq h).trans (if_neg fun hw => ?_)
      rcases (Dev.threadWaits_iff ..).1 hw with ⟨o, ho, p, hop, hpw⟩ | ⟨g, hg, x, hx, hxs⟩
      · exact hp o ho p hop hpw
      · exact hq g hg x hx hxs
  · refine ⟨fun h => execStreamFill_notDue ht hx h, fun hrun hroom hmore => ?_,
      fun h => execStreamReload_notPopped ht hx h, fun y l sp z pos hq hp => ⟨fun hy hn => ?_, fun hstale hmarked => ?_⟩⟩
    · have hdue : ¬ (t.phase ≠ .running ∨ 8 ≤ x.queue.length ∨ x.entries ≤ x.popped + x.queue.length) := by
        simpa [hrun] using ⟨hroom, hmore⟩
      refine ⟨fun f h => execStreamFill_blocked ht hx hdue fun ps h' => ?_, fun ps h hr => execStreamFill_blocked ht hx hdue fun ps' h' => ?_,
        fun ps h hn => execStreamFill_reads ht hx hdue h hn rfl⟩
      · cases h.symm.trans h'
      · cases h.symm.trans h'
        exact hr
    · exact (execStreamReload_eq ht hx hq hp).trans (if_pos (by simpa [hn] using hy))
    · exact (execStreamReload_eq ht hx hq hp).trans (if_neg (by simp [hstale, hmarked]))

end Sys2Proof.Machine
end

section
/-! SUPPORT. Acquire and release (R178, R179): stores held back for a RELST. -/

namespace Sys2Proof.Machine

open Sys2Proof.Claims

theorem Group.await_nil (g : Group) (n : Nat) : g.await [] n = g := by simp [Group.await]

/-- The device as a store held back stands in its table; its counter rises as it goes out (R178). -/
def Dev.holdOp (d : Dev) (o : Op) : Dev := { d with ops := Tab.insert d.ops d.nextOp o, nextOp := d.nextOp + 1 }

section
variable {s : State} (hr : s.old.role = .none)
include hr

theorem State.begin_held {w : MemWord} (hw : w.regs = []) (as : List (Nat × Access)) : s.begin w as .held =
    { s with dev := (s.dev.holdOp (opOf s w as .held)).modGroup s.iss.core s.iss.slot id } := by
  have hgrp : ∀ g : Group, (if OpState.held = .held ∧ s.old.role = .none then g else g.raise w.ctr s.dev.nextOp).await w.regs s.dev.nextOp = id g := fun g => by
    rw [if_pos ⟨rfl, hr⟩, hw, Group.await_nil, id]
  exact congrArg (fun f => ({ s with dev := (s.dev.holdOp (opOf s w as .held)).modGroup s.iss.core s.iss.slot f } : State)) (funext hgrp)

theorem State.begin_held_begun {w : MemWord} (hrun : s.running = true) (hw : w.regs = []) (as : List (Nat × Access)) :
    Begun s (s.begin w as .held) (opOf s w as .held) [] false := by
  rw [State.begin_held hr hw]
  have hgrp : ({ s with dev := (s.dev.holdOp (opOf s w as .held)).modGroup s.iss.core s.iss.slot id } : State).grp = s.grp :=
    Dev.group_modGroup _ _ _ _ hrun
  exact {
    op := (Tab.find_insert ..).trans (if_pos rfl)
    ops := fun k hk => (Tab.find_insert ..).trans (if_neg hk)
    dev := rfl
    iss := rfl
    agenda := rfl
    others := fun k hk => Dev.find_modGroup_ne _ _ _ _ _ hk
    grp := by rw [hgrp]
    awaited := fun r hm => absurd hm List.not_mem_nil
    ready := fun r k _ => by rw [hgrp]
    counts := fun c => by simp [hgrp] }

end

/-- A word whose checks pass begins its operation, a store for a RELST held back. -/
theorem State.memWord_passes_held {s u : State} {w : MemWord} {as : List (Nat × Access)} (h : Passes s w u as) : s.memWord w .held = u.begin w as .held := by
  obtain ⟨s1, hc, hs⟩ := h.checked
  simp [State.memWord, h.some_lane, hc, hs, State.enter, State.paired_alone h.alone, h.room]

section
variable {s : State} {d : VReg} {b : SReg} {v : VReg} {x : BitVec 1}

theorem execAcqld_trap {s1 : State} (h : s.memWord (genericWord s false d b v x) .going = s1) (ho : s1.iss.open_ = false) :
    exec (.acqld d b v x) s = .next s1 := by
  have hg : s.genericLoad d b v x = s1 := h
  simp only [exec_acqld, execAcqld, hg, ho, Bool.false_eq_true, if_false]

/-- The split of an ACQLD waits once its load has begun (R179). -/
theorem execAcqld_waits {s1 : State} (h : s.memWord (genericWord s false d b v x) .going = s1) (ho : s1.iss.open_ = true) :
    exec (.acqld d b v x) s = .next (s1.park (.acqld (s.scopeOr 3) (s1.grp.covers [0, 63, 63, 63]))) := by
  have hg : s.genericLoad d b v x = s1 := h
  simp only [exec_acqld, execAcqld, hg, ho, if_true]

theorem execRelst_trap {s1 : State} (h : s.memWord (genericWord s true d b v x) .held = s1) (ho : s1.iss.open_ = false) :
    exec (.relst d b v x) s = .next s1 := by
  have hg : s.genericStore d b v x .held = s1 := h
  simp only [exec_relst, execRelst, hg, ho, Bool.not_false, if_true]

/-- The split of a RELST waits on its store, one of no lanes where none acts (R178). -/
theorem execRelst_waits {s1 : State} (h : s.memWord (genericWord s true d b v x) .held = s1) (ho : s1.iss.open_ = true) (hr : s.old.role = .none) :
    exec (.relst d b v x) s = .next
      ((if s1.dev.nextOp = s.dev.nextOp then s1.newOp .cs .store [] (s.scopeOr 3) [] .held else s1).park
        (.relst s.dev.nextOp (s.scopeOr 3) (s.grp.covers [63, 0, 63, 63]))) := by
  have hg : s.genericStore d b v x .held = s1 := h
  simp only [exec_relst, execRelst, hg, ho, State.paired_alone hr, Bool.not_true, Bool.false_eq_true, if_false]

end

/-- Settles O25: each word by whether a lane acts, fails or passes. -/
theorem acquireAndRelease : Obligations.AcquireAndRelease := by
  intro s d b v x hopen l w cov
  refine ⟨fun hl => ⟨?_, fun hr hrun => ?_⟩, fun s1 f hl hc => ?_, fun s1 f hl hc => ?_, fun u as hp ho => ?_, fun u as hp ho hr hn => ?_⟩
  · exact execAcqld_waits (State.memWord_noLane hl) hopen
  · have hstore := execRelst_waits (State.memWord_noLane (w := w) hl) hopen hr
    rw [if_pos rfl] at hstore
    exact ⟨_, _, State.begin_held_begun hr (w := w) hrun rfl [], rfl, rfl, rfl, hstore⟩
  · exact execAcqld_trap (State.memWord_trap hl hc) rfl
  · exact execRelst_trap (State.memWord_trap hl hc) rfl
  · exact ⟨_, State.begin_begun hp.here hp.near, execAcqld_waits (State.memWord_passes hp) ho⟩
  · have hbegun := State.begin_held_begun hp.alone (w := w) hp.here rfl as
    have hstore := execRelst_waits (State.memWord_passes_held hp) (hbegun.iss ▸ ho) hr
    have hne : (u.begin w as .held).dev.nextOp ≠ s.dev.nextOp := by
      rw [hbegun.dev, ← hn]
      exact Nat.succ_ne_self _
    rw [if_neg hne] at hstore
    exact ⟨_, hbegun, hstore⟩

end Sys2Proof.Machine
end

section
/-! SUPPORT. Bytes of the device's own memories: what a write of them leaves, and what caches and what follows a write keep (R4, R151 to R153, R194, R401). -/

namespace Sys2Proof

/-! ## Numbers in bytes (R4) -/

theorem Bytes.length_ofNat (n x : Nat) : (Bytes.ofNat n x).length = n := by
  induction n generalizing x with
  | zero => rfl
  | succ n ih => rw [Bytes.ofNat, List.length_cons, ih]

theorem Bytes.toNat_ofNat (n x : Nat) : Bytes.toNat (Bytes.ofNat n x) = x % 256 ^ n := by
  induction n generalizing x with
  | zero => exact (Nat.mod_one x).symm
  | succ n ih =>
    have hb : (BitVec.ofNat 8 (x % 256)).toNat = x % 256 := by simp
    rw [Bytes.ofNat, Bytes.toNat, ih, hb, pow_succ', Nat.mod_mul]

end Sys2Proof

namespace Sys2Proof.Machine

open Sys2Proof.Claims

/-! ## Bytes written -/

theorem plain_plus {l : Loc} (h : Plain l) (i : Nat) : Plain (l.plus i) := h

theorem Dev.readByte_writeByte (d : Dev) {l : Loc} (h : Plain l) (b : Byte) (k : Loc) :
    (d.writeByte l b).readByte k = if k.sp = l.sp ∧ k.a = l.a then b else d.readByte k := by
  obtain ⟨hsp | hsp | hsp, -⟩ := h <;>
  · rw [Dev.writeByte, hsp]
    cases hk : k.sp <;> simp [Dev.readByte, Dev.task?, hk, Memory.read_write]

theorem Dev.memWf_writeByte {d : Dev} {l : Loc} (h : Plain l) (b : Byte) (hd : d.memWf = true) : (d.writeByte l b).memWf = true := by
  simp only [Dev.memWf, Bool.and_eq_true] at hd
  obtain ⟨⟨⟨⟨hhbm, hcxl⟩, hkmem⟩, htasks⟩, hgangs⟩ := hd
  obtain ⟨hsp | hsp | hsp, -⟩ := h <;>
  · rw [Dev.writeByte, hsp]
    simp only [Dev.memWf, Memory.wf_write, hhbm, hcxl, hkmem, htasks, hgangs, Bool.and_self]

theorem Dev.writeByte_plain (d : Dev) {l : Loc} (h : Plain l) (b : Byte) : ∃ x y z, d.writeByte l b = { d with hbm := x, cxl := y, kmem := z } := by
  obtain ⟨hsp | hsp | hsp, -⟩ := h <;>
  · rw [Dev.writeByte, hsp]
    exact ⟨_, _, _, rfl⟩

/-- A write changes no more than the device's own memories. -/
theorem Dev.writeBytes_plain (bs : List Byte) (d : Dev) {l : Loc} (h : Plain l) :
    ∃ x y z, d.writeBytes l bs = { d with hbm := x, cxl := y, kmem := z } := by
  induction bs generalizing d l with
  | nil => exact ⟨d.hbm, d.cxl, d.kmem, rfl⟩
  | cons b bs ih =>
    obtain ⟨x, y, z, he⟩ := d.writeByte_plain h b
    obtain ⟨x', y', z', hf⟩ := ih (d.writeByte l b) (plain_plus h 1)
    refine ⟨x', y', z', hf.trans ?_⟩
    rw [he]

theorem Dev.memWf_writeBytes (bs : List Byte) {d : Dev} {l : Loc} (h : Plain l) (hd : d.memWf = true) : (d.writeBytes l bs).memWf = true := by
  induction bs generalizing d l with
  | nil => exact hd
  | cons b bs ih => exact ih (plain_plus h 1) (Dev.memWf_writeByte h b hd)

theorem Dev.readByte_writeBytes_of_not (bs : List Byte) (d : Dev) {l k : Loc} (h : Plain l) (hk : ¬ (k.sp = l.sp ∧ l.a ≤ k.a ∧ k.a < l.a + bs.length)) :
    (d.writeBytes l bs).readByte k = d.readByte k := by
  induction bs generalizing d l with
  | nil => rfl
  | cons b bs ih =>
    rw [List.length_cons] at hk
    have htail : ¬ (k.sp = (l.plus 1).sp ∧ (l.plus 1).a ≤ k.a ∧ k.a < (l.plus 1).a + bs.length) := by
      rintro ⟨hsp, ha, hb⟩
      simp only [Loc.plus] at hsp ha hb
      exact hk ⟨hsp, by omega, by omega⟩
    have hhead : ¬ (k.sp = l.sp ∧ k.a = l.a) := by
      rintro ⟨hsp, ha⟩
      exact hk ⟨hsp, by omega, by omega⟩
    rw [Dev.writeBytes, ih _ (plain_plus h 1) htail, Dev.readByte_writeByte d h, if_neg hhead]

theorem Dev.readBytes_writeBytes (bs : List Byte) (d : Dev) {l : Loc} (h : Plain l) : (d.writeBytes l bs).readBytes l bs.length = bs := by
  induction bs generalizing d l with
  | nil => rfl
  | cons b bs ih =>
    have hhead : ¬ (l.sp = (l.plus 1).sp ∧ (l.plus 1).a ≤ l.a ∧ l.a < (l.plus 1).a + bs.length) := by
      rintro ⟨-, ha, -⟩
      simp only [Loc.plus] at ha
      omega
    rw [List.length_cons, Dev.readBytes, Dev.writeBytes, ih _ (plain_plus h 1), Dev.readByte_writeBytes_of_not _ _ (plain_plus h 1) hhead,
      Dev.readByte_writeByte d h, if_pos ⟨rfl, rfl⟩]

theorem readBytes_of_sameMemory {d e : Dev} (h : SameMemory d e) (l : Loc) (n : Nat) : e.readBytes l n = d.readBytes l n := by
  induction n generalizing l with
  | zero => rfl
  | succ n ih => rw [Dev.readBytes, Dev.readBytes, h l, ih]

theorem readNat_of_sameMemory {d e : Dev} (h : SameMemory d e) (l : Loc) (n : Nat) : e.readNat l n = d.readNat l n := by
  rw [Dev.readNat, Dev.readNat, readBytes_of_sameMemory h]

/-! ## What keeps the bytes -/

/-- The outstanding operations, the canonical forms of memories and, with no partials held, all bytes stay. -/
structure BytesKept (d e : Dev) : Prop where
  ops : e.ops = d.ops
  wf : d.memWf = true → e.memWf = true
  memory : noPartials d → SameMemory d e ∧ noPartials e

theorem BytesKept.refl (d : Dev) : BytesKept d d := ⟨rfl, id, fun h => ⟨fun _ => rfl, h⟩⟩

theorem BytesKept.trans {d e f : Dev} (h : BytesKept d e) (k : BytesKept e f) : BytesKept d f where
  ops := k.ops.trans h.ops
  wf hd := k.wf (h.wf hd)
  memory hd :=
    have ⟨hm, he⟩ := h.memory hd
    have ⟨km, kf⟩ := k.memory he
    ⟨fun l => (km l).trans (hm l), kf⟩

theorem BytesKept.foldl {α : Type} {f : Dev → α → Dev} (hf : ∀ d x, BytesKept d (f d x)) (l : List α) (d : Dev) : BytesKept d (l.foldl f d) :=
  List.foldlRecOn l f (motive := BytesKept d) (BytesKept.refl d) (fun e h x _ => h.trans (hf e x))

theorem bytesKept_ite {c : Prop} [Decidable c] {d e f : Dev} (he : BytesKept d e) (hf : BytesKept d f) : BytesKept d (if c then e else f) := by
  split_ifs <;> assumption

/-- A change of other parts of the device. -/
theorem bytesKept_of_stores {d e : Dev} (ho : e.ops = d.ops) (hn : e.cores = d.cores) (hh : e.hbm = d.hbm) (hc : e.cxl = d.cxl) (hk : e.kmem = d.kmem)
    (ht : e.tasks = d.tasks) (hg : e.gangs = d.gangs) : BytesKept d e where
  ops := ho
  wf hd := by rwa [Dev.memWf, hh, hc, hk, ht, hg]
  memory hd := ⟨sameMemory_of_stores hh hc hk ht hg, fun c => by rw [Dev.core, hn]; exact hd c⟩

theorem LineMoved.bytesKept {d e : Dev} (h : LineMoved d e) (ho : e.ops = d.ops) : BytesKept d e :=
  bytesKept_of_stores ho h.cores h.hbm h.cxl h.kmem h.tasks h.gangs

theorem bytesKept_modCore (d : Dev) (c : Nat) (f : Core → Core) (hu : ∀ k, k.upart = [] → (f k).upart = []) : BytesKept d (d.modCore c f) where
  ops := rfl
  wf := id
  memory hd := ⟨fun _ => rfl, fun k => by
    rw [Dev.core_modCore]; split_ifs
    · exact hu _ (hd c)
    · exact hd k⟩

theorem bytesKept_modHome (d : Dev) {o : Op} (h : o.core < 65536) (f : Group → Group) : BytesKept d (d.modHome o f) := by
  rw [Dev.modHome, if_pos h]
  exact bytesKept_of_stores rfl rfl rfl rfl rfl rfl rfl

/-! ## Caches (R151 to R153, R192 to R194, R401) -/

theorem bytesKept_moveRaw (d : Dev) (array inst line : Nat) : BytesKept d (d.moveRaw array inst line) :=
  (lineMoved_moveRaw d array inst line).bytesKept (opsKept_moveRaw d array inst line).1

theorem bytesKept_reportRaw (d : Dev) (l : Loc) (n : Nat) : BytesKept d (d.reportRaw l n) :=
  .foldl (fun e r => (lineMoved_decodeRaw e false r).bytesKept (opsKept_decodeRaw e false r).1) _ d

theorem bytesKept_l2Put (d : Dev) (line : Nat) (recent : Bool) : BytesKept d (d.l2Put line recent) :=
  (lineMoved_l2Put d line recent).bytesKept (linesFilled_l2Put d line recent).ops

theorem bytesKept_l2Fill (d : Dev) (gran line : Nat) (recent : Bool) : BytesKept d (d.l2Fill gran line recent) :=
  bytesKept_ite ((bytesKept_l2Put ..).trans (bytesKept_l2Put ..)) (bytesKept_l2Put ..)

theorem bytesKept_countFill (d : Dev) (die : Nat) (l : Loc) : BytesKept d (d.countFill die l) :=
  bytesKept_ite (bytesKept_of_stores rfl rfl rfl rfl rfl rfl rfl) (.refl d)

theorem Dev.memWf_foldl_writePartial (l : List (Nat × Nat × W32)) {d : Dev} (hd : d.memWf = true) : (l.foldl Dev.writePartial d).memWf = true :=
  List.foldlRecOn l Dev.writePartial (motive := fun e => e.memWf = true) hd
    (fun _ he p _ => Dev.memWf_writeBytes _ (l := hbmAt (4 * p.1)) ⟨.inl rfl, rfl⟩ he)

theorem bytesKept_combineCore (d : Dev) (c line : Nat) : BytesKept d (d.combineCore c line) where
  ops := (linesFilled_combineCore d c line).ops
  wf hd := Dev.memWf_foldl_writePartial ((d.core c).upart.filter (fun p => p.1 / 32 = line)) hd
  memory := (linesFilled_combineCore d c line).memory

theorem bytesKept_combine (d : Dev) (line : Nat) : BytesKept d (d.combine line) :=
  .foldl (fun e (c : Nat × Core) => bytesKept_combineCore e c.1 line) _ d

theorem bytesKept_combineRange (d : Dev) (l : Loc) (n : Nat) : BytesKept d (d.combineRange l n) :=
  bytesKept_ite (.foldl bytesKept_combine _ d) (.refl d)

theorem bytesKept_l1Drop (d : Dev) (core line : Nat) : BytesKept d (d.l1Drop core line) := by
  unfold Dev.l1Drop
  cases Tab.find (d.core core).l1 line with
  | none => exact .refl d
  | some x =>
    have hmove := bytesKept_moveRaw d 1 core line
    exact BytesKept.trans (bytesKept_ite (hmove.trans (bytesKept_combineCore ..)) (bytesKept_ite (hmove.trans (bytesKept_l2Put ..)) hmove))
      (bytesKept_modCore _ core _ (fun _ hk => hk))

theorem bytesKept_l1Put (d : Dev) (core line : Nat) (st : LineState) (sectors : BitVec 4) (recent : Bool) :
    BytesKept d (d.l1Put core line st sectors recent) := by
  unfold Dev.l1Put
  extract_lets set into here ok
  have hinto : ∀ e way old, BytesKept e (into e way old) := fun e _ _ => bytesKept_modCore e core _ (fun _ hk => hk)
  split
  · exact hinto ..
  split
  · exact hinto ..
  split
  · exact .refl d
  split
  · exact (bytesKept_l1Drop ..).trans (hinto ..)
  · exact .refl d

theorem bytesKept_recallOthers (d : Dev) (core line : Nat) : BytesKept d (d.recallOthers core line) :=
  .foldl (fun e (c : Nat × Core) => bytesKept_l1Drop e c.1 line) _ d

theorem bytesKept_recallAll (d : Dev) (line : Nat) : BytesKept d (d.recallAll line) :=
  .foldl (fun e (c : Nat × Core) => bytesKept_l1Drop e c.1 line) _ d

theorem bytesKept_homeLine (d : Dev) (l : Loc) : BytesKept d (d.homeLine l) :=
  bytesKept_ite ((bytesKept_recallAll ..).trans (bytesKept_l2Put ..)) (.refl d)

theorem bytesKept_writeLine (d : Dev) (core cache gran : Nat) (l : Loc) (n : Nat) : BytesKept d (d.writeLine core cache gran l n) :=
  have hothers := bytesKept_recallOthers d core l.line
  have hmiss := ((hothers.trans (bytesKept_countFill ..)).trans (bytesKept_l2Fill ..)).trans (bytesKept_l1Put ..)
  bytesKept_ite (.refl d) (bytesKept_ite ((bytesKept_recallAll ..).trans (bytesKept_l2Put ..))
    ((bytesKept_ite hothers hmiss).trans (bytesKept_l1Put ..)))

theorem bytesKept_cleanLine (d : Dev) (core line : Nat) : BytesKept d (d.cleanLine core line) := by
  unfold Dev.cleanLine
  split
  · refine bytesKept_ite (BytesKept.trans ?_ (bytesKept_l2Put ..)) (.refl d)
    exact (bytesKept_moveRaw d 1 core line).trans (bytesKept_modCore _ core _ (fun _ hk => hk))
  · exact .refl d

/-! ## What follows a write (R194, R197, R266, R285, R321, R389) -/

theorem bytesKept_staleStreams (d : Dev) (l : Loc) (n : Nat) : BytesKept d (d.staleStreams l n) where
  ops := rfl
  wf hd := by
    simpa only [Dev.memWf, Dev.staleStreams, Tab.mapV, List.all_map, Function.comp_def] using hd
  memory hd := ⟨fun k => by
    cases hk : k.sp <;> simp only [Dev.readByte, Dev.task?, Dev.staleStreams, hk, Tab.find_mapV] <;> cases Tab.find d.tasks k.own <;> rfl, hd⟩

theorem bytesKept_markWriter (d : Dev) (l : Loc) (n who : Nat) : BytesKept d (d.markWriter l n who) :=
  bytesKept_ite (bytesKept_of_stores rfl rfl rfl rfl rfl rfl rfl) (.refl d)

theorem bytesKept_countMixed (d : Dev) (l : Loc) (last : List Nat) : BytesKept d (d.countMixed l last) :=
  bytesKept_ite (bytesKept_of_stores rfl rfl rfl rfl rfl rfl rfl) (.refl d)

theorem bytesKept_posts (d : Dev) (l : Loc) (n : Nat) : BytesKept d (d.posts l n) :=
  bytesKept_ite (bytesKept_of_stores rfl rfl rfl rfl rfl rfl rfl) (.refl d)

theorem bytesKept_countWrites (d : Dev) (l : Loc) (n : Nat) : BytesKept d (d.countWrites l n) :=
  bytesKept_ite (bytesKept_of_stores rfl rfl rfl rfl rfl rfl rfl) (.refl d)

theorem bytesKept_written (d : Dev) (l : Loc) (n : Nat) : BytesKept d (d.written l n) :=
  have harrived : BytesKept d (d.arrivals l n) := bytesKept_of_stores rfl rfl rfl rfl rfl rfl rfl
  have hmarked := ((harrived.trans (bytesKept_posts ..)).trans (bytesKept_staleStreams ..)).trans (bytesKept_markWriter _ l n 0)
  have hencoded := hmarked.trans (f := Dev.encodeAnew _ l n) (bytesKept_of_stores rfl rfl rfl rfl rfl rfl rfl)
  hencoded.trans (bytesKept_countWrites ..)

theorem bytesKept_noteUnseen (d : Dev) {o : Op} (h : o.core < 65536) (l : Loc) : BytesKept d (d.noteUnseen o l) :=
  bytesKept_ite (bytesKept_modHome d h _) (.refl d)

theorem bytesKept_atomMeets (d : Dev) (o : Op) (p : LanePart) : BytesKept d (d.atomMeets o p) :=
  bytesKept_ite (bytesKept_countMixed ..) (bytesKept_ite (bytesKept_countMixed ..) (.refl d))

theorem bytesKept_atomWrote (d : Dev) (o : Op) (p : LanePart) : BytesKept d (d.atomWrote o p) :=
  bytesKept_ite (bytesKept_markWriter ..) (bytesKept_ite (bytesKept_markWriter ..) (.refl d))

end Sys2Proof.Machine
end

section
/-! SUPPORT. Stores and atomics performed (R172, R188, R190, R192, R197): one part written at its place, and the end of its operation. -/

namespace Sys2Proof.Machine

open Sys2Proof.Claims

/-! ## One part performed -/

/-- The bytes of a range have come to hold a number, and every other byte is as it was. -/
structure Performed (d e : Dev) (l : Loc) (n x : Nat) : Prop where
  ops : e.ops = d.ops
  wf : d.memWf = true → e.memWf = true
  noneHeld : noPartials e
  frame : ∀ k : Loc, ¬ (k.sp = l.sp ∧ l.a ≤ k.a ∧ k.a < l.a + n) → e.readByte k = d.readByte k
  holds : e.readNat l n = x

section
variable {d e f : Dev} {l : Loc} {n x : Nat}

theorem BytesKept.performed (h : BytesKept d e) (hd : noPartials d) : Performed d e l n (d.readNat l n) :=
  have ⟨hm, he⟩ := h.memory hd
  ⟨h.ops, h.wf, he, fun k _ => hm k, readNat_of_sameMemory hm l n⟩

theorem Performed.after (h : BytesKept d e) (hd : noPartials d) (k : Performed e f l n x) : Performed d f l n x where
  ops := k.ops.trans h.ops
  wf hw := k.wf (h.wf hw)
  noneHeld := k.noneHeld
  frame y hy := (k.frame y hy).trans ((h.memory hd).1 y)
  holds := k.holds

theorem Performed.kept (h : Performed d e l n x) (k : BytesKept e f) : Performed d f l n x :=
  have ⟨km, kf⟩ := k.memory h.noneHeld
  { ops := k.ops.trans h.ops
    wf := fun hw => k.wf (h.wf hw)
    noneHeld := kf
    frame := fun y hy => (km y).trans (h.frame y hy)
    holds := (readNat_of_sameMemory km l n).trans h.holds }

theorem performed_writeBytes (hl : Plain l) (hd : noPartials d) (x : Nat) : Performed d (d.writeBytes l (Bytes.ofNat n x)) l n (x % 256 ^ n) := by
  have hlen := Bytes.length_ofNat n x
  obtain ⟨a, b, c, he⟩ := Dev.writeBytes_plain (Bytes.ofNat n x) d hl
  refine ⟨by rw [he], Dev.memWf_writeBytes _ hl, fun k => by rw [he]; exact hd k, fun k hk => ?_, ?_⟩
  · exact Dev.readByte_writeBytes_of_not _ d hl (by rwa [hlen])
  · have hread := Dev.readBytes_writeBytes (Bytes.ofNat n x) d hl
    rw [hlen] at hread
    rw [Dev.readNat, hread, Bytes.toNat_ofNat]

theorem performed_perform (hl : Plain l) (hd : noPartials d) (x : Nat) : Performed d (d.perform l (Bytes.ofNat n x)) l n (x % 256 ^ n) := by
  cases n with
  | zero => simpa [Dev.perform, Bytes.ofNat, Dev.readNat, Dev.readBytes, Bytes.toNat, Nat.mod_one] using (BytesKept.refl d).performed (l := l) (n := 0) hd
  | succ n =>
    have hcombined := bytesKept_combineRange d l (Bytes.ofNat (n + 1) x).length
    exact ((performed_writeBytes hl (hcombined.memory hd).2 x).after hcombined hd).kept (bytesKept_written ..)

end

section
variable {d : Dev} {o : Op} {p : LanePart} (hl : Plain p.loc) (hd : noPartials d) (hc : o.core < 65536) (ht : o.tent = false)
include ht

theorem Op.tentAt_untentative : o.tentAt p = false := by rw [Op.tentAt, ht, Bool.false_and]

theorem Dev.atomRead_untentative : d.atomRead o p = BitVec.ofNat 32 (d.readNat p.loc 4) := by
  rw [Dev.atomRead, Op.tentAt_untentative ht, if_neg Bool.false_ne_true]

include hl hd hc

theorem performed_storePart : Performed d (d.storePart o p) p.loc p.n (p.data.toNat % 256 ^ p.n) := by
  rw [Dev.storePart, Op.tentAt_untentative ht, if_neg Bool.false_ne_true]
  refine (performed_perform hl hd _).kept (BytesKept.trans ?_ (bytesKept_noteUnseen _ hc _))
  exact bytesKept_ite ((bytesKept_writeLine ..).trans (bytesKept_cleanLine ..)) (bytesKept_writeLine ..)

/-- The word that an atomic leaves in memory (R188, R190). -/
def atomLeaves (k : OpKind) (old : W32) (data : BitVec 128) : Nat := ((atomNew k old data).getD old).toNat

/-- An atomic at its home: what it writes over the word that it read, and the old value it ends its part with. -/
theorem Dev.atomPart_performed (n i : Nat) (hs : o.scope ≠ 5 ∨ d.hostSees p.loc = false) :
    ∃ e x, Performed d e p.loc 4 (atomLeaves o.kind (BitVec.ofNat 32 (d.readNat p.loc 4)) p.data)
      ∧ d.atomPart n o i p = e.modOp n (fun q => q.finish i x false) := by
  have hread : BytesKept d (((d.combineRange p.loc 4).reportRaw p.loc 4).atomMeets o p) :=
    ((bytesKept_combineRange ..).trans (bytesKept_reportRaw ..)).trans (bytesKept_atomMeets ..)
  have htent := Op.tentAt_untentative (p := p) ht
  unfold Dev.atomPart
  extract_lets d0 old d1 d2
  have hd0 : noPartials d0 := (hread.memory hd).2
  have hold : old = BitVec.ofNat 32 (d.readNat p.loc 4) := by
    rw [← readNat_of_sameMemory (hread.memory hd).1]
    exact Dev.atomRead_untentative ht
  have hwrote : (decide (o.scope = 5) && !o.tentAt p && (atomNew o.kind old p.data).isSome && d.hostSees p.loc) = false := by
    rcases hs with hs | hs <;> simp [hs]
  have hperf : Performed d d1 p.loc 4 (atomLeaves o.kind old p.data) := by
    cases hw : atomNew o.kind old p.data with
    | none =>
      have hsame : atomLeaves o.kind old p.data = d.readNat p.loc 4 := by
        rw [atomLeaves, hw, Option.getD_none, hold, BitVec.toNat_ofNat]
        exact Nat.mod_eq_of_lt (d.readNat_lt p.loc 4)
      rw [hsame]
      simpa only [d1, hw] using hread.performed hd
    | some w =>
      have hnew : atomLeaves o.kind old p.data = w.toNat % 256 ^ 4 := by
        rw [atomLeaves, hw, Option.getD_some]
        exact (Nat.mod_eq_of_lt w.isLt).symm
      rw [hnew]
      simp only [d1, hw, htent, Bool.false_eq_true, if_false]
      exact ((performed_perform hl hd0 _).after hread hd).kept ((bytesKept_atomWrote ..).trans (bytesKept_noteUnseen _ hc _))
  rw [hwrote, ← hold]
  refine ⟨d2, old.toNat, ?_, rfl⟩
  simp only [d2, htent, Bool.false_eq_true, if_false]
  exact hperf.kept (bytesKept_homeLine ..)

/-- What one part of a store or atomic leaves in the bytes of its place. -/
def Dev.partLeaves (d : Dev) (o : Op) (p : LanePart) : Nat :=
  match o.kind with
  | .store => p.data.toNat % 256 ^ p.n
  | k => atomLeaves k (BitVec.ofNat 32 (d.readNat p.loc 4)) p.data

theorem Dev.performPart_performed (n i : Nat) (hg : d.gathers o p = false) (hs : o.scope ≠ 5 ∨ d.hostSees p.loc = false)
    (h4 : o.kind ≠ .store → p.n = 4) :
    ∃ e x, Performed d e p.loc p.n (d.partLeaves o p) ∧ d.performPart n o i p = e.modOp n (fun q => q.finish i x false) := by
  by_cases hk : o.kind = .store
  · have hwrote : (decide (o.scope = 5) && !o.tentAt p && d.hostSees p.loc) = false := by
      rcases hs with hs | hs <;> simp [hs]
    refine ⟨d.storePart o p, 0, ?_, ?_⟩
    · rw [Dev.partLeaves, hk]
      exact performed_storePart hl hd hc ht
    · simp only [Dev.performPart, hg, hk, hwrote, Bool.false_and, Bool.false_eq_true, if_false]
  · obtain ⟨e, x, he, heq⟩ := Dev.atomPart_performed hl hd hc ht n i hs
    refine ⟨e, x, ?_, ?_⟩
    · rw [h4 hk, Dev.partLeaves]
      split
      · exact absurd ‹_› hk
      · exact he
    · simpa only [Dev.performPart, hg, Bool.false_and, Bool.false_eq_true, if_false] using heq

end

/-! ## The operation performed (R172) -/

/-- An operation with no entry to wait for that can be performed, by its only part. -/
theorem Dev.performable_of_canPerform {d : Dev} {n : Nat} {o : Op} {p : LanePart} (ho : d.op? n = some o) (hst : o.st = .going) (hw : o.waits = [])
    (hp : o.parts = [p]) (h : d.canPerform n = true) : o.kind.writes = true ∧ o.remoteLeft = false ∧ d.performable n o p = true := by
  have horphan : d.orphan n o = false := by simp [Dev.orphan, hst]
  simpa [Dev.canPerform, ho, horphan, hst, Dev.entryDue, hw, hp] using h

theorem execStorePerformed_going {s : State} {n : Nat} {o : Op} (ho : s.dev.op? n = some o) (hst : o.st = .going) (hw : o.waits = [])
    (h : s.dev.canPerform n = true) : Makes s (.storePerformed n) (s.dev.performOp n) := by
  have horphan : s.dev.sendOrphan n = s.dev := by simp [Dev.sendOrphan, ho, Dev.orphan, hst]
  have hadvance : s.dev.advance n = s.dev := by simp [Dev.advance, ho, hw]
  rw [Makes, exec_storePerformed, execStorePerformed, if_pos h, State.modDev, horphan, hadvance]

theorem Dev.op?_modOp {d : Dev} {n : Nat} {o : Op} (ho : d.op? n = some o) (f : Op → Op) : (d.modOp n f).op? n = some (f o) := by
  have hfind : Tab.find d.ops n = some o := ho
  simp [Dev.op?, Tab.find_modify, hfind]

theorem Op.parts_finish_one {o : Op} {p : LanePart} (hp : o.parts = [p]) (x : Nat) (owed : Bool) :
    (o.finish 0 x owed).parts = [{ p with done := true, res := BitVec.ofNat 128 x, wrote := owed }] := by
  simp [Op.finish, hp, setAt]

section
variable {d : Dev} {n : Nat} {o : Op} {p : LanePart} (ho : d.op? n = some o) (hp : o.parts = [p])
include ho hp

theorem Dev.performOp_eq_performNow (hr : o.remoteLeft = false) (hpo : d.poisoned p.loc p.n = false)
    (hs : o.scope ≠ 5 ∨ d.hostSees p.loc = false) : d.performOp n = d.performNow n o := by
  have hrecall : d.recallsHost n o = false := by
    rcases hs with hs | hs <;> simp [Dev.recallsHost, hp, Op.systemWide, hs]
  simp [Dev.performOp, ho, hr, hp, hpo, hrecall]

/-- An operation of one part ends as its part is performed. -/
theorem Dev.performNow_one (hc : o.core < 65536) (hf : d.performable n o p = true) {e : Dev} {x : Nat} (heo : e.ops = d.ops)
    (he : d.performPart n o 0 p = e.modOp n (fun q => q.finish 0 x false)) :
    (d.performNow n o).op? n = none ∧ SameMemory e (d.performNow n o) ∧ (d.performNow n o).memWf = e.memWf := by
  have hop := Dev.op?_modOp ((congrArg (fun t => Tab.find t n) heo).trans ho : e.op? n = some o) (fun q => q.finish 0 x false)
  have hdone := Op.parts_finish_one hp x false
  have hnow : d.performNow n o = ((e.modOp n (fun q => q.finish 0 x false)).endIfDone n).wakeStalls := by
    simp [Dev.performNow, hp, Dev.performParts, hf, he, hop, hdone]
  rw [hnow, Dev.endIfDone_done hop (by simp [hdone]) hc]
  exact ⟨(Tab.find_erase ..).trans (if_pos rfl), fun _ => rfl, rfl⟩

end

/-! ## The statement (R172, R188, R190) -/

theorem atomLeaves_atom {fn : Nat} (h : fn ≠ 10) (d : Nat) (old : W32) (data : BitVec 128) :
    atomLeaves (.atom fn d) old data = (atomApply fn old (data.truncate 32)).toNat := by
  simp [atomLeaves, atomNew, atomOpOf, h]

theorem atomLeaves_cas (d : Nat) (old : W32) (data : BitVec 128) :
    atomLeaves (.atom 10 d) old data = (if old = data.truncate 32 then (data >>> 32).truncate 32 else old).toNat := by
  unfold atomLeaves atomNew
  split_ifs <;> rfl

/-- Settles O31: the operation's only part is performed at its place, with what it leaves there by its kind, and the operation ends. -/
theorem performedWritesChangeTheirBytes : Obligations.PerformedWritesChangeTheirBytes := by
  intro s n o p ho hcan hc hp hl hd hst ht hg hw hs hpo h4
  obtain ⟨-, hr, hf⟩ := Dev.performable_of_canPerform ho hst hw hp hcan
  obtain ⟨e, x, hperf, he⟩ := Dev.performPart_performed hl hd hc ht n 0 hg hs h4
  obtain ⟨hgone, hsame, hwf⟩ := Dev.performNow_one ho hp hc hf hperf.ops he
  have hexec := execStorePerformed_going ho hst hw hcan
  rw [Dev.performOp_eq_performNow ho hp hr hpo hs] at hexec
  have hholds : (s.dev.performNow n o).readNat p.loc p.n = s.dev.partLeaves o p := (readNat_of_sameMemory hsame ..).trans hperf.holds
  refine ⟨_, hexec, rfl, rfl, hgone, fun h => hwf.trans (hperf.wf h), fun k hk => (hsame k).trans (hperf.frame k hk), ?_⟩
  intro old v
  have hatom (hk : o.kind ≠ .store) : (s.dev.performNow n o).readNat p.loc 4 = s.dev.partLeaves o p := by
    rw [← hholds, h4 hk]
  refine ⟨fun hk => ?_, fun fn d hk hfn => ?_, fun fn sub hk => ?_, fun d hk => ?_⟩
  · rw [hholds, Dev.partLeaves, hk]
  · rw [hatom (by simp [hk]), Dev.partLeaves, hk]
    exact atomLeaves_atom hfn ..
  · rw [hatom (by simp [hk]), Dev.partLeaves, hk]
    rfl
  · rw [hatom (by simp [hk]), Dev.partLeaves, hk]
    exact atomLeaves_cas ..

end Sys2Proof.Machine
end

section
/-! SUPPORT. Replies, tickets and arriving accesses (R177, R281 to R287, R301 to R303). -/

namespace Sys2Proof.Machine

open Sys2Proof.Claims

/-! ## Requests sent (R281, R301): they leave every group as it is -/

theorem Dev.groups_sendMsg (d : Dev) (vc : Nat) (m : Msg) : (d.sendMsg vc m).groups = d.groups := by
  unfold Dev.sendMsg
  dsimp only
  split
  · split_ifs <;> rfl
  · rfl

theorem Dev.groups_sendPart (d : Dev) (die world o part peer win va len opc scope : Nat) (kind : AccKind) (data : List Byte) :
    (d.sendPart die world o part peer win va len opc scope kind data).groups = d.groups := by
  unfold Dev.sendPart
  split
  · rfl
  · exact Dev.groups_sendMsg ..

theorem Dev.groups_sendParts (ps : List LanePart) (d : Dev) (n i : Nat) : (d.sendParts n i ps).groups = d.groups := by
  induction ps generalizing d i with
  | nil => rfl
  | cons p ps ih =>
    unfold Dev.sendParts
    rw [ih]
    split
    · split_ifs
      · rfl
      · exact Dev.groups_sendPart ..
      · exact Dev.groups_sendPart ..
    · rfl

theorem Dev.groups_sendHeldBack (d : Dev) : d.sendHeldBack.groups = d.groups := by
  refine List.foldlRecOn d.ops _ (motive := fun e : Dev => e.groups = d.groups) rfl fun e he x _ => ?_
  split_ifs
  · exact (Dev.groups_sendParts ..).trans he
  · exact he

/-! ## Data that come for a load (R149, R172, R177, R301) -/

/-- A load's only part done with a value of at most four bytes: the lane of its register takes it. -/
theorem Dev.readV_finished {e : Dev} {n r x : Nat} {sx : Bool} {o : Op} {p : LanePart} (ho : e.op? n = some o) (hk : o.kind = .load r sx)
    (hp : o.parts = [p]) (hc : o.core < 65536) (hg : e.hasGroup o.core o.slot = true) (hr : r < 127) (hl : p.lane < 32)
    (hn : p.n = 1 ∨ p.n = 2 ∨ p.n = 4) (hx : x < 256 ^ p.n) (ha : (e.group o.core o.slot).awaits (.v r) n = true) :
    (((e.modOp n (fun q => q.finish 0 x false)).endIfDone n).group o.core o.slot).regs.readV r p.lane =
      if sx then (BitVec.ofNat (8 * p.n) x).signExtend 32 else BitVec.ofNat 32 x := by
  have hop := Dev.op?_modOp ho (fun q => q.finish 0 x false)
  have hdone := Op.parts_finish_one hp x false
  have hn4 : p.n ≤ 4 := by omega
  have hres : (BitVec.ofNat 128 x).toNat = x := by
    have hlt : x < 256 ^ 4 := hx.trans_le (Nat.pow_le_pow_right (by norm_num) hn4)
    rw [BitVec.toNat_ofNat, Nat.mod_eq_of_lt (by omega)]
  have hdel : (o.finish 0 x false).deliverAll n (e.group o.core o.slot) = (e.group o.core o.slot).bound n r sx p x := by
    have hkind : (o.finish 0 x false).kind = .load r sx := hk
    rw [Op.deliverAll, hdone, hkind, List.foldl_cons, List.foldl_nil, hres]
    exact Group.deliver_load x hn4 ha
  have hgroup : ((e.modOp n (fun q => q.finish 0 x false)).endIfDone n).group o.core o.slot =
      (((e.group o.core o.slot).bound n r sx p x).opEnded o.ctr n).wake := by
    rw [Dev.endIfDone_done hop (by simp [hdone]) hc, Dev.group_wakeStalls, ← hdel]
    exact congrArg Group.wake ((Dev.group_modGroup _ _ _ _ ((Dev.hasGroup_modGroup ..).trans hg)).trans
      (congrArg (fun h : Group => h.opEnded o.ctr n) (Dev.group_modGroup _ _ _ _ hg)))
  have hregs : ((((e.group o.core o.slot).bound n r sx p x).opEnded o.ctr n).wake).regs
      = (e.group o.core o.slot).regs.writeV r p.lane (if sx then (BitVec.ofNat (8 * p.n) x).signExtend 32 else BitVec.ofNat 32 x) :=
    (Group.regs_opEnded ..).trans (Regs.bindV_eq _ _ _ sx hn hx)
  rw [hgroup, hregs, Regs.readV_writeV _ _ _ _ _ hl hl, if_pos ⟨rfl, by omega, rfl⟩]

/-- The bytes of a reply under the group's own older stores. -/
def Dev.mineOf (d : Dev) (o : Op) (n : Nat) (p : LanePart) (data : List Byte) : Nat :=
  Bytes.toNat (((data.take p.n).zipIdx).map (fun b => d.overlay o.core o.slot n (p.loc.plus b.2) b.1))

theorem Dev.mineOf_lt (d : Dev) (o : Op) (n : Nat) (p : LanePart) (data : List Byte) : d.mineOf o n p data < 256 ^ p.n := by
  refine (Bytes.toNat_lt _).trans_le (Nat.pow_le_pow_right (by norm_num) ?_)
  rw [List.length_map, List.length_zipIdx]
  exact List.length_take_le ..

/-- Data come for a load's only part: but for copies and requests, the part is done with them. -/
theorem Dev.replied_load {d : Dev} {k : Nat} {r : Request} {data : List Byte} {o : Op} {p : LanePart} {v : Nat} {sx : Bool} (ho : d.op? r.op = some o)
    (hk : o.kind = .load v sx) (hp : o.parts = [p]) (hi : r.part = 0) :
    ∃ e : Dev, e.groups = d.groups ∧ e.ops = d.ops
      ∧ (d.replied k r data).groups = ((e.modOp r.op (fun q => q.finish 0 (d.mineOf o r.op p data) false)).endIfDone r.op).groups := by
  have hpart : o.parts.getD r.part default = p := by rw [hp, hi]; rfl
  have hop : (d.dropRequest k).op? r.op = some o := ho
  have hcame : d.replied k r data = (d.dropRequest k).loadCame r o p (data.take p.n) := by
    simp only [Dev.replied, hop, hk, hpart]
  rw [hcame]
  unfold Dev.loadCame
  extract_lets mine e
  refine ⟨e, ?_, ?_, ?_⟩
  · unfold e; split_ifs <;> rfl
  · unfold e; split_ifs <;> rfl
  · rw [Dev.groups_sendHeldBack, hi]
    rfl

theorem Dev.readV_replied {d : Dev} {k v : Nat} {r : Request} {sx : Bool} {o : Op} {p : LanePart} (data : List Byte) (ho : d.op? r.op = some o)
    (hk : o.kind = .load v sx) (hp : o.parts = [p]) (hi : r.part = 0) (hc : o.core < 65536) (hg : d.hasGroup o.core o.slot = true) (hv : v < 127)
    (hl : p.lane < 32) (hn : p.n = 1 ∨ p.n = 2 ∨ p.n = 4) (ha : (d.group o.core o.slot).awaits (.v v) r.op = true) :
    ((d.replied k r data).group o.core o.slot).regs.readV v p.lane =
      if sx then (BitVec.ofNat (8 * p.n) (d.mineOf o r.op p data)).signExtend 32 else BitVec.ofNat 32 (d.mineOf o r.op p data) := by
  obtain ⟨e, hgroups, hops, he⟩ := Dev.replied_load (k := k) (data := data) ho hk hp hi
  have hsame : e.group o.core o.slot = d.group o.core o.slot := congrArg (fun t => Tab.get Group.empty t _) hgroups
  have hfin := Dev.readV_finished (e := e) (n := r.op) (x := d.mineOf o r.op p data) ((congrArg (fun t => Tab.find t _) hops).trans ho) hk hp hc
    ((congrArg (fun t => (Tab.find t _).isSome) hgroups).trans hg) hv hl hn (d.mineOf_lt ..) (by rw [hsame]; exact ha)
  rw [← hfin]
  exact congrArg (fun t => (Tab.get Group.empty t (gkey o.core o.slot)).regs.readV v p.lane) he

/-! ## Replies to a request (R177, R281, R285, R286, R301) -/

/-- Class 7 reads as 6, and a word made again with its class has that class (R284). -/
theorem ticketClass_withClass (t : BitVec 32) : ticketClass (withClass t (ticketClass t)) = ticketClass t := by
  have hname : ticketName t < 2 ^ 27 := by simp [ticketName, bits]; omega
  have hclass : ticketClass t ≤ 6 := by
    have : bits t.toNat 31 29 < 8 := by simp [bits]; omega
    unfold ticketClass
    split_ifs <;> omega
  have hbits : bits (withClass t (ticketClass t)).toNat 31 29 = ticketClass t := by
    simp only [withClass, bits, BitVec.toNat_ofNat]
    omega
  rw [ticketClass, hbits, if_neg (by omega)]

section
variable {s : State} {tag : Nat}

theorem notDue_of_no_request (h : s.dev.request? tag = none) (data : List Byte) (tkt : BitVec 32) :
    NotDue s (.readData tag data) ∧ NotDue s (.writeAck tag) ∧ NotDue s (.ticketReply tag tkt) ∧ NotDue s (.busy tag)
      ∧ NotDue s (.busyResend tag) ∧ NotDue s (.ticketTableFullResend tag) ∧ NotDue s (.remoteResponseTimeout tag) := by
  simp only [NotDue, exec_readData, exec_writeAck, exec_ticketReply, exec_busy, exec_busyResend, exec_ticketTableFullResend,
    exec_remoteResponseTimeout, execReadData, execWriteAck, execTicketReply, execBusy, execBusyResend, execTicketTableFullResend,
    execRemoteResponseTimeout, State.resendDue, h, and_self]

variable {k : Nat} {r : Request} (h : s.dev.request? tag = some (k, r))
include h

theorem execReadData_replied (data : List Byte) : Makes s (.readData tag data) (s.dev.replied k r data) := by
  simp only [Makes, exec_readData, execReadData, h, State.modDev]

theorem execWriteAck_acked : Makes s (.writeAck tag) (s.dev.acked k r) := by
  simp only [Makes, exec_writeAck, execWriteAck, h, State.modDev]

theorem execBusy_waits : Makes s (.busy tag)
    { s.dev with requests := Tab.insert s.dev.requests k { r with resend := some (s.dev.time + 6554), full := false } } := by
  simp only [Makes, exec_busy, execBusy, h, State.modDev, busyWait]

theorem execTicketReply_pending {tkt : BitVec 32} {o : Op} (ho : s.dev.op? r.op = some o) (hc : ticketClass tkt = 0) :
    Makes s (.ticketReply tag tkt) (s.dev.pendTicket k r o (withClass tkt 0)) := by
  have hagain := ticketClass_withClass tkt
  rw [hc] at hagain
  simp only [Makes, exec_ticketReply, execTicketReply, h, ho, hc, hagain, ne_eq, not_true_eq_false, if_false, State.modDev]

theorem execTicketReply_fatal {tkt : BitVec 32} {o : Op} (ho : s.dev.op? r.op = some o) (hc : ticketClass tkt ≠ 0) :
    Makes s (.ticketReply tag tkt)
      ((s.dev.dropRequest k).failOp r.op (o.parts.getD r.part default).addr (withClass tkt (ticketClass tkt))) := by
  simp only [Makes, exec_ticketReply, execTicketReply, h, ho, ticketClass_withClass, if_pos hc, State.modDev]

theorem State.resendDue_eq {z : Nat} (full : Bool) (hz : r.resend = some z) :
    s.resendDue tag full = if z ≤ s.dev.time ∧ r.full = full then { s with dev := s.dev.resend k r } else s := by
  simp only [State.resendDue, h, hz, State.modDev]

theorem execRemoteResponseTimeout_notDue (hn : r.resend ≠ none ∨ s.dev.time < r.sent + micros (s.dev.param 2)) : NotDue s (.remoteResponseTimeout tag) := by
  rw [← Option.isSome_iff_ne_none] at hn
  simp only [NotDue, exec_remoteResponseTimeout, execRemoteResponseTimeout, h, if_pos hn]

theorem execRemoteResponseTimeout_due (hn : r.resend = none) (ht : r.sent + micros (s.dev.param 2) ≤ s.dev.time) : Makes s (.remoteResponseTimeout tag)
    (((s.dev.dropRequest k).unsend k r.peer).failOp r.op (((s.dev.op? r.op).map (fun o => (o.parts.getD r.part default).addr)).getD 0)
      (mkTicket 6 r.peer 0)) := by
  simp only [Makes, exec_remoteResponseTimeout, execRemoteResponseTimeout, h, hn, Option.isSome_none, Bool.false_eq_true, false_or, if_neg (not_lt.2 ht),
    State.modDev]

end

/-! ## Tickets (R285, R286) -/

section
variable {s : State}

theorem execRequesterTicketTimeout_eq {die entry : Nat} {e : TicketEntry} (h : Tab.find (s.dev.die die).tickets entry = some e) :
    exec (.requesterTicketTimeout die entry) s =
      if e.notice = none ∧ e.since + micros (s.dev.param 1) ≤ s.dev.time then .next { s with dev := s.dev.noticeEntry die entry (withClass e.tkt 6) }
      else .next s := by
  have hdue : (e.notice.isSome = true ∨ s.dev.time < e.since + micros (s.dev.param 1)) ↔
      ¬ (e.notice = none ∧ e.since + micros (s.dev.param 1) ≤ s.dev.time) := by
    rw [Option.isSome_iff_ne_none, not_and_or, not_le]
  simp only [exec_requesterTicketTimeout, execRequesterTicketTimeout, h, hdue, State.modDev, ite_not]

theorem execOwnerTicketTimeout_eq {entry : Nat} {t : OwnerTicket} (h : Tab.find s.dev.owned entry = some t) :
    exec (.ownerTicketTimeout entry) s = .next
      (if s.dev.time < t.since + micros (s.dev.param 1) then s else { s with dev := { s.dev with owned := Tab.erase s.dev.owned entry } }) := by
  simp only [exec_ownerTicketTimeout, execOwnerTicketTimeout, h, State.modDev]

theorem execTicketPost_posted {win : Nat} {word : W64} (h : s.dev.posted.contains (win, word) = true) :
    let d := { s.dev with posted := dropPost win word s.dev.posted }
    let id := word.toNat % 2 ^ 16
    let ok := (Tab.find s.dev.owned id).any (fun t => decide (t.win = win)) && s.dev.hedge (s.dev.window win).post (s.dev.window win).world
    Makes s (.ticketPost win word) (if ok then d.closeTicket id (word.toNat / 2 ^ 61) else d) := by
  intro d id ok
  have hid : bits word.toNat 15 0 = id := by simp [bits, id]
  have hout : bits word.toNat 63 61 = word.toNat / 2 ^ 61 := by
    have hlt : word.toNat < 2 ^ 64 := word.isLt
    simp only [bits]
    omega
  rcases Option.eq_none_or_eq_some (Tab.find s.dev.owned id) with hfind | ⟨t, hfind⟩ <;>
  · simp only [Makes, exec_ticketPost, execTicketPost, h, hid, hout, Bool.not_true, Bool.false_eq_true, if_false, ok, hfind]
    rfl

end

/-! ## Arriving accesses (R283, R302) -/

/-- Whether an arriving access is outside what its window is open to. -/
def Dev.outsideWindow (d : Dev) (m : RemoteMsg) : Prop :=
  (d.window m.win).v = false ∨ m.peer < (d.window m.win).plo ∨ (d.window m.win).phi < m.peer

/-- Whether an arriving access would write through a window that is only read through. -/
def Dev.readOnlyWindow (d : Dev) (m : RemoteMsg) : Prop := kindWrites m.kind = true ∧ (d.window m.win).wr = false

/-- A refused access: its answer is a ticket of a fatal class. -/
def Dev.refuse (d : Dev) (m : RemoteMsg) (c : Nat) : Dev := d.answer (answerTo m 5 (mkTicket c d.peerId 0) [])

/-- An owner's ticket that a further peer holds. -/
def OwnerTicket.join (t : OwnerTicket) (peer : Nat) : OwnerTicket := { t with peers := if t.peers.contains peer then t.peers else t.peers ++ [peer] }

/-- The owner's translation of an arriving access. -/
def Dev.arrive (d : Dev) (m : RemoteMsg) : Xlate := d.translate (Dev.windowCtx (d.window m.win) m) m.kind m.va

/-- What an access through its window to a page on no ticket brings about; it waits for a line that a copy engine holds. -/
def Dev.serveArrival (d : Dev) (m : RemoteMsg) : Option Dev :=
  let r := d.arrive m
  match r.out with
  | .error .hedge => some (r.dev.refuse m 3)
  | .error (.fault _ c) => some (if c = 1 ∨ c = 7 then r.dev.newTicket (d.window m.win) m else r.dev.refuse m 2)
  | .ok p =>
    if p.loc.isRemote then some (r.dev.refuse m 2)
    else if r.dev.engineHolds p.loc (remoteSpan m) then none
    else
      let a := r.dev.serveRemote m p.loc (leafSwa p.leaf)
      some (({ a.1 with performedTags := a.1.performedTags ++ [(m.peer, m.tag, a.2, a.1.time)] }).answer a.2)

section
variable {d : Dev} {m : RemoteMsg}

theorem Dev.serveArrival_hedge (h : (d.arrive m).out = .error .hedge) : d.serveArrival m = some ((d.arrive m).dev.refuse m 3) := by
  simp only [Dev.serveArrival, h]

/-- A walk that fails with fault 1 or 7 opens a ticket for the page (R283). -/
theorem Dev.serveArrival_newTicket {level c : Nat} (h : (d.arrive m).out = .error (.fault level c)) (hc : c = 1 ∨ c = 7) :
    d.serveArrival m = some ((d.arrive m).dev.newTicket (d.window m.win) m) := by
  simp only [Dev.serveArrival, h, if_pos hc]

theorem Dev.serveArrival_fault {level c : Nat} (h : (d.arrive m).out = .error (.fault level c)) (hc : ¬ (c = 1 ∨ c = 7)) :
    d.serveArrival m = some ((d.arrive m).dev.refuse m 2) := by
  simp only [Dev.serveArrival, h, if_neg hc]

variable {p : Placed} (h : (d.arrive m).out = .ok p)
include h

theorem Dev.serveArrival_remote (hp : p.loc.isRemote = true) : d.serveArrival m = some ((d.arrive m).dev.refuse m 2) := by
  simp only [Dev.serveArrival, h, if_pos hp]

theorem Dev.serveArrival_held (hp : p.loc.isRemote = false) (he : (d.arrive m).dev.engineHolds p.loc (remoteSpan m) = true) :
    d.serveArrival m = none := by
  simp only [Dev.serveArrival, h, hp, he, Bool.false_eq_true, if_false, if_true]

theorem Dev.serveArrival_served (hp : p.loc.isRemote = false) (he : (d.arrive m).dev.engineHolds p.loc (remoteSpan m) = false) :
    let a := (d.arrive m).dev.serveRemote m p.loc (leafSwa p.leaf)
    d.serveArrival m = some (({ a.1 with performedTags := a.1.performedTags ++ [(m.peer, m.tag, a.2, a.1.time)] }).answer a.2) := by
  simp only [Dev.serveArrival, h, hp, he, Bool.false_eq_true, if_false]

end

section
variable {s : State} {m : RemoteMsg}

theorem execRemoteAccessArrival_known {x : Nat × Nat × Msg × Nat}
    (h : s.dev.performedTags.find? (fun t => decide (t.1 = m.peer ∧ t.2.1 = m.tag)) = some x) :
    Makes s (.remoteAccessArrival m) (s.dev.answer x.2.2.1) := by
  simp only [Makes, exec_remoteAccessArrival, execRemoteAccessArrival, h]

variable (hk : s.dev.performedTags.find? (fun t => decide (t.1 = m.peer ∧ t.2.1 = m.tag)) = none)
include hk

theorem execRemoteAccessArrival_outside (ho : s.dev.outsideWindow m) : Makes s (.remoteAccessArrival m) (s.dev.refuse m 4) := by
  unfold Dev.outsideWindow at ho
  simp only [Makes, exec_remoteAccessArrival, execRemoteAccessArrival, hk, Bool.not_eq_true', if_pos ho, Dev.refuse]

variable (ho : ¬ s.dev.outsideWindow m)
include ho

theorem execRemoteAccessArrival_otherWorld (hw : m.world ≠ (s.dev.window m.win).world) : Makes s (.remoteAccessArrival m) (s.dev.refuse m 3) := by
  unfold Dev.outsideWindow at ho
  simp only [Makes, exec_remoteAccessArrival, execRemoteAccessArrival, hk, Bool.not_eq_true', if_neg ho, if_pos hw, Dev.refuse]

variable (hw : m.world = (s.dev.window m.win).world)
include hw

theorem execRemoteAccessArrival_readOnly (hr : s.dev.readOnlyWindow m) : Makes s (.remoteAccessArrival m) (s.dev.refuse m 2) := by
  unfold Dev.outsideWindow at ho
  unfold Dev.readOnlyWindow at hr
  simp only [Makes, exec_remoteAccessArrival, execRemoteAccessArrival, hk, Bool.not_eq_true', if_neg ho, if_neg (not_not.2 hw), if_pos hr, Dev.refuse]

variable (hr : ¬ s.dev.readOnlyWindow m)
include hr

theorem execRemoteAccessArrival_onTicket {id : Nat} {t : OwnerTicket} (ht : s.dev.openTicket m.win (m.va / 65536) = some (id, t)) :
    Makes s (.remoteAccessArrival m)
      (({ s.dev with owned := Tab.insert s.dev.owned id (t.join m.peer) } : Dev).answer (answerTo m 5 (mkTicket 0 s.dev.peerId id) [])) := by
  unfold Dev.outsideWindow at ho
  unfold Dev.readOnlyWindow at hr
  simp only [Makes, exec_remoteAccessArrival, execRemoteAccessArrival, hk, Bool.not_eq_true', if_neg ho, if_neg (not_not.2 hw), if_neg hr, ht, OwnerTicket.join]

variable (ht : s.dev.openTicket m.win (m.va / 65536) = none)
include ht

theorem execRemoteAccessArrival_eq :
    exec (.remoteAccessArrival m) s = .next ((s.dev.serveArrival m).elim s (fun d => { s with dev := d })) := by
  unfold Dev.outsideWindow at ho
  unfold Dev.readOnlyWindow at hr
  simp only [exec_remoteAccessArrival, execRemoteAccessArrival, hk, Bool.not_eq_true', if_neg ho, if_neg (not_not.2 hw), if_neg hr, ht]
  unfold Dev.serveArrival Dev.arrive
  generalize s.dev.translate (Dev.windowCtx (s.dev.window m.win) m) m.kind m.va = r
  obtain ⟨d, walked, (⟨level, code⟩ | _) | p⟩ := r
  · rfl
  · rfl
  · dsimp only
    split_ifs <;> rfl

theorem execRemoteAccessArrival_serves {d : Dev} (h : s.dev.serveArrival m = some d) : Makes s (.remoteAccessArrival m) d := by
  rw [Makes, execRemoteAccessArrival_eq hk ho hw hr ht, h, Option.elim_some]

theorem execRemoteAccessArrival_waits (h : s.dev.serveArrival m = none) : NotDue s (.remoteAccessArrival m) := by
  rw [NotDue, execRemoteAccessArrival_eq hk ho hw hr ht, h, Option.elim_none]

end

/-- Settles O49, clause by clause: replies by the request of their tag, arriving accesses in the order of their checks, tickets by their times. -/
theorem remoteSteps : Obligations.RemoteSteps := by
  intro s tag die entry win tkt data m
  refine ⟨fun h => notDue_of_no_request h data tkt, fun k r h => ⟨execReadData_replied h data, execWriteAck_acked h, fun o ho =>
      ⟨execTicketReply_pending h ho, execTicketReply_fatal h ho⟩, execBusy_waits h, fun z hz hdue => ⟨fun hf => ?_, fun hf => ?_⟩, fun z hz hlt => ?_,
      execRemoteResponseTimeout_notDue h, execRemoteResponseTimeout_due h⟩,
    fun k r o p d sx _ ho hk hp hi hc hg hd hl hn ha => Dev.readV_replied data ho hk hp hi hc hg hd hl hn ha, rfl, fun h => ?_, fun e h => ?_, rfl, rfl, ?_,
    fun word => ⟨fun h => ?_, execTicketPost_posted⟩, fun t h => ⟨fun hlt => ?_, fun hle => ?_⟩, fun h => ?_⟩
  · exact congrArg Host.Outcome.next ((State.resendDue_eq h false hz).trans (if_pos ⟨hdue, hf⟩))
  · exact congrArg Host.Outcome.next ((State.resendDue_eq h true hz).trans (if_pos ⟨hdue, hf⟩))
  · have hwait (full : Bool) : s.resendDue tag full = s := (State.resendDue_eq h full hz).trans (if_neg fun hdue => Nat.not_le_of_lt hlt hdue.1)
    exact ⟨congrArg Host.Outcome.next (hwait false), congrArg Host.Outcome.next (hwait true)⟩
  · simp only [NotDue, exec_requesterTicketTimeout, execRequesterTicketTimeout, h]
  · exact ⟨fun hdue => (execRequesterTicketTimeout_eq h).trans (if_pos hdue), fun hdue => (execRequesterTicketTimeout_eq h).trans (if_neg hdue)⟩
  · intro w known refused outside readOnly r
    refine ⟨fun x h => execRemoteAccessArrival_known h, execRemoteAccessArrival_outside, execRemoteAccessArrival_otherWorld,
      execRemoteAccessArrival_readOnly, fun hk ho hw hr => ⟨fun id t ht => ?_, fun ht => ?_⟩⟩
    · exact ⟨_, execRemoteAccessArrival_onTicket hk ho hw hr ht, rfl, (Tab.find_insert ..).trans (if_pos rfl)⟩
    · have serves {d : Dev} := execRemoteAccessArrival_serves hk ho hw hr ht (d := d)
      exact ⟨fun hx => serves (Dev.serveArrival_hedge hx), fun x c hx hc => serves (Dev.serveArrival_newTicket hx hc),
        fun x c hx h1 h7 => serves (Dev.serveArrival_fault hx (not_or.2 ⟨h1, h7⟩)), fun p hx hp => serves (Dev.serveArrival_remote hx hp),
        fun p hx hp he => execRemoteAccessArrival_waits hk ho hw hr ht (Dev.serveArrival_held hx hp he),
        fun p hx hp he => serves (Dev.serveArrival_served hx hp he)⟩
  · simp only [NotDue, exec_ticketPost, execTicketPost, h, Bool.not_false, if_true]
  · exact (execOwnerTicketTimeout_eq h).trans (congrArg Host.Outcome.next (if_pos hlt))
  · exact (execOwnerTicketTimeout_eq h).trans (congrArg Host.Outcome.next (if_neg (Nat.not_lt.2 hle)))
  · simp only [NotDue, exec_ownerTicketTimeout, execOwnerTicketTimeout, h]

end Sys2Proof.Machine
end

section
/-! SUPPORT. Atomic-set words (R200, R207, R211): sets declared and told, and tasks made irrevocable. -/

namespace Sys2Proof.Machine

open Sys2Proof.Claims

/-! ## A word that changes its own task -/

theorem Dev.task?_modTask (d : Dev) (n k : Nat) (f : Task → Task) : (d.modTask n f).task? k = if k = n then (d.task? n).map f else d.task? k :=
  Tab.find_modify ..

/-- A word that changes only the record of the task that issues. -/
theorem changesTask_of_exec {s : State} {t : Task} {i : Instr} {f : Task → Task} (ht : s.dev.task? s.taskId = some t)
    (h : exec i s = .next (s.modDev (·.modTask s.taskId f))) :
    ∃ u, exec i s = .next u ∧ u = { s with dev := { s.dev with tasks := u.dev.tasks } }
      ∧ (∀ k, k ≠ s.taskId → u.dev.task? k = s.dev.task? k) ∧ u.dev.task? s.taskId = some (f t) := by
  refine ⟨_, h, rfl, fun k hk => ?_, ?_⟩
  · exact (s.dev.task?_modTask s.taskId k f).trans (if_neg hk)
  · exact (s.dev.task?_modTask s.taskId s.taskId f).trans (by rw [if_pos rfl, ht, Option.map_some])

/-! ## ADECL (R200, R405) -/

theorem execAdecl_idle {s : State} (i : BitVec 4) (b l : SReg) (h : s.performs = false ∨ s.old.role = .trailer) : exec (.adecl i b l) s = .next s := by
  rw [exec_adecl, execAdecl, if_pos (by simpa using h)]

section
variable {s : State} {t : Task} {i : BitVec 4} {b l : SReg} (hp : s.performs = true) (hr : s.old.role ≠ .trailer) (ht : s.dev.task? s.taskId = some t)
include hp hr ht

theorem execAdecl_invalid (hv : setValid t i.toNat (s.rdS b).toNat (s.rdS l).toNat = false) :
    exec (.adecl i b l) s = .next (s.takeTrap { TrapInfo.plain 0x0B with addr := (s.rdS b).toNat }) := by
  simp [execAdecl, hp, hr, ht, hv]

theorem execAdecl_declares (hv : setValid t i.toNat (s.rdS b).toNat (s.rdS l).toNat = true) (hroom : s.dev.activeSets < 4096) :
    exec (.adecl i b l) s = .next (s.modDev (·.modTask s.taskId (fun k => { k with
      sets := Tab.insert k.sets i.toNat { base := (s.rdS b).toNat, len := (s.rdS l).toNat, acquired := false } }))) := by
  simp [execAdecl, hp, hr, ht, hv, Nat.not_le_of_lt hroom]

end

/-! ## ASTAT (R211) -/

theorem execAstat_idle {s : State} (d : SReg) (h : s.performs = false) : exec (.astat d) s = .next s := by
  simp [execAstat, h]

theorem execAstat_tells {s : State} {t : Task} (d : SReg) (hp : s.performs = true) (ht : s.dev.task? s.taskId = some t) :
    exec (.astat d) s = .next (s.wrS d (BitVec.ofNat 64 t.astat)) := by
  simp [execAstat, hp, ht]

/-! ## AIRREV (R206, R207) -/

theorem execAirrev_idle {s : State} (h : s.performs = false) : exec .airrev s = .next s := by
  simp [execAirrev, h]

section
variable {s : State} {t : Task} (hs : s.iss.slot ≠ handlerSlot) (ht : s.dev.task? s.taskId = some t)
include hs ht

/-- The token is waited for by a task that has acquired a set and does not hold it. -/
theorem State.needToken_eq : s.needToken = if t.token = .held ∨ t.sets.any (fun r => r.2.acquired) = false then none
    else some (s.stall .stallToken (·.modTask s.taskId (fun k => { k with token := .requested }))) := by
  simp only [State.needToken, if_neg hs, ht, Bool.not_eq_true']

theorem execAirrev_records (hp : s.performs = true) (h : t.token = .held ∨ t.sets.any (fun r => r.2.acquired) = false) :
    exec .airrev s = .next (s.modDev (·.modTask s.taskId (fun k => { k with token := if k.token = .held then .held else .recorded }))) := by
  simp [execAirrev, hp, hs, State.needToken_eq hs ht, if_pos h]

theorem execAirrev_waits (hp : s.performs = true) (hn : t.token ≠ .held) (ha : t.sets.any (fun r => r.2.acquired) = true) :
    exec .airrev s = .next (s.stall .stallToken (·.modTask s.taskId (fun k => { k with token := .requested }))) := by
  simp [execAirrev, hp, hs, State.needToken_eq hs ht, hn, ha]

end

/-- Settles O29, word by word: ADECL and AIRREV change no more than the task's record, ASTAT tells it. -/
theorem atomicSetWords : Obligations.AtomicSetWords := by
  intro s t i b l d hrun ht
  refine ⟨fun h => ⟨execAdecl_idle i b l (.inl h), execAstat_idle d h, execAirrev_idle h⟩, fun h => execAdecl_idle i b l (.inr h),
    fun hp hr hv hroom => ?_, fun hp hr hv => execAdecl_invalid hp hr ht hv, fun hp => ?_, fun hp hs h => ?_,
    fun hp hs hn ha => execAirrev_waits hs ht hp hn ha⟩
  · exact changesTask_of_exec ht (execAdecl_declares hp hr ht hv hroom)
  · exact givesS_of_exec hrun (execAstat_tells d hp ht)
  · exact changesTask_of_exec ht (execAirrev_records hs ht hp h)

end Sys2Proof.Machine
end

section
/-! SUPPORT. Reductions gathered in a core's U copy and combined at their home (R193, R194). -/

namespace Sys2Proof

theorem Tab.mem_of_find {α : Type} {t : Tab α} {k : Nat} {v : α} (h : Tab.find t k = some v) : (k, v) ∈ t := by
  induction t with
  | nil => simp [Tab.find] at h
  | cons q t ih =>
    obtain ⟨j, w⟩ := q
    rw [Tab.find] at h
    split_ifs at h with hj
    · rw [← hj, ← Option.some.inj h]
      exact List.mem_cons_self
    · exact List.mem_cons_of_mem _ (ih h)

end Sys2Proof

namespace Sys2Proof.Machine

open Sys2Proof.Claims

/-! ## The identity of an operation (R193) -/

theorem atomApply_identity {op : Nat} (h : op < 8) (v : W32) : atomApply op (atomIdentity op) v = v :=
  match op, h with
  | 0, _ => BitVec.zero_add v
  | 1, _ => ite_eq_right_iff.2 fun hle => BitVec.eq_of_toInt_eq (Int.le_antisymm hle BitVec.toInt_le)
  | 2, _ => ite_eq_right_iff.2 fun hle => BitVec.eq_of_toNat_eq (Nat.le_antisymm hle (Nat.le_of_lt_succ v.isLt))
  | 3, _ => ite_eq_right_iff.2 fun hge => BitVec.eq_of_toInt_eq (Int.le_antisymm (BitVec.le_toInt v) hge)
  | 4, _ => ite_eq_right_iff.2 fun hge => BitVec.eq_of_toNat_eq (Nat.le_antisymm (Nat.zero_le _) hge)
  | 5, _ => BitVec.allOnes_and
  | 6, _ => BitVec.zero_or
  | 7, _ => BitVec.zero_xor

/-! ## One partial held -/

/-- The bytes are as they were, and the only partial that any core holds is one core's, of one word. -/
structure HoldsOnly (d e : Dev) (core : Nat) (p : Nat × Nat × W32) : Prop where
  ops : e.ops = d.ops
  wf : d.memWf = true → e.memWf = true
  memory : SameMemory d e
  here : (e.core core).upart = [p]
  others : ∀ c, c ≠ core → (e.core c).upart = []

theorem holdsOnly_gather {d : Dev} (hd : noPartials d) (core cache op a : Nat) (v : W32) :
    HoldsOnly d (d.gather core cache op a v) core (a / 4, op, atomApply op (atomIdentity op) v) := by
  have hgather : d.gather core cache op a v
      = d.modCore core (fun k => { k with upart := [(a / 4, op, atomApply op (atomIdentity op) v)] }) := by
    simp [Dev.gather, Dev.modCore, hd core, Tab.find, Tab.insert]
  rw [hgather]
  refine ⟨rfl, id, fun _ => rfl, by rw [Dev.core_modCore_same], fun c hc => ?_⟩
  rw [Dev.core_modCore, if_neg hc, hd c]

/-! ## A core's partials sent home (R194) -/

theorem Dev.combineCore_eq (d : Dev) (c line : Nat) : d.combineCore c line =
    (((d.core c).upart.filter (fun p => p.1 / 32 = line)).foldl Dev.writePartial d).modCore c (·.combined line) := rfl

/-- A write to HBM and a change of a core do not meet. -/
theorem Dev.writeBytes_modCore (bs : List Byte) (d : Dev) {l : Loc} (h : l.sp = .hbm) (c : Nat) (f : Core → Core) :
    (d.writeBytes l bs).modCore c f = (d.modCore c f).writeBytes l bs := by
  induction bs generalizing d l with
  | nil => rfl
  | cons b bs ih =>
    have hbyte : (d.writeByte l b).modCore c f = (d.modCore c f).writeByte l b := by simp only [Dev.writeByte, h]; rfl
    rw [Dev.writeBytes, ih (d.writeByte l b) (l := l.plus 1) h, hbyte, Dev.writeBytes]

/-- What a partial makes of the word at its home. -/
def Dev.partialLeaves (d : Dev) (p : Nat × Nat × W32) : Nat := (atomApply p.2.1 (BitVec.ofNat 32 (d.readNat (hbmAt (4 * p.1)) 4)) p.2.2).toNat

section
variable {d e : Dev} {core : Nat} {p : Nat × Nat × W32} (h : HoldsOnly d e core p)
include h

/-- The cores besides still hold none once a line has left a core. -/
theorem HoldsOnly.upart_combined (line c k : Nat) (hk : k ≠ core) : ((e.modCore c (·.combined line)).core k).upart = [] := by
  rw [Dev.core_modCore]
  split_ifs with hkc
  · rw [Core.combined, ← hkc, h.others k hk, List.filter_nil]
  · exact h.others k hk

/-- Another core has nothing to send home. -/
theorem HoldsOnly.combineCore_other {c : Nat} (hc : c ≠ core) (line : Nat) : HoldsOnly d (e.combineCore c line) core p := by
  rw [Dev.combineCore_eq, h.others c hc, List.filter_nil, List.foldl_nil]
  refine ⟨h.ops, h.wf, h.memory, ?_, h.upart_combined line c⟩
  rw [Dev.core_modCore, if_neg hc.symm, h.here]

/-- The core that holds the partial, without its line: no partial is left. -/
theorem HoldsOnly.bytesKept_combined : BytesKept d (e.modCore core (·.combined (p.1 / 32))) := by
  refine ⟨h.ops, h.wf, fun _ => ⟨h.memory, fun k => ?_⟩⟩
  by_cases hk : k = core
  · rw [hk, Dev.core_modCore_same, Core.combined, h.here]
    simp
  · exact h.upart_combined _ core k hk

variable (hd : noPartials d)
include hd

/-- The core that holds the partial applies it to the word at its home. -/
theorem HoldsOnly.combineCore_same : Performed d (e.combineCore core (p.1 / 32)) (hbmAt (4 * p.1)) 4 (d.partialLeaves p) := by
  have hcombine : e.combineCore core (p.1 / 32)
      = (e.modCore core (·.combined (p.1 / 32))).writeBytes (hbmAt (4 * p.1)) (Bytes.ofNat 4 (d.partialLeaves p)) := by
    rw [Dev.combineCore_eq, h.here, List.filter_cons_of_pos (by simp), List.filter_nil, List.foldl_cons, List.foldl_nil, Dev.writePartial,
      readNat_of_sameMemory h.memory]
    exact Dev.writeBytes_modCore _ e rfl core _
  have hkept := h.bytesKept_combined
  have hperf := (performed_writeBytes (l := hbmAt (4 * p.1)) (n := 4) ⟨.inl rfl, rfl⟩ (hkept.memory hd).2 (d.partialLeaves p)).after hkept hd
  rwa [Nat.mod_eq_of_lt (show d.partialLeaves p < 256 ^ 4 from BitVec.isLt _), ← hcombine] at hperf

/-- The cores send their partials home one after another, the one that holds the partial among them. -/
theorem HoldsOnly.foldl_combineCore {l : List (Nat × Core)} (hl : ∃ k, (core, k) ∈ l) :
    Performed d (l.foldl (fun d c => d.combineCore c.1 (p.1 / 32)) e) (hbmAt (4 * p.1)) 4 (d.partialLeaves p) := by
  induction l generalizing e with
  | nil => simp at hl
  | cons q l ih =>
    rw [List.foldl_cons]
    by_cases hq : q.1 = core
    · rw [hq]
      exact (h.combineCore_same hd).kept (.foldl (fun e (c : Nat × Core) => bytesKept_combineCore e c.1 _) l _)
    · obtain ⟨k, hk⟩ := hl
      refine ih (h.combineCore_other hq _) ⟨k, (List.mem_cons.1 hk).resolve_left ?_⟩
      rintro rfl
      exact hq rfl

theorem HoldsOnly.combine : Performed d (e.combine (p.1 / 32)) (hbmAt (4 * p.1)) 4 (d.partialLeaves p) := by
  refine h.foldl_combineCore hd ?_
  have hhere := h.here
  cases hfind : Tab.find e.cores core with
  | none => simp [Dev.core, Tab.get, hfind, Core.reset] at hhere
  | some k =>
    rw [Dev.core, Tab.get, hfind, Option.getD_some] at hhere
    exact ⟨k, List.mem_filter.2 ⟨Tab.mem_of_find hfind, by simp [hhere]⟩⟩

end

/-- Settles O32: the gathered partial is what the operation makes of its identity and the value, and it is applied to the word at its home. -/
theorem gatheredReductionsCombineAtHome : Obligations.GatheredReductionsCombineAtHome := by
  intro d core cache op a v hd hop h8 h9 ha e
  have hheld : HoldsOnly d e core (a / 4, op, v) := by
    simpa only [atomApply_identity (show op < 8 by omega) v] using holdsOnly_gather hd core cache op a v
  have hline : a / 4 / 32 = a / 128 := Nat.div_div_eq_div_mul a 4 32
  have hword : 4 * (a / 4) = a := Nat.mul_div_cancel' (Nat.dvd_of_mod_eq_zero ha)
  have hperf := hheld.combine hd
  simp only [Dev.partialLeaves, hline, hword] at hperf
  exact ⟨hheld.memory, hperf.holds, hperf.frame⟩

end Sys2Proof.Machine
end

section
/-! SUPPORT. Arrays of matrix pairs (R233 to R236): the windows that ramps take, and the steps of ramps, holds and hints. -/

namespace Sys2Proof.Machine

open Sys2Proof.Claims

/-! ## Windows (R235) -/

/-- The first cycle on the grid of four from the base at or after a cycle. -/
def gridCycle (base c : Nat) : Nat := base + (c - base + 3) / 4 * 4

/-- Of more windows than are taken, one is free. -/
theorem exists_free_window (taken : List Nat) (w : Nat) : ∃ i < taken.length + 1, w + 4 * i ∉ taken := by
  by_contra! hall
  have hnodup : ((List.range (taken.length + 1)).map (fun i => w + 4 * i)).Nodup :=
    List.Nodup.map (fun i j (h : w + 4 * i = w + 4 * j) => by omega) List.nodup_range
  have hsub : (List.range (taken.length + 1)).map (fun i => w + 4 * i) ⊆ taken := by
    intro v hv
    obtain ⟨i, hi, rfl⟩ := List.mem_map.1 hv
    exact hall i (List.mem_range.1 hi)
  have hlen := (List.subperm_of_subset hnodup hsub).length_le
  simp at hlen

/-- The first free window on the grid: all before it are taken. -/
theorem firstWindow_spec (taken : List Nat) (base c : Nat) :
    ∃ i, firstWindow taken base c = gridCycle base c + 4 * i ∧ gridCycle base c + 4 * i ∉ taken ∧ ∀ j < i, gridCycle base c + 4 * j ∈ taken := by
  obtain ⟨k, hk, hfree⟩ := exists_free_window taken (gridCycle base c)
  have hfound : (firstBelow (fun i => !taken.contains (gridCycle base c + 4 * i)) (taken.length + 1)).isSome = true :=
    List.find?_isSome.2 ⟨k, List.mem_range.2 hk, by simpa using hfree⟩
  obtain ⟨i, hi⟩ := Option.isSome_iff_exists.1 hfound
  have hfirst := List.find?_range_eq_some.1 hi
  refine ⟨i, ?_, by simpa using hfirst.1, fun j hj => by simpa using hfirst.2.2 j hj⟩
  change (match firstBelow (fun i => !taken.contains (gridCycle base c + 4 * i)) (taken.length + 1) with
    | some i => gridCycle base c + 4 * i
    | none => gridCycle base c) = _
  rw [hi]

theorem firstWindow_least (taken : List Nat) {base c : Nat} (h : base ≤ c) :
    let w := firstWindow taken base c
    c ≤ w ∧ (w - base) % 4 = 0 ∧ w ∉ taken ∧ ∀ v, c ≤ v → (v - base) % 4 = 0 → v ∉ taken → w ≤ v := by
  obtain ⟨i, hw, hfree, hbefore⟩ := firstWindow_spec taken base c
  dsimp only
  rw [hw]
  have hgrid : gridCycle base c = base + (c - base + 3) / 4 * 4 := rfl
  refine ⟨by omega, by omega, hfree, fun v hcv hv hvfree => ?_⟩
  by_contra! hlt
  obtain ⟨j, hj⟩ : ∃ j, v = gridCycle base c + 4 * j := ⟨(v - gridCycle base c) / 4, by omega⟩
  exact hvfree (hj ▸ hbefore j (by omega))

/-! ## Ramps (R233, R234) -/

section
variable {s : State} {q : Nat}

theorem rampStepEnd_notDue (hz : s.dev.now (q / 4) < (s.dev.pair q).since + 4) : NotDue s (.rampStepEnd q) := if_pos hz

section
variable (hz : (s.dev.pair q).since + 4 ≤ s.dev.now (q / 4))
include hz

theorem rampStepEnd_rises (hst : (s.dev.pair q).st = .rampUp) (hl : (s.dev.pair q).level < 8) :
    Makes s (.rampStepEnd q) (s.dev.modPair q (fun p => { p with level := p.level + 1, since := (s.dev.pair q).since + 4 })) := by
  simp [Makes, execRampStepEnd, clusterOfPair, Nat.not_lt.2 hz, hst, hl]

theorem rampStepEnd_holds (hst : (s.dev.pair q).st = .rampUp) (hl : (s.dev.pair q).level = 8) (ho : (s.dev.pair q).owner = none) :
    Makes s (.rampStepEnd q) (s.dev.modPair q (fun p => p.holds ((s.dev.pair q).since + 4))) := by
  simp [Makes, execRampStepEnd, clusterOfPair, Nat.not_lt.2 hz, hst, hl, ho]

theorem rampStepEnd_starts {c id : Nat} (hst : (s.dev.pair q).st = .rampUp) (hl : (s.dev.pair q).level = 8)
    (ho : (s.dev.pair q).owner = some (c, id)) :
    Makes s (.rampStepEnd q) ((s.dev.modPair q (fun p => { p with st := .hot, since := (s.dev.pair q).since + 4, hinted := false })).startMma c id
      ((s.dev.pair q).since + 4)) := by
  simp [Makes, execRampStepEnd, clusterOfPair, Nat.not_lt.2 hz, hst, hl, ho]

theorem rampStepEnd_falls (hst : (s.dev.pair q).st = .rampDown) (ho : (s.dev.pair q).owner = none) (hl : 0 < (s.dev.pair q).level) :
    Makes s (.rampStepEnd q) (s.dev.modPair q (fun p => { p with level := p.level - 1, since := (s.dev.pair q).since + 4 })) := by
  simp [Makes, execRampStepEnd, clusterOfPair, Nat.not_lt.2 hz, hst, hl, ho]

theorem rampStepEnd_cools (hst : (s.dev.pair q).st = .rampDown) (ho : (s.dev.pair q).owner = none) (hl : (s.dev.pair q).level = 0) :
    Makes s (.rampStepEnd q) (s.dev.modPair q (fun p => { p with st := .cold, since := (s.dev.pair q).since + 4 })) := by
  simp [Makes, execRampStepEnd, clusterOfPair, Nat.not_lt.2 hz, hst, hl, ho]

theorem rampStepEnd_turns (hst : (s.dev.pair q).st = .rampDown) (ho : (s.dev.pair q).owner ≠ none) :
    Makes s (.rampStepEnd q) (s.dev.requestRamp q ((s.dev.pair q).since + 4) .awaitUp) := by
  simp [Makes, execRampStepEnd, clusterOfPair, Nat.not_lt.2 hz, hst, Option.isSome_iff_ne_none.2 ho]

end

/-! ## Holds and hints (R234, R236) -/

theorem holdExpiry_due (hst : (s.dev.pair q).st = .holding) (hz : (s.dev.pair q).since + (s.dev.pair q).holdLimit ≤ s.dev.now (q / 4)) :
    Makes s (.holdExpiry q) (s.dev.requestRamp q ((s.dev.pair q).since + (s.dev.pair q).holdLimit) .awaitDown) := by
  simp [Makes, execHoldExpiry, clusterOfPair, Nat.not_lt.2 hz, hst]

theorem holdExpiry_notDue (h : (s.dev.pair q).st ≠ .holding ∨ s.dev.now (q / 4) < (s.dev.pair q).since + (s.dev.pair q).holdLimit) :
    NotDue s (.holdExpiry q) := if_pos h

section
variable {c : Nat} (hc : (s.dev.pair q).hint = some c) (hz : c ≤ s.dev.now (q / 4))
include hc hz

theorem hintRequestTime_warm (hst : (s.dev.pair q).st ≠ .cold) :
    Makes s (.hintRequestTime q) (s.dev.modPair q (fun p => { p with hint := none })) := by
  simp [Makes, execHintRequestTime, clusterOfPair, Nat.not_lt.2 hz, hc, hst]

theorem hintRequestTime_cold (hst : (s.dev.pair q).st = .cold) :
    Makes s (.hintRequestTime q) (((s.dev.modPair q (fun p => { p with hint := none })).modPair q (fun p => { p with hinted := true })).requestRamp q c
      .awaitUp) := by
  simp [Makes, execHintRequestTime, clusterOfPair, Nat.not_lt.2 hz, hc, hst]

end

end

theorem Dev.pair_modPair (d : Dev) (q k : Nat) (f : Pair → Pair) : (d.modPair q f).pair k = if k = q then f (d.pair q) else d.pair k := Tab.get_insert ..

@[simp] theorem Dev.pair_modPair_same (d : Dev) (q : Nat) (f : Pair → Pair) : (d.modPair q f).pair q = f (d.pair q) := by
  simp [Dev.pair_modPair]

/-! ## Windows that begin (R235) -/

/-- Of a cluster's pairs, the first that meets a condition. -/
theorem find_pairsOf {p : Nat → Bool} {cl q : Nat} (hq : q / 4 = cl) (h : p q = true) (hfirst : ∀ r, r / 4 = cl → r < q → p r = false) :
    (pairsOf cl).find? p = some q := by
  have hfind : (List.range 4).find? (p ∘ fun i => 4 * cl + i) = some (q - 4 * cl) := by
    refine List.find?_range_eq_some.2 ⟨?_, List.mem_range.2 (by omega), fun j hj => ?_⟩
    · rwa [Function.comp_apply, show 4 * cl + (q - 4 * cl) = q by omega]
    · rw [Function.comp_apply, hfirst _ (by omega) (by omega), Bool.not_false]
  rw [pairsOf, List.find?_map, hfind, Option.map_some, show 4 * cl + (q - 4 * cl) = q by omega]

/-- A pair as its ramp begins in a window. -/
def Pair.rampsFrom (p : Pair) (w : Nat) : Pair :=
  { p with
    st := (if p.st = .awaitUp then .rampUp else .rampDown), since := w, window := none, ramps := (p.ramps + 1) % 2 ^ 32
    level := (if p.st = .awaitUp then min 8 (p.level + 1) else p.level - 1) }

theorem slewWindowBegin_due {s : State} {cl q w : Nat} (hq : q / 4 = cl) (hw : (s.dev.pair q).window = some w) (hz : w ≤ s.dev.now cl)
    (ha : (s.dev.pair q).awaits = true) (hfirst : ∀ r, r / 4 = cl → r < q → (s.dev.pair r).awaits = false)
    (hd : (s.dev.cluster cl).drain = none) (hs : (s.dev.cluster cl).settling = none) :
    Makes s (.slewWindowBegin cl) (s.dev.modPair q (·.rampsFrom w)) := by
  simp only [Makes, exec_slewWindowBegin, execSlewWindowBegin]
  rw [find_pairsOf hq]
  · simp [hd, hs, Dev.modPair, Pair.rampsFrom, hw]
  · simp [hw, ha, hz]
  · intro r hr hlt
    rw [hfirst r hr hlt]
    cases (s.dev.pair r).window <;> rfl

/-- Settles O36: a step of a ramp or a hold by the array's state, a window by the first pair that awaits one. -/
theorem arraysRampAndHold : Obligations.ArraysRampAndHold := by
  refine ⟨fun s q => ⟨fun hst hz hl => rampStepEnd_rises hz hst hl, fun hst hz hl ho => rampStepEnd_holds hz hst hl ho,
    fun c id hst hz hl ho => rampStepEnd_starts hz hst hl ho, fun hst hz ho hl => rampStepEnd_falls hz hst ho hl,
    fun hst hz ho hl => rampStepEnd_cools hz hst ho hl, fun hst hz ho => rampStepEnd_turns hz hst ho, rampStepEnd_notDue, holdExpiry_due,
    holdExpiry_notDue, fun c hc hz hst => hintRequestTime_warm hc hz hst,
    fun c hc hz hst => ⟨_, hintRequestTime_cold hc hz hst, by simp, rfl⟩,
    fun cl w hq hw hz ha hfirst hd hs => slewWindowBegin_due hq hw hz ha hfirst hd hs⟩,
    fun taken base c h => firstWindow_least taken h⟩

end Sys2Proof.Machine
end

section
/-! SUPPORT. Words that join the matrix queue (R222, R223, R230, R231): what an entry that joins leaves as it was, and the checks before it. -/

namespace Sys2Proof.Machine

open Sys2Proof.Claims

/-! ## The queue (R222) -/

/-- Only the requests of cores are marked: each entry of a queue is the one it was. -/
structure RequestsMarked (d e : Dev) : Prop where
  dev : e = { d with cores := e.cores }
  queue : ∀ c, ((e.core c).mq).map entryKey = ((d.core c).mq).map entryKey

theorem requestsMarked_modEntry (d : Dev) (c id : Nat) {f : MxEntry → MxEntry} (hf : ∀ x, entryKey (f x) = entryKey x) :
    RequestsMarked d (d.modEntry c id f) where
  dev := rfl
  queue k := by
    rw [Dev.modEntry, Dev.core_modCore]
    split_ifs with hk
    · rw [hk, List.map_map]
      refine List.map_congr_left fun x _ => ?_
      rw [Function.comp_apply]
      split_ifs
      · exact hf x
      · rfl
    · rfl

theorem requestsMarked_markRequests (d : Dev) (pair : Nat) : RequestsMarked d (d.markRequests pair) := by
  refine List.foldlRecOn _ _ (motive := RequestsMarked d) ⟨rfl, fun _ => rfl⟩ (fun e h c _ => ?_)
  split
  · split_ifs
    · have k := requestsMarked_modEntry e c ‹MxEntry›.id (f := fun x => { x with reqAt := some (e.now (clusterOf c)), probed := false }) (fun _ => rfl)
      exact ⟨by rw [k.dev, h.dev], fun c => (k.queue c).trans (h.queue c)⟩
    · exact h
  · exact h

/-- The entry that a word of the issuing group brings. -/
def State.newEntry (s : State) (k : MxKind) : MxEntry :=
  { id := s.dev.nextEntry, task := s.taskId, slot := s.iss.slot, kind := k, op := s.dev.nextOp, reqAt := none, probed := false, started := none, kGroup := 0,
    parked := none, occEnd := none, result := [], marks := [] }

/-- An entry last in a core's queue. -/
def Dev.joinQueue (d : Dev) (core : Nat) (e : MxEntry) : Dev := { d.modCore core (fun x => { x with mq := x.mq ++ [e] }) with nextEntry := e.id + 1 }

/-- The issuing group's new entry as it stands in the queue, with its operation, before requests are marked. -/
def State.entryJoined (s : State) (k : MxKind) (o : Op) (regs : List RegName) : Dev :=
  (s.dev.enterOp s.iss.core s.iss.slot o regs).joinQueue s.iss.core (s.newEntry k)

/-- The operation of an entry has no parts, and CT counts it. -/
theorem State.newOp_tile_eq (s : State) (c id scope : Nat) (rs : List RegName) : ∃ o : Op, o.ctr = .ct ∧
    s.newOp .ct (.tile c id) [] scope rs .going = { s with dev := s.dev.enterOp s.iss.core s.iss.slot o rs } := ⟨_, rfl, rfl⟩

theorem queued_entryJoined {s : State} (hrun : s.running = true) (k : MxKind) {o : Op} (ho : o.ctr = .ct) (regs : List RegName) {e : Dev}
    (h : RequestsMarked (s.entryJoined k o regs) e) : Queued s { s with dev := e } k regs := by
  have hgrp : ({ s with dev := e } : State).grp = (s.grp.raise o.ctr s.dev.nextOp).await regs s.dev.nextOp := by
    rw [State.grp, h.dev]
    exact Dev.group_modGroup _ _ _ _ hrun
  exact {
    iss := rfl
    agenda := rfl
    queue := by
      have hcore : ((s.entryJoined k o regs).core s.iss.core).mq = (s.dev.core s.iss.core).mq ++ [s.newEntry k] :=
        congrArg Core.mq (Dev.core_modCore_same (s.dev.enterOp s.iss.core s.iss.slot o regs) s.iss.core (fun x => { x with mq := x.mq ++ [s.newEntry k] }))
      rw [h.queue, hcore]
      exact List.map_append
    counted := by
      rw [hgrp, ho]
      exact (Group.count_raise s.grp .ct .ct s.dev.nextOp)
    awaited := fun r hr => by
      rw [hgrp]
      exact Group.mem_await_of_mem _ _ hr
    regs_ := by rw [hgrp, Group.await_raise_eq]
    tasks := by rw [h.dev]; rfl
    memory := by
      rw [h.dev]
      exact sameMemory_of_stores rfl rfl rfl rfl rfl }

section
variable {s u : State} {k : MxKind} {ranges : List (Nat × Nat)} {irr : Bool} {regs : List RegName} (hset : s.settleSets ranges irr = .inl u)
include hset

theorem State.enqueue_full (h : 8 ≤ (u.dev.core s.iss.core).queued.length) : s.enqueue k ranges irr regs = u.stall .stallEngine id := by
  simp [State.enqueue, hset, Core.mxFull, h]

theorem State.enqueue_joins (hrun : u.running = true) (hroom : (u.dev.core u.iss.core).queued.length < 8) (hct : u.mustStall .ct false = false)
    (hcore : u.iss.core = s.iss.core) (hslot : u.iss.slot = s.iss.slot) (htask : s.taskId = u.taskId) :
    Queued u (s.enqueue k ranges irr regs) k regs := by
  obtain ⟨o, ho, hnew⟩ := u.newOp_tile_eq s.iss.core u.dev.nextEntry 3 regs
  have hfits : ¬ ((u.dev.core s.iss.core).mxFull = true ∨ u.mustStall .ct false = true) := by
    simp [Core.mxFull, hct, ← hcore, hroom]
  simp only [State.enqueue, hset, if_neg hfits, hnew]
  rw [← hcore, ← hslot, htask]
  exact queued_entryJoined hrun k ho regs (requestsMarked_markRequests ..)

end

theorem joinsQueue_of_exec {s : State} {i : Instr} {k : MxKind} {ranges : List (Nat × Nat)} {irr : Bool} {regs : List RegName}
    (h : exec i s = .next (s.enqueue k ranges irr regs)) : JoinsQueue s i k ranges irr regs := by
  intro u hset hrun
  refine ⟨fun hroom hct hcore hslot htask => ⟨_, h, State.enqueue_joins hset hrun hroom hct hcore hslot htask⟩, fun hfull => ?_⟩
  rw [h, State.enqueue_full hset hfull]

/-! ## The checks (R223, R230, R231) -/

/-- What MLDA asks of a reservation (R230). -/
def Binding.takesBytes (w : Binding) (ofs len : Nat) : Prop := w.buf ≠ 2 ∧ ofs + len ≤ w.size ∧ ofs % 16 = 0 ∧ len % 16 = 0 ∧ 16 ≤ len

/-- What MLDB asks of a reservation (R230). -/
def Binding.takesColumns (w : Binding) (kn jn f : Nat) : Prop :=
  w.buf = 1 ∧ f ≤ 2 ∧ (w.sparse = true → kn % 4 = 0) ∧ (w.bl ≠ 0 → kn % w.bl = 0) ∧ (kn ≠ 0 → mldbFits w kn jn = true)

theorem Binding.not_takesBytes_iff (w : Binding) (ofs len : Nat) :
    ¬ w.takesBytes ofs len ↔ w.buf = 2 ∨ ofs + len > w.size ∨ ofs % 16 ≠ 0 ∨ len % 16 ≠ 0 ∨ len < 16 := by
  unfold Binding.takesBytes
  omega

theorem Binding.not_takesColumns_iff (w : Binding) (kn jn f : Nat) : ¬ w.takesColumns kn jn f ↔
    w.buf ≠ 1 ∨ 2 < f ∨ (w.sparse = true ∧ kn % 4 ≠ 0) ∨ (w.bl ≠ 0 ∧ kn % w.bl ≠ 0) ∨ (kn ≠ 0 ∧ (!mldbFits w kn jn) = true) := by
  unfold Binding.takesColumns
  simp only [not_and_or, Classical.not_imp, Nat.not_le, Bool.not_eq_true', Bool.not_eq_true]

/-- MLDB's rows as offsets and lengths from its source. -/
def columnRows (pitch kn jn f : Nat) : List (Nat × Nat) := if kn = 0 then [] else (List.range (jn + 1)).map (fun j => (j * pitch, kn * elemBytes f))

section
variable {s : State} {t : BitVec 2} {a b h sh r : BitVec 4} {x y : SReg} {w : Binding}

theorem execMma_joins (n m e : BitVec 1) (hok : s.task?.any (fun k => k.mmaOk s.tileCount t.toNat a.toNat b.toNat sh.toNat r.toNat) = true) :
    exec (.mma t a b n m e sh r) s = .next (s.enqueue
      (.mma t.toNat a.toNat b.toNat (decide (n = 1)) (decide (m = 1)) (decide (e = 1)) sh.toNat r.toNat) [] false []) := by
  obtain ⟨k, hk, hok⟩ := (Option.any_eq_true ..).1 hok
  simp [execMma, hk, hok]

theorem execMma_bad (n m e : BitVec 1) (hok : s.task?.any (fun k => k.mmaOk s.tileCount t.toNat a.toNat b.toNat sh.toNat r.toNat) = false) :
    Traps s (.mma t a b n m e sh r) 0x0C := by
  cases hk : s.task? with
  | none => simp [Traps, execMma, hk, State.mxTrap]
  | some k =>
    rw [hk, Option.any_some] at hok
    simp [Traps, execMma, hk, hok, State.mxTrap]

theorem execMlda_unbound (hw : s.task?.bind (fun k => k.handle h.toNat) = none) : Traps s (.mlda h x y) 0x0C := by
  simp [Traps, execMlda, hw, State.mxTrap]

theorem execMldb_unbound (hw : s.task?.bind (fun k => k.handle h.toNat) = none) : Traps s (.mldb h x y) 0x0C := by
  simp [Traps, execMldb, hw, State.mxTrap]

section
variable (hw : s.task?.bind (fun k => k.handle h.toNat) = some w)
include hw

section
variable {ofs len : Nat} (hofs : bits (s.rdS y).toNat 17 0 = ofs) (hlen : bits (s.rdS y).toNat 35 18 = len)
include hofs hlen

theorem execMlda_bad (h' : ¬ w.takesBytes ofs len) : Traps s (.mlda h x y) 0x0C := by
  simp only [Traps, exec_mlda, execMlda, hw, hofs, hlen]
  rw [if_pos ((w.not_takesBytes_iff ofs len).1 h'), State.mxTrap]

theorem execMlda_fault (hok : w.takesBytes ofs len) {f : TrapInfo} (hspan : s.spanCheck .read (s.rdS x).toNat [(0, len)] 16 false = some f) :
    exec (.mlda h x y) s = .next (s.takeTrap f) := by
  simp only [exec_mlda, execMlda, hw, hofs, hlen]
  rw [if_neg (fun hn => (w.not_takesBytes_iff ofs len).2 hn hok), hspan]

theorem execMlda_joins (hok : w.takesBytes ofs len) (hspan : s.spanCheck .read (s.rdS x).toNat [(0, len)] 16 false = none) :
    exec (.mlda h x y) s = .next (s.enqueue (.mlda h.toNat (s.rdS x).toNat ofs len) (gSpan (s.rdS x).toNat len) false []) := by
  simp only [exec_mlda, execMlda, hw, hofs, hlen]
  rw [if_neg (fun hn => (w.not_takesBytes_iff ofs len).2 hn hok), hspan]

end

section
variable {pitch kn jn f : Nat} (hpitch : bits (s.rdS y).toNat 47 24 = pitch) (hkn : bits (s.rdS y).toNat 23 12 = kn)
  (hjn : bits (s.rdS y).toNat 11 4 = jn) (hf : bits (s.rdS y).toNat 3 0 = f)
include hpitch hkn hjn hf

theorem execMldb_bad (h' : ¬ w.takesColumns kn jn f) : Traps s (.mldb h x y) 0x0C := by
  simp only [Traps, exec_mldb, execMldb, hw, hpitch, hkn, hjn, hf]
  rw [if_pos ((w.not_takesColumns_iff kn jn f).1 h'), State.mxTrap]

variable (hok : w.takesColumns kn jn f)
include hok

theorem execMldb_fault {g : TrapInfo} (hspan : s.spanCheck .read (s.rdS x).toNat (columnRows pitch kn jn f) (elemBytes f) false = some g) :
    exec (.mldb h x y) s = .next (s.takeTrap g) := by
  unfold columnRows at hspan
  simp only [exec_mldb, execMldb, hw, hpitch, hkn, hjn, hf]
  rw [if_neg (fun hn => (w.not_takesColumns_iff kn jn f).2 hn hok), hspan]

variable (hspan : s.spanCheck .read (s.rdS x).toNat (columnRows pitch kn jn f) (elemBytes f) false = none)
include hspan

theorem execMldb_misaligned (hp : pitch % elemBytes f ≠ 0) (hj : jn ≠ 0) (hk : kn ≠ 0) :
    exec (.mldb h x y) s = .next (s.takeTrap (checkInfo 0x08 .read (s.rdS x).toNat (lowLane s.iss.mask))) := by
  unfold columnRows at hspan
  simp only [exec_mldb, execMldb, hw, hpitch, hkn, hjn, hf]
  rw [if_neg (fun hn => (w.not_takesColumns_iff kn jn f).2 hn hok), hspan]
  exact if_pos ⟨hp, hj, hk⟩

theorem execMldb_joins (hp : pitch % elemBytes f = 0 ∨ jn = 0 ∨ kn = 0) : exec (.mldb h x y) s = .next (s.enqueue
    (.mldb h.toNat (s.rdS x).toNat pitch kn jn f)
    ((List.range (jn + 1)).flatMap (fun j => gSpan ((s.rdS x).toNat + j * pitch) (kn * elemBytes f))) false []) := by
  unfold columnRows at hspan
  simp only [exec_mldb, execMldb, hw, hpitch, hkn, hjn, hf]
  rw [if_neg (fun hn => (w.not_takesColumns_iff kn jn f).2 hn hok), hspan]
  exact if_neg (by omega)

end

end

/-! ## Tiles to and from memory (R231) -/

section
variable {k : AccKind} {go : Nat → Nat → Nat → State} {pitch f : Nat} (hpitch : bits (s.rdS y).toNat 23 0 = pitch) (hf : bits (s.rdS y).toNat 27 24 = f)
include hf

theorem State.tileMove_bad (h2 : 2 < f) : s.tileMove k x y go = s.mxTrap := by
  simp [State.tileMove, hf, h2]

include hpitch

theorem State.tileMove_ok (h2 : f ≤ 2)
    (hspan : s.spanCheck k (s.rdS x).toNat ((List.range 64).map (fun i => (i * pitch, 64 * elemBytes f))) (elemBytes f) true = none)
    (hp : pitch % elemBytes f = 0) : s.tileMove k x y go = go (s.rdS x).toNat pitch f := by
  simp [State.tileMove, hpitch, hf, Nat.not_lt.2 h2, hspan, hp]

end

end

/-- Settles O33: each word goes through its checks in order and joins the queue, or traps where it fails one. -/
theorem matrixWordsJoinTheQueue : Obligations.MatrixWordsJoinTheQueue := by
  intro s t a b h sh r n m e x y v
  have low (z : W64) (hi : Nat) : bits z.toNat hi 0 = z.toNat % 2 ^ (hi + 1) := by simp [bits]
  refine ⟨joinsQueue_of_exec rfl, joinsQueue_of_exec ?_, joinsQueue_of_exec ?_,
    ⟨fun hok => joinsQueue_of_exec (execMma_joins n m e hok), execMma_bad n m e⟩,
    fun w hw => ⟨fun hok hspan => joinsQueue_of_exec (execMlda_joins hw (low _ 17) rfl hok hspan),
      fun hok f hspan => execMlda_fault hw (low _ 17) rfl hok hspan, execMlda_bad hw (low _ 17) rfl⟩,
    fun hw => ⟨execMlda_unbound hw, execMldb_unbound hw⟩,
    fun w hw => ⟨fun hok g hspan => execMldb_fault hw rfl rfl rfl (low _ 3) hok hspan,
      fun hok hspan hp hj hk => execMldb_misaligned hw rfl rfl rfl (low _ 3) hok hspan hp hj hk,
      fun hok hspan hp => joinsQueue_of_exec (execMldb_joins hw rfl rfl rfl (low _ 3) hok hspan hp), execMldb_bad hw rfl rfl rfl (low _ 3)⟩, ?_, ?_, ?_⟩
  · rw [exec_mtrv, execMtrv, low]; rfl
  · rw [exec_mtwv, execMtwv, low]; rfl
  · rintro ⟨h2, hspan, hp⟩
    exact joinsQueue_of_exec (congrArg _ (State.tileMove_ok (low _ 23) rfl h2 hspan hp))
  · rintro ⟨h2, hspan, hp⟩
    exact ⟨_, joinsQueue_of_exec (congrArg _ (State.tileMove_ok (low _ 23) rfl h2 hspan hp))⟩
  · intro h2
    exact ⟨congrArg _ (State.tileMove_bad rfl h2), congrArg _ (State.tileMove_bad rfl h2)⟩

end Sys2Proof.Machine
end

section
/-! SUPPORT. Reservations and shape records (R216, R217, R220, R221), and the words on the state of arrays and queues (R232, R236, R237). -/

namespace Sys2Proof.Machine

open Sys2Proof.Claims

/-! ## The task that issues -/

theorem Dev.taskAt_congr {d e : Dev} {c sl : Nat} (hs : (e.core c).serving = (d.core c).serving) (hg : (e.group c sl).task = (d.group c sl).task) :
    e.taskAt c sl = d.taskAt c sl := by
  unfold Dev.taskAt
  rw [hs, hg]

theorem Dev.task_group_modGroup (d : Dev) (c sl c' sl' : Nat) {f : Group → Group} (hf : ∀ g, (f g).task = g.task) :
    ((d.modGroup c sl f).group c' sl').task = (d.group c' sl').task := by
  unfold Dev.group Tab.get
  rw [Dev.modGroup_groups, Tab.find_modify]
  split_ifs with h
  · rw [h]
    cases Tab.find d.groups (gkey c sl) with
    | none => rfl
    | some g => exact hf g
  · rfl

theorem State.taskId_wrS (s : State) (r : SReg) (x : W64) : (s.wrS r x).taskId = s.taskId :=
  Dev.taskAt_congr rfl (Dev.task_group_modGroup _ _ _ _ _ fun _ => rfl)

@[simp] theorem State.task?_wrS (s : State) (r : SReg) (x : W64) : (s.wrS r x).task? = s.task? := congrArg s.dev.task? (s.taskId_wrS r x)

theorem State.task?_modTask (s : State) (f : Task → Task) : (s.modDev (·.modTask s.taskId f)).task? = s.task?.map f :=
  (s.dev.task?_modTask s.taskId s.taskId f).trans (if_pos rfl)

theorem State.taskId_modCore (s : State) (c : Nat) {f : Core → Core} (hf : ∀ k, (f k).serving = k.serving) :
    (s.modDev (·.modCore c f)).taskId = s.taskId := by
  refine Dev.taskAt_congr ?_ rfl
  rw [State.modDev_dev, Dev.core_modCore]
  split_ifs with h
  · exact (hf _).trans (congrArg (fun i => (s.dev.core i).serving) h.symm)
  · rfl

/-! ## Reservations (R216, R217) -/

theorem Task.handle_insert (x : Task) (h : Nat) (b : Binding) : ({ x with handles := Tab.insert x.handles h b } : Task).handle h = some b :=
  (Tab.find_insert ..).trans (if_pos rfl)

theorem Task.handle_erase (x : Task) (h : Nat) : ({ x with handles := Tab.erase x.handles h } : Task).handle h = none :=
  (Tab.find_erase ..).trans (if_pos rfl)

/-- A handle of a task bound. -/
def State.bindHandle (s : State) (n h : Nat) (b : Binding) : State :=
  s.modDev (·.modTask n (fun x => { x with handles := Tab.insert x.handles h b }))

/-- The units of the buffer that a reservation lies in. -/
def Core.used (k : Core) (b : Binding) : Tab Nat := if b.buf = 0 then k.opUsed else k.wUsed

/-- A core whose buffer gives units to a task's reservation, cleared. -/
def Core.reserves (k : Core) (b : Binding) (n task : Nat) : Core :=
  if b.buf = 0 then { k with opUsed := reserve k.opUsed n b.units task, opBuf := Memory.clear k.opBuf (256 * n) b.size }
  else { k with wUsed := reserve k.wUsed n b.units task, wBuf := Memory.clear k.wBuf (256 * n) b.size }

/-- A core whose buffer takes a reservation's units back for clearing. -/
def Core.releases (k : Core) (b : Binding) : Core :=
  if b.buf = 0 then { k with opUsed := Machine.clearing k.opUsed b.base b.units } else { k with wUsed := Machine.clearing k.wUsed b.base b.units }

theorem Core.serving_reserves (k : Core) (b : Binding) (n task : Nat) : (k.reserves b n task).serving = k.serving := by
  unfold Core.reserves
  split_ifs <;> rfl

theorem Core.serving_releases (k : Core) (b : Binding) : (k.releases b).serving = k.serving := by
  unfold Core.releases
  split_ifs <;> rfl

/-- A reservation's words as MRES reads them, not yet placed. -/
def bindingOf (ws : List W64) : Binding := { w0 := ws.getD 0 0, w1 := ws.getD 1 0, base := 0 }

/-- What MRES does with a record for a handle that is not bound (R216). -/
def State.placeRecord (u : State) (d : SReg) (h : Nat) (b : Binding) : State :=
  if b.bad then u.wrS d 2
  else if b.buf = 2 then (u.bindHandle u.taskId h b).wrS d 0
  else match freeRun ((u.dev.core u.iss.core).used b) b.units with
    | none => u.wrS d 1
    | some n => ((u.modDev (·.modCore u.iss.core (·.reserves b n u.taskId))).bindHandle u.taskId h { b with base := 256 * n }).wrS d 0

section
variable {s u : State} {d a : SReg} {h : BitVec 4} {ws : List W64} {x : Task} (hfree : s.mxNames (fun k => k.handles.contains h.toNat) = false)
  (hload : s.loadRecord (s.rdS a).toNat 16 = .got u ws) (hx : u.task? = some x)
include hfree hload hx

theorem execMres_eq : exec (.mres d a h) s =
    .next (if (x.handle h.toNat).isSome then u.wrS d 3 else u.placeRecord d h.toNat (bindingOf ws)) := by
  rw [exec_mres, execMres, hfree, if_neg Bool.false_ne_true, State.withRecord, hload]
  dsimp only
  rw [hx, show ({ w0 := ws.getD 0 0, w1 := ws.getD 1 0, base := 0 } : Binding) = bindingOf ws from rfl]
  unfold State.placeRecord Core.used
  cases freeRun (if (bindingOf ws).buf = 0 then (u.dev.core u.iss.core).opUsed else (u.dev.core u.iss.core).wUsed) (bindingOf ws).units <;> rfl

theorem execMres_bound (hh : x.handle h.toNat ≠ none) : exec (.mres d a h) s = .next (u.wrS d 3) := by
  rw [execMres_eq hfree hload hx, if_pos (Option.isSome_iff_ne_none.2 hh)]

theorem execMres_unbound (hh : x.handle h.toNat = none) : exec (.mres d a h) s = .next (u.placeRecord d h.toNat (bindingOf ws)) := by
  rw [execMres_eq hfree hload hx, hh, if_neg (by simp)]

end

section
variable (u : State) (d : SReg) (h : Nat) {b : Binding}

theorem State.placeRecord_malformed (hb : b.bad = true) : u.placeRecord d h b = u.wrS d 2 := if_pos hb

variable (hb : b.bad = false)
include hb

theorem State.placeRecord_descriptor (h2 : b.buf = 2) : u.placeRecord d h b = (u.bindHandle u.taskId h b).wrS d 0 := by
  simp [State.placeRecord, hb, h2]

variable (h2 : b.buf ≠ 2)
include h2

theorem State.placeRecord_noRoom (hn : freeRun ((u.dev.core u.iss.core).used b) b.units = none) : u.placeRecord d h b = u.wrS d 1 := by
  simp [State.placeRecord, hb, h2, hn]

theorem State.placeRecord_room {n : Nat} (hn : freeRun ((u.dev.core u.iss.core).used b) b.units = some n) : u.placeRecord d h b =
    ((u.modDev (·.modCore u.iss.core (·.reserves b n u.taskId))).bindHandle u.taskId h { b with base := 256 * n }).wrS d 0 := by
  simp [State.placeRecord, hb, h2, hn]

end

theorem bound_bindHandle {s : State} {n : Nat} {x : Task} (hid : s.taskId = n) (hx : s.dev.task? n = some x) (h : Nat) (b : Binding) (d : SReg) (v : W64) :
    ((s.bindHandle n h b).wrS d v).task?.bind (fun y => y.handle h) = some b := by
  rw [State.task?_wrS, ← hid, State.bindHandle, State.task?_modTask, State.task?, hid, hx]
  exact x.handle_insert h b

theorem regs_bindHandle {s : State} (hs : s.running = true) (n h : Nat) (b : Binding) (d : SReg) (v : W64) :
    ((s.bindHandle n h b).wrS d v).grp.regs = s.grp.regs.writeS d.toNat v :=
  congrArg Group.regs (State.grp_wrS (s.bindHandle n h b) d v hs)

theorem execMrel_unbound {s : State} {h : BitVec 4} (hfree : s.mxNames (fun k => k.handles.contains h.toNat) = false)
    (hb : s.task?.bind (fun x => x.handle h.toNat) = none) : FallsThrough s (.mrel h) := by
  rw [FallsThrough, exec_mrel, execMrel, hfree, if_neg Bool.false_ne_true, hb]

/-- The issuing task with a handle given up. -/
def State.unbindHandle (s : State) (h : Nat) : State := s.modDev (·.modTask s.taskId (fun x => { x with handles := Tab.erase x.handles h }))

/-- What MREL leaves of a bound handle: the units of a reservation go back to be cleared. -/
theorem execMrel_bound {s : State} {h : BitVec 4} {b : Binding} (hfree : s.mxNames (fun k => k.handles.contains h.toNat) = false)
    (hb : s.task?.bind (fun x => x.handle h.toNat) = some b) : exec (.mrel h) s = .next (if b.buf = 2 then s.unbindHandle h.toNat
      else (s.unbindHandle h.toNat).modDev (·.modCore s.iss.core (·.releases b))) := by
  rw [exec_mrel, execMrel, hfree, if_neg Bool.false_ne_true, hb]
  rfl

theorem unbound_unbindHandle {s : State} {h : Nat} {b : Binding} (hb : s.task?.bind (fun x => x.handle h) = some b) :
    (s.unbindHandle h).task?.bind (fun x => x.handle h) = none := by
  obtain ⟨x, hx, -⟩ := Option.bind_eq_some_iff.1 hb
  rw [State.unbindHandle, State.task?_modTask, hx]
  exact x.handle_erase h

theorem sameMemory_unbindHandle (s : State) (h : Nat) : SameMemory s.dev (s.unbindHandle h).dev :=
  sameMemory_modTask _ _ _ (fun _ => rfl) (fun _ => rfl)

/-! ## Shape records (R220, R221) -/

/-- A task's shape record as MSHAPE leaves it: with reserved bits that are not zero it is unset. -/
def Task.setShape (t : Task) (sh : Nat) (ws : List W64) : Task :=
  { t with shapes :=
      if decide (bits (ws.getD 0 0).toNat 63 10 ≠ 0) || decide (ws.getD 3 0 ≠ 0) then Tab.erase t.shapes sh else Tab.insert t.shapes sh ws }

theorem Task.find_setShape (t : Task) (sh : Nat) (ws : List W64) : Tab.find (t.setShape sh ws).shapes sh =
    if (ws.getD 0 0).toNat / 2 ^ 10 = 0 ∧ ws.getD 3 0 = 0 then some ws else none := by
  have hbits : bits (ws.getD 0 0).toNat 63 10 = (ws.getD 0 0).toNat / 2 ^ 10 :=
    Nat.mod_eq_of_lt (Nat.div_lt_of_lt_mul (ws.getD 0 0).isLt)
  have hbad : (decide (bits (ws.getD 0 0).toNat 63 10 ≠ 0) || decide (ws.getD 3 0 ≠ 0)) = true ↔
      ¬ ((ws.getD 0 0).toNat / 2 ^ 10 = 0 ∧ ws.getD 3 0 = 0) := by
    rw [hbits, Bool.or_eq_true, decide_eq_true_eq, decide_eq_true_eq, not_and_or]
  by_cases hgood : (ws.getD 0 0).toNat / 2 ^ 10 = 0 ∧ ws.getD 3 0 = 0
  · rw [Task.setShape, if_neg (fun h => hbad.1 h hgood), if_pos hgood]
    exact (Tab.find_insert ..).trans (if_pos rfl)
  · rw [Task.setShape, if_pos (hbad.2 hgood), if_neg hgood]
    exact (Tab.find_erase ..).trans (if_pos rfl)

theorem execMshape_got {s u : State} {sh : BitVec 4} {a : SReg} {ws : List W64} (hfree : s.mxNames (fun k => k.shapes.contains sh.toNat) = false)
    (hload : s.loadRecord (s.rdS a).toNat 32 = .got u ws) :
    exec (.mshape sh a) s = .next (u.modDev (·.modTask u.taskId (·.setShape sh.toNat ws))) := by
  rw [exec_mshape, execMshape, hfree, if_neg Bool.false_ne_true, State.withRecord, hload]
  rfl

/-- Settles O34: MRES by what becomes of the record, MREL by its binding, MSHAPE by its record. -/
theorem reservationsAndShapes : Obligations.ReservationsAndShapes := by
  intro s d a h sh hs free
  refine ⟨fun u ws x hfree hload hx hu => ?_, fun hfree hb => ?_, fun b hfree hb => ?_, fun u ws x hfree hload hx hid => ?_⟩
  · refine ⟨fun hh => ⟨_, execMres_bound hfree hload hx hh, State.wrS_written _ _ _ hu⟩, fun hh hb => ?_, fun hh hb h2 => ?_, fun hh hb h2 => ?_⟩
    all_goals have hexec := execMres_unbound (d := d) hfree hload hx hh
    · exact ⟨_, hexec.trans (congrArg _ (State.placeRecord_malformed u d _ hb)), State.wrS_written _ _ _ hu⟩
    · exact ⟨_, hexec.trans (congrArg _ (State.placeRecord_descriptor u d _ hb h2)), bound_bindHandle rfl hx _ _ _ _, regs_bindHandle hu _ _ _ _ _⟩
    · refine ⟨fun hn => ⟨_, hexec.trans (congrArg _ (State.placeRecord_noRoom u d _ hb h2 hn)), State.wrS_written _ _ _ hu⟩, fun n hn => ?_⟩
      have hid := u.taskId_modCore u.iss.core (f := fun k => k.reserves (bindingOf ws) n u.taskId) (fun k => k.serving_reserves ..)
      exact ⟨_, hexec.trans (congrArg _ (State.placeRecord_room u d _ hb h2 hn)), bound_bindHandle hid hx h.toNat _ d 0,
        regs_bindHandle hu u.taskId h.toNat { bindingOf ws with base := 256 * n } d 0⟩
  · exact execMrel_unbound hfree hb
  · refine ⟨_, execMrel_bound hfree hb, ?_⟩
    have hnone := unbound_unbindHandle hb
    split_ifs
    · exact ⟨rfl, rfl, hnone, sameMemory_unbindHandle s _⟩
    · refine ⟨rfl, rfl, ?_, sameMemory_unbindHandle s _⟩
      rwa [State.task?, State.taskId_modCore _ _ fun k => k.serving_releases b]
  · refine ⟨_, execMshape_got hfree hload, rfl, rfl, ?_⟩
    rw [State.task?_modTask, hx]
    exact congrArg some (x.find_setShape ..)

/-! ## Arrays and queues as words see them (R232, R236, R237) -/

section
variable {s : State} {a : SReg}

/-- MHINT on an array that is not cold, holding or hot has no effect. -/
theorem execMhint_ramping (h : (s.dev.pair (s.iss.core / 2)).st ∉ [ArrayState.cold, .holding, .hot]) : FallsThrough s (.mhint a) := by
  unfold FallsThrough
  rw [exec_mhint, execMhint, pairOf]
  cases hst : (s.dev.pair (s.iss.core / 2)).st with
  | cold | holding | hot => simp [hst] at h
  | _ => rfl

theorem execMhint_cold (hst : (s.dev.pair (s.iss.core / 2)).st = .cold) (hh : (s.dev.pair (s.iss.core / 2)).hint = none)
    (ho : (s.dev.pair (s.iss.core / 2)).owner = none) : Makes s (.mhint a) (s.dev.modPair (s.iss.core / 2) (fun p =>
      { p with hint := some (s.dev.now (clusterOf s.iss.core) + ((s.rdS a).toNat % 2 ^ 16 - 32)) })) := by
  simp [Makes, execMhint, pairOf, hst, hh, ho, State.modDev, bits]

theorem execMhint_holding (hst : (s.dev.pair (s.iss.core / 2)).st = .holding) : Makes s (.mhint a) (s.dev.modPair (s.iss.core / 2) (fun p =>
    { p with since := s.dev.now (clusterOf s.iss.core), holdLimit := 256 })) := by
  simp [Makes, execMhint, pairOf, hst, State.modDev]

theorem execMhint_hot (hst : (s.dev.pair (s.iss.core / 2)).st = .hot) :
    Makes s (.mhint a) (s.dev.modPair (s.iss.core / 2) (fun p => { p with hinted := true })) := by
  simp [Makes, execMhint, pairOf, hst, State.modDev]

end

section
variable {s : State} {k : Task} (hk : s.task? = some k) (d : SReg) (clr prune : Bool)
include hk

theorem State.grp_mxcnt (hs : s.running = true) : (s.mxcnt d prune clr).grp = { s.grp with regs := s.grp.regs.writeS d.toNat (BitVec.ofNat 64
    (if prune then k.mxc.getD 4 0 else k.mxc.getD 0 0 * 2 ^ 48 + k.mxc.getD 1 0 * 2 ^ 32 + k.mxc.getD 2 0 * 2 ^ 16 + k.mxc.getD 3 0)) } := by
  unfold State.mxcnt
  rw [hk]
  cases clr <;> exact State.grp_wrS _ d _ hs

theorem State.mxc_mxcnt : (s.mxcnt d prune clr).task?.map (fun x => x.mxc) = some (if clr then
    (if prune then [k.mxc.getD 0 0, k.mxc.getD 1 0, k.mxc.getD 2 0, k.mxc.getD 3 0, 0] else [0, 0, 0, 0, k.mxc.getD 4 0]) else k.mxc) := by
  unfold State.mxcnt
  rw [State.task?_wrS, hk]
  cases clr with
  | false => simp [hk]
  | true =>
    rw [if_pos rfl, State.task?_modTask, hk]
    rfl

end

theorem take_four_of_length {l : List Nat} (h : l.length = 5) : [l.getD 0 0, l.getD 1 0, l.getD 2 0, l.getD 3 0] = l.take 4 :=
  match l, h with
  | [_, _, _, _, _], _ => rfl

/-- Settles O35: MHINT by the array's state, MXCNT by its selector, MPAIR as it reads. -/
theorem matrixStatusWords : Obligations.MatrixStatusWords := by
  intro s a d clr k hs hk hlen
  refine ⟨execMhint_cold, execMhint_holding, execMhint_hot, execMhint_ramping,
    ⟨_, _, rfl, rfl, State.grp_mxcnt hk d _ false hs, State.grp_mxcnt hk d _ true hs, ?_, ?_⟩, _, rfl, State.wrS_written _ _ _ hs⟩
  · simp [State.mxc_mxcnt hk]
  · rw [State.mxc_mxcnt hk, ← take_four_of_length hlen]
    simp

end Sys2Proof.Machine
end

section
/-! SUPPORT. The matrix queue's entries and a pair's arbiter (R216, R222, R225, R227, R231, R234): requests, grants, occupancies, ends, and buffers cleared. -/

namespace Sys2Proof.Machine

open Sys2Proof.Claims

/-! ## Requests (R222, R226) -/

/-- What may start may start in a chain. -/
theorem Dev.mayStart_chain {d : Dev} {c : Nat} {e : MxEntry} (h : d.mayStart c e none = true) (last : MxEntry) : d.mayStart c e (some last) = true := by
  unfold Dev.mayStart at h ⊢
  simp only [Bool.and_eq_true, List.all_eq_true, Bool.or_eq_true, Bool.false_and, Bool.false_eq_true, or_false] at h ⊢
  exact ⟨h.1, fun o ho => (h.2 o ho).imp_left .inl⟩

section
variable {d : Dev} {c : Nat} {last x : MxEntry} (hx : d.mmaRequest c (some last) = some x)
include hx

/-- A chain's first MMA that may start outside it too is the core's request. -/
theorem Dev.mmaRequest_of_chain (hs : d.mayStart c x none = true) : d.mmaRequest c none = some x := by
  obtain ⟨hok, l, r, hmq, hbefore⟩ := List.find?_eq_some_iff_append.1 hx
  rw [Bool.and_eq_true] at hok
  refine List.find?_eq_some_iff_append.2 ⟨by rw [hok.1, hs]; rfl, l, r, hmq, fun y hy => ?_⟩
  have hno := hbefore y hy
  rw [Bool.not_eq_true', Bool.and_eq_false_iff] at hno ⊢
  exact hno.imp_right fun hn => Bool.eq_false_iff.2 fun hs => Bool.eq_false_iff.1 hn (Dev.mayStart_chain hs last)

theorem Dev.mayStart_false_of_no_request (hn : d.mmaRequest c none = none) : d.mayStart c x none = false :=
  Bool.eq_false_iff.2 fun hs => Option.some_ne_none x ((Dev.mmaRequest_of_chain hx hs).symm.trans hn)

end

/-! ## The arbiter (R227) -/

theorem Dev.arbitrate_both {d : Dev} {q : Nat} {f g : MxEntry} (hf : d.mmaRequest (2 * q) none = some f) (hg : d.mmaRequest (2 * q + 1) none = some g) :
    let tf := f.reqAt.getD (d.now (clusterOfPair q))
    let tg := g.reqAt.getD (d.now (clusterOfPair q))
    d.arbitrate q = some (if tf < tg ∨ (tf = tg ∧ (d.pair q).lastCore ≠ some 0) then (2 * q, f) else (2 * q + 1, g)) := by
  intro tf tg
  have heq : d.arbitrate q = if tf < tg then some (2 * q, f) else if tg < tf then some (2 * q + 1, g)
      else if (d.pair q).lastCore = some 0 then some (2 * q + 1, g) else some (2 * q, f) := by
    simp only [Dev.arbitrate, hf, hg, Option.map_some]
    rfl
  rw [heq]
  by_cases h1 : tf < tg
  · simp [h1]
  · by_cases h2 : tg < tf
    · simp [h1, h2, Nat.ne_of_gt h2]
    · by_cases h3 : (d.pair q).lastCore = some 0 <;> simp [h3, Nat.le_antisymm (Nat.not_lt.1 h2) (Nat.not_lt.1 h1)]

/-- The only request of a pair is granted. -/
theorem Dev.arbitrate_alone {d : Dev} {q c other : Nat} {x : MxEntry} (hc : c / 2 = q) (ho : other = if c % 2 = 0 then c + 1 else c - 1)
    (hx : d.mmaRequest c none = some x) (hn : d.mmaRequest other none = none) : d.arbitrate q = some (c, x) := by
  rcases Nat.mod_two_eq_zero_or_one c with h0 | h1
  · obtain rfl : c = 2 * q := by omega
    rw [if_pos h0] at ho
    simp [Dev.arbitrate, hx, ← ho, hn]
  · obtain rfl : c = 2 * q + 1 := by omega
    obtain rfl : other = 2 * q := by rw [ho, if_neg (by omega), Nat.add_sub_cancel]
    simp [Dev.arbitrate, hx, hn]

section
variable {s : State} {q : Nat}

theorem pairArbiterGrant_due {c : Nat} {f : MxEntry} (ho : (s.dev.pair q).owner = none) (ha : s.dev.arbitrate q = some (c, f)) :
    Makes s (.pairArbiterGrant q) (s.dev.giveArray q c f.id (s.dev.now (clusterOf c))) := by
  simp [Makes, execPairArbiterGrant, ho, ha]

theorem pairArbiterGrant_notDue (h : (s.dev.pair q).owner ≠ none ∨ s.dev.arbitrate q = none) : NotDue s (.pairArbiterGrant q) := by
  rcases h with ho | ha
  · exact if_pos (Option.isSome_iff_ne_none.2 ho)
  · simp [NotDue, execPairArbiterGrant, ha]

end

/-! ## The next MMA on an array (R226, R227) -/

section
variable {d : Dev} {q c : Nat} {last : MxEntry}

theorem Dev.nextMma_free {x : MxEntry} (hx : d.mmaRequest c (some last) = some x) (hs : d.mayStart c x none = true) :
    d.nextMma q c last = d.arbitrate q := by
  simp [Dev.nextMma, hx, hs]

theorem Dev.nextMma_other {y : MxEntry} (hn : d.mmaRequest c none = none) (hy : d.mmaRequest (if c % 2 = 0 then c + 1 else c - 1) none = some y) :
    d.nextMma q c last = some (if c % 2 = 0 then c + 1 else c - 1, y) := by
  unfold Dev.nextMma
  cases hx : d.mmaRequest c (some last) with
  | none => simp [hy]
  | some x => simp [hy, Dev.mayStart_false_of_no_request hx hn]

theorem Dev.nextMma_alone (hc : c / 2 = q) (hn : d.mmaRequest (if c % 2 = 0 then c + 1 else c - 1) none = none) :
    d.nextMma q c last = (d.mmaRequest c (some last)).map (fun x => (c, x)) := by
  cases hx : d.mmaRequest c (some last) with
  | none => simp [Dev.nextMma, hx, hn]
  | some x =>
    cases hs : d.mayStart c x none with
    | false => simp [Dev.nextMma, hx, hs, hn]
    | true => rw [Dev.nextMma_free hx hs, Dev.arbitrate_alone hc rfl (Dev.mmaRequest_of_chain hx hs) hn, Option.map_some]

end

/-! ## The end of an occupancy (R225 to R228) -/

/-- The device as an MMA's operands stand in the buffers at the end of its occupancy. -/
def Dev.operandsMet (d : Dev) (c : Nat) (m : MmaOps) (o : Op) : Dev :=
  ((d.fillB c m.b o.parts).meetBuf c false m.a.base m.a.size).meetBuf c true m.b.base m.b.size

/-- An MMA with its elements made. -/
def Dev.withElements (d : Dev) (c : Nat) (e : MxEntry) (m : MmaOps) : MxEntry :=
  { e with result := (d.mmaRun c e m e.kGroup m.groups).1, marks := (d.mmaRun c e m e.kGroup m.groups).2, kGroup := m.groups }

/-- The device as an MMA has left the array with its elements made. -/
def Dev.occupancyOver (d : Dev) (q c id : Nat) (e : MxEntry) : Dev :=
  (d.modEntry c id (fun _ => e)).modPair q (fun p => { p with owner := none })

/-- The array passes to the next MMA at a cycle, or holds. -/
def Dev.passArray (d : Dev) (q c : Nat) (last : MxEntry) (z : Nat) : Dev :=
  (d.nextMma q c last).elim (d.modPair q (fun p => p.holds z)) (fun next =>
    (d.modPair q (fun p => { p with owner := some (next.1, next.2.id), lastCore := some (next.1 % 2) })).startMma next.1 next.2.id z)

section
variable {s : State} {q c id z : Nat} {e : MxEntry} {m : MmaOps} {o : Op} (ho : (s.dev.pair q).owner = some (c, id)) (he : s.dev.entry? c id = some e)
  (hm : s.dev.mmaOps e.task e.kind = some m) (hz : e.occEnd = some z) (hop : s.dev.op? e.op = some o) (hdue : z ≤ s.dev.now (clusterOf c))
  (hall : o.parts.all (fun p => p.done) = true) (hst : o.st = .going)
include ho he hm hz hop hdue hall hst

/-- The elements are made and the array passes on. -/
theorem execMmaOccupancyEnd_eq : let d1 := s.dev.operandsMet c m o
    Makes s (.mmaOccupancyEnd q) ((d1.occupancyOver q c id (d1.withElements c e m)).passArray q c (d1.withElements c e m) z) := by
  have hgo : ¬ (s.dev.now (clusterOf c) < z ∨ (!o.parts.all (fun p => p.done)) = true ∨ o.st ≠ .going) := by
    simp only [hall, hst, Bool.not_true, ne_eq, not_true_eq_false, Bool.false_eq_true, or_false, Nat.not_lt, hdue]
  dsimp only
  rw [Makes, exec_mmaOccupancyEnd, execMmaOccupancyEnd]
  dsimp only
  rw [ho]
  dsimp only
  rw [he]
  dsimp only
  split
  next m' z' o' hm' hz' hop' =>
    cases hm.symm.trans hm'
    cases hz.symm.trans hz'
    cases hop.symm.trans hop'
    rw [if_neg hgo]
    unfold Dev.passArray Dev.occupancyOver Dev.withElements Dev.operandsMet
    split
    next hn => rw [hn, Option.elim_some]
    next hn => rw [hn, Option.elim_none]
  next hnone => exact absurd hop (hnone m z o hm hz)

end

theorem Dev.passArray_next {d : Dev} {q c c2 z : Nat} {last x : MxEntry} (h : d.nextMma q c last = some (c2, x)) : d.passArray q c last z =
    (d.modPair q (fun p => { p with owner := some (c2, x.id), lastCore := some (c2 % 2) })).startMma c2 x.id z := by
  rw [Dev.passArray, h, Option.elim_some]

theorem Dev.passArray_none {d : Dev} {q c z : Nat} {last : MxEntry} (h : d.nextMma q c last = none) :
    d.passArray q c last z = d.modPair q (fun p => p.holds z) := by
  rw [Dev.passArray, h, Option.elim_none]

/-! ## The end of an MMA (R225, R226) -/

section
variable {s : State} {c id z : Nat} {e : MxEntry} {m : MmaOps} (he : s.dev.entry? c id = some e) (hm : s.dev.mmaOps e.task e.kind = some m)
  (hz : e.occEnd = some z)
include he hm hz

theorem mmaRetire_due (hmade : e.made = true) (hg : m.groups ≤ e.kGroup) (hdue : z + 11 ≤ s.dev.now (clusterOf c)) : Makes s (.mmaRetire c id)
    (((s.dev.writeResult c e).modTask e.task (fun t =>
      { t with mxc := countMarks t.mxc (e.marks.map (fun x => BitVec.ofNat 5 x.2)) 0 })).dropEntry c id e.op none) := by
  simp [Makes, execMmaRetire, he, hm, hz, hmade, Nat.not_lt.2 hg, Nat.not_lt.2 hdue]

theorem mmaRetire_early (h : s.dev.now (clusterOf c) < z + 11) : NotDue s (.mmaRetire c id) := by
  simp [NotDue, execMmaRetire, he, hm, hz, h]

end

/-- Elements written one after another leave the others. -/
theorem get_foldl_set {l : Tab W32} {k : Nat} (h : Tab.find l k = none) (ts : Tab W32) :
    Tab.get 0 (l.foldl (fun ts x => Tab.set 0 ts x.1 x.2) ts) k = Tab.get 0 ts k := by
  induction l generalizing ts with
  | nil => rfl
  | cons x l ih =>
    obtain ⟨j, w⟩ := x
    rw [Tab.find] at h
    split_ifs at h with hj
    rw [List.foldl_cons, ih h, Tab.get_set, if_neg (fun hk => hj hk.symm)]

/-- The elements that an MMA did not make stay in their tiles. -/
theorem Dev.get_tiles_writeResult {d : Dev} {c k : Nat} {e : MxEntry} (hk : Tab.find e.result k = none) {t y : Task} (ht : d.task? e.task = some t)
    (hy : (d.writeResult c e).task? e.task = some y) : Tab.get 0 y.tiles k = Tab.get 0 t.tiles k := by
  have htask : (d.writeResult c e).task? e.task = some { t with tiles := e.result.foldl (fun ts x => Tab.set 0 ts x.1 x.2) t.tiles } :=
    (d.task?_modTask e.task e.task _).trans (by rw [if_pos rfl, ht, Option.map_some])
  obtain rfl := Option.some.inj (htask.symm.trans hy)
  exact get_foldl_set hk t.tiles

/-! ## The other entries (R222, R231) -/

section
variable {s : State} {c id : Nat}

theorem notDue_of_no_entry (h : s.dev.entry? c id = none) :
    NotDue s (.mmaRetire c id) ∧ NotDue s (.tileOpRetire c id) ∧ NotDue s (.matrixEntryStart c id) := by
  simp [NotDue, execMmaRetire, execTileOpRetire, execMatrixEntryStart, h]

variable {e : MxEntry} {o : Op} {t : Task} (he : s.dev.entry? c id = some e) (hop : s.dev.op? e.op = some o) (ht : s.dev.task? e.task = some t)
include he hop

/-- Nothing is read for a tile that is zeroed. -/
theorem matrixEntryStart_mzero {tt : Nat} (hk : e.kind = .mzero tt)
    (hfirst : ((s.dev.core c).mq.find? (fun x => !x.kind.isMma && s.dev.mayStart c x none)).map (fun x => x.id) = some id) :
    Makes s (.matrixEntryStart c id) (((s.dev.modEntry c id (fun x => { x with started := some (s.dev.now (clusterOf c)) })).modOp e.op (fun o =>
      { o with parts := [], scope := 4 })).fetchParts e.op) := by
  have hop' : (s.dev.modEntry c id (fun x => { x with started := some (s.dev.now (clusterOf c)) })).op? e.op = some o := hop
  simp [Makes, execMatrixEntryStart, he, hfirst, hk, hop', MxKind.spans, Dev.partsFor]

include ht
variable (hs : e.started ≠ none) (hst : o.st = .going) (hall : o.parts.all (fun p => p.done) = true) (heng : s.dev.enginesDone o.parts = true)
  (hp : o.parts.any (fun p => !p.loc.isRemote && s.dev.poisoned p.loc p.n) = false)
include hs hst hall heng hp

theorem tileOpRetire_mzero {tt : Nat} (hk : e.kind = .mzero tt) : Makes s (.tileOpRetire c id)
    ((((s.dev.serveParts c o.parts).modTask e.task (fun t => { t with tiles := t.tiles.filter (fun x => decide (x.1 / 4096 ≠ tt)) })).modTask e.task
      (fun t => { t with mxc := countMarks t.mxc [] 0 })).dropEntry c id e.op none) := by
  have hclean : o.parts.find? (fun p => !p.loc.isRemote && s.dev.poisoned p.loc p.n) = none := by simpa using hp
  simp only [Makes, exec_tileOpRetire, execTileOpRetire, he, hop, ht, hk, MxKind.isMma, MxKind.stores, hst, hall, heng]
  simp [hs, hclean]

theorem tileOpRetire_mtwv {tt col : Nat} {mask : W32} {vals : List W32} (hk : e.kind = .mtwv tt col mask vals) : Makes s (.tileOpRetire c id)
    ((((s.dev.serveParts c o.parts).writeTiles e.task
      ((lanesOf mask).map (fun l => (4096 * tt + 64 * (lineElem col l).1 + (lineElem col l).2, vals.getD l 0)))).modTask e.task
      (fun t => { t with mxc := countMarks t.mxc [] 0 })).dropEntry c id e.op none) := by
  have hclean : o.parts.find? (fun p => !p.loc.isRemote && s.dev.poisoned p.loc p.n) = none := by simpa using hp
  simp only [Makes, exec_tileOpRetire, execTileOpRetire, he, hop, ht, hk, MxKind.isMma, MxKind.stores, hst, hall, heng]
  simp [hs, hclean]

end

/-! ## Buffers cleared (R216) -/

theorem Memory.read_clear (m : List Host.Cell) (a n x : Nat) : Memory.read (Memory.clear m a n) x = if a ≤ x ∧ x < a + n then 0 else Memory.read m x := by
  unfold Memory.read Tab.get Memory.clear
  rw [Tab.find_filter m (fun i => decide (i < a ∨ a + n ≤ i)) x]
  by_cases h : a ≤ x ∧ x < a + n
  · rw [if_pos h, if_neg (by simp; omega)]
    rfl
  · rw [if_neg h, if_pos (by simp; omega)]

/-- Units of 256 bytes cleared one after another. -/
theorem Memory.read_clearUnits (l : List Nat) (m : List Host.Cell) (a : Nat) :
    Memory.read (l.foldl (fun m i => Memory.clear m (256 * i) 256) m) a = if a / 256 ∈ l then 0 else Memory.read m a := by
  induction l generalizing m with
  | nil => rfl
  | cons i l ih =>
    rw [List.foldl_cons, ih, Memory.read_clear]
    have hunit : (256 * i ≤ a ∧ a < 256 * i + 256) = (a / 256 = i) := by
      simp only [eq_iff_iff]
      omega
    simp only [hunit, List.mem_cons]
    split_ifs <;> simp_all

/-- The units being cleared. -/
def clearedUnits (u : Tab Nat) : List Nat := (u.filter (fun p => decide (p.2 = 0))).map Prod.fst

theorem mem_clearedUnits {u : Tab Nat} {i : Nat} : i ∈ clearedUnits u ↔ (i, 0) ∈ u := by
  simp [clearedUnits]

/-- A core's buffers when its clearing is done. -/
def Core.buffersCleared (k : Core) : Core :=
  { k with
    opBuf := (clearedUnits k.opUsed).foldl (fun m i => Memory.clear m (256 * i) 256) k.opBuf
    wBuf := (clearedUnits k.wUsed).foldl (fun m i => Memory.clear m (256 * i) 256) k.wBuf
    opUsed := k.opUsed.filter (fun p => decide (p.2 ≠ 0)), wUsed := k.wUsed.filter (fun p => decide (p.2 ≠ 0)) }

theorem execReservationClearDone_eq (c : Nat) (s : State) :
    exec (.reservationClearDone c) s = .next (s.modDev (fun d => (d.modCore c Core.buffersCleared).wakeStalls)) := rfl

/-- Settles O37, clause by clause: the arbiter, the end of an occupancy, the end of an MMA, the other entries, and the clearing of buffers. -/
theorem matrixEntriesStartAndRetire : Obligations.MatrixEntriesStartAndRetire := by
  refine ⟨fun s q c id e => ⟨fun f => pairArbiterGrant_due, pairArbiterGrant_notDue, fun f g => Dev.arbitrate_both, ?_,
    fun m z he hm hz hmade hg => ⟨mmaRetire_due he hm hz hmade hg, mmaRetire_early he hm hz⟩, fun k hk y t => Dev.get_tiles_writeResult hk, ?_,
    notDue_of_no_entry, fun tt t o he hk _ hop hfirst => matrixEntryStart_mzero he hop hk hfirst⟩, fun s c => ?_⟩
  · intro m z o ho he hm hz hop hdue hall hst d1 r e1 d2 other
    have hexec : Makes s (.mmaOccupancyEnd q) (d2.passArray q c e1 z) := execMmaOccupancyEnd_eq ho he hm hz hop hdue hall hst
    refine ⟨fun c2 x hn => ?_, fun hn => ?_, fun x => Dev.nextMma_free, fun y => Dev.nextMma_other, Dev.nextMma_alone⟩
    · rwa [Dev.passArray_next hn] at hexec
    · rwa [Dev.passArray_none hn] at hexec
  · intro o t he hop ht hs hst hall heng hp
    exact ⟨fun tt => tileOpRetire_mzero he hop ht hs hst hall heng hp, fun tt col mask vals => tileOpRetire_mtwv he hop ht hs hst hall heng hp⟩
  · refine ⟨_, execReservationClearDone_eq c s, rfl, sameMemory_of_stores rfl rfl rfl rfl rfl, ?_⟩
    have hcore : ((s.modDev (fun d => (d.modCore c Core.buffersCleared).wakeStalls)).dev.core c) = (s.dev.core c).buffersCleared :=
      Dev.core_modCore_same s.dev c Core.buffersCleared
    rw [hcore]
    refine ⟨fun u => by simp [Core.buffersCleared], fun u => by simp [Core.buffersCleared], fun a => ?_, fun a => ?_⟩
    · exact (Memory.read_clearUnits ..).trans (by simp only [mem_clearedUnits])
    · exact (Memory.read_clearUnits ..).trans (by simp only [mem_clearedUnits])

end Sys2Proof.Machine
end

section
/-! SUPPORT. Clocks (R370 to R375): stacked pairs, changes of frequency, and the copies of TIME. -/

namespace Sys2Proof.Machine

open Sys2Proof.Claims

theorem makes_of_eq {s : State} {i : Instr} {d e : Dev} (h : Makes s i d) (he : d = e) : Makes s i e := he ▸ h

/-! ## Changes of clusters alone -/

/-- Only clusters have changed. -/
def ClustersChanged (d e : Dev) : Prop := e = { d with clusters := e.clusters }

theorem ClustersChanged.refl (d : Dev) : ClustersChanged d d := rfl

theorem ClustersChanged.trans {d e f : Dev} (h : ClustersChanged d e) (k : ClustersChanged e f) : ClustersChanged d f := by
  unfold ClustersChanged at *
  rw [k, h]

theorem ClustersChanged.foldl {α : Type} {f : Dev → α → Dev} (hf : ∀ d x, ClustersChanged d (f d x)) (l : List α) (d : Dev) :
    ClustersChanged d (l.foldl f d) :=
  List.foldlRecOn l f (motive := ClustersChanged d) (.refl d) (fun e h x _ => h.trans (hf e x))

theorem ClustersChanged.time {d e : Dev} (h : ClustersChanged d e) : e.time = d.time := by rw [h]

theorem ClustersChanged.throttled {d e : Dev} (h : ClustersChanged d e) : e.throttled = d.throttled := by rw [h]

theorem clustersChanged_markClock (d : Dev) (c : Nat) : ClustersChanged d (d.markClock c) := by
  unfold Dev.markClock
  split_ifs <;> rfl

theorem clustersChanged_markClocks (d : Dev) : ClustersChanged d d.markClocks := .foldl clustersChanged_markClock _ d

/-- One change made to some clusters, one after another. -/
def Dev.modClusters (d : Dev) (cs : List Nat) (f : Cluster → Cluster) : Dev := cs.foldl (fun d c => d.modCluster c f) d

theorem clustersChanged_modClusters (d : Dev) (cs : List Nat) (f : Cluster → Cluster) : ClustersChanged d (d.modClusters cs f) := by
  refine .foldl (fun e c => ?_) cs d
  rfl

/-- A change that may be made twice: a cluster that is named twice shows it once. -/
theorem Dev.cluster_modClusters {f : Cluster → Cluster} (hf : ∀ k, f (f k) = f k) (cs : List Nat) (d : Dev) (c : Nat) :
    (d.modClusters cs f).cluster c = if c ∈ cs then f (d.cluster c) else d.cluster c := by
  induction cs generalizing d with
  | nil => rfl
  | cons b cs ih =>
    refine (ih (d.modCluster b f)).trans ?_
    rw [Dev.cluster_modCluster]
    by_cases h : c = b
    · subst h
      simp [hf]
    · simp [h]

/-! ## Stacked pairs (R370, R371) -/

theorem Cluster.wholeWindow_iff (k : Cluster) (now : Nat) : k.wholeWindow now = true ↔ k.fallow = 0 ∧ ∀ z, k.woke = some z → z + 16000 ≤ now := by
  rw [Cluster.wholeWindow, Bool.and_eq_true, decide_eq_true_eq]
  refine and_congr_right' ?_
  cases k.woke with
  | none => simp
  | some t =>
    refine ⟨fun h z hz => ?_, fun h => decide_eq_true (h t rfl)⟩
    cases hz
    exact of_decide_eq_true h

theorem Dev.wholeWindow_modCluster (d : Dev) (b c now : Nat) {f : Cluster → Cluster} (hf : ∀ k, (f k).wholeWindow now = k.wholeWindow now) :
    ((d.modCluster b f).cluster c).wholeWindow now = (d.cluster c).wholeWindow now := by
  rw [Dev.cluster_modCluster]
  split_ifs with h
  · rw [hf, h]
  · rfl

/-- The two clusters of a stacked pair with their currents of a window. -/
def Dev.withCurrents (d : Dev) (n ia ib : Nat) : Dev :=
  (d.modCluster (2 * n) (fun k => { k with current := ia })).modCluster (2 * n + 1) (fun k => { k with current := ib })

/-- Whether both clusters of a stacked pair have served a whole window. -/
def Dev.bothServe (d : Dev) (n : Nat) : Bool := (d.cluster (2 * n)).wholeWindow d.time && (d.cluster (2 * n + 1)).wholeWindow d.time

theorem Dev.bothServe_withCurrents (d : Dev) (n ia ib : Nat) : (d.withCurrents n ia ib).bothServe n = d.bothServe n := by
  have hwhole (c : Nat) : ((d.withCurrents n ia ib).cluster c).wholeWindow d.time = (d.cluster c).wholeWindow d.time := by
    rw [Dev.withCurrents, Dev.wholeWindow_modCluster, Dev.wholeWindow_modCluster]
    · exact fun _ => rfl
    · exact fun _ => rfl
  have htime : (d.withCurrents n ia ib).time = d.time := rfl
  rw [Dev.bothServe, htime, hwhole, hwhole, Dev.bothServe]

theorem currentWindow_noPair {s : State} {n : Nat} (h : 16 ≤ n) (ia ib : Nat) : NotDue s (.currentWindow n ia ib) :=
  congrArg Host.Outcome.next (if_pos h)

theorem currentWindow_pair {s : State} {n : Nat} (h : n < 16) (ia ib : Nat) : Makes s (.currentWindow n ia ib)
    (if (!s.dev.bothServe n) = true then s.dev.withCurrents n ia ib
    else if ia ≤ ib then (s.dev.withCurrents n ia ib).balance (2 * n) (2 * n + 1) ia ib
    else (s.dev.withCurrents n ia ib).balance (2 * n + 1) (2 * n) ia ib) := by
  rw [← s.dev.bothServe_withCurrents n ia ib]
  exact congrArg Host.Outcome.next (if_neg (Nat.not_le.2 h))

/-! ## Changes of frequency (R372, R373) -/

/-- A cluster that drains for a change, unless it drains for another already. -/
def Cluster.drainFor (k : Cluster) (n : Nat) : Cluster := { k with drain := if k.drain.isSome then k.drain else some n }

theorem Cluster.drainFor_drainFor (k : Cluster) (n : Nat) : (k.drainFor n).drainFor n = k.drainFor n := by
  unfold Cluster.drainFor
  cases k.drain <;> rfl

theorem Cluster.drainFor_eq (k : Cluster) (n : Nat) : k.drainFor n = if k.drain = none then { k with drain := some n } else k := by
  by_cases h : k.drain = none
  · rw [if_pos h, Cluster.drainFor, h]
    rfl
  · rw [if_neg h, Cluster.drainFor, if_pos (Option.isSome_iff_ne_none.2 h)]

/-- A cluster whose clock switches to a level and settles. -/
def Cluster.settleAt (k : Cluster) (level n : Nat) : Cluster := { k with level := level, settling := some n }

/-- A change made: the throttle that waited for it ends. -/
def Dev.switch (d : Dev) (n : Nat) (x : Change) : Dev :=
  { d with
    throttled := d.throttled && !decide (d.throttleClear = some x.count)
    changes := Tab.insert d.changes n { x with switched := true } }

theorem ClustersChanged.switch {d e : Dev} (h : ClustersChanged d e) (n : Nat) (x : Change) : ClustersChanged (d.switch n x) (e.switch n x) := by
  unfold ClustersChanged at *
  rw [h]
  rfl

section
variable {s : State} {n : Nat}

theorem notDue_of_no_change (h : Tab.find s.dev.changes n = none) :
    NotDue s (.drainWindowOpen n) ∧ NotDue s (.frequencySwitch n) ∧ NotDue s (.frequencyResume n) := by
  simp [NotDue, execDrainWindowOpen, execFrequencySwitch, execFrequencyResume, h]

variable {x : Change} (hx : Tab.find s.dev.changes n = some x)
include hx

theorem drainWindowOpen_notDue (h : x.switched = true ∨ s.dev.time + 32000 < x.count) : NotDue s (.drainWindowOpen n) := by
  simp only [NotDue, exec_drainWindowOpen, execDrainWindowOpen, hx, if_pos h]

theorem execDrainWindowOpen_due (hs : x.switched = false) (hc : x.count ≤ s.dev.time + 32000) :
    exec (.drainWindowOpen n) s = .next (s.modDev (·.modClusters x.clusters (·.drainFor n))) := by
  simp only [exec_drainWindowOpen, execDrainWindowOpen, hx]
  exact if_neg (by simpa [hs] using hc)

theorem frequencySwitch_notDue (h : x.switched = true ∨ s.dev.time < x.count) : NotDue s (.frequencySwitch n) := by
  simp only [NotDue, exec_frequencySwitch, execFrequencySwitch, hx, if_pos h]

theorem frequencySwitch_due (hs : x.switched = false) (hc : x.count ≤ s.dev.time) :
    Makes s (.frequencySwitch n) ((s.dev.markClocks.switch n x).modClusters x.clusters (·.settleAt x.level n)) := by
  simp only [Makes, exec_frequencySwitch, execFrequencySwitch, hx]
  exact if_neg (by simpa [hs] using hc)

theorem frequencyResume_notDue (h : x.switched = false ∨ s.dev.time < x.count + 8000) : NotDue s (.frequencyResume n) := by
  simp only [NotDue, exec_frequencyResume, execFrequencyResume, hx]
  exact if_pos (by simpa using h)

theorem frequencyResume_due (hs : x.switched = true) (hc : x.count + 8000 ≤ s.dev.time) :
    let d := ((x.clusters.filter (fun c => decide ((s.dev.cluster c).settling = some n))).foldl Dev.settled s.dev).endDrain x.clusters n
    Makes s (.frequencyResume n) { d with changes := Tab.erase d.changes n } := by
  simp [Makes, execFrequencyResume, hx, hs, Nat.not_lt.2 hc]

end

/-! ## The time base (R375) -/

/-- A region's copy of TIME, in units, depends on its cluster, TIME and the throttle. -/
theorem Dev.regionTime_congr {d e : Dev} {c : Nat} (h : e.cluster c = d.cluster c) (ht : e.time = d.time) (hth : e.throttled = d.throttled) :
    e.regionTime c = d.regionTime c := by
  unfold Dev.regionTime Dev.cyclesIn
  rw [h, ht, hth]

/-- Nothing has been added to a copy since a mark of now. -/
theorem Dev.regionTime_marked {d : Dev} {c : Nat} (h : (d.cluster c).mark = d.time) : d.regionTime c =
    if (d.cluster c).settling.isSome then max ((d.cluster c).timeInt * 2 ^ 24 + (d.cluster c).timeFrac) (d.time * 2 ^ 24)
    else (d.cluster c).timeInt * 2 ^ 24 + (d.cluster c).timeFrac := by
  have hspan : d.time - (if (d.cluster c).mark % 16000 = 0 then max (d.cluster c).mark (d.cluster c).timeUp else (d.cluster c).mark) = 0 := by
    split_ifs <;> omega
  have hcycles : d.cyclesIn c 0 = 0 := by simp [Dev.cyclesIn]
  unfold Dev.regionTime
  dsimp only
  rw [hspan, hcycles]
  simp

/-- A copy of TIME never reads below what it held. -/
theorem Dev.timeInt_le_regionTime (d : Dev) (c : Nat) : (d.cluster c).timeInt * 2 ^ 24 ≤ d.regionTime c := by
  unfold Dev.regionTime
  dsimp only
  split_ifs <;> omega

/-- A pulse at one region: its copy is marked, and set to the reference where it is behind. -/
def Dev.pulse (d : Dev) (c : Nat) : Dev :=
  (d.markClock c).modCluster c (fun k => if k.timeInt < d.time then { k with timeInt := d.time, timeFrac := 0 } else k)

theorem clustersChanged_pulse (d : Dev) (c : Nat) : ClustersChanged d (d.pulse c) := (clustersChanged_markClock d c).trans rfl

theorem Dev.cluster_markClock_ne (d : Dev) {c k : Nat} (h : k ≠ c) : (d.markClock c).cluster k = d.cluster k := by
  unfold Dev.markClock
  split_ifs
  · rfl
  · rw [Dev.cluster_modCluster, if_neg h]

theorem Dev.cluster_pulse_ne (d : Dev) {c k : Nat} (h : k ≠ c) : (d.pulse c).cluster k = d.cluster k := by
  rw [Dev.pulse, Dev.cluster_modCluster, if_neg h, Dev.cluster_markClock_ne d h]

/-- A copy that waits for the reference is not behind it. -/
theorem Dev.time_le_of_copyWaits {d : Dev} {c : Nat} (h : d.copyWaits c = true) : d.time ≤ (d.cluster c).timeInt := by
  obtain ⟨-, -, hup⟩ := of_decide_eq_true (Bool.and_eq_true_iff.1 h).2
  unfold Cluster.timeUp at hup
  split_ifs at hup <;> omega

theorem Dev.regionTime_pulse_same (d : Dev) (c : Nat) : (d.pulse c).regionTime c / 2 ^ 24 = max (d.regionTime c / 2 ^ 24) d.time := by
  have hc := clustersChanged_pulse d c
  by_cases hw : d.copyWaits c = true
  · have hle := Dev.time_le_of_copyWaits hw
    have hsame : (d.pulse c).cluster c = d.cluster c := by
      rw [Dev.pulse, Dev.cluster_modCluster_same, Dev.markClock, if_pos hw, if_neg (Nat.not_lt.2 hle)]
    have hread := d.timeInt_le_regionTime c
    rw [Dev.regionTime_congr hsame hc.time hc.throttled]
    omega
  · have hmarked : (d.pulse c).cluster c = (fun k : Cluster => if k.timeInt < d.time then { k with timeInt := d.time, timeFrac := 0 } else k)
        { d.cluster c with cycle := d.now c, timeInt := d.regionTime c / 2 ^ 24, timeFrac := d.regionTime c % 2 ^ 24, mark := d.time } := by
      rw [Dev.pulse, Dev.cluster_modCluster_same, Dev.markClock, if_neg hw, Dev.cluster_modCluster_same]
    have hmark : ((d.pulse c).cluster c).mark = (d.pulse c).time := by
      rw [hmarked, hc.time]
      dsimp only
      split_ifs <;> rfl
    rw [Dev.regionTime_marked hmark, hmarked, hc.time]
    dsimp only
    split_ifs <;> dsimp only <;> omega

theorem Dev.regionTime_pulses (cs : List Nat) (d : Dev) (c : Nat) : (cs.foldl Dev.pulse d).regionTime c / 2 ^ 24 =
    if c ∈ cs then max (d.regionTime c / 2 ^ 24) d.time else d.regionTime c / 2 ^ 24 := by
  induction cs generalizing d with
  | nil => rfl
  | cons b cs ih =>
    have hc := clustersChanged_pulse d b
    rw [List.foldl_cons, ih, hc.time]
    by_cases hb : c = b
    · subst hb
      rw [Dev.regionTime_pulse_same]
      simp
    · rw [Dev.regionTime_congr (d.cluster_pulse_ne hb) hc.time hc.throttled]
      simp [hb]

theorem timeSyncPulse_between {s : State} (h : s.dev.time % 16000 ≠ 0) : NotDue s .timeSyncPulse := congrArg Host.Outcome.next (if_pos h)

theorem timeSyncPulse_due {s : State} (h : s.dev.time % 16000 = 0) : Makes s .timeSyncPulse ((List.range 32).foldl Dev.pulse s.dev) :=
  congrArg Host.Outcome.next (if_neg (not_not.2 h))

end Sys2Proof.Machine
end

section
/-! SUPPORT. Fast throttle, energy, time budgets and the loss of supply (R376 to R381); and the statement about all steps of clocks. -/

namespace Sys2Proof.Machine

open Sys2Proof.Claims

/-! ## Fast throttle (R381) -/

theorem Dev.alarmCause_iff (d : Dev) : d.alarmCause = true ↔ 3300 < d.powerW ∨ ∃ c ∈ d.clusters, 105 ≤ c.2.celsius := by
  simp [Dev.alarmCause]

/-- Only what changes of level are decided has changed. -/
def ChangesDecided (d e : Dev) : Prop := e = { d with changes := e.changes, nextChange := e.nextChange }

theorem changesDecided_scheduleChange (d : Dev) (cs : List Nat) (l : Nat) : ChangesDecided d (d.scheduleChange cs l).1 := rfl

theorem changesDecided_foldl {f : Dev → Nat → Dev} (hf : ∀ d l, ChangesDecided d (f d l)) (ls : List Nat) (d : Dev) :
    ChangesDecided d (ls.foldl f d) := by
  refine List.foldlRecOn ls f (motive := ChangesDecided d) rfl (fun e h l _ => ?_)
  have k := hf e l
  unfold ChangesDecided at *
  rw [k, h]

theorem fastThrottleClear_notDue {s : State} (h : s.dev.throttled = false ∨ s.dev.throttleClear ≠ none ∨ s.dev.alarmCause = true ∨
    s.dev.time < s.dev.alarmAt + 100 * usTime) : NotDue s .fastThrottleClear := by
  refine if_pos ?_
  simpa [Option.isSome_iff_ne_none] using h

theorem fastThrottleClear_due {s : State} (ht : s.dev.throttled = true) (hn : s.dev.throttleClear = none) (ha : s.dev.alarmCause = false)
    (hz : s.dev.alarmAt + 100 * usTime ≤ s.dev.time) : ∃ e, ChangesDecided s.dev e ∧
      Makes s .fastThrottleClear { e with throttleClear := some s.dev.changeCount } := by
  refine ⟨_, changesDecided_foldl (fun d l => ?_) [0, 1, 2] s.dev, if_neg (by simp [ht, hn, ha, hz])⟩
  dsimp only
  split_ifs
  · rfl
  · exact changesDecided_scheduleChange ..

/-! ## Energy and time budgets (R376 to R379) -/

/-- The workgroups that share a cluster's energy: their queues and fractions. -/
def Dev.shares (d : Dev) (n : Nat) (fraction : Nat → Nat) : List (Nat × Nat) :=
  (d.tasks.filter (fun t => t.2.resident && decide (clusterOf t.2.core = n))).map (fun t => (t.2.queue, fraction t.2.grid))

/-- The device as a cluster's energy is charged by the fractions of grids. -/
def Dev.measured (d : Dev) (n : Nat) (uj : EnergyUse) (fill : Nat) (fraction : Nat → Nat) : Dev :=
  let ts := d.shares n fraction
  let all := (ts.map Prod.snd).foldl (· + ·) 0
  let rest := uj.total - d.fillerEnergy n fill - (uj.engines.map Prod.snd).foldl (· + ·) 0
  if all = 0 then d.chargeEngines uj.engines else ts.foldl (fun (d : Dev) t => d.charge t.1 (rest * t.2 / all)) (d.chargeEngines uj.engines)

theorem energyMeasure_measured (s : State) (n : Nat) (uj : EnergyUse) (fill : Nat) :
    Makes s (.energyMeasure n uj fill) (s.dev.measured n uj fill (fun g => ((s.dev.grid? g).map (fun g => g.fraction)).getD 0)) := by
  obtain ⟨fraction, hf, hexec⟩ : ∃ fraction : Nat → Nat, (∀ g, fraction g = ((s.dev.grid? g).map (fun g => g.fraction)).getD 0)
      ∧ Makes s (.energyMeasure n uj fill) (s.dev.measured n uj fill fraction) :=
    ⟨fun g => match s.dev.grid? g with
      | some g => g.fraction
      | none => 0, fun g => by dsimp only; cases s.dev.grid? g <;> rfl, rfl⟩
  rwa [funext hf] at hexec

/-- What queues and budgets hold stays. -/
structure BudgetsKept (d e : Dev) : Prop where
  period : e.period = d.period
  spent : e.spent = d.spent
  queues : e.queues = d.queues

theorem BudgetsKept.refl (d : Dev) : BudgetsKept d d := ⟨rfl, rfl, rfl⟩

theorem BudgetsKept.trans {d e f : Dev} (h : BudgetsKept d e) (k : BudgetsKept e f) : BudgetsKept d f :=
  ⟨k.period.trans h.period, k.spent.trans h.spent, k.queues.trans h.queues⟩

theorem BudgetsKept.foldl {α : Type} {f : Dev → α → Dev} (hf : ∀ d x, BudgetsKept d (f d x)) (l : List α) (d : Dev) : BudgetsKept d (l.foldl f d) :=
  List.foldlRecOn l f (motive := BudgetsKept d) (.refl d) (fun e h x _ => h.trans (hf e x))

theorem budgetsKept_withdraw (d : Dev) (core cls : Nat) : BudgetsKept d (d.withdraw core cls) := by
  unfold Dev.withdraw
  refine .trans (e := d.modCore core (fun k => { k with preq := Tab.erase k.preq cls })) ⟨rfl, rfl, rfl⟩ (.foldl (fun e t => ?_) _ _)
  exact ⟨rfl, rfl, rfl⟩

theorem budgetsKept_withdrawBy (d : Dev) (core cls who : Nat) : BudgetsKept d (d.withdrawBy core cls who) := by
  unfold Dev.withdrawBy
  dsimp only
  split_ifs
  · exact budgetsKept_withdraw d core cls
  · exact ⟨rfl, rfl, rfl⟩

theorem budgetsKept_withdrawAll (d : Dev) (who : Nat) : BudgetsKept d (d.withdrawAll who) := by
  unfold Dev.withdrawAll
  refine .foldl (fun e x => ?_) _ d
  exact budgetsKept_withdrawBy e x.1 x.2 who

/-- The device at the start of a period, before what quotas asked for is withdrawn. -/
def Dev.freshBudgets (d : Dev) : Dev := { d with period := d.time / 1600000, spent := [], queues := Tab.mapV d.queues (fun _ q => q.nextPeriod) }

theorem timeBudgetPeriod_notDue {s : State} (h : s.dev.time / 1600000 ≤ s.dev.period) : NotDue s .timeBudgetPeriod := if_pos h

theorem timeBudgetPeriod_due {s : State} (h : s.dev.period < s.dev.time / 1600000) :
    ∃ e, BudgetsKept s.dev.freshBudgets e ∧ Makes s .timeBudgetPeriod e :=
  ⟨_, .foldl (fun d q => budgetsKept_withdrawAll d (quotaMark q)) _ _, if_neg (Nat.not_le.2 h)⟩

/-! ## Loss of supply (R380) -/

theorem supplyLossWarning_stopped {s : State} (h : s.dev.stopped = true) : NotDue s .supplyLossWarning := if_pos h

/-- What remains after the loss: nothing runs and no operation is in flight. -/
def Dev.lost (d : Dev) : Prop := d.stopped = true ∧ d.ops = []

theorem Dev.lost_foldl_commitUnit (us : List Nat) {d : Dev} (h : d.lost) : (us.foldl Dev.commitUnit d).lost :=
  List.foldlRecOn us _ (motive := Dev.lost) h (fun _ h _ _ => h)

theorem supplyLossWarning_due {s : State} (h : s.dev.stopped = false) : ∃ e : Dev, e.lost ∧ exec .supplyLossWarning s =
    .next { s with
      dev := { e with marker := some (s.dev.time, s.dev.nextLaunch, Config.digest [BitVec.ofNat 64 s.dev.time, BitVec.ofNat 64 s.dev.nextLaunch]) }
      iss := Issue.closed } :=
  ⟨_, Dev.lost_foldl_commitUnit _ ⟨rfl, rfl⟩, if_neg (by simp [h])⟩

/-- With nothing scheduled, a step after the loss faults (log entry 80). -/
theorem step_lost {s : State} (h : s.dev.stopped = true) (ha : s.agenda = []) : step s = .fault .supplyLost := by
  simp [step, State.nextStep, State.afterLoss, h, ha, finish]

/-! ## The statement -/

/-- Settles O53, clause by clause: stacked pairs, changes of frequency, fast throttle, the time base, energy, budgets and the loss of supply. -/
theorem clockSteps : Obligations.ClockSteps := by
  intro s n ia ib fill uj
  refine ⟨fun h => currentWindow_noPair h ia ib, fun h => ?_, notDue_of_no_change, fun x hx => ⟨drainWindowOpen_notDue hx, fun hs hc => ?_,
    frequencySwitch_notDue hx, fun hs hc => ?_, frequencyResume_notDue hx, frequencyResume_due hx⟩, rfl, fun h => ?_, fun ht hn hp hc hz => ?_,
    timeSyncPulse_between, fun h => ?_, ⟨fun h => ?_, fun h => ?_⟩, timeBudgetPeriod_notDue, fun h => ?_, supplyLossWarning_stopped, fun h => ?_⟩
  · have hexec := currentWindow_pair (s := s) h ia ib
    intro d whole serving
    have hserve : s.dev.bothServe n = true ↔ serving :=
      Bool.and_eq_true_iff.trans (and_congr (Cluster.wholeWindow_iff _ _) (Cluster.wholeWindow_iff _ _))
    refine ⟨fun hn => ?_, fun hs hle => ?_, fun hs hlt => ?_⟩
    · rwa [if_pos (by simpa using hserve.not.2 hn)] at hexec
    · rwa [if_neg (by simpa using hserve.2 hs), if_pos hle] at hexec
    · rwa [if_neg (by simpa using hserve.2 hs), if_neg (Nat.not_le.2 hlt)] at hexec
  · refine ⟨_, execDrainWindowOpen_due hx hs hc, rfl, clustersChanged_modClusters .., fun c => ?_⟩
    rw [State.modDev_dev, Dev.cluster_modClusters (fun k => k.drainFor_drainFor n), Cluster.drainFor_eq, ite_and]
  · refine ⟨_, frequencySwitch_due hx hs hc, rfl, ?_, fun c hc => ?_⟩
    · exact ((clustersChanged_markClocks s.dev).switch n x).trans (clustersChanged_modClusters ..)
    · rw [Dev.cluster_modClusters (f := (·.settleAt x.level n)) (fun _ => rfl), if_pos hc]
      exact ⟨rfl, rfl⟩
  · refine fastThrottleClear_notDue ?_
    rwa [Dev.alarmCause_iff]
  · have ha : s.dev.alarmCause = false := by
      rw [← Bool.not_eq_true, Dev.alarmCause_iff, not_or]
      exact ⟨Nat.not_lt.2 hp, fun ⟨c, hcm, hhot⟩ => absurd (hc c hcm) (Int.not_lt.2 hhot)⟩
    obtain ⟨e, hdec, hexec⟩ := fastThrottleClear_due ht hn ha hz
    refine ⟨_, hexec, rfl, ?_⟩
    rw [ChangesDecided] at hdec
    rw [hdec]
  · refine ⟨_, timeSyncPulse_due h, rfl, ClustersChanged.foldl clustersChanged_pulse _ _, fun c hc => ?_⟩
    exact (Dev.regionTime_pulses _ _ c).trans (if_pos (List.mem_range.2 hc))
  · exact makes_of_eq (energyMeasure_measured s n uj fill) (if_pos h)
  · exact makes_of_eq (energyMeasure_measured s n uj fill) (if_neg h)
  · obtain ⟨e, hkept, hexec⟩ := timeBudgetPeriod_due h
    refine ⟨_, hexec, rfl, hkept.period, hkept.spent, fun q x hq => ?_⟩
    have hfind : Tab.find s.dev.freshBudgets.queues q = some x.nextPeriod :=
      (Tab.find_mapV s.dev.queues (fun _ q => q.nextPeriod) q).trans (by rw [hq, Option.map_some])
    rw [hkept.queues, hfind]
    rfl
  · obtain ⟨e, hlost, hexec⟩ := supplyLossWarning_due h
    exact ⟨_, hexec, rfl, hlost.1, hlost.2, rfl, fun ha => step_lost hlost.1 ha⟩

end Sys2Proof.Machine
end

section
/-! SUPPORT. Words of access streams (R263, R265). -/

namespace Sys2Proof.Machine

open Sys2Proof.Claims

theorem leaves_of_exec {s u : State} {i : Instr} {d : SReg} {x : W64} (hu : u.running = true) (h : exec i s = .next (u.wrS d x)) :
    Leaves s i u d x := ⟨_, h, State.wrS_written u d x hu⟩

/-! ## Contexts of the issuing task -/

theorem Group.regs_endOp (g : Group) (c : Ctr) (n : Nat) (bad : Option TrapRec) : (g.endOp c n bad).regs = g.regs := by cases c <;> rfl

theorem Dev.regs_abandonOps (d : Dev) (gone : List Nat) (c sl : Nat) : ((d.abandonOps gone).group c sl).regs = (d.group c sl).regs := by
  have hend : ∀ g : Group, (gone.foldl (fun g o => (((g.endOp .cl o none).endOp .cs o none).endOp .cc o none).endOp .ct o none) g).regs = g.regs := fun g =>
    List.foldlRecOn gone _ (motive := fun x : Group => x.regs = g.regs) rfl fun x hx o _ => by simp only [Group.regs_endOp, hx]
  unfold Dev.abandonOps Dev.group Tab.get
  rw [Tab.find_mapV]
  cases Tab.find d.groups (gkey c sl) with
  | none => rfl
  | some g => exact hend g

/-- The issuing task's stream contexts changed, and the reloads of one dropped. -/
def State.changeStreams (s : State) (n : Nat) (f : Tab Stream → Tab Stream) : State :=
  s.modDev (fun d => (d.modTask s.taskId (fun t => { t with streams := f t.streams })).dropReloads s.taskId n)

theorem State.regs_changeStreams (s : State) (n : Nat) (f : Tab Stream → Tab Stream) : (s.changeStreams n f).grp.regs = s.grp.regs :=
  Dev.regs_abandonOps ..

theorem State.sameMemory_changeStreams (s : State) (n : Nat) (f : Tab Stream → Tab Stream) : SameMemory s.dev (s.changeStreams n f).dev :=
  sameMemory_modTask s.dev s.taskId (fun t => { t with streams := f t.streams }) (fun _ => rfl) (fun _ => rfl)

theorem State.task_changeStreams {s : State} {t : Task} (ht : s.dev.task? s.taskId = some t) (n : Nat) (f : Tab Stream → Tab Stream) :
    (s.changeStreams n f).dev.task? s.taskId = some { t with streams := f t.streams } :=
  (s.dev.task?_modTask s.taskId s.taskId _).trans (by rw [if_pos rfl, ht, Option.map_some])

theorem execSclose_eq (s : State) (n : BitVec 4) : exec (.sclose n) s = .next (s.changeStreams n.toNat (Tab.erase · n.toNat)) := rfl

theorem execSskip_moves {s : State} {a : SReg} (h : (s.rdS a).toNat ≠ 0) (n : BitVec 4) :
    exec (.sskip a n) s = .next (s.changeStreams n.toNat (Tab.modify · n.toNat (·.skip (s.rdS a).toNat))) := if_neg h

theorem execSstat_closed {s : State} {t : Task} {n : BitVec 4} (ht : s.dev.task? s.taskId = some t) (h : Tab.find t.streams n.toNat = none) (d : SReg) :
    exec (.sstat d n) s = .next (s.wrS d 0) := by
  rw [exec_sstat, execSstat, ht, Option.bind_some, h]

theorem execSstat_open {s : State} {t : Task} {n : BitVec 4} {x : Stream} (ht : s.dev.task? s.taskId = some t)
    (h : Tab.find t.streams n.toNat = some x) (d : SReg) : exec (.sstat d n) s = .next (s.wrS d (BitVec.ofNat 64 x.status)) := by
  rw [exec_sstat, execSstat, ht, Option.bind_some, h]

/-! ## SOPEN -/

/-- A stream as SOPEN opens it from its record. -/
def State.newStream (u : State) (ws : List W64) : Stream := { words := ws, group := u.dev.streamOwner u.iss.core u.iss.slot, popped := 0, queue := [] }

/-- The issuing task with a stream opened. -/
def State.openStream (u : State) (n : Nat) (ws : List W64) : State :=
  u.modDev (·.modTask u.taskId (fun t => { t with streams := Tab.insert t.streams n (u.newStream ws) }))

theorem execSopen_got {s u : State} {d a : SReg} {n : BitVec 4} {ws : List W64} {y : Task} (hload : s.loadRecord (s.rdS a).toNat 64 = .got u ws)
    (hy : u.dev.task? u.taskId = some y) : exec (.sopen d a n) s = .next
      (if (Tab.find y.streams n.toNat).isSome then u.wrS d 1
      else if (u.dev.streamOf u.iss.core u.iss.slot (streamQueue ws)).isSome then u.wrS d 2
      else if badStream ws then u.wrS d 3 else (u.openStream n.toNat ws).wrS d 0) := by
  rw [exec_sopen, execSopen, State.withRecord, hload]
  dsimp only
  rw [hy]
  rfl

/-! ## The statement -/

/-- Settles O39: SOPEN by what its record meets, the others by whether the context is open. -/
theorem streamWords : Obligations.StreamWords := by
  intro s t d a n hs ht x
  refine ⟨fun u ws y hload hu hy => ?_, ?_, fun hx => ?_, fun st hx hst => ?_, fun hnone => ?_, fun st hst => ?_⟩
  · intro open_ taken
    have hexec := execSopen_got (d := d) (n := n) hload hy
    have hclosed (h : open_ = none) : ¬ open_.isSome = true := Option.not_isSome_iff_eq_none.2 h
    refine ⟨fun ho => leaves_of_exec hu ?_, fun ho htaken => leaves_of_exec hu ?_, fun ho htaken hbad => leaves_of_exec hu ?_, fun ho htaken hbad => ?_⟩
    · rw [hexec, if_pos ho]
    · rw [hexec, if_neg (hclosed ho), if_pos htaken]
    · rw [hexec, if_neg (hclosed ho), if_neg (ne_true_of_eq_false htaken), if_pos hbad]
    · rw [if_neg (hclosed ho), if_neg (ne_true_of_eq_false htaken), if_neg (ne_true_of_eq_false hbad)] at hexec
      refine ⟨_, hexec, rfl, congrArg Group.regs (State.grp_wrS (u.openStream n.toNat ws) d 0 hu), ?_, ?_⟩
      · exact sameMemory_modTask u.dev u.taskId _ (fun _ => rfl) (fun _ => rfl)
      · exact (u.dev.task?_modTask u.taskId u.taskId _).trans (by rw [if_pos rfl, hy]; rfl)
  · refine ⟨_, _, execSclose_eq s n, rfl, s.regs_changeStreams .., s.sameMemory_changeStreams _ _, State.task_changeStreams ht .., ?_, fun m hm => ?_⟩
    · exact (Tab.find_erase ..).trans (if_pos rfl)
    · exact (Tab.find_erase ..).trans (if_neg hm)
  · exact if_pos hx
  · refine ⟨_, _, execSskip_moves hx n, rfl, s.regs_changeStreams .., s.sameMemory_changeStreams _ _, State.task_changeStreams ht .., ?_⟩
    exact (Tab.find_modify ..).trans (by rw [if_pos rfl, hst]; rfl)
  · exact givesS_of_exec hs (execSstat_closed ht hnone d)
  · exact givesS_of_exec hs (execSstat_open ht hst d)

end Sys2Proof.Machine
end

section
/-! SUPPORT. Bytes written in a workgroup's shared memory (R4, R256, R266). -/

namespace Sys2Proof.Machine

open Sys2Proof.Claims

theorem Dev.readBytes_eq_map (d : Dev) (l : Loc) (n : Nat) : d.readBytes l n = (List.range n).map (fun i => d.readByte (l.plus i)) := by
  induction n generalizing l with
  | zero => rfl
  | succ n ih =>
    rw [Dev.readBytes, ih, List.range_succ_eq_map, List.map_cons, List.map_map]
    simp only [Loc.plus, Function.comp_def, Nat.add_zero, Nat.add_assoc, Nat.add_comm 1, Nat.succ_eq_add_one]

theorem Dev.writeByte_shared (d : Dev) {l : Loc} (h : l.sp = .smem) (b : Byte) :
    d.writeByte l b = d.modTask l.own (fun t => { t with smem := Memory.write t.smem l.a b }) := by rw [Dev.writeByte, h]

theorem Dev.readByte_writeByte_shared (d : Dev) {l : Loc} (h : l.sp = .smem) (ht : (d.task? l.own).isSome = true) (b : Byte) (k : Loc) :
    (d.writeByte l b).readByte k = if k = l then b else d.readByte k := by
  obtain ⟨t, ht⟩ := Option.isSome_iff_exists.1 ht
  obtain ⟨sp, own, a⟩ := l
  obtain ⟨sp', own', a'⟩ := k
  obtain rfl : sp = .smem := h
  have ht : d.task? own = some t := ht
  rw [d.writeByte_shared rfl]
  by_cases hown : own' = own
  · subst hown
    cases sp' <;> simp [Dev.readByte, Dev.task?_modTask, ht, Memory.read_write]
  · cases sp' <;> simp [Dev.readByte, Dev.task?_modTask, hown]

/-- What a write of bytes in a workgroup's shared memory does, as far as words see it. -/
structure SharedWritten (d e : Dev) (l : Loc) (bs : List Byte) : Prop where
  groups : e.groups = d.groups
  queue : ∀ k, (e.task? k).map (fun t => t.cq) = (d.task? k).map (fun t => t.cq)
  bytes : (d.task? l.own).isSome = true → ∀ k, e.readByte k =
    if k.sp = l.sp ∧ k.own = l.own ∧ l.a ≤ k.a ∧ k.a < l.a + bs.length then bs.getD (k.a - l.a) 0 else d.readByte k

theorem isSome_of_map_eq {α β : Type} {x y : Option α} {f : α → β} (h : x.map f = y.map f) (hy : y.isSome = true) : x.isSome = true := by
  rw [← Option.isSome_map (f := f), h, Option.isSome_map, hy]

theorem sharedWritten_writeBytes (bs : List Byte) (d : Dev) {l : Loc} (h : l.sp = .smem) : SharedWritten d (d.writeBytes l bs) l bs := by
  induction bs generalizing d l with
  | nil => exact ⟨rfl, fun _ => rfl, fun _ k => (if_neg fun hk => by simp only [List.length_nil] at hk; omega).symm⟩
  | cons b bs ih =>
    have hq (k : Nat) : ((d.writeByte l b).task? k).map (fun t => t.cq) = (d.task? k).map (fun t => t.cq) := by
      rw [d.writeByte_shared h, Dev.task?_modTask]
      split_ifs with hk
      · subst hk; cases d.task? l.own <;> rfl
      · rfl
    obtain ⟨hgroups, hqueue, hbytes⟩ := ih (d.writeByte l b) (l := l.plus 1) h
    refine ⟨hgroups.trans (by rw [d.writeByte_shared h]; rfl), fun k => (hqueue k).trans (hq k), fun ht k => ?_⟩
    rw [Dev.writeBytes, hbytes (isSome_of_map_eq (hq l.own) ht) k, d.readByte_writeByte_shared h ht]
    obtain ⟨sp, own, a⟩ := l
    obtain ⟨sp', own', a'⟩ := k
    simp only [Loc.plus, List.length_cons, Loc.mk.injEq]
    by_cases hplace : sp' = sp ∧ own' = own
    · obtain ⟨rfl, rfl⟩ := hplace
      simp only [true_and]
      rcases Nat.lt_trichotomy a' a with hlt | rfl | hgt
      · rw [if_neg (by omega), if_neg (by omega), if_neg (by omega)]
      · simp
      · obtain ⟨i, rfl⟩ := Nat.exists_eq_add_of_lt hgt
        rw [if_neg (show ¬ a + i + 1 = a by omega), show a + i + 1 - a = (a + i + 1 - (a + 1)) + 1 by omega, List.getD_cons_succ]
        exact if_congr (by omega) rfl rfl
    · rw [if_neg (by tauto), if_neg (by tauto), if_neg (by tauto)]

/-- A task whose streams' entries read from some lines are stale. -/
def Task.touch (t : Task) (ls : List Loc) : Task :=
  { t with streams := Tab.mapV t.streams (fun _ x => { x with queue := x.queue.map (StreamEntry.touch ls) }) }

theorem Dev.task?_staleStreams (d : Dev) (l : Loc) (n k : Nat) : (d.staleStreams l n).task? k = (d.task? k).map (·.touch (watchLines l n)) :=
  Tab.find_mapV d.tasks (fun _ t => t.touch (watchLines l n)) k

theorem sharedWritten_perform (d : Dev) {l : Loc} {bs : List Byte} (h : l.sp = .smem) (hb : bs ≠ []) : SharedWritten d (d.perform l bs) l bs := by
  obtain ⟨hgroups, hqueue, hbytes⟩ := sharedWritten_writeBytes bs d h
  have hperform : d.perform l bs = (((d.writeBytes l bs).arrivals l bs.length).staleStreams l bs.length).encodeAnew l bs.length := by
    simp [Dev.perform, Dev.written, Dev.combineRange, Dev.posts, Dev.markWriter, Dev.countWrites, h, hb]
  have htasks (k : Nat) : (d.perform l bs).task? k = ((d.writeBytes l bs).task? k).map (·.touch (watchLines l bs.length)) := by
    rw [hperform]
    exact Dev.task?_staleStreams ..
  have hsame : SameMemory (d.writeBytes l bs) (d.perform l bs) := fun k => by
    unfold Dev.readByte
    rw [htasks]
    cases (d.writeBytes l bs).task? k.own <;> rw [hperform] <;> cases k.sp <;> rfl
  refine ⟨by rw [hperform]; exact hgroups, fun k => ?_, fun ht k => (hsame k).trans (hbytes ht k)⟩
  rw [← hqueue, htasks, Option.map_map]
  rfl

theorem SharedWritten.readBytes {d e : Dev} {l : Loc} {bs : List Byte} (h : SharedWritten d e l bs) (ht : (d.task? l.own).isSome = true) :
    e.readBytes l bs.length = bs := by
  rw [Dev.readBytes_eq_map]
  refine List.ext_getElem (by simp) fun i hi hbs => ?_
  rw [List.getElem_map, List.getElem_range, h.bytes ht, if_pos ⟨rfl, rfl, Nat.le_add_right .., Nat.add_lt_add_left hbs _⟩]
  simp [Loc.plus, hbs]

end Sys2Proof.Machine
end

section
/-! SUPPORT. Words of copy queues and layout programs (R177, R241, R246, R256 to R262). -/

namespace Sys2Proof.Machine

open Sys2Proof.Claims

/-! ## Stores made to stand at a scope (R177, R257, R258) -/

theorem LineMoved.taskAt {d e : Dev} (h : LineMoved d e) (c sl : Nat) : e.taskAt c sl = d.taskAt c sl := by
  unfold Dev.taskAt Dev.core Dev.group
  rw [h.cores, h.groups]

theorem Dev.taskAt_modCore (d : Dev) (c c' sl : Nat) {f : Core → Core} (hf : ∀ k, (f k).serving = k.serving) :
    (d.modCore c f).taskAt c' sl = d.taskAt c' sl := by
  refine Dev.taskAt_congr ?_ rfl
  rw [Dev.core_modCore]
  split_ifs with h
  · rw [hf, h]
  · rfl

theorem Dev.taskAt_modGroup (d : Dev) (c sl c' sl' : Nat) {f : Group → Group} (hf : ∀ g, (f g).task = g.task) :
    (d.modGroup c sl f).taskAt c' sl' = d.taskAt c' sl' := Dev.taskAt_congr rfl (d.task_group_modGroup c sl c' sl' hf)

theorem Dev.taskAt_cleanLine (d : Dev) (core line c sl : Nat) : (d.cleanLine core line).taskAt c sl = d.taskAt c sl := by
  unfold Dev.cleanLine
  split
  · split_ifs
    · rw [(lineMoved_l2Put ..).taskAt, Dev.taskAt_modCore, (lineMoved_moveRaw ..).taskAt]
      exact fun _ => rfl
    · rfl
  · rfl

theorem Dev.taskAt_raiseStores (d : Dev) (core slot sc c sl : Nat) : (d.raiseStores core slot sc).taskAt c sl = d.taskAt c sl := by
  have hclean : (d.cleanAll core).taskAt c sl = d.taskAt c sl :=
    List.foldlRecOn _ _ (motive := fun e : Dev => e.taskAt c sl = d.taskAt c sl) rfl fun e he _ _ => (e.taskAt_cleanLine ..).trans he
  unfold Dev.raiseStores
  extract_lets d1
  have hd1 : d1.taskAt c sl = d.taskAt c sl := by
    unfold d1
    split_ifs
    · exact hclean
    · rfl
  split_ifs
  · rw [Dev.taskAt_modGroup]
    · exact hd1
    · exact fun _ => rfl
  · exact hd1

/-- The issuing group's stores made to stand at a scope. -/
def State.raised (s : State) (sc : Nat) : State := s.modDev (·.raiseStores s.iss.core s.iss.slot sc)

theorem State.iss_raised (s : State) (sc : Nat) : (s.raised sc).iss = s.iss := rfl
theorem State.taskId_raised (s : State) (sc : Nat) : (s.raised sc).taskId = s.taskId := s.dev.taskAt_raiseStores ..

/-- A word that waits for its group's stores goes on once they are done. -/
theorem State.afterStores_done {s : State} (h : StoresDone s) (sc : Nat) (k : State → State) : s.afterStores sc k = k (s.raised sc) := by
  obtain ⟨hfailed, hbase, hown⟩ := h
  simp [State.afterStores, State.ownStores, State.raised, hfailed, hbase, hown]

/-- The low bits of a number (R3). -/
theorem bits_low (x hi : Nat) : bits x hi 0 = x % 2 ^ (hi + 1) := by rw [bits, pow_zero, Nat.div_one, Nat.sub_zero]

theorem bytes_ofNat_ne_nil (n x : Nat) : Bytes.ofNat (n + 1) x ≠ [] := List.cons_ne_nil _ _

/-! ## CQINIT (R256) -/

/-- A queue as CQINIT makes it. -/
def CopyQueue.fresh (ofs cap : Nat) : CopyQueue := { init := true, ofs := ofs, cap := cap, last := 0, stage := 0, err := 0, entries := [] }

/-- The issuing task with a fresh queue whose notify word is zero. -/
def State.initQueue (s : State) (q : CopyQueue) : State :=
  s.modDev (fun d => (d.modTask s.taskId (fun t => { t with cq := q })).perform (q.notifyAt s.taskId) (Bytes.ofNat 8 0))

section
variable {s : State} {t : Task} (ht : s.dev.task? s.taskId = some t)
include ht

theorem execCqinit_busy (d a : SReg) (hb : t.cq.busy = true) : exec (.cqinit d a) s = .next (s.wrS d 1) := by
  rw [exec_cqinit, execCqinit, ht]
  exact if_pos hb

theorem execCqinit_idle {d a : SReg} {x : Nat} (hx : (s.rdS a).toNat = x) (hb : t.cq.busy = false) : exec (.cqinit d a) s = .next
    (if 2 ^ 24 ≤ x ∨ x % 2 ^ 18 % 32 ≠ 0 ∨ s.dev.extent s.iss.core s.iss.slot .s < x % 2 ^ 18 + 32 * (x / 2 ^ 18 % 2 ^ 6 + 1 + 1) then s.wrS d 2
      else (s.initQueue (.fresh (x % 2 ^ 18) (x / 2 ^ 18 % 2 ^ 6 + 1))).wrS d 0) := by
  have hhigh : bits x 63 24 ≠ 0 ↔ 2 ^ 24 ≤ x := by
    have hlt : x < 2 ^ 64 := hx ▸ (s.rdS a).isLt
    unfold bits
    omega
  have hcap : bits x 23 18 = x / 2 ^ 18 % 2 ^ 6 := rfl
  rw [exec_cqinit, execCqinit, ht, hx]
  dsimp only
  rw [hb, if_neg Bool.false_ne_true, bits_low, hcap]
  simp only [hhigh]
  split_ifs <;> rfl

end

theorem State.initQueue_written (s : State) (q : CopyQueue) : SharedWritten (s.dev.modTask s.taskId (fun t => { t with cq := q })) (s.initQueue q).dev
    (q.notifyAt s.taskId) (Bytes.ofNat 8 0) := sharedWritten_perform (s.dev.modTask s.taskId _) (l := q.notifyAt s.taskId) rfl (bytes_ofNat_ne_nil 7 0)

theorem State.taskOf_wrS (s : State) (r : SReg) (x : W64) (k : Nat) : (s.wrS r x).dev.task? k = s.dev.task? k := rfl
theorem State.readByte_wrS (s : State) (r : SReg) (x : W64) (l : Loc) : (s.wrS r x).dev.readByte l = s.dev.readByte l := rfl

theorem State.iss_initQueue (s : State) (q : CopyQueue) : (s.initQueue q).iss = s.iss := State.modDev_iss ..

theorem State.regs_initQueue {s : State} (hs : s.running = true) (q : CopyQueue) (d : SReg) (x : W64) :
    ((s.initQueue q).wrS d x).grp.regs = s.grp.regs.writeS d.toNat x := by
  have hgroups : (s.initQueue q).dev.groups = s.dev.groups := (s.initQueue_written q).groups
  have hrun : (s.initQueue q).running = true := by
    rw [State.running, Dev.hasGroup, s.iss_initQueue, hgroups]
    exact hs
  have hgrp : (s.initQueue q).grp = s.grp := by rw [State.grp, Dev.group, s.iss_initQueue, hgroups]; rfl
  rw [State.grp_wrS _ d x hrun, hgrp]

section
variable {s : State} {t : Task} (ht : s.dev.task? s.taskId = some t)
include ht

theorem State.cq_initQueue (q : CopyQueue) : ((s.initQueue q).dev.task? s.taskId).map (fun y => y.cq) = some q := by
  rw [(s.initQueue_written q).queue, Dev.task?_modTask, if_pos rfl, ht]
  rfl

theorem State.readByte_initQueue (q : CopyQueue) (l : Loc) : (s.initQueue q).dev.readByte l =
    if l.sp = .smem ∧ l.own = s.taskId ∧ q.ofs ≤ l.a ∧ l.a < q.ofs + 8 then 0 else s.dev.readByte l := by
  have hzero (i : Nat) : (Bytes.ofNat 8 0).getD i 0 = 0 := by
    change (List.replicate 8 0)[i]?.getD 0 = 0
    exact List.getElem?_getD_replicate_default_eq 0 8 i
  have htask : ((s.dev.modTask s.taskId (fun t => { t with cq := q })).task? s.taskId).isSome = true := by
    rw [Dev.task?_modTask, if_pos rfl, ht]
    rfl
  rw [(s.initQueue_written q).bytes htask l, hzero, sameMemory_modTask s.dev s.taskId (fun t => { t with cq := q }) (fun _ => rfl) (fun _ => rfl) l]
  rfl

end

/-! ## Publication (R257, R258) -/

/-- The entry that a publication of the issuing task adds. -/
def State.newCopy (s : State) (q : CopyQueue) (ws : List W64) : CopyEntry :=
  { n := q.last + 1, deadline := q.stage + (CopyRec.of ws).slack, order := s.dev.nextOrder, deferred := s.dev.tentative s.taskId, words := none,
    chan := none, written := 0, total := 0, stop := none, slot := s.iss.slot, opId := s.dev.nextOp }

/-- A task with an entry added to its copy queue, and those that need no longer be kept dropped. -/
def Task.addCopy (t : Task) (n : Nat) (e : CopyEntry) : Task :=
  { t with cq := ({ t.cq with last := n, entries := t.cq.entries ++ [e] } : CopyQueue).prune }

/-- What is published is not yet accepted, and stays in the queue. -/
theorem mem_addCopy {t : Task} {e : CopyEntry} (n : Nat) (h : e.unaccepted = true) : e ∈ (t.addCopy n e).cq.entries :=
  List.mem_filter.2 ⟨List.mem_append_right _ List.mem_cons_self, by rw [h]; rfl⟩

theorem Group.cc_raise (g : Group) (n : Nat) : (g.raise .cc n).cc.map (fun c => c.op) = g.cc.map (fun c => c.op) ++ [n] := List.map_append ..

section
variable {s : State} {t : Task} (ht : s.dev.task? s.taskId = some t)
include ht

theorem State.publish_eq (ws : List W64) : ∃ ops, s.publish ws =
    ({ s with dev := { s.dev.modTask s.taskId (·.addCopy (t.cq.last + 1) (s.newCopy t.cq ws)) with
      ops := ops, nextOp := s.dev.nextOp + 1, nextOrder := s.dev.nextOrder + 1 } } : State).modGrp (·.raise .cc s.dev.nextOp) := by
  unfold State.publish
  dsimp only
  rw [ht]
  exact ⟨_, rfl⟩

theorem State.task_publish (ws : List W64) : (s.publish ws).dev.task? s.taskId = some (t.addCopy (t.cq.last + 1) (s.newCopy t.cq ws)) := by
  obtain ⟨ops, he⟩ := State.publish_eq ht ws
  rw [he]
  exact (s.dev.task?_modTask s.taskId s.taskId _).trans (by rw [if_pos rfl, ht]; rfl)

theorem State.sameMemory_publish (ws : List W64) : SameMemory s.dev (s.publish ws).dev := by
  obtain ⟨ops, he⟩ := State.publish_eq ht ws
  rw [he]
  exact sameMemory_modTask s.dev s.taskId (·.addCopy (t.cq.last + 1) (s.newCopy t.cq ws)) (fun _ => rfl) (fun _ => rfl)

theorem State.grp_publish (hs : s.running = true) (ws : List W64) : (s.publish ws).grp = s.grp.raise .cc s.dev.nextOp := by
  obtain ⟨ops, he⟩ := State.publish_eq ht ws
  rw [he]
  exact State.grp_modGrp _ _ hs

theorem State.iss_publish (ws : List W64) : (s.publish ws).iss = s.iss := by
  obtain ⟨ops, he⟩ := State.publish_eq ht ws
  rw [he]
  rfl

theorem State.readNat_notify : s.notify.dev.readNat (t.cq.notifyAt s.taskId) 8 = t.cq.last % 2 ^ 64 := by
  have hwritten : SharedWritten s.dev s.notify.dev (t.cq.notifyAt s.taskId) (Bytes.ofNat 8 t.cq.last) := by
    unfold State.notify
    rw [ht]
    exact sharedWritten_perform s.dev (l := t.cq.notifyAt s.taskId) rfl (bytes_ofNat_ne_nil 7 _)
  have hbytes := hwritten.readBytes (Option.isSome_iff_exists.2 ⟨t, ht⟩)
  rw [Bytes.length_ofNat] at hbytes
  rw [Dev.readNat, hbytes, Bytes.toNat_ofNat]
  rfl

theorem State.iss_notify : s.notify.iss = s.iss := by
  unfold State.notify
  rw [ht]
  exact State.modDev_iss ..

end

/-! ## CQPUSH and CQPUB (R257, R258) -/

/-- The words that CQPUSH publishes. -/
def State.pushed (s : State) (r : BitVec 4) : List W64 := (List.range 4).map (fun i => s.rdS (BitVec.ofNat 6 (4 * r.toNat + i)))

/-- The words of the next slots of a queue as they stand. -/
def Dev.nextSlots (d : Dev) (task : Nat) (q : CopyQueue) (k : Nat) : List (List W64) :=
  (List.range k).map (fun i => d.slotWords task q (q.last + 1 + i))

section
variable {s : State} {t : Task} (ht : s.dev.task? s.taskId = some t)
include ht

theorem execCqpush_noQueue (h : t.cq.init = false) (d : SReg) (r : BitVec 4) : Traps s (.cqpush d r) 0x0D := by
  simp [Traps, execCqpush, ht, h]

theorem execCqpush_full (h : t.cq.init = true) (hfull : t.cq.cap ≤ t.cq.unacc) (hnow : t.cq.entries.any (fun e => e.deferred) = false) (d : SReg)
    (r : BitVec 4) : exec (.cqpush d r) s = .next (s.stall .stallEngine id) := by
  simp only [exec_cqpush, execCqpush, ht, h, hfull, hnow, Bool.not_true, Bool.false_eq_true, if_false, if_true]

theorem execCqpush_pushes {d : SReg} {r : BitVec 4} {sc : Nat} {u : State} (h : t.cq.init = true) (hroom : t.cq.unacc < t.cq.cap)
    (hcount : s.mustStall .cc false = false) (hdone : StoresDone s) (hsc : (CopyRec.of (s.pushed r)).scope = sc)
    (hu : (s.raised sc).settleSets ((s.raised sc).dev.copyRanges s.iss.core ((s.raised sc).dev.worldOf s.taskId) (CopyRec.of (s.pushed r))) false = .inl u) :
    exec (.cqpush d r) s = .next ((((u.modDev (fun e => e.perform (t.cq.slotAt s.taskId (t.cq.last + 1))
      ((s.pushed r).flatMap (fun w => Bytes.ofNat 8 w.toNat)))).publish (s.pushed r)).notify).wrS d (BitVec.ofNat 64 (t.cq.last + 1))) := by
  rw [exec_cqpush, execCqpush, ht]
  dsimp only
  rw [← State.pushed, h, if_neg (by simp), if_neg (Nat.not_le_of_lt hroom), hcount, if_neg Bool.false_ne_true, State.afterStores_done hdone, hsc,
    State.taskId_raised, State.iss_raised, hu]

theorem execCqpub_refused {d a : SReg} (h : t.cq.init = false ∨ (s.rdS a).toNat % 2 ^ 7 = 0 ∨ t.cq.cap < (s.rdS a).toNat % 2 ^ 7) :
    exec (.cqpub d a) s = .next (s.wrS d 0x8000000000000002) := by
  rw [exec_cqpub, execCqpub, ht, bits_low]
  exact if_pos (by simpa using h)

variable {d a : SReg} {k : Nat} (hk : bits (s.rdS a).toNat 6 0 = k) (h : t.cq.init = true) (hpos : 0 < k)
include hk h hpos

theorem execCqpub_full (hcap : k ≤ t.cq.cap) (hfull : t.cq.cap < t.cq.unacc + k) : exec (.cqpub d a) s = .next (s.wrS d 0x8000000000000001) := by
  rw [exec_cqpub, execCqpub, ht, hk]
  dsimp only
  rw [h, if_neg (by simp; omega), if_pos (by omega)]

theorem execCqpub_publishes {u : State} (hroom : t.cq.unacc + k ≤ t.cq.cap) (hcount : s.grp.cc.length + k ≤ 63) (hdone : StoresDone s)
    (hu : (s.raised 3).settleSets (((s.raised 3).dev.nextSlots s.taskId t.cq k).flatMap (fun ws =>
      (s.raised 3).dev.copyRanges s.iss.core ((s.raised 3).dev.worldOf s.taskId) (CopyRec.of ws))) false = .inl u) :
    exec (.cqpub d a) s =
      .next (((((s.raised 3).dev.nextSlots s.taskId t.cq k).foldl State.publish u).notify).wrS d (BitVec.ofNat 64 (t.cq.last + k))) := by
  rw [exec_cqpub, execCqpub, ht, hk]
  dsimp only
  rw [h, if_neg (by simp; omega), if_neg (by omega), if_neg (by omega), State.afterStores_done hdone, State.taskId_raised, State.iss_raised,
    ← Dev.nextSlots, hu]

end

/-! ## Queues steered and read (R259 to R261) -/

theorem CopyQueue.progress_unknown {q : CopyQueue} {n : Nat} (h : n = 0 ∨ q.last < n) : q.progress n = 0 := if_pos h

theorem CopyQueue.progress_old {q : CopyQueue} {n : Nat} (hpos : 0 < n) (h : n + 64 ≤ q.last) : q.progress n = 2 ^ 64 - 1 := by
  rw [CopyQueue.progress, if_neg (by omega), if_pos h]

theorem CopyQueue.progress_dropped {q : CopyQueue} {n : Nat} (hpos : 0 < n) (hn : n ≤ q.last) (h : q.entries.find? (fun e => decide (e.n = n)) = none) :
    q.progress n = 2 ^ 64 - 1 := by
  rw [CopyQueue.progress, if_neg (by omega), h, ite_self]

theorem CopyQueue.progress_tracked {q : CopyQueue} {n : Nat} {e : CopyEntry} (hpos : 0 < n) (hn : n ≤ q.last) (hnew : q.last < n + 64)
    (h : q.entries.find? (fun e => decide (e.n = n)) = some e) :
    q.progress n = if e.unaccepted then 0 else if e.chan.isSome then e.written else if e.stop = some 0 then e.total else 2 ^ 64 - 1 := by
  rw [CopyQueue.progress, if_neg (by omega), if_neg (by omega), h]
  rfl

theorem execCqwptr_reads {s : State} {t : Task} (ht : s.dev.task? s.taskId = some t) (d a : SReg) :
    exec (.cqwptr d a) s = .next (s.wrS d (BitVec.ofNat 64 (t.cq.progress ((s.rdS a).toNat % 2 ^ 56)))) := by
  rw [exec_cqwptr, execCqwptr, ht, bits_low]

theorem execCqstat_reads {s : State} {t : Task} (ht : s.dev.task? s.taskId = some t) (d : SReg) :
    exec (.cqstat d) s = .next (s.wrS d (BitVec.ofNat 64 t.cq.status)) := by
  rw [exec_cqstat, execCqstat, ht]

theorem execCqstage_advances (s : State) (a : SReg) : exec (.cqstage a) s = .next (s.modDev (·.modTask s.taskId (fun k =>
    { k with cq := { k.cq with stage := (k.cq.stage + (s.rdS a).toNat % 2 ^ 16) % 2 ^ 64 } }))) := by
  rw [exec_cqstage, execCqstage, bits_low]

/-! ## LPROG (R246, R262) -/

/-- The issuing core's cluster with an image loaded for the core's world. -/
def State.loadLayout (u : State) (n : Nat) (ws : List W64) : State :=
  u.modDev (fun x => x.modCluster (clusterOf u.iss.core) (fun k => { k with layouts := Tab.insert k.layouts n ((x.core u.iss.core).world, ws) }))

theorem execLprog_got {s u : State} {d a : SReg} {n : BitVec 4} {ws : List W64} (hload : s.loadRecord (s.rdS a).toNat 64 = .got u ws) :
    exec (.lprog d a n) s = .next (if imageOk ws then (u.loadLayout n.toNat ws).wrS d 0 else u.wrS d 2) := by
  rw [exec_lprog, execLprog, State.withRecord, hload]
  cases h : imageOk ws <;> simp [h, State.loadLayout]

theorem State.find_loadLayout (u : State) (n : Nat) (ws : List W64) :
    Tab.find ((u.loadLayout n ws).dev.cluster (clusterOf u.iss.core)).layouts n = some ((u.dev.core u.iss.core).world, ws) := by
  rw [State.loadLayout, State.modDev_dev, Dev.cluster_modCluster_same]
  exact (Tab.find_insert ..).trans (if_pos rfl)

/-! ## The statement -/

/-- Settles O38, word by word; between CQPUB and CQSTAGE, what one publication and the notify word are. -/
theorem copyQueueWords : Obligations.CopyQueueWords := by
  intro s t d a r n hs ht q x ofs cap ext k raised rangesAt ranges slots ws entry
  have hgives {i : Instr} {v : W64} (h : exec i s = .next (s.wrS d v)) : GivesS s i d v := givesS_of_exec hs h
  have hk : bits x 6 0 = k := bits_low x 6
  have hptr : exec (.cqwptr d a) s = .next (s.wrS d (BitVec.ofNat 64 (q.progress entry))) := execCqwptr_reads ht d a
  refine ⟨fun hb => hgives (execCqinit_busy ht d a hb), fun hb hbad => hgives ?_, fun hb hx hofs hext => ?_,
    fun hi => ⟨execCqpush_noQueue ht hi d r, hgives (execCqpub_refused ht (.inl hi))⟩, fun hi hfull hnow => execCqpush_full ht hi hfull hnow d r,
    fun hi hroom hcount hdone u hu => execCqpush_pushes ht hi hroom hcount hdone rfl hu, fun _ hbad => hgives (execCqpub_refused ht (.inr hbad)),
    fun hi hpos hcap hfull => hgives (execCqpub_full ht hk hi hpos hcap hfull),
    fun hi hpos hroom hcount hdone u hu => execCqpub_publishes ht hk hi hpos hroom hcount hdone hu,
    fun vs => ⟨State.iss_publish ht vs, State.sameMemory_publish ht vs, ?_, ?_⟩, ⟨State.iss_notify ht, State.readNat_notify ht⟩, ?_,
    fun h => hgives ?_, fun hpos hn h => hgives ?_, fun hpos h => hgives ?_, fun e hpos hn hnew h => hgives ?_, hgives (execCqstat_reads ht d),
    fun u vs hload hu => ⟨fun hbad => leaves_of_exec hu ?_, fun hok => ?_⟩⟩
  · rw [execCqinit_idle ht rfl hb, if_pos hbad]
  · have hinit := execCqinit_idle ht (d := d) (a := a) rfl hb
    rw [if_neg (by simp only [not_or]; exact ⟨Nat.not_le_of_lt hx, not_not_intro hofs, Nat.not_lt_of_le hext⟩)] at hinit
    refine ⟨_, hinit, (State.modGrp_iss ..).trans (s.iss_initQueue _), State.regs_initQueue hs _ d 0, ?_, fun l => ?_⟩
    · rw [State.taskOf_wrS]
      exact State.cq_initQueue ht (.fresh ofs cap)
    · rw [State.readByte_wrS]
      exact State.readByte_initQueue ht (.fresh ofs cap) l
  · exact ⟨_, _, State.task_publish ht vs, rfl, mem_addCopy _ rfl, rfl, rfl, rfl, rfl⟩
  · rw [State.grp_publish ht hs]
    exact Group.cc_raise ..
  · obtain ⟨u, hexec, hu, hothers, htask⟩ := changesTask_of_exec ht (execCqstage_advances s a)
    have hiss := congrArg State.iss hu
    have hdev := congrArg State.dev hu
    exact ⟨u, hexec, hiss, hdev, htask, hothers⟩
  · rw [hptr, CopyQueue.progress_unknown h]
    rfl
  · rw [hptr, CopyQueue.progress_dropped hpos hn h]
    rfl
  · rw [hptr, CopyQueue.progress_old hpos h]
    rfl
  · rw [hptr, CopyQueue.progress_tracked hpos hn hnew h]
    split_ifs <;> rfl
  · rw [execLprog_got hload, hbad]
    rfl
  · have hexec := execLprog_got (d := d) (n := n) hload
    rw [if_pos hok] at hexec
    exact ⟨_, hexec, rfl, congrArg Group.regs (State.grp_wrS (u.loadLayout n.toNat vs) d 0 hu), fun _ => rfl, u.find_loadLayout n.toNat vs⟩

end Sys2Proof.Machine
end

section
/-! SUPPORT. Words on translations, tickets, latches, diagnostic storage and redundant pairs (R290, R291, R383, R384, R402, R405). -/

namespace Sys2Proof

/-! ## One change made under several keys -/

/-- One change made under some keys of a table, one after another. -/
def Tab.changeEach {α : Type} (e : α) (f : α → α) (ks : List Nat) (t : Tab α) : Tab α :=
  ks.foldl (fun t k => Tab.insert t k (f (Tab.get e t k))) t

/-- A change that may be made twice: a key that is named twice shows it once. -/
theorem Tab.get_changeEach {α : Type} (e : α) {f : α → α} (hf : ∀ x, f (f x) = f x) (ks : List Nat) (t : Tab α) (j : Nat) :
    Tab.get e (Tab.changeEach e f ks t) j = if j ∈ ks then f (Tab.get e t j) else Tab.get e t j := by
  induction ks generalizing t with
  | nil => rfl
  | cons k ks ih =>
    refine (ih _).trans ?_
    rw [Tab.get_insert]
    by_cases h : j = k
    · subst h
      simp [hf]
    · simp [h]

end Sys2Proof

namespace Sys2Proof.Machine

open Sys2Proof.Claims

theorem Dev.foldl_modCore (f : Core → Core) (cs : List Nat) (d : Dev) :
    cs.foldl (fun d c => d.modCore c f) d = { d with cores := Tab.changeEach Core.reset f cs d.cores } :=
  List.foldl_hom (fun t => { d with cores := t }) (fun _ _ => rfl)

theorem Dev.foldl_modDie (f : Die → Die) (ds : List Nat) (d : Dev) :
    ds.foldl (fun d i => d.modDie i f) d = { d with dies := Tab.changeEach Die.reset f ds d.dies } :=
  List.foldl_hom (fun t => { d with dies := t }) (fun _ _ => rfl)

/-! ## Waits before a word (R173, R206, R402) -/

theorem State.irrevocably_noToken {s : State} (h : s.needToken = none) (k : State → State) : s.irrevocably k = k s := by
  simp only [State.irrevocably, h]

/-- Domain scope asks nothing of the stores below it but that they are performed (R177). -/
theorem State.raised_domain (s : State) : s.raised 3 = s := rfl

theorem State.afterMemory_goes {s : State} (hp : s.paired = true → s.pairHeld = 0) (hc : s.old.countsAt 0 0 63 63 = true)
    (hf : s.old.coveredFailure (s.old.covers [0, 0, 63, 63]) = none) (k : State → State) : s.afterMemory k = k s := by
  have hheld : ¬ (s.paired = true ∧ 0 < s.pairHeld) := fun ⟨h, hpos⟩ => (hp h).not_gt hpos
  simp only [State.afterMemory, if_neg hheld, if_pos hc, hf]

theorem State.afterMemory_counting {s : State} (hp : s.paired = true → s.pairHeld = 0) (hc : s.old.countsAt 0 0 63 63 = false)
    (k : State → State) : s.afterMemory k = s.stall .stallStores id := by
  have hheld : ¬ (s.paired = true ∧ 0 < s.pairHeld) := fun ⟨h, hpos⟩ => (hp h).not_gt hpos
  simp only [State.afterMemory, if_neg hheld, hc, Bool.false_eq_true, if_false]

theorem State.afterMemory_holding {s : State} (hp : s.paired = true) (hheld : 0 < s.pairHeld) (k : State → State) :
    s.afterMemory k = s.stopAtCheckpoint := if_pos ⟨hp, hheld⟩

/-! ## TLBI (R290) -/

/-- A core whose TLB keeps no entry that a TLBI matches. -/
def Core.dropHits (a c : W64) (k : Core) : Core := { k with tlb := k.tlb.filter (fun e => !tlbiHits a c e.asn e.world e.va e.size) }

/-- Whether a TLBI matches the range of an entry of a walk cache. -/
def walkHits (a c : W64) (e : WalkEntry) : Bool :=
  let size := 2 ^ (match e.2.1 with
    | 1 => 44
    | 2 => 34
    | 3 => 25
    | _ => 16)
  tlbiHits a c (e.1 / 256) (e.1 % 256) (e.2.2.1 * size) size

/-- A die whose TLB and walk cache keep no entry that a TLBI matches. -/
def Die.dropHits (a c : W64) (k : Die) : Die := { k with
  tlb := k.tlb.filter (fun e => !tlbiHits a c e.asn e.world e.va e.size)
  walkCache := k.walkCache.filter (fun e => !walkHits a c e) }

theorem Core.dropHits_dropHits (a c : W64) (k : Core) : (k.dropHits a c).dropHits a c = k.dropHits a c := by
  simp [Core.dropHits, List.filter_filter]

theorem Die.dropHits_dropHits (a c : W64) (k : Die) : (k.dropHits a c).dropHits a c = k.dropHits a c := by
  simp [Die.dropHits, List.filter_filter]

/-- A TLBI changes cores and dies alone, those of its scope. -/
theorem Dev.tlbi_eq (d : Dev) (core : Nat) (a c : W64) : (d.tlbi core a c).1 = { d with
    cores := Tab.changeEach Core.reset (Core.dropHits a c) (tlbiCores core (c.toNat / 2 ^ 59 % 2 ^ 3)) d.cores
    dies := Tab.changeEach Die.reset (Die.dropHits a c) (tlbiDies core (c.toNat / 2 ^ 59 % 2 ^ 3)) d.dies } := by
  have htlbi : (d.tlbi core a c).1 = (tlbiDies core (c.toNat / 2 ^ 59 % 2 ^ 3)).foldl (fun e i => e.modDie i (Die.dropHits a c))
      ((tlbiCores core (c.toNat / 2 ^ 59 % 2 ^ 3)).foldl (fun e k => e.modCore k (Core.dropHits a c)) d) := rfl
  rw [htlbi, Dev.foldl_modCore, Dev.foldl_modDie]

theorem Dev.core_tlbi (d : Dev) (core : Nat) (a c : W64) (k : Nat) : (d.tlbi core a c).1.core k =
    if k ∈ tlbiCores core (c.toNat / 2 ^ 59 % 2 ^ 3) then (d.core k).dropHits a c else d.core k := by
  rw [Dev.tlbi_eq]
  exact Tab.get_changeEach _ (Core.dropHits_dropHits a c) _ _ _

theorem Dev.die_tlbi (d : Dev) (core : Nat) (a c : W64) (k : Nat) : (d.tlbi core a c).1.die k =
    if k ∈ tlbiDies core (c.toNat / 2 ^ 59 % 2 ^ 3) then (d.die k).dropHits a c else d.die k := by
  rw [Dev.tlbi_eq]
  exact Tab.get_changeEach _ (Die.dropHits_dropHits a c) _ _ _

/-- TLBI removes its entries, and its split waits for the accesses that used them, if there are any. -/
theorem State.tlbi_done {s : State} (ht : s.needToken = none) (hd : StoresDone s) (a b : SReg) : s.tlbi a b =
    let r := s.dev.tlbi s.iss.core (s.rdS a) (s.rdS b)
    let users := r.1.usersOf s.iss.core (s.rdS b) r.2
    if users = [] then { s with dev := r.1 } else ({ s with dev := r.1 } : State).park (.tlbi (s.rdS a) (s.rdS b) (some users)) := by
  rw [State.tlbi, State.irrevocably_noToken ht, State.afterStores_done hd, State.raised_domain]
  simp only [List.isEmpty_iff]

theorem exec_tlbi {s : State} {i : Instr} {a b : SReg} (hi : i ∈ [Instr.tlbiPage a b, .tlbiAsn a b, .tlbiWorld a b, .tlbiAll a b]) :
    exec i s = .next (s.tlbi a b) := by
  simp only [List.mem_cons, List.not_mem_nil, or_false] at hi
  rcases hi with rfl | rfl | rfl | rfl <;> rfl

/-! ## TKSTAT (R291) -/

/-- The two high bits of a word (R3). -/
theorem bits_63_62 (x : W64) : bits x.toNat 63 62 = x.toNat / 2 ^ 62 := by
  have hx := x.isLt
  simp only [bits]
  omega

section
variable {s : State} {a : SReg} (d : SReg)

theorem execTkstat_own (h : (s.rdS a).toNat / 2 ^ 62 = 0) : exec (.tkstat d a) s =
    let mine := (s.dev.ops.filter (fun o => decide (o.2.core = s.iss.core ∧ o.2.slot = s.iss.slot))).filterMap (fun o => o.2.ticket?)
    .next (s.wrS d (BitVec.ofNat 64 (mine.length % 2 ^ 16 * 2 ^ 32 + (mine.head?.map (fun t => t.toNat)).getD 0))) := by
  simp only [exec_tkstat, execTkstat, bits_63_62, h]
  cases List.filterMap _ _ <;> rfl

theorem execTkstat_counts (h : (s.rdS a).toNat / 2 ^ 62 = 1) : exec (.tkstat d a) s =
    let die := s.dev.die (dieOf s.iss.core)
    let world := (s.dev.core s.iss.core).world
    .next (s.wrS d (BitVec.ofNat 64 ((die.tickets.filter (fun e => decide (world = 0 ∨ s.iss.slot = handlerSlot ∨ e.2.world = world))).length * 2 ^ 32
      + die.notices % 2 ^ 32))) := by
  simp only [exec_tkstat, execTkstat, bits_63_62, h]

theorem execTkstat_found {e : Nat × TicketEntry} (h : (s.rdS a).toNat / 2 ^ 62 = 2)
    (he : (s.dev.die (dieOf s.iss.core)).tickets.find? (fun e =>
      decide ((s.dev.core s.iss.core).world = 0 ∨ s.iss.slot = handlerSlot ∨ e.2.world = (s.dev.core s.iss.core).world)
        && decide (e.2.owner = bits (s.rdS a).toNat 26 16 ∧ e.2.tkt.toNat % 2 ^ 16 = bits (s.rdS a).toNat 15 0)) = some e) :
    exec (.tkstat d a) s = .next (s.wrS d (BitVec.ofNat 64 (2 ^ 63 + e.2.ops.length % 2 ^ 16 * 2 ^ 32 + e.2.tkt.toNat))) := by
  simp only [exec_tkstat, execTkstat, bits_63_62, h, he]

theorem execTkstat_unassigned (h : (s.rdS a).toNat / 2 ^ 62 = 3) : exec (.tkstat d a) s = .next (s.wrS d 0) := by
  simp only [exec_tkstat, execTkstat, bits_63_62, h]
  rfl

end

/-! ## WLATCH (R383, R384) -/

/-- The word that WLATCH answers. -/
def latchAnswer (st w c : Nat) : W64 := BitVec.ofNat 64 (st * 2 ^ 56 + w * 2 ^ 8 + c)

theorem latchAnswer_done (w c : Nat) : latchAnswer 0 w c = BitVec.ofNat 64 (w * 2 ^ 8 + c) := by rw [latchAnswer, Nat.zero_mul, Nat.zero_add]

theorem exec_wlatch {s : State} {i : Instr} {d a : SReg} (hi : i ∈ [Instr.wlatchRead d a, .wlatchSet d a]) : exec i s = .next (s.wlatch d a) := by
  simp only [List.mem_cons, List.not_mem_nil, or_false] at hi
  rcases hi with rfl | rfl <;> rfl

/-- WLATCH by the fields of its operand: the core, the world and the operation. -/
theorem State.wlatch_eq {s : State} (ht : s.needToken = none) (d : SReg) {a : SReg} {c w op : Nat} (hc : (s.rdS a).toNat % 2 ^ 8 = c)
    (hw : (s.rdS a).toNat / 2 ^ 8 % 2 ^ 8 = w) (hop : (s.rdS a).toNat / 2 ^ 16 % 4 = op) : s.wlatch d a =
      if 1 < op then s.wrS d (latchAnswer 4 (s.dev.core c).world c)
      else if s.dev.inService c = false then s.wrS d (latchAnswer 2 (s.dev.core c).world c)
      else if op = 0 then s.wrS d (latchAnswer 0 (s.dev.core c).world c)
      else if s.dev.emptyCore c = false then s.wrS d (latchAnswer 1 (s.dev.core c).world c)
      else ((s.modDev (fun e => e.relatch c w)).wrS d (latchAnswer 0 w c)).park (.latch c) := by
  have hc' : bits (s.rdS a).toNat 7 0 = c := (bits_low _ 7).trans hc
  have hw' : bits (s.rdS a).toNat 15 8 = w := hw
  have hop' : bits (s.rdS a).toNat 17 16 = op := hop
  rw [State.wlatch, State.irrevocably_noToken ht]
  simp only [hc', hw', hop', Bool.not_eq_true', latchAnswer]

/-! ## RDN.BEGIN (R405, R407) -/

theorem gkey_ne {c sl core slot : Nat} (hc : c ≠ core) (hsl : sl < 64) (hslot : slot < 64) : gkey c sl ≠ gkey core slot := by
  simp only [gkey]
  omega

theorem Dev.headD_freeSlots_lt (d : Dev) (c : Nat) : (d.freeSlots c 1).headD 0 < 32 := by
  cases h : d.freeSlots c 1 with
  | nil => decide
  | cons x l =>
    have hx : x ∈ d.freeSlots c 1 := h ▸ List.mem_cons_self
    exact List.mem_range.1 (List.mem_filter.1 (List.mem_of_mem_take hx)).1

theorem ClustersChanged.groups {d e : Dev} (h : ClustersChanged d e) : e.groups = d.groups := by rw [h]

theorem clustersChanged_wakeFor (d : Dev) (cs : List Nat) : ClustersChanged d (d.wakeFor cs) := by
  refine .foldl (fun e c => ?_) _ d
  rfl

/-- The trailer as RDN.BEGIN puts it in the lowest free slot of a core: a group of the leader's place and index that is to run with it. -/
def State.trailerOf (s : State) : Group :=
  { Group.empty with task := s.taskId, index := s.grp.index, role := .trailer, partner := (s.iss.core, s.iss.slot) }

/-- The trailer in a slot of another core, whose cluster is woken. -/
def State.startTrailer (s : State) (c sl : Nat) : State := s.modDev (fun e => (e.wakeFor [c]).setGroup c sl s.trailerOf)

/-- The issuing group as the leader of a pair with the trailer in a slot. -/
def State.lead (s : State) (c sl : Nat) : State := s.modGrp (fun g => { g with role := .leader, partner := (c, sl) })

section
variable {s : State} {c sl : Nat}

theorem State.find_startTrailer (k : Nat) : Tab.find (s.startTrailer c sl).dev.groups k =
    if k = gkey c sl then some s.trailerOf else Tab.find s.dev.groups k := by
  refine (Tab.find_insert ..).trans ?_
  rw [(clustersChanged_wakeFor ..).groups]

theorem State.running_startTrailer (hs : s.running = true) (h : gkey s.iss.core s.iss.slot ≠ gkey c sl) : (s.startTrailer c sl).running = true := by
  unfold State.running Dev.hasGroup
  rw [State.find_startTrailer]
  exact (congrArg Option.isSome (if_neg h)).trans hs

theorem State.grp_startTrailer (h : gkey s.iss.core s.iss.slot ≠ gkey c sl) : (s.startTrailer c sl).grp = s.grp := by
  unfold State.grp Dev.group Tab.get
  rw [State.find_startTrailer]
  exact congrArg (Option.getD · Group.empty) (if_neg h)

/-- The leader of a new pair after RDN.BEGIN has given its result. -/
theorem State.grp_lead (hs : s.running = true) (h : gkey s.iss.core s.iss.slot ≠ gkey c sl) (d : SReg) (x : W64) :
    (((s.startTrailer c sl).lead c sl).wrS d x).grp =
      { s.grp with role := .leader, partner := (c, sl), regs := s.grp.regs.writeS d.toNat x } := by
  have hrun := State.running_startTrailer hs h
  have hlead : ((s.startTrailer c sl).lead c sl).grp = { s.grp with role := .leader, partner := (c, sl) } := by
    rw [State.lead, State.grp_modGrp _ _ hrun, State.grp_startTrailer h]
  rw [State.grp_wrS _ _ _ ((Dev.hasGroup_modGroup ..).trans hrun), hlead]

/-- The trailer of a new pair after RDN.BEGIN has given its result. -/
theorem State.trailer_lead (h : gkey s.iss.core s.iss.slot ≠ gkey c sl) (d : SReg) (x : W64) :
    (((s.startTrailer c sl).lead c sl).wrS d x).dev.group c sl = s.trailerOf := by
  have hfind : Tab.find (((s.startTrailer c sl).lead c sl).wrS d x).dev.groups (gkey c sl) = some s.trailerOf := calc
    _ = Tab.find ((s.startTrailer c sl).lead c sl).dev.groups (gkey c sl) := Dev.find_modGroup_ne _ _ _ _ _ h.symm
    _ = Tab.find (s.startTrailer c sl).dev.groups (gkey c sl) := Dev.find_modGroup_ne _ _ _ _ _ h.symm
    _ = some s.trailerOf := (State.find_startTrailer _).trans (if_pos rfl)
  rw [Dev.group, Tab.get, hfind]
  rfl

end

section
variable {s : State} (d : SReg) (hs : s.iss.slot ≠ handlerSlot)
include hs

theorem execRdnBegin_paired (h : s.old.role ≠ .none) : exec (.rdnBegin d) s = .next (s.wrS d 3) := (if_neg hs).trans (if_pos h)

section
variable (hr : s.old.role = .none) (hc : s.old.countsAt 0 0 63 63 = true)
  (hf : s.old.coveredFailure (s.old.covers [0, 0, 63, 63]) = none)
include hr hc hf

theorem execRdnBegin_alone : exec (.rdnBegin d) s = .next (
    if 64 ≤ s.dev.pairsOn (dieOf s.iss.core) then s.wrS d 2
    else match s.dev.trailerCore s.iss.core s.taskId with
      | none => s.wrS d 1
      | some c =>
        let sl := (s.dev.freeSlots c 1).headD 0
        ((s.startTrailer c sl).lead c sl).wrS d 0) := by
  have hp : s.paired = true → s.pairHeld = 0 := fun h => absurd (h.symm.trans (State.paired_alone hr)) (by decide)
  rw [exec_rdnBegin, execRdnBegin, if_neg hs, if_neg (not_not_intro hr), State.afterMemory_goes hp hc hf]
  rfl

theorem execRdnBegin_full (hn : 64 ≤ s.dev.pairsOn (dieOf s.iss.core)) : exec (.rdnBegin d) s = .next (s.wrS d 2) := by
  rw [execRdnBegin_alone d hs hr hc hf, if_pos hn]

theorem execRdnBegin_noCore (hn : s.dev.pairsOn (dieOf s.iss.core) < 64) (ht : s.dev.trailerCore s.iss.core s.taskId = none) :
    exec (.rdnBegin d) s = .next (s.wrS d 1) := by
  rw [execRdnBegin_alone d hs hr hc hf, if_neg hn.not_ge, ht]

theorem execRdnBegin_pairs {c sl : Nat} (hn : s.dev.pairsOn (dieOf s.iss.core) < 64) (ht : s.dev.trailerCore s.iss.core s.taskId = some c)
    (hsl : (s.dev.freeSlots c 1).headD 0 = sl) : exec (.rdnBegin d) s = .next (((s.startTrailer c sl).lead c sl).wrS d 0) := by
  rw [execRdnBegin_alone d hs hr hc hf, if_neg hn.not_ge, ht, ← hsl]

end

end

/-! ## DIAGST and DIAGLD (R402) -/

/-- A selector that names no location reads as all ones and stores nothing. -/
theorem Dev.diagLoad_bad (d : Dev) (core : Nat) {x : Diag} (h : x.ok = false) (old : W64) : d.diagLoad core x old = BitVec.allOnes 64 := by
  rw [Dev.diagLoad, h]
  rfl

theorem Dev.diagStore_bad (d : Dev) (core : Nat) {x : Diag} (h : x.ok = false) (c b : W64) : d.diagStore core x c b = d := by
  rw [Dev.diagStore, h]
  rfl

section
variable {s : State} (hp : s.paired = true → s.pairHeld = 0) (hc : s.old.countsAt 0 0 63 63 = true)
  (hf : s.old.coveredFailure (s.old.covers [0, 0, 63, 63]) = none)
include hp hc hf

theorem execDiagld_reads (d a : SReg) : exec (.diagld d a) s = .next (s.wrS d (s.dev.diagLoad s.iss.core (Diag.of (s.rdS a)) (s.rdS d))) :=
  congrArg Host.Outcome.next (State.afterMemory_goes hp hc hf _)

theorem execDiagst_stores (ht : s.needToken = none) (k a b : SReg) :
    Makes s (.diagst k a b) (s.dev.diagStore s.iss.core (Diag.of (s.rdS a)) (s.rdS k) (s.rdS b)) :=
  congrArg Host.Outcome.next ((State.irrevocably_noToken ht _).trans (State.afterMemory_goes hp hc hf _))

end

/-! ## SIGRD (R405) -/

theorem bit_zero_eq (x : W64) : bit x.toNat 0 = x.getLsbD 0 := by
  simp [bit, BitVec.getLsbD, Nat.testBit_eq_decide_div_mod_eq]

theorem execSigrd_last {s : State} {a : SReg} (d : SReg) (h : (s.rdS a).getLsbD 0 = true) :
    exec (.sigrd d a) s = .next (s.wrS d (s.old.lastSig.zeroExtend 64)) := if_pos ((bit_zero_eq _).trans h)

theorem execSigrd_pair {s : State} {a : SReg} (d : SReg) (h : (s.rdS a).getLsbD 0 = false) :
    exec (.sigrd d a) s = .next (s.wrS d (BitVec.ofNat 64 (
      (match s.old.role with
        | .none => 0
        | .leader => 1
        | .trailer => 2) * 2 ^ 62
      + ((s.dev.entries s.iss.core s.iss.slot).filter (fun e => !e.matched)).length % 64 * 2 ^ 56
      + ((s.dev.entries s.iss.core s.iss.slot).filter (fun e => e.matched)).length % 256 * 2 ^ 48
      + (if s.old.role = .none then 0 else s.old.partner.1 % 256) * 2 ^ 40 + s.old.rollbacks % 2 ^ 32))) :=
  if_neg (by rw [bit_zero_eq, h]; decide)

/-! ## The statement -/

/-- Settles O42, word by word: TLBI by what it leaves of each core and die, TKSTAT and WLATCH by the fields of their operand, the others by what they wait for
and the role of their group. -/
theorem systemWords : Obligations.SystemWords := by
  intro s d a b k hs x core
  have hgives {i : Instr} {v : W64} (h : exec i s = .next (s.wrS d v)) : GivesS s i d v := givesS_of_exec hs h
  refine ⟨fun i hi ht hd => ?_, ⟨fun h => hgives (execTkstat_own d h), fun h => hgives (execTkstat_counts d h),
      fun h e he => hgives (execTkstat_found d h (by rw [bits_low]; exact he)), fun h => hgives (execTkstat_unassigned d h)⟩, fun i hi ht => ?_,
    fun hp hc hf => ⟨hgives (execDiagld_reads hp hc hf d a), fun ht => execDiagst_stores hp hc hf ht k a b, fun hbad => ⟨hgives ?_, fun ht => ?_⟩⟩,
    fun hp hc => congrArg Host.Outcome.next (State.afterMemory_counting hp hc _),
    fun hp hheld => congrArg Host.Outcome.next (State.afterMemory_holding hp hheld _), fun h => hgives (if_pos h),
    fun h hr => hgives (execRdnBegin_paired d h hr), fun h hr hc hf => ?_,
    fun hr => ⟨congrArg Host.Outcome.next (if_pos hr), congrArg Host.Outcome.next (if_pos hr)⟩,
    fun hr => ⟨congrArg Host.Outcome.next (if_neg hr), congrArg Host.Outcome.next (if_neg hr)⟩,
    fun h => hgives (execSigrd_last d h), fun h => hgives (execSigrd_pair d h)⟩
  · have hexec := (exec_tlbi hi).trans (congrArg Host.Outcome.next (State.tlbi_done ht hd a b))
    refine ⟨fun h => hexec.trans (congrArg _ (if_pos h)), fun h => hexec.trans (congrArg _ (if_neg h)), ?_, fun c => ?_, fun c => ?_⟩
    · rw [Dev.tlbi_eq]
    · rw [Dev.core_tlbi]
      split_ifs <;> rfl
    · rw [Dev.die_tlbi]
      split_ifs <;> rfl
  · intro c op now gives
    have heq := (exec_wlatch hi).trans (congrArg Host.Outcome.next (State.wlatch_eq ht d (c := c) (op := op) rfl rfl rfl))
    refine ⟨fun h => hgives ?_, fun h hn => hgives ?_, fun h hn => hgives ?_, fun h hn he => hgives ?_, fun h hn he => ?_⟩
    · rw [heq, if_pos h]
      rfl
    · rw [heq, if_neg h.not_gt, if_pos hn]
      rfl
    · rw [heq, if_neg (by rw [h]; decide), if_neg (by rw [hn]; decide), if_pos h]
      rfl
    · rw [heq, if_neg (by rw [h]; decide), if_neg (by rw [hn]; decide), if_neg (by rw [h]; decide), if_pos he]
      rfl
    · rw [if_neg (by rw [h]; decide), if_neg (by rw [hn]; decide), if_neg (by rw [h]; decide), if_neg (by rw [he]; decide)] at heq
      refine ⟨_, heq, rfl, ?_, rfl⟩
      rw [← latchAnswer_done]
      exact congrArg Group.regs (State.grp_wrS (s.modDev (·.relatch c _)) d _ hs)
  · rw [← s.dev.diagLoad_bad s.iss.core hbad]
    exact execDiagld_reads hp hc hf d a
  · refine (execDiagst_stores hp hc hf ht k a b).trans ?_
    rw [Dev.diagStore_bad _ _ hbad]
  · refine ⟨fun hn => hgives (execRdnBegin_full d h hr hc hf hn), fun hn ht => hgives (execRdnBegin_noCore d h hr hc hf hn ht),
      fun c hslot hn ht hne => ⟨_, execRdnBegin_pairs d h hr hc hf hn ht rfl, rfl, ?_⟩⟩
    have hkey := (gkey_ne hne (Nat.lt_trans (s.dev.headD_freeSlots_lt c) (by decide)) hslot).symm
    have htrailer := State.trailer_lead hkey d 0
    exact ⟨State.grp_lead hs hkey d 0, congrArg Group.role htrailer, congrArg Group.partner htrailer⟩

end Sys2Proof.Machine
end

section
/-! SUPPORT. Frames of a context region under op 2 (R339, R385, R412), and the statement about errors and management. -/

namespace Sys2Proof.Machine

open Sys2Proof.Claims

/-- A command of world 0 that does nothing but end with a status runs and leaves the rest of the device as it was (R412). -/
theorem State.submit_ends {s : State} {c : Cmd} {f : Dev → CmdResult} {cst : Nat} (hw : c.world = 0) (hrun : s.dev.mgmt.running = none)
    (hstage : stageStatus s.dev.mgmt.stage c.op = none) (hz : c.zero = 0) (hf : f s.dev = ends s.dev cst) :
    s.submit c true f = s.modDev (fun d => { d with mgmt := { d.mgmt with running := some (c.seq % 2 ^ 48, cst) } }) := by
  simp only [State.submit, hw, hrun, hstage, hz, hf]
  rfl

/-- Op 2 on an HBM frame of a context region ends with status 2: no command gives such a frame away (R339). -/
theorem Dev.assignCmd_reserved {d : Dev} {c : Cmd} (h1 : c.w1.toNat < 2 ^ 23) (h2 : c.w2.toNat < 2 ^ 10)
    (hr : (d.frame c.w1.toNat).reserved = true) : d.assignCmd c = ends d 2 := by
  have hk : bit c.w1.toNat 63 = false := by simp only [bit, decide_eq_false_iff_not]; omega
  have hf : bits c.w1.toNat 35 0 = c.w1.toNat := by simp only [bits]; omega
  have h62 : bits c.w1.toNat 62 36 = 0 := by simp only [bits]; omega
  have h63 : bits c.w2.toNat 63 10 = 0 := by simp only [bits]; omega
  have hlt : ¬ 2 ^ 23 ≤ c.w1.toNat := not_le.2 h1
  simp only [Dev.assignCmd, hk, hf, h62, h63, hr, hlt]
  rfl

/-- A device in operation whose frame 0 belongs to a context region. -/
def regionState : State :=
  { State.reset with dev := { Dev.reset with
      mgmt := { Dev.reset.mgmt with stage := 7 }
      frames := [(0, { Frame.reset with reserved := true })] } }

/-- The command that assigns frame 0 to world 0. -/
def assignFrame0 : Cmd := { world := 0, op := 2, seq := 0, w1 := 0, w2 := 0x100, w3 := 0, w4 := 0, w5 := 0, w6 := 0, w7 := 0 }

theorem execFrameAssign_regionState : exec (.frameAssign assignFrame0) regionState =
    .next (regionState.modDev (fun d => { d with mgmt := { d.mgmt with running := some (0, 2) } })) :=
  congrArg Host.Outcome.next (State.submit_ends rfl rfl (by decide) rfl (Dev.assignCmd_reserved (by decide) (by decide) rfl))

/-- Refutes O54: that op 2 on any HBM frame is done with status 0. The clause lacks the premise that the frame is not reserved: a frame of a context region,
which no command gives away (R339), ends the command with status 2. -/
theorem not_errorAndManagementSteps : ¬ Obligations.ErrorAndManagementSteps := by
  intro h
  obtain ⟨-, -, -, -, -, assigns, -⟩ := h regionState { cls := 0, unit := 0, kind := .sram, pa := 0, group := none, moved := false } 0 0
    { stream := none, pa := 0, len := 0, wr := none } assignFrame0
  obtain ⟨assigned, -⟩ := assigns ⟨rfl, rfl, by decide, rfl⟩ rfl (by decide) (by decide)
  have hstate := Host.Outcome.next.inj ((assigned (by decide)).symm.trans execFrameAssign_regionState)
  exact absurd (congrArg (fun t : State => t.dev.mgmt.running) hstate) (by decide)

end Sys2Proof.Machine
end

section
/-! SUPPORT. The check of SIG, the longest of some waits, and what reset leaves (R329, R345, R404, R413, R414). -/

namespace Sys2Proof.Machine

open Sys2Proof.Claims

/-! ## SIGCHK (R404) -/

section
variable {s : State} {i : BitVec 16}

theorem execSigchk_matches (h : fold16 s.old.regs.sig = i) :
    exec (.sigchk i) s = .next (s.modGrp (fun g => { g with regs := { g.regs with sig := 0 } })) := if_pos h

theorem execSigchk_alone (h : fold16 s.old.regs.sig ≠ i) (hp : s.paired = false) : Traps s (.sigchk i) 0x13 :=
  (if_neg h).trans (if_neg (ne_true_of_eq_false hp))

theorem execSigchk_paired (h : fold16 s.old.regs.sig ≠ i) (hp : s.paired = true) : exec (.sigchk i) s = .next s.mismatch :=
  (if_neg h).trans (if_pos hp)

end

/-- Settles O21, by whether SIG folds to the immediate, and whether the group is of a pair. -/
theorem signatureChecks : Obligations.SignatureChecks := by
  intro s i hs fold
  refine ⟨fun h => ⟨_, execSigchk_matches h, s.onlyRegs_modGrp (fun r => { r with sig := 0 }) hs, rfl, ?_⟩, execSigchk_alone, execSigchk_paired⟩
  exact congrArg Group.regs (s.grp_modGrp _ hs)

/-! ## PROBE (R345) -/

/-- No wait of a list has lasted longer than its longest. -/
theorem le_longest {l : List (Nat × Nat)} : ∀ v ∈ l, v.2 ≤ (longest l).2 := by
  induction l with
  | nil => exact fun v hv => absurd hv List.not_mem_nil
  | cons w l ih =>
    intro v hv
    rw [longest]
    rcases List.mem_cons.1 hv with rfl | hv
    · split_ifs <;> omega
    · have hle := ih v hv
      split_ifs <;> omega

theorem longest_mem {l : List (Nat × Nat)} (h : l ≠ []) : longest l ∈ l := by
  induction l with
  | nil => exact absurd rfl h
  | cons w l ih =>
    rw [longest]
    split_ifs with hw
    · exact List.mem_cons_self
    · refine List.mem_cons_of_mem _ (ih ?_)
      rintro rfl
      exact hw (Nat.zero_le _)

theorem execProbe_eq (d : SReg) (s : State) : exec (.probe d) s = .next (s.wrS d (BitVec.ofNat 64
    ((if (longest (s.dev.waits s.taskId)).1 ≠ 0 ∧ s.dev.param 0 ≤ (longest (s.dev.waits s.taskId)).2 then 2 ^ 63 else 0)
      + (if (s.dev.task? s.taskId).any (fun t => t.cyc) then 2 ^ 62 else 0) + (longest (s.dev.waits s.taskId)).1))) := by
  rw [exec_probe, execProbe]
  cases s.dev.task? s.taskId <;> rfl

/-- Settles O16: PROBE writes the fields of the longest wait, which is one of the waits and as long as any. -/
theorem probeReportsTheLongestWait : Obligations.ProbeReportsTheLongestWait :=
  fun s d hs => ⟨givesS_of_exec hs (execProbe_eq d s), fun h => ⟨longest_mem h, le_longest⟩⟩

/-! ## Reset (R329, R413, R414) -/

/-- Settles O60, value by value. -/
theorem resetValues : Obligations.ResetValues :=
  ⟨rfl, rfl, rfl, rfl, fun _ => rfl, fun _ => rfl, fun _ => rfl, fun _ => rfl, rfl⟩

end Sys2Proof.Machine
end

section
/-! SUPPORT. Words on the life budget (R352, R357 to R366): BOOST's checks and grants, LIFESET, and the words that read records. -/

namespace Sys2Proof.Machine

open Sys2Proof.Claims

/-- The issuing group's registers after a word has changed other parts of the device and given its result. -/
theorem State.regs_wrS_of_groups {s : State} {e : Dev} (hs : s.running = true) (h : e.groups = s.dev.groups) (d : SReg) (x : W64) :
    (({ s with dev := e } : State).wrS d x).grp.regs = s.grp.regs.writeS d.toNat x := by
  have hgroup : ({ s with dev := e } : State).grp = s.grp := congrArg (fun t => Tab.get Group.empty t (gkey s.iss.core s.iss.slot)) h
  have hrun : e.hasGroup s.iss.core s.iss.slot = true := (congrArg (fun t => (Tab.find t _).isSome) h).trans hs
  rw [State.grp_wrS _ _ _ hrun, hgroup]

/-! ## Grants ended and made (R358 to R362) -/

/-- Only commitments, the commits that are due and the grants have changed. -/
def GrantsChanged (d e : Dev) : Prop := e = { d with wear := e.wear, commitDue := e.commitDue, grants := e.grants }

theorem GrantsChanged.trans {d e f : Dev} (h : GrantsChanged d e) (k : GrantsChanged e f) : GrantsChanged d f := by
  unfold GrantsChanged at *
  rw [k, h]

theorem GrantsChanged.foldl {α : Type} {f : Dev → α → Dev} (hf : ∀ d x, GrantsChanged d (f d x)) (l : List α) (d : Dev) :
    GrantsChanged d (l.foldl f d) :=
  List.foldlRecOn l f (motive := GrantsChanged d) rfl (fun e h x _ => h.trans (hf e x))

theorem GrantsChanged.groups {d e : Dev} (h : GrantsChanged d e) : e.groups = d.groups := by rw [h]
theorem GrantsChanged.changeCount {d e : Dev} (h : GrantsChanged d e) : e.changeCount = d.changeCount := by rw [h]; rfl
theorem GrantsChanged.nextChange {d e : Dev} (h : GrantsChanged d e) : e.nextChange = d.nextChange := by rw [h]

theorem grantsChanged_mapCommits (d : Dev) (us : List Nat) (f : Nat → Nat → Nat) : GrantsChanged d (d.mapCommits us f) := by
  refine .foldl (fun e u => ?_) us d
  rfl

theorem grantsChanged_endGrants (d : Dev) (cs : List Nat) : GrantsChanged d (d.endGrants cs) := by
  refine .foldl (fun e g => ?_) _ d
  exact (grantsChanged_mapCommits e _ _).trans rfl

/-- The grant that BOOST makes for a set, a level and a duration. -/
def Dev.newGrant (d : Dev) (cs : List Nat) (level ms : Nat) : Grant :=
  { level := level, clusters := cs, ms := ms, drawn := 0, start := some d.changeCount
    cost := (boostCost level 0 ms, boostCost level 1 ms, boostCost level 2 ms) }

/-- A set debited for a grant, once the grants it supersedes have ended. -/
def Dev.debit (d : Dev) (cs : List Nat) (cost : Nat × Nat × Nat) : Dev :=
  let us := cs.flatMap (d.endGrants cs).unitsOfCluster
  ((d.endGrants cs).mapCommits us (fun m x => x + mechOf cost m)).markDue ((d.endGrants cs).withSpares cs us)

theorem grantsChanged_debit (d : Dev) (cs : List Nat) (cost : Nat × Nat × Nat) : GrantsChanged d (d.debit cs cost) :=
  ((grantsChanged_endGrants d cs).trans (grantsChanged_mapCommits _ _ _)).trans rfl

theorem Dev.nextGrant_bounds (d : Dev) : 1 ≤ d.nextGrant ∧ d.nextGrant ≤ 65535 := by
  unfold Dev.nextGrant
  dsimp only
  omega

/-- A grant made: its number, its record, and the change of level it brings. -/
theorem Dev.makeGrant_spec (d : Dev) (cs : List Nat) (level ms : Nat) :
    ∃ n e, d.makeGrant cs level ms = (e, n) ∧ e.groups = d.groups ∧ 1 ≤ n ∧ n ≤ 65535
      ∧ Tab.find e.grants n = some (d.newGrant cs level ms)
      ∧ Tab.find e.changes d.nextChange = some { clusters := cs, level := level, count := d.changeCount, switched := false } := by
  obtain ⟨d2, hd2, hmake⟩ : ∃ d2 : Dev, GrantsChanged d d2 ∧ d.makeGrant cs level ms =
      ({ (d2.scheduleChange cs level).1 with
          grants := Tab.insert d2.grants (d2.scheduleChange cs level).1.nextGrant (d2.newGrant cs level ms)
          lastGrant := (d2.scheduleChange cs level).1.nextGrant }, (d2.scheduleChange cs level).1.nextGrant) :=
    ⟨_, grantsChanged_debit d cs (d.newGrant cs level ms).cost, rfl⟩
  obtain ⟨hlow, hhigh⟩ := (d2.scheduleChange cs level).1.nextGrant_bounds
  refine ⟨_, _, hmake, hd2.groups, hlow, hhigh, ?_, ?_⟩
  · rw [Tab.find_insert, if_pos rfl, Dev.newGrant, hd2.changeCount]
    rfl
  · rw [← hd2.nextChange, ← hd2.changeCount]
    exact (Tab.find_insert ..).trans (if_pos rfl)

/-! ## BOOST (R360) -/

/-- What BOOST to B0 leaves: the grants on its clusters end, and those clusters return to B0. -/
def Dev.endBoost (d : Dev) (cs : List Nat) : Dev :=
  let mine := cs.filter (fun c => d.grants.any (fun g => g.2.clusters.contains c))
  if mine.isEmpty then d else ((d.endGrants mine).scheduleChange mine 0).1

theorem Dev.groups_endBoost (d : Dev) (cs : List Nat) : (d.endBoost cs).groups = d.groups := by
  unfold Dev.endBoost
  dsimp only
  split_ifs
  · rfl
  · exact (grantsChanged_endGrants d _).groups

theorem Dev.endBoost_noGrant {d : Dev} {cs : List Nat} (h : cs.all (fun c => !d.grants.any (fun g => g.2.clusters.contains c)) = true) :
    d.endBoost cs = d := by
  refine if_pos ?_
  rw [List.isEmpty_iff, List.filter_eq_nil_iff]
  simpa using h

/-- The high bits of a word (R3). -/
theorem bits_63_34_ne_zero (x : W64) : bits x.toNat 63 34 ≠ 0 ↔ 2 ^ 34 ≤ x.toNat := by
  have hx := x.isLt
  simp only [bits]
  omega

/-- BOOST by the fields of its operands: the set, the level and the duration. -/
theorem Dev.boost_eq (d : Dev) (a b : W64) {cs : List Nat} {level ms : Nat} (hcs : d.boostSet (a.toNat % 2 ^ 32) = cs)
    (hlevel : a.toNat / 2 ^ 32 % 4 = level) (hms : b.toNat = ms) : d.boost a b =
      if 2 ^ 34 ≤ a.toNat ∨ level = 3 ∨ (level ≠ 0 ∧ (ms = 0 ∨ 3600000 < ms)) ∨ cs = [] then (0x0400000000000000, d)
      else if level = 0 then (BitVec.ofNat 64 (clusterMask cs), d.endBoost cs)
      else if (d.boostCheck cs level ms).1 ≠ 0 then
        (BitVec.ofNat 64 ((d.boostCheck cs level ms).1 * 2 ^ 56 + (d.boostCheck cs level ms).2 * 2 ^ 52 + clusterMask cs), d)
      else (BitVec.ofNat 64 ((d.makeGrant cs level ms).2 * 2 ^ 32 + clusterMask cs), (d.makeGrant cs level ms).1) := by
  have hset : d.boostSet (bits a.toNat 31 0) = cs := by rw [bits_low]; exact hcs
  have hfield : bits a.toNat 33 32 = level := hlevel
  unfold Dev.boost
  dsimp only
  rw [hset, hfield, hms]
  refine if_congr (or_congr (bits_63_34_ne_zero a) (or_congr_right (or_congr_right List.isEmpty_iff))) rfl (if_congr Iff.rfl ?_ (if_congr Iff.rfl ?_ ?_))
  · simp only [Nat.zero_mul, Nat.zero_add]
    rfl
  · rw [Nat.zero_mul, Nat.add_zero]
  · simp only [Nat.zero_mul, Nat.zero_add]

theorem exec_boost {s : State} {i : Instr} {d a b : SReg} (hi : i ∈ [Instr.boostGrant d a b, .boostEnd d a b]) (ht : s.needToken = none) :
    exec i s = .next (({ s with dev := (s.dev.boost (s.rdS a) (s.rdS b)).2 } : State).wrS d (s.dev.boost (s.rdS a) (s.rdS b)).1) := by
  have hboost : exec i s = .next (s.boost d a b) := by
    simp only [List.mem_cons, List.not_mem_nil, or_false] at hi
    rcases hi with rfl | rfl <;> rfl
  exact hboost.trans (congrArg Host.Outcome.next (State.irrevocably_noToken ht _))

/-! ## LBRD, WRECRD, LIFESET, EQRD (R364 to R366) -/

section
variable {s : State} {a : SReg} (d : SReg)

theorem execLbrd_surplus {k : Nat} (hk : (s.rdS a).toNat % 4 = k) (h : k < 3) :
    exec (.lbrd d a) s = .next (s.wrS d (BitVec.ofInt 64 (s.dev.binding k))) := by
  have hfield : bits (s.rdS a).toNat 1 0 = k := (bits_low _ 1).trans hk
  simp only [exec_lbrd, execLbrd, hfield, if_pos h]

theorem execLbrd_unit {u : Nat} (h : (s.rdS a).toNat % 4 = 3) (hu : s.dev.bindingUnit = some u) :
    exec (.lbrd d a) s = .next (s.wrS d ((s.dev.wearOf u).word u 7)) := by
  have hfield : bits (s.rdS a).toNat 1 0 = 3 := (bits_low _ 1).trans h
  simp only [exec_lbrd, execLbrd, hfield, hu, if_neg (lt_irrefl 3)]

section
variable {unit : Option Nat} {w : Nat} (hunit : unitOf ((s.rdS a).toNat / 2 ^ 14 % 4) ((s.rdS a).toNat % 2 ^ 10) = unit)
  (hw : (s.rdS a).toNat / 2 ^ 16 % 2 ^ 4 = w)
include hunit hw

theorem execWrecrd_nothing (h : unit = none ∨ 12 ≤ w) : exec (.wrecrd d a) s = .next (s.wrS d (BitVec.allOnes 64)) := by
  rw [← bits_low _ 9] at hunit
  have hword : bits (s.rdS a).toNat 19 16 = w := hw
  rw [exec_wrecrd, execWrecrd, show unitOf (bits _ 15 14) _ = unit from hunit, hword]
  rcases h with rfl | h
  · rfl
  · cases unit with
    | none => rfl
    | some u => exact congrArg (fun v => Host.Outcome.next (s.wrS d v)) (if_neg h.not_gt)

theorem execWrecrd_word {u : Nat} (hu : unit = some u) (h : w < 12) :
    exec (.wrecrd d a) s = .next (s.wrS d ((s.dev.wearOf u).word u w)) := by
  rw [← bits_low _ 9] at hunit
  have hword : bits (s.rdS a).toNat 19 16 = w := hw
  rw [exec_wrecrd, execWrecrd, show unitOf (bits _ 15 14) _ = unit from hunit, hword, hu]
  exact congrArg (fun v => Host.Outcome.next (s.wrS d v)) (if_pos h)

end

/-- A target set and records made due, with LIFESET's result. -/
def State.setTarget (u : State) (us : List Nat) (t : Target) (d : SReg) : State :=
  (u.modDev (fun e => { e.markDue us with target := some t })).wrS d 0

theorem State.iss_setTarget (u : State) (us : List Nat) (t : Target) (d : SReg) : (u.setTarget us t d).iss = u.iss := rfl

theorem State.regs_setTarget {u : State} (hu : u.running = true) (us : List Nat) (t : Target) (d : SReg) :
    (u.setTarget us t d).grp.regs = u.grp.regs.writeS d.toNat 0 := State.regs_wrS_of_groups hu rfl d 0

theorem State.dev_setTarget (u : State) (us : List Nat) (t : Target) (d : SReg) : (u.setTarget us t d).dev =
    { u.dev with groups := (u.setTarget us t d).dev.groups, commitDue := (u.setTarget us t d).dev.commitDue, target := some t } := rfl

theorem execLifeset_got {u : State} {ws : List W64} (ht : s.needToken = none) (hd : StoresDone s) (hload : s.loadRecord (s.rdS a).toNat 64 = .got u ws) :
    exec (.lifeset d a) s = .next (if badTarget ws then u.wrS d 1
      else u.setTarget (List.range unitCount) { words := ws.take 6 } d) := by
  simp only [State.setTarget]
  rw [exec_lifeset, execLifeset, State.irrevocably_noToken ht, State.afterStores_done hd, State.raised_domain, State.withRecord, hload]

theorem execEqrd_eq {q : Queue} {world : Nat} (hq : s.dev.queue ((s.rdS a).toNat % 64) = q) (hw : (s.dev.core s.iss.core).world = world) :
    exec (.eqrd d a) s = .next (s.wrS d (if world = 0 ∨ q.world = world then
      BitVec.ofNat 64 (min q.used (2 ^ 32 - 1) * 2 ^ 32 + min q.debt (2 ^ 32 - 1)) else 0)) := by
  have hq' : s.dev.queue (bits (s.rdS a).toNat 5 0) = q := by rw [bits_low]; exact hq
  simp only [exec_eqrd, execEqrd, hq', hw]

end

/-! ## The statement -/

/-- Settles O43, word by word: BOOST by the first check that fails, LIFESET by its record, the others by the fields of their operand. -/
theorem lifeWords : Obligations.LifeWords := by
  intro s d a b hs x ms level cs bad r unit
  have hgives {i : Instr} {v : W64} (h : exec i s = .next (s.wrS d v)) : GivesS s i d v := givesS_of_exec hs h
  refine ⟨fun i hi ht => ?_, fun h => hgives (execLbrd_surplus d rfl h), fun u h hu => hgives (execLbrd_unit d h hu), fun h => hgives (execWrecrd_nothing d rfl rfl h),
    fun u hu hw => hgives (execWrecrd_word d rfl rfl hu hw), fun ht hd u ws hload hu => ?_, fun hw => hgives ?_, fun hw hq => hgives ?_⟩
  · have hexec := exec_boost hi ht
    rw [s.dev.boost_eq (s.rdS a) (s.rdS b) (cs := cs) (level := level) (ms := ms) rfl rfl rfl] at hexec
    refine ⟨fun hbad => hgives ?_, fun hbad h0 => ?_, fun hbad h0 hr => hgives ?_, fun hbad h0 hr => ?_⟩
    · rwa [if_pos hbad] at hexec
    · rw [if_neg hbad, if_pos h0] at hexec
      refine ⟨_, hexec, rfl, State.regs_wrS_of_groups hs (s.dev.groups_endBoost cs) d _, fun hnone => ?_⟩
      simp only [State.wrS_dev, Dev.endBoost_noGrant hnone]
      rfl
    · rwa [if_neg hbad, if_neg h0, if_pos hr] at hexec
    · rw [if_neg hbad, if_neg h0, if_neg (not_not_intro hr)] at hexec
      obtain ⟨n, e, hmake, hgroups, hlow, hhigh, hgrant, hchange⟩ := s.dev.makeGrant_spec cs level ms
      rw [hmake] at hexec
      exact ⟨_, n, hexec, rfl, hlow, hhigh, State.regs_wrS_of_groups hs hgroups d _, hgrant, hchange⟩
  · have hexec := execLifeset_got d ht hd hload
    refine ⟨fun hbad => leaves_of_exec hu ?_, fun hok => ?_⟩
    · rwa [if_pos hbad] at hexec
    · rw [if_neg (ne_true_of_eq_false hok)] at hexec
      exact ⟨_, hexec, u.iss_setTarget .., State.regs_setTarget hu .., u.dev_setTarget ..⟩
  · exact (execEqrd_eq d rfl rfl).trans (congrArg (fun v => Host.Outcome.next (s.wrS d v)) (if_pos hw))
  · exact (execEqrd_eq d rfl rfl).trans (congrArg (fun v => Host.Outcome.next (s.wrS d v)) (if_neg (not_or.2 ⟨hw, hq⟩)))

end Sys2Proof.Machine
end

section
/-! SUPPORT. Words of the handler on the groups of the workgroup it serves (R332 to R336). -/

namespace Sys2Proof.Machine

open Sys2Proof.Claims

/-! ## GRD and GWR (R333) -/

/-- A selector's fields (R3, R333). -/
theorem Selector.of_eq (x : W64) : Selector.of x = { slot := x.toNat % 2 ^ 5, zero := x.toNat / 2 ^ 5 % 2 ^ 3, kind := x.toNat / 2 ^ 8 % 2 ^ 8
                                                     index := x.toNat / 2 ^ 16 % 2 ^ 8, lane := x.toNat / 2 ^ 24 % 2 ^ 5 } := by
  simp only [Selector.of, bits_low]
  rfl

section
variable {s : State} {a : SReg} {x : Selector} (hx : Selector.of (s.rdS a) = x)
include hx

theorem grd_gives (hs : s.running = true) (d : SReg) {v : Nat} (h : s.readGroup x = some v) :
    Leaves s (.grd d a) (s.herr false) d (BitVec.ofNat 64 v) :=
  leaves_of_exec hs (by rw [exec_grd, execGrd, hx, h])

theorem grd_fails (hs : s.running = true) (d : SReg) (h : s.readGroup x = none) : Leaves s (.grd d a) (s.herr true) d 0 :=
  leaves_of_exec hs (by rw [exec_grd, execGrd, hx, h])

theorem gwr_puts {b : SReg} {g : Group} (h : s.writeGroup x (s.rdS b) = some g) :
    Makes s (.gwr a b) { (s.herr false).dev with groups := Tab.insert s.dev.groups (gkey s.iss.core x.slot) g } := by
  rw [Makes, exec_gwr, execGwr, hx, h]
  rfl

theorem gwr_fails {b : SReg} (h : s.writeGroup x (s.rdS b) = none) : exec (.gwr a b) s = .next (s.herr true) := by
  rw [exec_gwr, execGwr, hx, h]

end

/-- A selector that names a group of the served workgroup. -/
def State.selects (s : State) (x : Selector) : Prop := x.zero = 0 ∧ s.names x.slot = true

section
variable {s : State} {x : Selector} {v : W64}

theorem State.selects_iff : s.selects x ↔ ¬ (x.zero ≠ 0 ∨ (!s.names x.slot) = true) := by simp [State.selects]

theorem State.readGroup_unselected (h : ¬ s.selects x) : s.readGroup x = none := if_pos (not_not.1 (State.selects_iff.not.1 h))

theorem State.writeGroup_unselected (h : ¬ s.selects x) : s.writeGroup x v = none := if_pos (not_not.1 (State.selects_iff.not.1 h))

theorem State.readGroup_noKind (h : 10 < x.kind) : s.readGroup x = none := by
  obtain ⟨k, hk⟩ := Nat.exists_eq_add_of_le' h
  rw [State.readGroup, hk]
  exact ite_self none

theorem State.writeGroup_noKind (h : 10 < x.kind) : s.writeGroup x v = none := by
  obtain ⟨k, hk⟩ := Nat.exists_eq_add_of_le' h
  rw [State.writeGroup, hk]
  exact ite_self none

variable (h : s.selects x)
include h

theorem State.readGroup_v (hk : x.kind = 0) : s.readGroup x = if x.index < s.dev.vregsAt s.iss.core x.slot then
    some ((s.dev.group s.iss.core x.slot).regs.readV x.index x.lane).toNat else none := by
  rw [State.readGroup, if_neg (State.selects_iff.1 h), hk]
  rfl

theorem State.readGroup_s (hk : x.kind = 1) : s.readGroup x = if 1 ≤ x.index ∧ x.index ≤ 63 then
    some ((s.dev.group s.iss.core x.slot).regs.readS x.index).toNat else none := by
  rw [State.readGroup, if_neg (State.selects_iff.1 h), hk]
  rfl

theorem State.readGroup_p (hk : x.kind = 2) : s.readGroup x = if 1 ≤ x.index ∧ x.index ≤ 7 then
    some ((s.dev.group s.iss.core x.slot).regs.readP x.index).toNat else none := by
  rw [State.readGroup, if_neg (State.selects_iff.1 h), hk]
  rfl

theorem State.readGroup_noSplit (hk : x.kind = 4) (hi : x.index ≤ 3) (hx : (s.dev.group s.iss.core x.slot).splits.getD x.index none = none) :
    s.readGroup x = some 0 := by
  rw [State.readGroup, if_neg (State.selects_iff.1 h), hk]
  exact (if_pos hi).trans (by rw [hx])

theorem State.readGroup_split {y : Split} (hk : x.kind = 4) (hi : x.index ≤ 3)
    (hx : (s.dev.group s.iss.core x.slot).splits.getD x.index none = some y) :
    s.readGroup x = some (y.mask.toNat * 2 ^ 32 + posField y.pos.word (s.dev.packetOf s.iss.core x.slot y.pos.pc)) := by
  rw [State.readGroup, if_neg (State.selects_iff.1 h), hk]
  exact (if_pos hi).trans (by rw [hx])

theorem State.readGroup_depth (hk : x.kind = 7) (hi : x.index = 0) : s.readGroup x = some (s.dev.group s.iss.core x.slot).stack.length := by
  rw [State.readGroup, if_neg (State.selects_iff.1 h), hk]
  exact if_pos hi

theorem State.readGroup_counters (hk : x.kind = 8) (hi : x.index = 0) : s.readGroup x =
    let g := s.dev.group s.iss.core x.slot
    some (g.ct.length * 2 ^ 24 + g.cc.length * 2 ^ 16 + g.cs.length * 2 ^ 8 + g.cl.length) := by
  rw [State.readGroup, if_neg (State.selects_iff.1 h), hk]
  exact if_pos hi

theorem State.readGroup_flags (hk : x.kind = 9) (hi : x.index = 0) : s.readGroup x = some (s.dev.group s.iss.core x.slot).regs.flags.toNat := by
  rw [State.readGroup, if_neg (State.selects_iff.1 h), hk]
  exact if_pos hi

theorem State.readGroup_sig (hk : x.kind = 10) (hi : x.index = 0) : s.readGroup x = some (s.dev.group s.iss.core x.slot).regs.sig.toNat := by
  rw [State.readGroup, if_neg (State.selects_iff.1 h), hk]
  exact if_pos hi

theorem State.writeGroup_v (hk : x.kind = 0) : s.writeGroup x v = if x.index < s.dev.vregsAt s.iss.core x.slot then
    let g := s.dev.group s.iss.core x.slot
    some ({ g with regs := g.regs.writeV x.index x.lane (v.truncate 32) }.setReady (.v x.index)) else none := by
  rw [State.writeGroup, if_neg (State.selects_iff.1 h), hk]
  rfl

theorem State.writeGroup_s (hk : x.kind = 1) : s.writeGroup x v = if 1 ≤ x.index ∧ x.index ≤ 63 then
    let g := s.dev.group s.iss.core x.slot
    some ({ g with regs := g.regs.writeS x.index v }.setReady (.s x.index)) else none := by
  rw [State.writeGroup, if_neg (State.selects_iff.1 h), hk]
  rfl

theorem State.writeGroup_p (hk : x.kind = 2) : s.writeGroup x v = if 1 ≤ x.index ∧ x.index ≤ 7 then
    let g := s.dev.group s.iss.core x.slot
    some ({ g with regs := g.regs.writeP x.index (v.truncate 32) }.setReady (.p x.index)) else none := by
  rw [State.writeGroup, if_neg (State.selects_iff.1 h), hk]
  rfl

theorem State.writeGroup_flags (hk : x.kind = 9) (hi : x.index = 0) : s.writeGroup x v =
    let g := s.dev.group s.iss.core x.slot
    some { g with regs := { g.regs with flags := v.truncate 5 } } := by
  rw [State.writeGroup, if_neg (State.selects_iff.1 h), hk]
  exact if_pos hi

theorem State.writeGroup_sig (hk : x.kind = 10) (hi : x.index = 0) : s.writeGroup x v =
    let g := s.dev.group s.iss.core x.slot
    some { g with regs := { g.regs with sig := v.truncate 32 } } := by
  rw [State.writeGroup, if_neg (State.selects_iff.1 h), hk]
  exact if_pos hi

end

/-! ## GSTAT, GRESUME, GKILL (R334 to R336) -/

/-- A trap cleared: its split issues again or skips its issue group, and the handler awaits it no more (R335). -/
def Dev.clearTrap (d : Dev) (core slot split : Nat) (skip : Bool) : Dev :=
  (d.modGroup core slot (fun g => { g with trap := none, splits := modSplit g.splits split (fun y => { y with skip := skip }) })).modCore core
    (fun k => { k with waiting := k.waiting.filter (fun v => decide (v.slot ≠ slot)) })

theorem Dev.core_clearTrap (d : Dev) (core slot split : Nat) (skip : Bool) : (d.clearTrap core slot split skip).core core =
    { d.core core with waiting := (d.core core).waiting.filter (fun v => decide (v.slot ≠ slot)) } := Dev.core_modCore_same ..

theorem State.core_herr (s : State) (bad : Bool) : (s.herr bad).dev.core s.iss.core = { s.dev.core s.iss.core with herr := bad } := Dev.core_modCore_same ..

section
variable {s : State} {a : SReg} {slot : Nat} (hslot : (s.rdS a).toNat % 2 ^ 5 = slot)
include hslot

theorem execGstat_unnamed (d : SReg) (h : s.names slot = false) : exec (.gstat d a) s = .next ((s.herr true).wrS d 0) := by
  have hfield : bits (s.rdS a).toNat 4 0 = slot := (bits_low _ 4).trans hslot
  rw [exec_gstat, execGstat, hfield]
  exact if_pos (by rw [h]; rfl)

theorem execGstat_named (d : SReg) (h : s.names slot = true) : exec (.gstat d a) s =
    let g := s.dev.group s.iss.core slot
    .next ((s.herr false).wrS d (BitVec.ofNat 64 (((g.trap.map (fun r => r.cause)).getD 0) * 2 ^ 56 + (if g.held then 2 ^ 55 else 0)
      + (if (g.splits.filterMap id).any (fun y => decide (y.park = .yld)) then 2 ^ 54 else 0) + g.stack.length * 2 ^ 32 + g.alive.toNat))) := by
  have hfield : bits (s.rdS a).toNat 4 0 = slot := (bits_low _ 4).trans hslot
  rw [exec_gstat, execGstat, hfield, if_neg (by rw [h]; decide)]
  dsimp only
  cases (s.dev.group s.iss.core slot).trap <;> rfl

theorem execGresume_nothing (b : SReg) (h : s.names slot = false ∨ (s.dev.group s.iss.core slot).trap = none) :
    exec (.gresume a b) s = .next (s.herr true) := by
  have hfield : bits (s.rdS a).toNat 4 0 = slot := (bits_low _ 4).trans hslot
  rw [exec_gresume, execGresume, hfield]
  rcases h with h | h
  · rw [h]
  · rw [h]
    cases s.names slot <;> rfl

theorem execGresume_clears (b : SReg) {r : TrapRec} (h : s.names slot = true) (hr : (s.dev.group s.iss.core slot).trap = some r) :
    exec (.gresume a b) s = .next ((s.herr false).modDev (·.clearTrap s.iss.core slot r.split ((s.rdS b).getLsbD 0))) := by
  have hfield : bits (s.rdS a).toNat 4 0 = slot := (bits_low _ 4).trans hslot
  rw [exec_gresume, execGresume, hfield, h, hr, bit_zero_eq]
  rfl

theorem execGkill_task (h : s.names slot = true) (h8 : (s.rdS a).toNat / 2 ^ 8 % 2 = 1) :
    Makes s (.gkill a) ((s.herr false).dev.killTask s.served) := by
  have hfield : bits (s.rdS a).toNat 4 0 = slot := (bits_low _ 4).trans hslot
  rw [Makes, exec_gkill, execGkill, hfield, if_neg (by rw [h]; decide), bit, decide_eq_true h8]
  rfl

theorem execGkill_group (h : s.names slot = true) (h8 : (s.rdS a).toNat / 2 ^ 8 % 2 = 0) :
    Makes s (.gkill a) (((s.herr false).dev.killGroup s.iss.core slot).markKilled s.served) := by
  have hfield : bits (s.rdS a).toNat 4 0 = slot := (bits_low _ 4).trans hslot
  rw [Makes, exec_gkill, execGkill, hfield, if_neg (by rw [h]; decide), bit, h8]
  rfl

theorem execGkill_unnamed (h : s.names slot = false) : exec (.gkill a) s = .next (s.herr true) := by
  have hfield : bits (s.rdS a).toNat 4 0 = slot := (bits_low _ 4).trans hslot
  rw [exec_gkill, execGkill, hfield]
  exact if_pos (by rw [h]; rfl)

end

/-! ## The statement -/

/-- Settles O41, kind by kind of the selector; the other words by the group they name. -/
theorem groupInspectionWords : Obligations.GroupInspectionWords := by
  intro s d a b hs x slot kind ix lane g ok vs gives none_ puts w
  have hsel : Selector.of (s.rdS a) = { slot := slot, zero := x / 2 ^ 5 % 2 ^ 3, kind := kind, index := ix, lane := lane } := Selector.of_eq _
  have hok (h : ok) : s.selects { slot := slot, zero := x / 2 ^ 5 % 2 ^ 3, kind := kind, index := ix, lane := lane } := h
  refine ⟨fun h => ?_, fun h hk => ⟨fun hi => ?_, fun hi => ?_⟩, fun h hk => ⟨fun hlow hhigh => ?_, fun hi => ?_⟩,
    fun h hk => ⟨fun hlow hhigh => ?_, fun hi => ?_⟩, fun h hk hi => ⟨fun hy => ?_, fun y hy => ?_⟩, fun h hk hi => ?_, fun h hk hi => ?_,
    fun h hk hi => ?_, fun h hk hi => ?_, fun h => ?_, fun h => ?_,
    fun _ h => execGresume_nothing rfl b (.inr h), fun r h hr => ?_, execGkill_task rfl, execGkill_group rfl⟩
  · rcases h with h | h
    · exact ⟨grd_fails hsel hs d (State.readGroup_unselected h), gwr_fails hsel (State.writeGroup_unselected h)⟩
    · exact ⟨grd_fails hsel hs d (State.readGroup_noKind h), gwr_fails hsel (State.writeGroup_noKind h)⟩
  · exact ⟨grd_gives hsel hs d ((State.readGroup_v (hok h) hk).trans (if_pos hi)), gwr_puts hsel ((State.writeGroup_v (hok h) hk).trans (if_pos hi))⟩
  · exact ⟨grd_fails hsel hs d ((State.readGroup_v (hok h) hk).trans (if_neg hi.not_gt)), gwr_fails hsel ((State.writeGroup_v (hok h) hk).trans (if_neg hi.not_gt))⟩
  · have hin := And.intro hlow hhigh
    exact ⟨grd_gives hsel hs d ((State.readGroup_s (hok h) hk).trans (if_pos hin)), gwr_puts hsel ((State.writeGroup_s (hok h) hk).trans (if_pos hin))⟩
  · have hout : ¬ (1 ≤ ix ∧ ix ≤ 63) := by omega
    exact ⟨grd_fails hsel hs d ((State.readGroup_s (hok h) hk).trans (if_neg hout)), gwr_fails hsel ((State.writeGroup_s (hok h) hk).trans (if_neg hout))⟩
  · have hin := And.intro hlow hhigh
    exact ⟨grd_gives hsel hs d ((State.readGroup_p (hok h) hk).trans (if_pos hin)), gwr_puts hsel ((State.writeGroup_p (hok h) hk).trans (if_pos hin))⟩
  · have hout : ¬ (1 ≤ ix ∧ ix ≤ 7) := by omega
    exact ⟨grd_fails hsel hs d ((State.readGroup_p (hok h) hk).trans (if_neg hout)), gwr_fails hsel ((State.writeGroup_p (hok h) hk).trans (if_neg hout))⟩
  · exact grd_gives hsel hs d (State.readGroup_noSplit (hok h) hk hi hy)
  · exact grd_gives hsel hs d (State.readGroup_split (hok h) hk hi hy)
  · exact grd_gives hsel hs d (State.readGroup_depth (hok h) hk hi)
  · exact grd_gives hsel hs d (State.readGroup_counters (hok h) hk hi)
  · exact ⟨grd_gives hsel hs d (State.readGroup_flags (hok h) hk hi), gwr_puts hsel (State.writeGroup_flags (hok h) hk hi)⟩
  · exact ⟨grd_gives hsel hs d (State.readGroup_sig (hok h) hk hi), gwr_puts hsel (State.writeGroup_sig (hok h) hk hi)⟩
  · exact ⟨leaves_of_exec hs (execGstat_unnamed rfl d h), execGresume_nothing rfl b (.inl h), execGkill_unnamed rfl h⟩
  · exact leaves_of_exec hs (execGstat_named rfl d h)
  · have hgroup : s.dev.hasGroup s.iss.core slot = true := (Bool.and_eq_true_iff.1 h).1
    refine ⟨_, execGresume_clears rfl b h hr, rfl, rfl, Dev.group_modGroup _ _ _ _ hgroup, ?_, fun k hk => Dev.find_modGroup_ne _ _ _ _ _ hk⟩
    exact (Dev.core_clearTrap ..).trans (by rw [State.core_herr])

end Sys2Proof.Machine
end

section
/-! SUPPORT. LNCH and QCFG (R306, R311, R317, R318): the checks of a launch and of a queue record. -/

namespace Sys2Proof.Machine

open Sys2Proof.Claims

/-- A word whose record is there goes on with it. -/
theorem State.withRecord_got {s u : State} {addr n : Nat} {ws : List W64} (h : s.loadRecord addr n = .got u ws) (k : State → List W64 → State) :
    s.withRecord addr n k = k u ws := by
  rw [State.withRecord, h]

/-! ## LNCH (R311, R317) -/

/-- The status of a well-formed record by the first check that fails (R317). -/
theorem Dev.launchStatus_eq (d : Dev) {g : Grid} {q : Queue} (hq : d.queue g.queue = q) (w : Nat) : d.launchStatus g w =
    if g.need.fits = false then 2 else if q.en = false ∨ (q.world ≠ w ∧ w ≠ 0) then 3
    else if g.coRes = true ∧ d.fitsEmpty g = false then 4 else if 4096 ≤ d.grids.length then 5 else 0 := by
  simp only [Dev.launchStatus, hq, Bool.not_eq_true']

/-- A grid accepted, with LNCH's result: its launch id (R317). -/
def State.launch (v : State) (g : Grid) (d : SReg) : State := ({ v with dev := (v.dev.accept g).2 } : State).wrS d (statusWord 0 v.dev.nextLaunch)

section
variable {s u : State} {d a : SReg} {ws : List W64} (ht : s.needToken = none) (hd : StoresDone s)
  (hload : s.loadRecord (s.rdS a).toNat 128 = .got u ws)
include ht hd hload

theorem execLnch_malformed (h : u.dev.badRecord ws = true) : exec (.lnch d a) s = .next (u.wrS d (statusWord 1 0)) := by
  rw [exec_lnch, execLnch, State.irrevocably_noToken ht, State.afterStores_done hd, State.raised_domain, State.withRecord_got hload]
  exact congrArg Host.Outcome.next (if_pos h)

theorem execLnch_tables {v : State} {ts : List W64} {g : Grid} (h : u.dev.badRecord ws = false)
    (htables : u.loadRecords 16 (tableAddrs ws) = .got v ts)
    (hg : gridOfRecord ws (tableOf ts) (v.dev.queue (wordN ws 3 % 64)).world = g) :
    exec (.lnch d a) s = .next (if tableOk (tableOf ts) = false then v.wrS d (statusWord 1 0)
      else if v.dev.launchStatus g (v.dev.core u.iss.core).world ≠ 0 then
        v.wrS d (statusWord (v.dev.launchStatus g (v.dev.core u.iss.core).world) 0)
      else v.launch g d) := by
  rw [exec_lnch, execLnch, State.irrevocably_noToken ht, State.afterStores_done hd, State.raised_domain, State.withRecord_got hload]
  simp only [h, htables, bits_low, Bool.false_eq_true, if_false, Bool.not_eq_true', ← hg]
  rfl

end

/-! ## QCFG (R306, R318) -/

theorem exec_qcfg {s : State} {i : Instr} {d a b : SReg} (hi : i ∈ [Instr.qcfgConfigure d a b, .qcfgDisable d a b, .qcfgMask d a b, .qcfgRead d a b]) :
    exec i s = .next (s.qcfg d a b) := by
  simp only [List.mem_cons, List.not_mem_nil, or_false] at hi
  rcases hi with rfl | rfl | rfl | rfl <;> rfl

section
variable {d : Dev} {q : Nat} {ws : List W64}

theorem Dev.installQueue_bad (h : badQueue ws = true) : d.installQueue q ws = (2, d) := if_pos h

/-- Whether a queue record changes what a queue in use must keep (R318). -/
def Dev.queueLocked (d : Dev) (q : Nat) (ws : List W64) : Prop :=
  let old := d.queue q
  let new := old.ofRecord ws
  (new.world ≠ old.world ∨ new.asn ≠ old.asn ∨ new.root ≠ old.root) ∧ d.queueBusy q = true

theorem Dev.installQueue_locked (h : badQueue ws = false) (hl : d.queueLocked q ws) : d.installQueue q ws = (1, d) :=
  (if_neg (ne_true_of_eq_false h)).trans (if_pos hl)

theorem Dev.installQueue_done (h : badQueue ws = false) (hl : ¬ d.queueLocked q ws) :
    d.installQueue q ws = (0, d.modQueue q (fun k => k.ofRecord ws)) :=
  (if_neg (ne_true_of_eq_false h)).trans (if_neg hl)

end

section
variable {s : State} {b : SReg} {q : Nat} (d a : SReg) (ht : s.needToken = none) (hq : (s.rdS b).toNat % 64 = q)
include ht hq

theorem State.qcfg_configure {u : State} {ws : List W64} (hop : (s.rdS b).toNat / 2 ^ 8 % 4 = 0) (hload : s.loadRecord (s.rdS a).toNat 64 = .got u ws) :
    s.qcfg d a b = ({ u with dev := (u.dev.installQueue q ws).2 } : State).wrS d (BitVec.ofNat 64 (u.dev.installQueue q ws).1) := by
  have hfield : bits (s.rdS b).toNat 5 0 = q := (bits_low _ 5).trans hq
  have hop' : bits (s.rdS b).toNat 9 8 = 0 := hop
  rw [State.qcfg, State.irrevocably_noToken ht, hfield, hop']
  exact State.withRecord_got hload _

theorem State.qcfg_disable (hop : (s.rdS b).toNat / 2 ^ 8 % 4 = 1) :
    s.qcfg d a b = (s.modDev (fun x => x.modQueue q (fun k => { k with en := false }))).wrS d 0 := by
  have hfield : bits (s.rdS b).toNat 5 0 = q := (bits_low _ 5).trans hq
  have hop' : bits (s.rdS b).toNat 9 8 = 1 := hop
  rw [State.qcfg, State.irrevocably_noToken ht, hfield, hop']
  rfl

theorem State.qcfg_mask {u : State} {ws : List W64} (hop : (s.rdS b).toNat / 2 ^ 8 % 4 = 2) (hload : s.loadRecord (s.rdS a).toNat 32 = .got u ws) :
    s.qcfg d a b = (u.modDev (fun x => x.modQueue q (fun k => { k with
      mask := BitVec.ofNat 256 (wordN ws 0 + wordN ws 1 * 2 ^ 64 + wordN ws 2 * 2 ^ 128 + wordN ws 3 * 2 ^ 192) }))).wrS d 0 := by
  have hfield : bits (s.rdS b).toNat 5 0 = q := (bits_low _ 5).trans hq
  have hop' : bits (s.rdS b).toNat 9 8 = 2 := hop
  rw [State.qcfg, State.irrevocably_noToken ht, hfield, hop']
  exact State.withRecord_got hload _

theorem State.qcfg_read (hop : (s.rdS b).toNat / 2 ^ 8 % 4 = 3) : s.qcfg d a b = s.wrS d (BitVec.ofNat 64 (s.dev.queueWord q)) := by
  have hfield : bits (s.rdS b).toNat 5 0 = q := (bits_low _ 5).trans hq
  have hop' : bits (s.rdS b).toNat 9 8 = 3 := hop
  rw [State.qcfg, State.irrevocably_noToken ht, hfield, hop']
  rfl

end

end Sys2Proof.Machine
end

section
/-! SUPPORT. MBIND and MBOXQ (R319, R320); and the statement about launch and queue words. -/

namespace Sys2Proof.Machine

open Sys2Proof.Claims

/-! ## MBIND (R319) -/

theorem linesFilled_recallAll (d : Dev) (line : Nat) : LinesFilled d (d.recallAll line) :=
  .foldl (fun e (c : Nat × Core) => linesFilled_l1Drop e c.1 line) _ d

theorem exec_mbind {s : State} {i : Instr} {d a b : SReg} (hi : i ∈ [Instr.mbindBind d a b, .mbindUnbind d a b]) : exec i s = .next (s.mbind d a b) := by
  simp only [List.mem_cons, List.not_mem_nil, or_false] at hi
  rcases hi with rfl | rfl <;> rfl

/-- A binding ended: what it had pending is counted as lost. -/
def Mailbox.unbound (m : Mailbox) : Mailbox :=
  { m with bound := false, ovf := min (m.ovf + m.pend.length + m.arrived.length) (2 ^ 32 - 1), pend := [], arrived := [] }

/-- A binding installed; copies of its trigger's line are given up first, where the trigger is in local memory. -/
def Dev.installBox (d : Dev) (n : Nat) (m : Mailbox) : Dev :=
  (if m.kind = 0 then d.recallAll (m.trig / 128) else d).modBox n (fun _ => m)

section
variable {s : State} {b : SReg} {n : Nat} (d a : SReg) (ht : s.needToken = none) (hn : (s.rdS b).toNat % 2 ^ 12 = n)
include ht hn

theorem State.mbind_unbind (hop : (s.rdS b).toNat / 2 ^ 12 % 2 = 1) : s.mbind d a b =
    if (s.dev.box n).bound = false then s.wrS d 1 else if s.bindAllowed n (s.dev.box n) = false then s.wrS d 3
    else (s.modDev (·.modBox n Mailbox.unbound)).wrS d 0 := by
  have hfield : bits (s.rdS b).toNat 11 0 = n := (bits_low _ 11).trans hn
  rw [State.mbind, State.irrevocably_noToken ht, hfield]
  refine (if_pos (decide_eq_true hop)).trans ?_
  simp only [Bool.not_eq_true']
  rfl

section
variable {u v : State} {im ws rec_ : List W64} (hop : (s.rdS b).toNat / 2 ^ 12 % 2 = 0) (him : s.loadRecord (s.rdS a).toNat 32 = .got u im)
  (hws : u.loadRecord (wordN im 2 % 2 ^ 54) 128 = .got v ws) (hrec : handlerRecord ws (wordN im 1 % 2 ^ 54) (wordN im 3 % 64) = rec_)
include hop him hws hrec

/-- MBIND that binds, once the image and the handler's record are there, by the first check that fails. -/
theorem State.mbind_bind :
    ((v.dev.box n).bound = true → s.mbind d a b = v.wrS d 1)
    ∧ ((v.dev.box n).bound = false → badImage im = true ∨ v.dev.badRecord rec_ = true → s.mbind d a b = v.wrS d 2)
    ∧ ∀ w ts, (v.dev.box n).bound = false → ¬ (badImage im = true ∨ v.dev.badRecord rec_ = true) → v.loadRecords 16 (tableAddrs rec_) = .got w ts →
        s.mbind d a b =
          let m := (v.dev.box n).ofImage im ws (tableOf ts)
          if tableOk (tableOf ts) = false ∨ w.dev.trigTaken m = true then w.wrS d 2 else if w.bindAllowed n m = false then w.wrS d 3
          else (w.modDev (·.installBox n m)).wrS d 0 := by
  have hfield : bits (s.rdS b).toNat 11 0 = n := (bits_low _ 11).trans hn
  have hbit : ¬ bit (s.rdS b).toNat 12 = true := by rw [bit, hop]; decide
  have haddr : bits (wordN im 2) 53 0 = wordN im 2 % 2 ^ 54 := bits_low _ 53
  have hrec' : handlerRecord ws (bits (wordN im 1) 53 0) (bits (wordN im 3) 5 0) = rec_ := by
    rw [bits_low, bits_low]
    exact hrec
  rw [State.mbind, State.irrevocably_noToken ht, hfield]
  dsimp only
  rw [if_neg hbit, State.withRecord_got him, haddr, State.withRecord_got hws, hrec']
  simp only [Bool.or_eq_true, Bool.not_eq_true']
  refine ⟨fun hb => if_pos hb, fun hb hbad => (if_neg (ne_true_of_eq_false hb)).trans (if_pos hbad), fun w ts hb hok htables => ?_⟩
  refine (if_neg (ne_true_of_eq_false hb)).trans ((if_neg hok).trans ?_)
  rw [htables]
  rfl

end

end

/-! ## MBOXQ (R320) -/

theorem exec_mboxq {s : State} {i : Instr} {d a : SReg} (hi : i ∈ [Instr.mboxqRead d a, .mboxqClearOverflow d a, .mboxqDiscardPending d a]) :
    exec i s = .next (s.mboxq d a) := by
  simp only [List.mem_cons, List.not_mem_nil, or_false] at hi
  rcases hi with rfl | rfl | rfl <;> rfl

/-- A binding after MBOXQ's operation. -/
def Mailbox.after (op : Nat) (m : Mailbox) : Mailbox := if op = 1 then { m with ovf := 0 } else if op = 2 then { m with pend := [] } else m

theorem State.mboxq_eq {s : State} (ht : s.needToken = none) (d : SReg) {a : SReg} {n op : Nat} (hn : (s.rdS a).toNat % 2 ^ 12 = n)
    (hop : (s.rdS a).toNat / 2 ^ 12 % 4 = op) : s.mboxq d a =
      let w := (s.dev.core s.iss.core).world
      if w = 0 ∨ s.iss.slot = handlerSlot ∨ (s.dev.queue (s.dev.box n).queue).world = w then
        (s.modDev (·.modBox n (Mailbox.after op))).wrS d (BitVec.ofNat 64 (s.dev.box n).status)
      else s.wrS d 0 := by
  have hfield : bits (s.rdS a).toNat 11 0 = n := (bits_low _ 11).trans hn
  have hop' : bits (s.rdS a).toNat 13 12 = op := hop
  rw [State.mboxq, hfield, hop', State.irrevocably_noToken ht, ite_self]
  dsimp only
  rw [← ite_not]
  exact if_congr (by simp only [not_and_or, not_not, ne_eq]) rfl rfl

/-! ## The statement -/

/-- Settles O40, word by word: each by the first of its checks that fails, and by what it leaves where none does. -/
theorem launchAndQueueWords : Obligations.LaunchAndQueueWords := by
  intro s d a b hs ht x y world
  refine ⟨fun hd u ws hload hu => ⟨fun hbad => leaves_of_exec hu (execLnch_malformed ht hd hload hbad), fun hok v ts htables hv => ?_⟩, fun i hi => ?_,
    fun i hi => ?_, fun i hi => ?_⟩
  · intro g q w out apart
    have hexec := execLnch_tables (d := d) ht hd hload hok htables (g := g) rfl
    have hstatus := v.dev.launchStatus_eq (g := g) (q := q) (congrArg v.dev.queue (bits_low _ 5)) w
    have hfails {n : Nat} (htab : tableOk (tableOf ts) = true) (hn : v.dev.launchStatus g w = n) (h0 : n ≠ 0) :
        Leaves s (.lnch d a) v d (statusWord n 0) := by
      refine leaves_of_exec hv (hexec.trans (congrArg Host.Outcome.next ?_))
      rw [if_neg (by rw [htab]; decide), show v.dev.launchStatus g (v.dev.core u.iss.core).world = n from hn, if_pos h0]
    refine ⟨fun htab => leaves_of_exec hv (hexec.trans (congrArg Host.Outcome.next (if_pos htab))), fun htab hfits => hfails htab ?_ (by decide),
      fun htab hfits hout => hfails htab ?_ (by decide), fun htab hfits hout hapart => hfails htab ?_ (by decide),
      fun htab hfits hout hapart hfull => hfails htab ?_ (by decide), fun htab hfits hout hapart hroom => ?_⟩
    · rw [hstatus, if_pos hfits]
    · rw [hstatus, if_neg (ne_false_of_eq_true hfits), if_pos hout]
    · rw [hstatus, if_neg (ne_false_of_eq_true hfits), if_neg hout, if_pos hapart]
    · rw [hstatus, if_neg (ne_false_of_eq_true hfits), if_neg hout, if_neg hapart, if_pos hfull]
    · rw [if_neg (ne_false_of_eq_true hfits), if_neg hout, if_neg hapart, if_neg hroom.not_ge] at hstatus
      rw [if_neg (ne_false_of_eq_true htab), if_neg (not_not_intro hstatus)] at hexec
      exact ⟨_, hexec, rfl, State.regs_wrS_of_groups hv rfl d _, rfl⟩
  · intro q op
    have hexec := exec_qcfg (s := s) hi
    refine ⟨fun hop u ws hload hu => ?_, fun hop => ?_, fun hop u ws hload hu => ?_, fun hop => givesS_of_exec hs ?_⟩
    · intro old new locked
      rw [State.qcfg_configure d a ht rfl hop hload] at hexec
      refine ⟨fun hbad => leaves_of_exec hu ?_, fun hok hl => leaves_of_exec hu ?_, fun hok hl => ?_⟩
      · rw [hexec, Dev.installQueue_bad hbad]
        rfl
      · rw [hexec, Dev.installQueue_locked hok hl]
        rfl
      · rw [Dev.installQueue_done hok hl] at hexec
        exact ⟨_, hexec, rfl, State.regs_wrS_of_groups hu rfl d 0, rfl⟩
    · rw [State.qcfg_disable d a ht rfl hop] at hexec
      exact ⟨_, hexec, rfl, State.regs_wrS_of_groups hs rfl d 0, rfl⟩
    · rw [State.qcfg_mask d a ht rfl hop hload] at hexec
      exact ⟨_, hexec, rfl, State.regs_wrS_of_groups hu rfl d 0, rfl⟩
    · exact hexec.trans (congrArg Host.Outcome.next (State.qcfg_read d a ht rfl hop))
  · intro n m
    have hexec := exec_mbind (s := s) hi
    refine ⟨fun hop => ?_, fun hop u im v ws him hws hv => ?_⟩
    · rw [State.mbind_unbind d a ht rfl hop] at hexec
      refine ⟨fun hb => givesS_of_exec hs ?_, fun hb hall => givesS_of_exec hs ?_, fun hb hall => ?_⟩
      · rwa [if_pos hb] at hexec
      · rwa [if_neg (ne_false_of_eq_true hb), if_pos hall] at hexec
      · rw [if_neg (ne_false_of_eq_true hb), if_neg (ne_false_of_eq_true hall)] at hexec
        exact ⟨_, hexec, rfl, State.regs_wrS_of_groups hs rfl d 0, rfl⟩
    · intro rec_ bad
      obtain ⟨htaken, hmalformed, htables⟩ := State.mbind_bind d a ht (n := n) rfl hop him hws rfl
      refine ⟨fun hb => leaves_of_exec hv ?_, fun hb hbad => leaves_of_exec hv ?_, fun hb hok w ts hload hw => ?_⟩
      · rw [hexec, htaken hb]
      · rw [hexec, hmalformed hb hbad]
      · intro m not_ e
        rw [htables w ts hb hok hload] at hexec
        refine ⟨fun hnot => leaves_of_exec hw ?_, fun hnot hall => leaves_of_exec hw ?_, fun hnot hall => ?_⟩
        · exact hexec.trans (congrArg Host.Outcome.next (if_pos hnot))
        · exact hexec.trans (congrArg Host.Outcome.next ((if_neg hnot).trans (if_pos hall)))
        · have hgroups : e.groups = w.dev.groups := by
            unfold e
            split_ifs
            · exact (linesFilled_recallAll ..).groups
            · rfl
          have hrun : e.hasGroup w.iss.core w.iss.slot = true := (congrArg (fun t => (Tab.find t _).isSome) hgroups).trans hw
          refine ⟨_, hexec.trans (congrArg Host.Outcome.next ((if_neg hnot).trans (if_neg (ne_false_of_eq_true hall)))), rfl, ?_, rfl⟩
          exact congrArg Group.regs (State.grp_wrS (w.modDev (·.installBox n m)) d 0 hrun)
  · intro n op m seen
    have hexec := (exec_mboxq hi).trans (congrArg Host.Outcome.next (State.mboxq_eq ht d (n := n) (op := op) rfl rfl))
    refine ⟨fun hn => givesS_of_exec hs (hexec.trans (congrArg Host.Outcome.next (if_neg hn))), fun hseen => ?_⟩
    exact ⟨_, hexec.trans (congrArg Host.Outcome.next (if_pos hseen)), rfl, State.regs_wrS_of_groups hs rfl d _, rfl⟩

end Sys2Proof.Machine
end

section
/-! SUPPORT. What the end of a migration period does to a table of frames that lists a frame twice (R324). -/

namespace Sys2Proof.Machine

open Sys2Proof.Claims

/-- A frame that begins to move goes to its target die, with another in exchange or not. -/
theorem Dev.moving_beginMove {d : Dev} {f die n : Nat} (h : (d.frame f).moving = none) (hp : d.leastUsed die ≠ some f) :
    ((d.beginMove (f, die, n)).frame f).moving = some (die, 0) := by
  have hframe (e : Dev) (p q : Nat) (g : Frame → Frame) : (e.modFrame p g).frame q = if q = p then g (e.frame p) else e.frame q := Tab.get_insert ..
  unfold Dev.beginMove
  simp only [h, Option.isSome_none, Bool.false_eq_true, if_false]
  split
  case h_1 p hsome =>
    have hne : f ≠ p := by
      rintro rfl
      split_ifs at hsome
      exact hp hsome
    rw [hframe, if_neg hne, hframe, if_pos rfl]
  case h_2 =>
    rw [hframe, if_pos rfl]

/-- A table of frames that lists frame 0 twice: the entry that is read is pinned, the one behind it counts fills from die 1. -/
def frameListedTwice : Tab Frame := [(0, { Frame.reset with pinned := true }), (0, { Frame.reset with fills := [0, 1025, 0, 0] })]

/-- A machine at rest with that table. -/
def migrationState : State := { State.reset with dev := { Dev.reset with frames := frameListedTwice } }

/-- Candidates are sought among the listed entries, so frame 0 is one for the entry that is not read. -/
theorem movers_migrationState : migrationState.dev.movers = [(0, 1, 1025)] := by decide

theorem leastUsed_migrationState : migrationState.dev.leastUsed 1 = some (2 ^ 21) := by decide

theorem execMigrationPeriodEnd_migrationState : ∃ t, exec .migrationPeriodEnd migrationState = .next t
    ∧ t.dev.frames = Tab.mapV (migrationState.dev.beginMove (0, 1, 1025)).frames (fun _ x => { x with fills := [0, 0, 0, 0] }) := by
  refine ⟨_, rfl, ?_⟩
  rw [movers_migrationState]
  rfl

/-- Refutes O45: that a pinned frame does not begin to move. A state may list a frame twice; the pin is that of the entry that is read, while the period's end
seeks its candidates among all entries, and finds frame 0 by the second one. -/
theorem not_gridAndPageSteps : ¬ Obligations.GridAndPageSteps := by
  intro h
  obtain ⟨-, -, -, -, -, -, -, -, -, ⟨t, ht, -, hframes⟩, -⟩ := h migrationState 0
  obtain ⟨u, hu, huframes⟩ := execMigrationPeriodEnd_migrationState
  cases ht.symm.trans hu
  obtain ⟨y, hy, -, hpinned, -⟩ := hframes 0 { Frame.reset with pinned := true } rfl
  have hstays : y.moving = none := (hpinned (.inl rfl)).1
  have hmoves : ((migrationState.dev.beginMove (0, 1, 1025)).frame 0).moving = some (1, 0) :=
    Dev.moving_beginMove rfl (by rw [leastUsed_migrationState]; decide)
  rw [huframes, Tab.find_mapV] at hy
  obtain ⟨z, hz, rfl⟩ := Option.map_eq_some_iff.1 hy
  rw [Dev.frame, Tab.get, hz] at hmoves
  exact absurd (hmoves.symm.trans hstays) (by decide)

end Sys2Proof.Machine
end

section
/-! SUPPORT. Sessions (R299, R304, R387, R390, R391): their set-up, their states and their heartbeats. -/

namespace Sys2Proof.Machine

open Sys2Proof.Claims

/-- The device with a session put under its number. -/
def Dev.putSession (d : Dev) (n : Nat) (x : Session) : Dev := { d with sessions := Tab.insert d.sessions n x }

theorem Dev.modSession_eq {d : Dev} {n : Nat} {x : Session} (h : Tab.find d.sessions n = some x) (f : Session → Session) :
    d.modSession n f = d.putSession n (f x) := by
  rw [Dev.modSession, Tab.modify, h]
  rfl

theorem Dev.errorSession_eq {d : Dev} {n : Nat} {x : Session} (h : Tab.find d.sessions n = some x) :
    d.errorSession n = d.putSession n { x with st := .error } := Dev.modSession_eq h _

/-! ## KEY_EXCHANGE (R387) -/

section
variable {s : State} {n slot : Nat} {x : Session} (key : BitVec 256) (hx : (Tab.find s.dev.sessions n).getD (newSession n) = x)
include hx

theorem keyExchange_notDue (h : ¬ (sessionNumber n = true ∧ slot / 2 = x.world ∧ x.st ≠ .error)) : NotDue s (.keyExchange n slot key) := by
  simp only [NotDue, exec_keyExchange, execKeyExchange, hx]
  refine if_pos ?_
  simpa only [not_and_or, Bool.not_eq_true', Bool.not_eq_true, not_not, ne_eq] using h

theorem execKeyExchange_due (h : sessionNumber n = true ∧ slot / 2 = x.world ∧ x.st ≠ .error) : ∃ rest, exec (.keyExchange n slot key) s =
    .next { s with dev := { s.dev with keys := Tab.insert s.dev.keys slot key, sessions := Tab.insert rest n x } } := by
  obtain ⟨hn, hslot, hst⟩ := h
  simp only [exec_keyExchange, execKeyExchange, hx]
  exact ⟨_, if_neg (by simp [hn, hslot, hst])⟩

end

/-! ## A session's own steps -/

theorem notDue_of_no_session {s : State} {n : Nat} (h : Tab.find s.dev.sessions n = none) (e m : Bool) :
    NotDue s (.finish n) ∧ NotDue s (.endSession n) ∧ NotDue s (.start n e m) ∧ NotDue s (.stop n)
      ∧ NotDue s (.heartbeatSend n) ∧ NotDue s (.heartbeatTimeout n) ∧ NotDue s (.lock n)
      ∧ NotDue s (.sessionConfigWrite n) ∧ NotDue s (.heartbeat n) := by
  have hmod (f : Session → Session) : s.modDev (fun d => d.modSession n f) = s := by
    simp only [State.modDev, Dev.modSession, Tab.modify, h]
  have hbeat : s.modDev (fun d => d.modSession n (fun x => if x.st = .run then { x with lastBeat := d.time } else x)) = s := hmod _
  simp [NotDue, execFinish, execEndSession, execStart, execStop, execHeartbeatSend, execHeartbeatTimeout, execLock, execSessionConfigWrite,
    execHeartbeat, h, hmod, hbeat]

section
variable {s : State} {n : Nat} {x : Session} (hx : Tab.find s.dev.sessions n = some x)
include hx

theorem finish_noKey (h : Tab.find s.dev.keys (2 * x.world) = none) : NotDue s (.finish n) := by
  simp only [NotDue, exec_finish, execFinish, hx]
  exact if_pos (Option.isNone_iff_eq_none.2 h)

section
variable (h : Tab.find s.dev.keys (2 * x.world) ≠ none)
include h

theorem finish_world (hp : x.port = none) : Makes s (.finish n) (s.dev.putSession n { x with keyed := true }) := by
  simp only [Makes, exec_finish, execFinish, hx, Dev.modSession_eq hx, hp]
  exact if_neg (Option.isNone_iff_eq_none.not.2 h)

theorem finish_link {p : Nat} (hp : x.port = some p) (hst : x.st ≠ .run) : Makes s (.finish n)
    ((s.dev.putSession n { x with keyed := true }).modLink (s.dev.linkOfPort p) (fun k => { k with sendCtr := 0, recvCtr := 0, exhausted := none })) := by
  simp only [Makes, exec_finish, execFinish, hx, Dev.modSession_eq hx, hp, if_neg hst]
  exact if_neg (Option.isNone_iff_eq_none.not.2 h)

theorem finish_running {p : Nat} (hp : x.port = some p) (hst : x.st = .run) : Makes s (.finish n) (s.dev.putSession n { x with keyed := true }) := by
  simp only [Makes, exec_finish, execFinish, hx, Dev.modSession_eq hx, hp, if_pos hst]
  exact if_neg (Option.isNone_iff_eq_none.not.2 h)

end

theorem endSession_makes : Makes s (.endSession n)
    (let d : Dev := { s.dev with sessions := Tab.erase s.dev.sessions n }
     (if d.sessions.any (fun y => decide (y.1 ≠ n ∧ y.2.world = x.world)) then d else d.eraseKeys x.world).flushStranded) := by
  simp only [Makes, exec_endSession, execEndSession, hx, Dev.otherSession, Bool.and_true]

theorem lock_makes : Makes s (.lock n) (s.dev.putSession n (if x.st = .unlocked then { x with st := .locked } else x)) := by
  simp only [Makes, exec_lock, execLock, State.modDev, Dev.modSession_eq hx]

/-- What START asks of its session: it is locked, has its keys, and the peer's evidence passes (R390, R394). -/
def Session.mayStart (x : Session) (policy : BitVec 2) (e m : Bool) : Prop := x.st = .locked ∧ x.keyed = true ∧ evidencePasses policy e m = true

omit hx in
theorem Session.not_mayStart_iff (policy : BitVec 2) (e m : Bool) :
    ¬ x.mayStart policy e m ↔ x.st ≠ .locked ∨ (!x.keyed) = true ∨ (!evidencePasses policy e m) = true := by
  simp only [Session.mayStart, not_and_or, Bool.not_eq_true, Bool.not_eq_true', ne_eq]

section
variable {e m : Bool}

theorem start_notDue (h : ¬ x.mayStart s.dev.policy e m) : NotDue s (.start n e m) := by
  simp only [NotDue, exec_start, execStart, hx]
  exact if_pos ((Session.not_mayStart_iff ..).1 h)

variable (h : x.mayStart s.dev.policy e m)
include h

theorem start_world (hp : x.port = none) : Makes s (.start n e m)
    (let d := s.dev.putSession n { x with st := .run, lastBeat := s.dev.time, lastSent := s.dev.time }
     ({ d with expelled := d.expelled.filter (fun w => decide (w ≠ x.world)) }.withdrawAll (expelMark x.world))) := by
  simp only [Makes, exec_start, execStart, hx, Dev.modSession_eq hx, hp]
  exact if_neg ((Session.not_mayStart_iff ..).not.1 (not_not_intro h))

theorem start_link {p : Nat} (hp : x.port = some p) : Makes s (.start n e m)
    (let d := s.dev.putSession n { x with st := .run, lastBeat := s.dev.time, lastSent := s.dev.time }
     (d.modLink (d.linkOfPort p) (fun k => { k with peerDecodes := decide (x.peer ≠ hostPeer) })).flushStranded) := by
  simp only [Makes, exec_start, execStart, hx, Dev.modSession_eq hx, hp]
  exact if_neg ((Session.not_mayStart_iff ..).not.1 (not_not_intro h))

end

theorem stop_notDue (h : x.st ≠ .error) : NotDue s (.stop n) := by
  simp only [NotDue, exec_stop, execStop, hx]
  exact if_pos h

/-- The device as STOP leaves its session and its link: unlocked, with no keys and no secret. -/
def Dev.unlock (d : Dev) (n : Nat) (x : Session) : Dev :=
  let d0 := d.putSession n { x with st := .unlocked, keyed := false }
  match x.port with
  | some p => d0.modLink (d0.linkOfPort p) (fun k => { k with secret := 0 })
  | none => d0

theorem stop_due (h : x.st = .error) : Makes s (.stop n)
    (let d := s.dev.unlock n x
     (if d.otherSession n x.world (fun y => y.keyed) then d else d.eraseKeys x.world).flushStranded) := by
  simp only [Makes, exec_stop, execStop, hx, Dev.modSession_eq hx]
  exact if_neg (not_not_intro h)

theorem sessionConfigWrite_notDue (h : ¬ (x.st = .locked ∨ x.st = .run)) : NotDue s (.sessionConfigWrite n) := by
  simp only [NotDue, exec_sessionConfigWrite, execSessionConfigWrite, hx]
  exact if_neg h

theorem sessionConfigWrite_world (h : x.st = .locked ∨ x.st = .run) (hp : x.port = none) :
    Makes s (.sessionConfigWrite n) (s.dev.putSession n { x with st := .error }) := by
  simp only [Makes, exec_sessionConfigWrite, execSessionConfigWrite, hx, hp, State.modDev, Dev.errorSession_eq hx]
  exact if_pos h

theorem sessionConfigWrite_link (h : x.st = .locked ∨ x.st = .run) {p : Nat} (hp : x.port = some p) :
    let d := s.dev.putSession n { x with st := .error }
    Makes s (.sessionConfigWrite n) (d.linkLost (d.linkOfPort p)) := by
  simp only [Makes, exec_sessionConfigWrite, execSessionConfigWrite, hx, hp, State.modDev, Dev.errorSession_eq hx]
  exact if_pos h

/-! ## Heartbeats (R391) -/

theorem heartbeat_makes : Makes s (.heartbeat n) (s.dev.putSession n (if x.st = .run then { x with lastBeat := s.dev.time } else x)) := by
  simp only [Makes, exec_heartbeat, execHeartbeat, State.modDev, Dev.modSession_eq hx]

/-- The heartbeat of a session. -/
def Session.beat (x : Session) : Msg :=
  { kind := 8, win := 0, va := 0, tag := 0, len := 0, op := 0, scope := 0, tkt := 0, data := [], peer := x.peer, world := x.world }

/-- A world session that runs and whose time of a kind has come. -/
def Session.timed (x : Session) (at_ now : Nat) : Prop := x.port = none ∧ x.st = .run ∧ at_ ≤ now

omit hx in
theorem Session.not_timed_iff (at_ now : Nat) : ¬ x.timed at_ now ↔ x.port.isSome = true ∨ x.st ≠ .run ∨ now < at_ := by
  simp only [Session.timed, not_and_or, Option.isSome_iff_ne_none, Nat.not_le, ne_eq]

theorem heartbeatSend_notDue (h : ¬ x.timed (x.lastSent + 100 * usTime) s.dev.time) : NotDue s (.heartbeatSend n) := by
  simp only [NotDue, exec_heartbeatSend, execHeartbeatSend, hx]
  exact if_pos ((Session.not_timed_iff ..).1 h)

theorem heartbeatSend_due (h : x.timed (x.lastSent + 100 * usTime) s.dev.time) : Makes s (.heartbeatSend n)
    (let d := s.dev.putSession n { x with lastSent := s.dev.time }
     if x.peer = hostPeer then d else d.sendMsg 3 x.beat) := by
  simp only [Makes, exec_heartbeatSend, execHeartbeatSend, hx, Dev.modSession_eq hx]
  exact if_neg ((Session.not_timed_iff ..).not.1 (not_not_intro h))

theorem heartbeatTimeout_notDue (h : ¬ x.timed (x.lastBeat + s.dev.param 3 * usTime) s.dev.time) : NotDue s (.heartbeatTimeout n) := by
  simp only [NotDue, exec_heartbeatTimeout, execHeartbeatTimeout, hx]
  exact if_pos ((Session.not_timed_iff ..).1 h)

theorem heartbeatTimeout_due (h : x.timed (x.lastBeat + s.dev.param 3 * usTime) s.dev.time) :
    Makes s (.heartbeatTimeout n) ((s.dev.putSession n { x with st := .error }).expel x.world) := by
  simp only [Makes, exec_heartbeatTimeout, execHeartbeatTimeout, hx, State.modDev, Dev.errorSession_eq hx]
  exact if_neg ((Session.not_timed_iff ..).not.1 (not_not_intro h))

end

end Sys2Proof.Machine
end

section
/-! SUPPORT. Promotion of keys and the sweep of CXL-attached lines (R388, R389); and the statement about sessions. -/

namespace Sys2Proof.Machine

open Sys2Proof.Claims

/-! ## Promotion and the sweep (R388, R389) -/

theorem Dev.promote_next {d : Dev} {w : Nat} {k : BitVec 256} (h : Tab.find d.keys (2 * w + 1) = some k) :
    d.promote w = { d with keys := Tab.erase (Tab.insert d.keys (2 * w) k) (2 * w + 1) } := by
  rw [Dev.promote, h]

theorem Dev.promote_none {d : Dev} {w : Nat} (h : Tab.find d.keys (2 * w + 1) = none) : d.promote w = d := by rw [Dev.promote, h]

section
variable {s : State} {world port : Nat}

/-- Whether a port may promote a world's key: no flit under the old one awaits acknowledgement, and no sweep is under way. -/
def Dev.mayPromote (d : Dev) (world port : Nat) : Prop := port < d.linkCount ∧ d.oldFlits world = false ∧ d.sweeping world = false

theorem Dev.mayPromote_iff (d : Dev) : d.mayPromote world port ↔
    port < d.linkCount ∧ (!d.oldFlits world) = true ∧ (!d.sweeping world) = true := by simp [Dev.mayPromote]

theorem keyPromote_notDue (h : ¬ s.dev.mayPromote world port) : NotDue s (.keyPromote world port) :=
  congrArg Host.Outcome.next (if_neg (s.dev.mayPromote_iff.not.1 h))

theorem keyPromote_due (h : s.dev.mayPromote world port) : Makes s (.keyPromote world port) (s.dev.promote world) :=
  congrArg Host.Outcome.next (if_pos (s.dev.mayPromote_iff.1 h))

/-- Whether a world's lines are swept: it has a next key, and the port is the device's one CXL port. -/
def Dev.swept (d : Dev) (world port : Nat) : Prop := Tab.find d.keys (2 * world + 1) ≠ none ∧ world < 256 ∧ port = 0

theorem Dev.not_swept_iff (d : Dev) : ¬ d.swept world port ↔ (Tab.find d.keys (2 * world + 1)).isNone = true ∨ 256 ≤ world ∨ port ≠ 0 := by
  simp only [Dev.swept, not_and_or, Option.isNone_iff_eq_none, Nat.not_lt, not_not, ne_eq]

theorem reencryptionSweep_notSwept (h : ¬ s.dev.swept world port) : NotDue s (.reencryptionSweep world port) := if_pos (s.dev.not_swept_iff.1 h)

section
variable (h : s.dev.swept world port)
include h

theorem execReencryptionSweep_last (hl : Config.cxlLines world port ≤ Tab.get 0 s.dev.sweeps (256 * port + world)) :
    exec (.reencryptionSweep world port) s = if s.dev.oldFlits world = true then .next s
      else .next { s with dev := ({ s.dev with sweeps := Tab.erase s.dev.sweeps (256 * port + world) } : Dev).promote world } :=
  (if_neg (s.dev.not_swept_iff.not.1 (not_not_intro h))).trans (if_pos hl)

theorem execReencryptionSweep_line {line : Nat} (hline : Tab.get 0 s.dev.sweeps (256 * port + world) = line) (hl : ¬ Config.cxlLines world port ≤ line) :
    exec (.reencryptionSweep world port) s = if (!s.dev.budgetLeft 1 port 128) = true then .next s
      else .next { s with dev := (({ s.dev with sweeps := Tab.insert s.dev.sweeps (256 * port + world) (line + 1) } : Dev).countWrites
        { sp := .cxl, own := 0, a := 128 * line } 128).spend 1 port 128 } := by
  subst hline
  exact (if_neg (s.dev.not_swept_iff.not.1 (not_not_intro h))).trans (if_neg hl)

end

end

/-! ## The statement -/

/-- Settles O51, step by step: a step of a session by its state and its port, a promotion and a sweep by what they wait for. -/
theorem sessionSteps : Obligations.SessionSteps := by
  intro s n slot world port key nonce e m
  refine ⟨⟨keyExchange_notDue key rfl, fun hok => ?_⟩, fun h => notDue_of_no_session h e m, fun x hx => ?_,
    ⟨keyPromote_notDue, fun k hdue hk => ?_, fun hdue hk => ?_⟩,
    ⟨reencryptionSweep_notSwept, fun hs hl hold => ?_, fun hs hl hold => ?_, fun hs hl hb => ?_, fun hs hl hb => ?_⟩, rfl⟩
  · obtain ⟨rest, hexec⟩ := execKeyExchange_due key rfl hok
    exact ⟨_, hexec, rfl, (Tab.find_insert ..).trans (if_pos rfl)⟩
  · refine ⟨finish_noKey hx, finish_world hx, fun p hk hp hst => finish_link hx hk hp hst, fun p hk hp hst => finish_running hx hk hp hst,
      endSession_makes hx, fun hst => ?_, fun hst => ?_, ⟨start_notDue hx, fun hok hp => start_world hx hok hp, fun p hok hp => start_link hx hok hp⟩,
      stop_notDue hx, fun hst => ?_, fun hst => ⟨sessionConfigWrite_world hx hst, fun p hp => sessionConfigWrite_link hx hst hp⟩,
      fun hl hr => sessionConfigWrite_notDue hx (not_or.2 ⟨hl, hr⟩), fun hst => ?_, fun hst => ?_,
      ⟨heartbeatSend_notDue hx, fun hdue hp => ?_, fun hdue hp => ?_⟩, ⟨heartbeatTimeout_due hx, heartbeatTimeout_notDue hx⟩⟩
    · exact makes_of_eq (lock_makes hx) (by rw [if_pos hst]; rfl)
    · exact makes_of_eq (lock_makes hx) (by rw [if_neg hst]; rfl)
    · refine makes_of_eq (stop_due hx hst) ?_
      rw [Dev.unlock]
      cases x.port <;> rfl
    · exact makes_of_eq (heartbeat_makes hx) (by rw [if_pos hst]; rfl)
    · exact makes_of_eq (heartbeat_makes hx) (by rw [if_neg hst]; rfl)
    · exact makes_of_eq (heartbeatSend_due hx hdue) (if_pos hp)
    · exact makes_of_eq (heartbeatSend_due hx hdue) (if_neg hp)
  · exact makes_of_eq (keyPromote_due hdue) (Dev.promote_next hk)
  · have hexec := keyPromote_due hdue
    rwa [Dev.promote_none hk] at hexec
  · exact (execReencryptionSweep_last hs hl).trans (if_pos hold)
  · exact (execReencryptionSweep_last hs hl).trans (if_neg (ne_true_of_eq_false hold))
  · exact (execReencryptionSweep_line hs rfl hl).trans (if_pos (by rw [hb]; rfl))
  · exact (execReencryptionSweep_line hs rfl hl).trans (if_neg (by rw [hb]; decide))

end Sys2Proof.Machine
end

section
/-! SUPPORT. Links (R294 to R300, R388, R392): flits sent and received, replays, lanes and secrets. -/

namespace Sys2Proof.Machine

open Sys2Proof.Claims

/-- The device with a link's state put in its place. -/
def Dev.putLink (d : Dev) (l : Nat) (x : Link) : Dev := { d with links := Tab.insert d.links l x }

/-! ## FLIT_TRANSMIT and FILLER (R293, R296, R300) -/

/-- The message at the head of a channel: the one begun, else the first that waits. -/
def Link.head (k : Link) (vc : Nat) : Option Msg := ((Tab.find k.started vc).map Prod.fst).or (Tab.get [] k.queued vc).head?

/-- What a flit takes of a channel's messages when its head is `m`. -/
def Dev.gathered (d : Dev) (l vc : Nat) (m : Msg) : List Byte × List Msg × Option (Msg × List Byte) × List Msg :=
  gatherFlit (d.compresses l) m.peer m.world 64 [] [] (Tab.find (d.link l).started vc) (Tab.get [] (d.link l).queued vc)

/-- A link whose channel holds the message begun and the messages that a flit left. -/
def Link.leave (k : Link) (vc : Nat) (started : Option (Msg × List Byte)) (queued : List Msg) : Link :=
  { k with
    queued := Tab.insert k.queued vc queued
    started := match started with
      | some x => Tab.insert k.started vc x
      | none => Tab.erase k.started vc }

/-- The device after a flit took its messages from a channel. -/
def Dev.took (d : Dev) (l vc : Nat) (m : Msg) : Dev :=
  d.modLink l (fun k => k.leave vc (d.gathered l vc m).2.2.1 (d.gathered l vc m).2.2.2)

theorem execFlitTransmit_eq (s : State) (l vc : Nat) : execFlitTransmit l vc s =
    match (s.dev.link l).head vc with
    | none => .next s
    | some m =>
      let r := s.dev.gathered l vc m
      if 1536 ≤ m.peer then .next { s with dev := (s.dev.took l vc m).modLink l (fun x => { x with proto := min (x.proto + 1) 255 }) }
      else if s.dev.drops m.peer m.world then .next { s with dev := s.dev.took l vc m }
      else if !s.dev.maySend l vc || !s.dev.passes l vc m.peer m.world then .next s
      else .next { s with dev := (s.dev.took l vc m).emit l vc m.peer m.world (compressedIn (s.dev.compresses l) r.2.1 r.2.2.1) (fillUp r.1) r.2.1 } :=
  rfl

theorem flitTransmit_noHead {s : State} {l vc : Nat} (h : (s.dev.link l).head vc = none) : NotDue s (.flitTransmit l vc) := by
  rw [NotDue, exec_flitTransmit, execFlitTransmit_eq, h]

section
variable {s : State} {l vc : Nat} {m : Msg} (hm : (s.dev.link l).head vc = some m)
include hm

theorem flitTransmit_reservedPeer (hp : 1536 ≤ m.peer) :
    Makes s (.flitTransmit l vc) ((s.dev.took l vc m).modLink l (fun x => { x with proto := min (x.proto + 1) 255 })) := by
  rw [Makes, exec_flitTransmit, execFlitTransmit_eq, hm]
  exact if_pos hp

variable (hp : m.peer < 1536)
include hp

theorem flitTransmit_dropped (hd : s.dev.drops m.peer m.world = true) : Makes s (.flitTransmit l vc) (s.dev.took l vc m) := by
  rw [Makes, exec_flitTransmit, execFlitTransmit_eq, hm]
  exact (if_neg (Nat.not_le.2 hp)).trans (if_pos hd)

variable (hd : s.dev.drops m.peer m.world = false)
include hd

theorem flitTransmit_notDue (h : s.dev.maySend l vc = false ∨ s.dev.passes l vc m.peer m.world = false) : NotDue s (.flitTransmit l vc) := by
  rw [NotDue, exec_flitTransmit, execFlitTransmit_eq, hm]
  exact (if_neg (Nat.not_le.2 hp)).trans ((if_neg (Bool.not_eq_true _ ▸ hd)).trans (if_pos (by simpa using h)))

theorem flitTransmit_emits (hs : s.dev.maySend l vc = true) (ht : s.dev.passes l vc m.peer m.world = true) :
    Makes s (.flitTransmit l vc) ((s.dev.took l vc m).emit l vc m.peer m.world
      (compressedIn (s.dev.compresses l) (s.dev.gathered l vc m).2.1 (s.dev.gathered l vc m).2.2.1)
      (fillUp (s.dev.gathered l vc m).1) (s.dev.gathered l vc m).2.1) := by
  rw [Makes, exec_flitTransmit, execFlitTransmit_eq, hm]
  exact (if_neg (Nat.not_le.2 hp)).trans ((if_neg (Bool.not_eq_true _ ▸ hd)).trans (if_neg (by simp [hs, ht])))

end

theorem flitCrcOk_sealFlit (f : Flit) (key : BitVec 256) (iv : BitVec 96) : flitCrcOk (sealFlit f key iv) = true := decide_eq_true rfl

/-- The flit that a link sends next with a payload (R294, R304). -/
def Dev.nextFlit (d : Dev) (l vc peer world : Nat) (cmp : Bool) (p : List Byte) : Flit :=
  let ks := (Tab.find d.keys (2 * world + 1)).isSome
  let key := d.flitKey l world ks d.peerId peer
  let iv := flitIv (d.link l).sendCtr d.peerId l peer
  sealFlit
    { vc := vc, world := world, ks := ks, cmp := cmp, src := d.peerId, dst := peer, ack := ((d.link l).recvCtr + 4095) % 4096
      seq := (d.link l).sendCtr % 65536, payload := cipher key iv p, gcmTag := 0, crc := 0 } key iv

/-- A link that has sent a flit on a channel, with the messages it carries. -/
def Link.sentFlit (k : Link) (now vc : Nat) (g : Flit) (car : List Msg) : Link :=
  { k with
    sendCtr := k.sendCtr + 1
    credits := Tab.insert k.credits vc (Tab.get 0 k.credits vc - 1)
    unacked := k.unacked ++ [(g, car)]
    acked := if k.unacked = [] then now else k.acked
    wire := k.wire ++ [(g, k.stripe (flitBytes g))]
    sent := k.sent + ((k.stripe (flitBytes g)).map (fun x => x.2.length)).foldl max 0 }

theorem Dev.emit_eq (d : Dev) (l vc peer world : Nat) (cmp : Bool) (p : List Byte) (car : List Msg) :
    d.emit l vc peer world cmp p car = d.putLink l ((d.link l).sentFlit d.time vc (d.nextFlit l vc peer world cmp p) car) := by
  simp only [Link.sentFlit, ← List.isEmpty_iff]
  rfl

theorem Dev.emit_sends (d : Dev) (l vc peer world : Nat) (cmp : Bool) (p : List Byte) (car : List Msg) :
    ∃ g, d.emit l vc peer world cmp p car = d.putLink l ((d.link l).sentFlit d.time vc g car)
      ∧ g.vc = vc ∧ g.world = world ∧ g.cmp = cmp ∧ g.seq = (d.link l).sendCtr % 65536 ∧ g.ack = ((d.link l).recvCtr + 4095) % 4096
      ∧ g.src = d.peerId ∧ g.dst = peer ∧ g.zero = 0 ∧ flitCrcOk g = true :=
  ⟨d.nextFlit l vc peer world cmp p, d.emit_eq l vc peer world cmp p car, rfl, rfl, rfl, rfl, rfl, rfl, rfl, rfl, flitCrcOk_sealFlit _ _ _⟩

theorem filler_makes {s : State} {l : Nat} (hi : (s.dev.link l).idle = true) (hs : s.dev.maySend l 3 = true) :
    Makes s (.filler l) (s.dev.emit l 3 (s.dev.farPeer l) 0 false (fillUp []) []) := by
  simp only [Makes, exec_filler, execFiller, hi, hs]
  rfl

theorem filler_notDue {s : State} {l : Nat} (h : (s.dev.link l).idle = false ∨ s.dev.maySend l 3 = false) : NotDue s (.filler l) := by
  rw [NotDue, exec_filler, execFiller, if_neg (by simpa [or_iff_not_imp_left] using h)]

/-! ## FLIT_RECEIVE (R294, R297, R390) -/

section
variable {s : State} {l : Nat} {f : Flit}

theorem flitReceive_linkDown (h : ¬ ((s.dev.link l).st = 2 ∨ (s.dev.link l).st = 3)) : NotDue s (.flitReceive l f) :=
  if_pos (not_or.1 h)

variable (hup : (s.dev.link l).st = 2 ∨ (s.dev.link l).st = 3)
include hup

theorem flitReceive_badCrc (h : flitCrcOk f = false) : Makes s (.flitReceive l f) (s.dev.discardFlit l) :=
  (if_neg (not_and_or.2 (hup.imp not_not_intro not_not_intro))).trans (if_pos (by simp [h]))

variable (hcrc : flitCrcOk f = true)
include hcrc

theorem flitReceive_outOfOrder (h : f.seq ≠ (s.dev.link l).recvCtr % 65536) : NotDue s (.flitReceive l f) :=
  (if_neg (not_and_or.2 (hup.imp not_not_intro not_not_intro))).trans ((if_neg (by simp [hcrc])).trans (if_pos h))

variable (hseq : f.seq = (s.dev.link l).recvCtr % 65536)
include hseq

theorem flitReceive_inOrder : exec (.flitReceive l f) s =
    (let key := s.dev.flitKey l f.world f.ks f.src s.dev.peerId
     let iv := flitIv (s.dev.link l).recvCtr f.src l s.dev.peerId
     if f.gcmTag ≠ Config.gcmTag key iv (flitHeader f ++ f.payload) then
       .next { s with dev := match s.dev.worldSession f.src f.world with
         | some n => if n.2.st = .run then (s.dev.discardFlit l).errorSession n.1 else s.dev.discardFlit l
         | none => s.dev.discardFlit l }
     else
       let left := dropAcked f.ack (s.dev.link l).unacked
       let d1 := s.dev.modLink l (fun k => { k with
         recvCtr := k.recvCtr + 1
         unacked := left
         acked := if left.length < k.unacked.length then s.dev.time else k.acked })
       .next { s with dev := if s.dev.passes l f.vc f.src f.world then d1.readFlit l f (cipher key iv f.payload)
         else d1.modLink l (fun k => k.take f.vc) }) :=
  (if_neg (not_and_or.2 (hup.imp not_not_intro not_not_intro))).trans ((if_neg (by simp [hcrc])).trans (if_neg (not_not_intro hseq)))

end

/-- Whether a flit's tag is the one its link expects next (R304). -/
def Dev.tagHolds (d : Dev) (l : Nat) (f : Flit) : Prop :=
  f.gcmTag = Config.gcmTag (d.flitKey l f.world f.ks f.src d.peerId) (flitIv (d.link l).recvCtr f.src l d.peerId) (flitHeader f ++ f.payload)

/-- The device after a link accepted a flit, before it reads it. -/
def Dev.accepted (d : Dev) (l : Nat) (f : Flit) : Dev :=
  d.modLink l (fun k => { k with
    recvCtr := k.recvCtr + 1
    unacked := dropAcked f.ack (d.link l).unacked
    acked := if (dropAcked f.ack (d.link l).unacked).length < k.unacked.length then d.time else k.acked })

section
variable {s : State} {l : Nat} {f : Flit} (hup : (s.dev.link l).st = 2 ∨ (s.dev.link l).st = 3) (hcrc : flitCrcOk f = true)
  (hseq : f.seq = (s.dev.link l).recvCtr % 65536)
include hup hcrc hseq

theorem flitReceive_badTag_notRunning (hbad : ¬ s.dev.tagHolds l f) (h : ∀ x, s.dev.worldSession f.src f.world = some x → x.2.st ≠ .run) :
    Makes s (.flitReceive l f) (s.dev.discardFlit l) := by
  refine (flitReceive_inOrder hup hcrc hseq).trans ((if_pos hbad).trans ?_)
  cases hx : s.dev.worldSession f.src f.world with
  | none => rfl
  | some x => simp only [if_neg (h x hx)]

theorem flitReceive_badTag_running {x : Nat × Session} (hbad : ¬ s.dev.tagHolds l f) (hx : s.dev.worldSession f.src f.world = some x)
    (h : x.2.st = .run) : Makes s (.flitReceive l f) ((s.dev.discardFlit l).errorSession x.1) := by
  refine (flitReceive_inOrder hup hcrc hseq).trans ((if_pos hbad).trans ?_)
  simp only [hx, if_pos h]

variable (hgood : s.dev.tagHolds l f)
include hgood

theorem flitReceive_notCarried (h : s.dev.passes l f.vc f.src f.world = false) :
    Makes s (.flitReceive l f) ((s.dev.accepted l f).modLink l (fun x => x.take f.vc)) := by
  refine (flitReceive_inOrder hup hcrc hseq).trans ((if_neg (not_not_intro hgood)).trans ?_)
  simp only [h, Bool.false_eq_true, if_false]
  rfl

theorem flitReceive_read (h : s.dev.passes l f.vc f.src f.world = true) :
    Makes s (.flitReceive l f) ((s.dev.accepted l f).readFlit l f
      (cipher (s.dev.flitKey l f.world f.ks f.src s.dev.peerId) (flitIv (s.dev.link l).recvCtr f.src l s.dev.peerId) f.payload)) := by
  refine (flitReceive_inOrder hup hcrc hseq).trans ((if_neg (not_not_intro hgood)).trans ?_)
  simp only [h, if_true]
  rfl

end

/-! ## Replays (R297, R298) -/

/-- Flits put on the wire one after another go behind what it carries, and nothing else of the link but its byte times changes. -/
theorem Link.foldl_onWire (l : List (Flit × List Msg)) : ∀ k : Link, ∃ z, k.sent ≤ z ∧
    l.foldl (fun (x : Link) u => x.onWire u.1) k = { k with wire := k.wire ++ l.map (fun u => (u.1, k.stripe (flitBytes u.1))), sent := z } := by
  induction l with
  | nil => exact fun k => ⟨k.sent, Nat.le_refl _, by simp⟩
  | cons u l ih =>
    intro k
    obtain ⟨z, hz, h⟩ := ih (k.onWire u.1)
    refine ⟨z, Nat.le_trans (Nat.le_add_right _ _) hz, h.trans ?_⟩
    rw [List.map_cons, List.append_cons]
    rfl

/-- A link whose unacknowledged flits are on the wire again, when its lanes have sent for so many byte times. -/
def Link.replayed (k : Link) (z : Nat) : Link :=
  { k with wire := k.wire ++ k.unacked.map (fun u => (u.1, k.stripe (flitBytes u.1))), sent := z }

theorem Link.replay_eq (k : Link) : ∃ z, k.sent ≤ z ∧ k.replay = k.replayed z := Link.foldl_onWire k.unacked k

/-- A step that replays a link's unacknowledged flits (R297). -/
theorem replays_of_exec {s : State} {i : Instr} {l : Nat} {x : Link} {f : Dev → Dev}
    (h : exec i s = .next { s with dev := f (s.dev.putLink l x.replay) }) : ∃ z, x.sent ≤ z ∧ Makes s i (f (s.dev.putLink l (x.replayed z))) := by
  obtain ⟨z, hz, hr⟩ := x.replay_eq
  exact ⟨z, hz, hr ▸ h⟩

section
variable {s : State} {l : Nat}

theorem execRetryReplayTimeout_due (h : s.dev.replayDue l = true) : exec (.retryReplayTimeout l) s =
    .next { s with dev := s.dev.putLink l ({ s.dev.link l with acked := s.dev.time } : Link).replay } := by
  rw [exec_retryReplayTimeout, execRetryReplayTimeout, if_pos h]
  rfl

theorem retryReplayTimeout_notDue (h : s.dev.replayDue l = false) : NotDue s (.retryReplayTimeout l) := by
  rw [NotDue, exec_retryReplayTimeout, execRetryReplayTimeout, if_neg (by simp [h])]

theorem laneLockLoss_makes {lane : Nat} (h : (s.dev.link l).lanes.getLsbD lane = true ∧ ((s.dev.link l).st = 2 ∨ (s.dev.link l).st = 3)) :
    Makes s (.laneLockLoss l lane) (s.dev.retrain l ((s.dev.link l).lanes &&& ~~~(BitVec.ofNat 16 (2 ^ lane)))) := by
  obtain ⟨hlane, hst⟩ := h
  exact if_neg (not_or.2 ⟨by simp [hlane], not_and_or.2 (hst.imp not_not_intro not_not_intro)⟩)

theorem laneLockLoss_notDue {lane : Nat} (h : ¬ ((s.dev.link l).lanes.getLsbD lane = true ∧ ((s.dev.link l).st = 2 ∨ (s.dev.link l).st = 3))) :
    NotDue s (.laneLockLoss l lane) :=
  if_pos ((not_and_or.1 h).imp (by simp) not_or.1)

theorem correctedSymbolThreshold_makes {lane n : Nat}
    (h : (s.dev.link l).lanes.getLsbD lane = true ∧ (s.dev.link l).st = 2 ∧ s.dev.param 5 < n) :
    Makes s (.correctedSymbolThreshold l lane n) (s.dev.retrain l (s.dev.link l).lanes) := by
  obtain ⟨hlane, hst, hrate⟩ := h
  exact if_neg (not_or.2 ⟨by simp [hlane], not_or.2 ⟨not_not_intro hst, Nat.not_le.2 hrate⟩⟩)

theorem correctedSymbolThreshold_notDue {lane n : Nat}
    (h : ¬ ((s.dev.link l).lanes.getLsbD lane = true ∧ (s.dev.link l).st = 2 ∧ s.dev.param 5 < n)) :
    NotDue s (.correctedSymbolThreshold l lane n) :=
  if_pos ((not_and_or.1 h).imp (by simp) (fun h => (not_and_or.1 h).imp_right Nat.not_lt.1))

/-- The lanes that a link runs on after its training step (R298, R363). -/
def Dev.trainedLanes (d : Dev) (l : Nat) (trained : BitVec 16) : BitVec 16 :=
  d.keepLanes (trained &&& (if (d.link l).st = 1 then d.goodLanes l else (d.link l).lanes))

theorem retrainStepComplete_notDue {trained : BitVec 16} (h : ¬ ((s.dev.link l).st = 1 ∨ (s.dev.link l).st = 3)) :
    NotDue s (.retrainStepComplete l trained) :=
  if_pos (not_or.1 h)

section
variable {trained : BitVec 16} (hst : (s.dev.link l).st = 1 ∨ (s.dev.link l).st = 3)
include hst

theorem retrainStepComplete_noLanes (h : s.dev.trainedLanes l trained = 0) : Makes s (.retrainStepComplete l trained) (s.dev.linkDown l) :=
  (if_neg (not_and_or.2 (hst.imp not_not_intro not_not_intro))).trans (if_pos h)

theorem execRetrainStepComplete_lanes (h : s.dev.trainedLanes l trained ≠ 0) : exec (.retrainStepComplete l trained) s =
    .next { s with dev := (s.dev.putLink l
      ({ s.dev.link l with st := 2, lanes := s.dev.trainedLanes l trained, acked := s.dev.time } : Link).replay).flushStranded } :=
  (if_neg (not_and_or.2 (hst.imp not_not_intro not_not_intro))).trans (if_neg h)

end

/-! ## Counters and secrets (R392) -/

theorem flitCounterExhaustion_makes : Makes s (.flitCounterExhaustion l) (s.dev.putLink l
    (if 2 ^ 48 - 2 ≤ (s.dev.link l).sendCtr ∧ (s.dev.link l).exhausted = none then { s.dev.link l with exhausted := some s.dev.time }
      else s.dev.link l)) := by
  simp only [Makes, exec_flitCounterExhaustion, execFlitCounterExhaustion, Option.isNone_iff_eq_none]
  rfl

theorem linkSecretTimeout_notExhausted (h : (s.dev.link l).exhausted = none) : NotDue s (.linkSecretTimeout l) := by
  simp only [NotDue, exec_linkSecretTimeout, execLinkSecretTimeout, h]

theorem linkSecretTimeout_early {z : Nat} (h : (s.dev.link l).exhausted = some z) (hz : s.dev.time < z + micros 100000) :
    NotDue s (.linkSecretTimeout l) := by
  simp only [NotDue, exec_linkSecretTimeout, execLinkSecretTimeout, h]
  exact if_pos hz

/-- Whether a message belongs to one of the requests that a link's end loses. -/
def Dev.losesMsg (d : Dev) (l : Nat) (m : Msg) : Bool :=
  decide (m.kind ≤ 2 ∧ ∃ r ∈ d.unackedRequests l, m.tag = r.1 % 65536 ∧ m.peer = r.2.peer)

theorem Dev.losesMsg_eq (d : Dev) (l : Nat) (m : Msg) :
    (decide (m.kind ≤ 2) && ((d.unackedRequests l).map (fun r => (r.1 % 65536, r.2.peer))).contains (m.tag, m.peer)) = d.losesMsg l m := by
  rw [losesMsg, Bool.decide_and]
  congr 1
  rw [Bool.eq_iff_iff]
  simp [eq_comm]

/-- The device whose sessions on a link's ports are in error. -/
def Dev.tornPorts (d : Dev) (l : Nat) : Dev :=
  { d with sessions := Tab.mapV d.sessions (fun _ x => if x.port.any (fun p => (d.portsOf l).contains p) then { x with st := .error } else x) }

theorem Dev.tornPorts_eq (d : Dev) (l : Nat) :
    d.tornPorts l = { d with sessions := Tab.mapV d.sessions (fun _ x => match x.port with
      | some p => if (d.portsOf l).contains p then { x with st := .error } else x
      | none => x) } := by
  have h (x : Session) : (if x.port.any (fun p => (d.portsOf l).contains p) then { x with st := .error } else x) =
      (match x.port with
        | some p => if (d.portsOf l).contains p then { x with st := .error } else x
        | none => x) := by
    cases x.port <;> rfl
  simp only [tornPorts, h]

theorem linkSecretTimeout_due {z : Nat} (h : (s.dev.link l).exhausted = some z) (hz : z + micros 100000 ≤ s.dev.time) :
    Makes s (.linkSecretTimeout l) (((s.dev.unackedRequests l).foldl
      (fun (d : Dev) (r : Nat × Request) => (d.dropRequest r.1).failOp r.2.op
        (((d.op? r.2.op).map (fun o => (o.parts.getD r.2.part default).addr)).getD 0) (mkTicket 5 r.2.peer 0))
      ((s.dev.tornPorts l).modLink l (fun k => { k with
        unacked := k.unacked.map (fun (u : Flit × List Msg) => (u.1, u.2.filter (fun m => !s.dev.losesMsg l m)))
        started := k.started.filter (fun x => !s.dev.losesMsg l x.2.1) }))).linkDown l) := by
  simp only [Makes, exec_linkSecretTimeout, execLinkSecretTimeout, h, Dev.losesMsg_eq, Dev.tornPorts_eq]
  exact if_neg (Nat.not_lt.2 hz)

end

/-! ## The statement -/

/-- Settles O50: each step by its cases; a replay by induction over the unacknowledged flits. -/
theorem Dev.linkSteps : Obligations.LinkSteps := by
  intro s l vc n lane f trained secret
  refine ⟨flitTransmit_noHead, fun m hm => ⟨flitTransmit_reservedPeer hm, flitTransmit_dropped hm, fun hp hd =>
      ⟨flitTransmit_notDue hm hp hd, flitTransmit_emits hm hp hd⟩⟩, s.dev.emit_sends l vc, filler_makes, filler_notDue, rfl,
    flitCounterExhaustion_makes, ⟨flitReceive_linkDown, flitReceive_badCrc, flitReceive_outOfOrder, fun hup hcrc hseq =>
      ⟨flitReceive_badTag_notRunning hup hcrc hseq, fun _ => flitReceive_badTag_running hup hcrc hseq,
        flitReceive_notCarried hup hcrc hseq, flitReceive_read hup hcrc hseq⟩⟩,
    fun h => replays_of_exec (f := id) (execRetryReplayTimeout_due h), retryReplayTimeout_notDue,
    ⟨laneLockLoss_makes, laneLockLoss_notDue, correctedSymbolThreshold_makes, correctedSymbolThreshold_notDue⟩,
    ⟨retrainStepComplete_notDue, retrainStepComplete_noLanes, fun hst h => replays_of_exec (execRetrainStepComplete_lanes hst h)⟩,
    rfl, linkSecretTimeout_notExhausted, fun _ => linkSecretTimeout_early, fun _ => linkSecretTimeout_due⟩

end Sys2Proof.Machine
end
